-- ==== Sys2Proof/Word.lean ====
section
/-! DEFINITION. The word types of the block and the sparse table every keyed collection of the state is. -/

namespace Sys2Proof

/-- One byte (R5: the unit of every address of the spec). -/
abbrev Byte := BitVec 8

/-- A sparse table keyed by a natural number, keys rising; a key without a row reads as a default. -/
structure Tbl (α : Type) where
  rows : List (Nat × α)
  deriving DecidableEq, Repr

/-- The table without rows. -/
def Tbl.empty {α : Type} : Tbl α := ⟨[]⟩

/-- The row of `k`, if there is one. -/
def Tbl.findIn {α : Type} : List (Nat × α) → Nat → Option α
  | [], _ => none
  | (k, v) :: r, j => if k = j then some v else findIn r j

/-- The rows with `k` now reading `v`. -/
def Tbl.setIn {α : Type} : List (Nat × α) → Nat → α → List (Nat × α)
  | [], j, w => [(j, w)]
  | (k, v) :: r, j, w => if k = j then (j, w) :: r else if j < k then (j, w) :: (k, v) :: r else (k, v) :: setIn r j w

def Tbl.find {α : Type} (t : Tbl α) (k : Nat) : Option α := findIn t.rows k
def Tbl.get {α : Type} (t : Tbl α) (d : α) (k : Nat) : α := (t.find k).getD d
def Tbl.set {α : Type} (t : Tbl α) (k : Nat) (v : α) : Tbl α := ⟨setIn t.rows k v⟩
def Tbl.erase {α : Type} (t : Tbl α) (k : Nat) : Tbl α := ⟨t.rows.filter (fun r => r.1 != k)⟩
def Tbl.keys {α : Type} (t : Tbl α) : List Nat := t.rows.map (·.1)
def Tbl.modify {α : Type} (t : Tbl α) (d : α) (k : Nat) (f : α → α) : Tbl α := t.set k (f (t.get d k))

end Sys2Proof
end

