-- ==== Sys2Proof/Syntax/Inputs.lean ====
section
/-! DEFINITION. The data that commands carry: frames, packets, measurements and detections that reach the block from outside. -/

namespace Sys2Proof

/-- A gPTP event message received at a port (R43, R44, Table TIM-2): type 0 Sync, 2 Pdelay_Req, 3 Pdelay_Resp. -/
structure GptpEvent where
  msgType : Fin 4
  seqId : BitVec 16
  twoStep : Bool
  /-- originTimestamp of a one-step Sync in ns; for Pdelay_Resp the request receipt time. -/
  originNs : Nat
  /-- correctionField in scaled ns (2⁻¹⁶ ns). -/
  correction : Int
  /-- logMessageInterval: of a Sync, the base-2 logarithm of the Sync interval in seconds. -/
  logInterval : Int
  deriving DecidableEq, Repr

/-- A gPTP general message (Table TIM-2): type 8 Follow_Up, 10 Pdelay_Resp_Follow_Up, 11 Announce, 12 Signaling. -/
structure GptpGeneral where
  msgType : Fin 16
  seqId : BitVec 16
  originNs : Nat
  correction : Int
  /-- Announce: the grandmaster's priority vector as one number, lower is better. -/
  priority : Nat
  deriving DecidableEq, Repr

/-- One reference update of the servo (text after R34, R35): the offset in ns as a fraction `oNum / oDen`, the rate
error `r` as a fraction, the update interval in ns, and whether the update comes from 1PPS. -/
structure ServoMeas where
  oNum : Int
  oDen : Nat
  rNum : Int
  rDen : Nat
  updNs : Nat
  pps : Bool
  deriving DecidableEq, Repr

/-- A CSI-2 packet at a camera port (R64 to R94). `cutAt` is the number of payload bytes received when the packet is
still open at the end of the command. -/
structure Csi2Packet where
  vc : Fin 4
  dataType : BitVec 6
  /-- Whether the packet header has an error that its ECC cannot correct. -/
  headerBad : Bool
  crcBad : Bool
  /-- A short packet's four header bytes, or a long packet's payload. -/
  payload : List Byte
  cutAt : Option Nat
  deriving DecidableEq, Repr

/-- An Ethernet frame at a lidar or auxiliary port: the bytes from the destination address to the end of the payload. -/
structure EthFrame where
  bytes : List Byte
  fcsBad : Bool
  cutAt : Option Nat
  deriving DecidableEq, Repr

/-- A CAN or CAN FD frame. -/
structure CanFrame where
  ident : BitVec 29
  ide : Bool
  fdf : Bool
  brs : Bool
  esi : Bool
  bytes : List Byte
  crcBad : Bool
  deriving DecidableEq, Repr

/-- One sample burst of an SPI port or of the on-module IMU; an SPI identity read is its own form (R71). -/
structure Burst where
  bytes : List Byte
  /-- The 8 identity bytes when the burst answers the identity read command. -/
  identity : Option (BitVec 64)
  deriving DecidableEq, Repr

/-- What the detection codes report about one memory read of a transfer: how often the read fails its code in a row,
at which offset of the data read, and whether the failed state is control state. -/
structure ReadFault where
  /-- Number of consecutive failing reads: 0 none, 1 the second read passes, 2 or more it fails too (R444). -/
  fails : Nat
  ofs : Nat
  deriving DecidableEq, Repr

/-- One stretch of a transfer: what the detection codes report about its reads, and the byte up to which it goes; none is to its
end (log entry 113). -/
structure Stretch where
  det : ReadFault
  upTo : Option Nat
  deriving DecidableEq, Repr

/-- A ring operation that goes on: its job, and what the detection codes report about a read of its data. -/
structure CollRun where
  job : Nat
  det : ReadFault
  deriving DecidableEq, Repr

/-- The case temperature that a DDR4 device of a channel reports, in 0.1 °C (R305). -/
structure CaseReport where
  device : Fin 5
  temp : Int
  deriving DecidableEq, Repr

/-- What parity reports about one array command's reads (R198): nothing, or a failing read of the named source. -/
structure ArrUpset where
  /-- 0 none, otherwise the cause of Table PLT-11: 1 array buffer, 2 weight register, 3 accumulator. -/
  kind : Fin 4
  stripe : Fin 8
  deriving DecidableEq, Repr

/-- A detection that a Stipple run meets (R162, R444): a parity error in Stipple memory, or a CRC-64 error in a DDR4 read of its own at a
physical address, with or without a second read that passes. -/
inductive StpDet
  | none
  | parity
  | burst (pa : Nat) (passed : Bool)
  deriving DecidableEq, Repr

/-- What the detection codes report during a burnisher step: none, structure or values (class 2), slot or workspace (class 3). -/
inductive BrnDet
  | none
  | source
  | work
  deriving DecidableEq, Repr

/-- The environment of one solve: the detection met, if any; the number of iterates complete when the deadline falls, if it
falls within the solve; and the boundary at which the solve stops before its end, if it does: so many rows of the
preconditioner built, or the iterate named complete (R298). -/
structure SolveEnv where
  det : BrnDet
  stopAt : Option Nat
  rows : Option Nat
  upTo : Option Nat
  deriving DecidableEq, Repr

/-- One millisecond of an ego-motion source in the vehicle frame: v in 2⁻¹⁶ × 0.1 mm per ms, w in Q2.29 rad per ms. -/
structure EgoVec where
  v : Int × Int × Int
  w : Int × Int × Int
  deriving DecidableEq, Repr

/-- What H3 obtains for the epoch, per millisecond of the track, from the integration of the inertial samples and from
scan matching; `none` where the source has nothing (text after R106). -/
structure EgoEnv where
  imu : List (Option EgoVec)
  scan : List (Option EgoVec)
  deriving DecidableEq, Repr

/-- A host frame of the device's EtherType at a host port: the bytes after the Ethernet header and any 802.1Q tag, up to
the frame check sequence. -/
structure HostFrame where
  dst : BitVec 48
  src : BitVec 48
  /-- The MACsec association under which the frame is valid; none = not protected (R377, R565). -/
  secured : Option Nat
  tagged : Bool
  bytes : List Byte
  deriving DecidableEq, Repr

/-- A REG_READ: its frame, the queues whose word read fails its code, and those whose pointers were upset (R84, R86). -/
structure ReadRequest where
  frame : HostFrame
  bad : List Nat
  upset : List Nat
  deriving DecidableEq, Repr

/-- A ring flit as received: its 144 bytes of header, payload and check (Table RNG-1). -/
structure Flit where
  bytes : List Byte
  deriving DecidableEq, Repr

/-- Why a ring lane retrains (R418, R420). -/
inductive LaneCause
  | errors
  | lost
  | trained
  deriving DecidableEq, Repr

/-- A frame offered on an egress path (R489). -/
structure EgressFrame where
  bytes : List Byte
  ident : BitVec 32
  deriving DecidableEq, Repr

/-- A standard instruction word of a needle core (R205). -/
structure NeedleInstr where
  word : BitVec 32
  deriving DecidableEq, Repr

end Sys2Proof
end

