-- ==== Sys2Proof/Syntax.lean ====
section
/-! DEFINITION. The commands of the block: one constructor per row of spec/opcode_table.json, in the table's order,
with the operands its rule names. -/

namespace Sys2Proof

/-- The commands of the block (spec/opcode_table.json). Each docstring gives the row's rule. -/
inductive Instr
  /-- R32: On each time-clock tick the ruling engine adds RUL_INC to DT96. -/
  | timeTick
  /-- R17: An island changes frequency; its clock is gated while the generator relocks, then the held crossing items are delivered. -/
  | islandRelock (island : Fin 44) (khz : Nat)
  /-- R2: The power limiter lowers or raises island clocks to keep the 10 ms average input power at or below the fused limit. -/
  | powerLimitAdjust (powerDw : Nat) (khz : Nat)
  /-- R504: The hardware power monitor forces every plate to its lowest clock when the 10 ms average input power exceeds the limit by more than 10 %. -/
  | powerMonitorTrip (powerDw : Nat)
  /-- R504: After 100 ms below the limit the hardware power monitor releases the plate clocks. -/
  | powerMonitorRelease (powerDw : Nat)
  /-- R19: Once every transfer addressed to it has completed or been refused, a power domain is switched off. -/
  | domainSwitchOff (dom : Fin 43)
  /-- R517: A wave of at most 4 power domains is switched on within a 250 us interval. -/
  | domainSwitchOn (doms : List (Fin 43))
  /-- R43: A port receives a gPTP event message and latches a DT96 receive stamp, corrected by RX_LAT, or discards it when the store is full. -/
  | gptpEventRx (port : Fin 8) (msg : GptpEvent)
  /-- R36: A 1PPS rising edge arrives and serves as a phase and rate reference. -/
  | ppsEdge
  /-- R35: The ruling core computes the offset and rate error from a reference event and loads a clamped RUL_INC that takes effect on the next tick. -/
  | servoUpdate (m : ServoMeas)
  /-- R38: After 3 missing Sync intervals or 1.5 s without a PPS edge, the ruling engine enters HOLDOVER with RUL_INC frozen at the mean of its last 16 values. -/
  | referenceLost
  /-- R45: A port transmits a Sync, as grandmaster or as relay, with the timestamp or correction inserted and the FCS recomputed. -/
  | gptpSyncTx (port : Fin 8) (seqId : BitVec 16) (gm : Bool)
  /-- R42: A host write of RUL_CTRL.STEP_GO applies RUL_STEP after the range and RUN checks. -/
  | stepGo (runNew : Option Bool)
  /-- R50: A write of RUL_CTRL.SWAP requests a ruling-table bank swap at the next epoch boundary. -/
  | rulSwap
  /-- R48: A write of RUL_EPOCH or RUL_EPOCH_OFS is checked for range and RUN, and an offset change moves the major-frame boundaries. -/
  | rulEpochWrite (lenMs : Option (BitVec 10)) (ofsNs : Option (BitVec 32))
  /-- R49: At an epoch boundary the ruling engine signals the epoch sync object and hands Hatch the schedule of the epoch that begins. -/
  | epochBoundary
  /-- R54: A ruling entry's trigger time arrives and its trigger-line pulse starts for width_ns. -/
  | triggerFire (entry : Fin 256)
  /-- R55: A back-channel trigger is sent ahead of the trigger time by the port's RUL_BCLAT. -/
  | backChannelTrigger (entry : Fin 256)
  /-- R56: lead_ns before a trigger time, the template frame with the trigger time inserted leaves on the entry's port. -/
  | phaseCommand (entry : Fin 256)
  /-- R64: A CSI-2 packet arrives at a camera port and is checked, stamped, charged to the quota and enqueued, or discarded. -/
  | csi2PacketRx (port : Fin 12) (p : Csi2Packet)
  /-- R65: An Ethernet frame arrives at a lidar or auxiliary port and is stamped, charged and enqueued. -/
  | ethFrameRx (port : Fin 6) (f : EthFrame)
  /-- R75: A CAN FD frame is received and matched to an entry and enqueued, or discarded as UNMATCHED. -/
  | canFrameRx (chan : Fin 6) (f : CanFrame)
  /-- R65: A data-ready edge on an SPI port or the on-module IMU stamps and enqueues one sample burst. -/
  | dataReadyEdge (port : Fin 3) (d : Burst)
  /-- R74: A sensor link goes down; any open packet is closed TRUNCATED and the entry becomes ABSENT. -/
  | ingestLinkDown (link : Fin 18)
  /-- R548: A link has held its quality threshold for the check period and the port becomes usable and READY. -/
  | linkCheckPass (link : Fin 20) (quality : BitVec 8)
  /-- R550: A checked link goes down and its readiness entry returns to WAITING. -/
  | linkCheckLost (link : Fin 20)
  /-- R69: A camera or SPI identity read completes or is retried 10 ms later, and the entry becomes PRESENT or MISMATCH. -/
  | idReadAttempt (sensor : Fin 64) (read : Option (BitVec 64))
  /-- R70: A received LLDP frame is matched to a lidar or auxiliary entry's chassis ID for discovery. -/
  | lldpRx (port : Fin 6) (chassis : BitVec 64)
  /-- R72: An entry that has sent no accepted data or Frame Start for timeout_ms becomes ABSENT and an INGEST_STATE event is raised. -/
  | sensorTimeout (sensor : Fin 64)
  /-- R67: A write of ING_ST_CTRL.SWAP requests a sensor-table swap at the next epoch boundary. -/
  | ingSwap
  /-- R78: A write of SPQ_CTRL or SPQ_MID_BASE is checked; clearing EN discards the queue contents. -/
  | spqCtrlWrite (queue : Fin 51) (word : Fin 2) (value : BitVec 32)
  /-- R83: A hardware consumer reads a queue word, receiving IDLE when COUNT is 0 or POISON when the word fails its code. -/
  | queueRead (queue : Fin 51) (codeBad : Bool) (upset : Bool)
  /-- R87: A read of SPQ_POP pops the head word of a software-consumed queue and latches it in SPQ_WORD0 to SPQ_WORD7. -/
  | spqPop (queue : Fin 51) (codeBad : Bool) (upset : Bool)
  /-- R95: Hatch closes an epoch's input once every scheduled frame has ended or passed its deadline. -/
  | hatchInputClose
  /-- R101: H1 finishes a camera frame's output image and writes its trailer with VALID. -/
  | h1FrameDone (port : Fin 12)
  /-- R102: H2 runs its format state machine on a lidar packet and decodes its points into canonical records. -/
  | h2PacketDecode (port : Fin 4)
  /-- R107: H3 completes the voted ego-motion track of the epoch. -/
  | h3TrackDone (env : EgoEnv)
  /-- R112: H4 completes the transformed and compensated points of the epoch in the point buffer. -/
  | h4TransformDone
  /-- R115: A plate DMA write into the evidence window lands in a slot or is discarded as EVID_BAD. -/
  | evidencePlaneWrite (plate : Fin 34) (ofs : Nat) (data : List Byte)
  /-- R116: EVID_WAIT passes after input close and any plane not yet accepted reports no data. -/
  | evidenceWaitExpiry
  /-- R117: H5 completes the cell vote and advances the sensors' disagreement counters. -/
  | h5VoteDone
  /-- R122: H6 writes the grid buffer and enqueues the epoch record in queue 0x32. -/
  | h6EpochRecord
  /-- R128: A Hatch stage watchdog fails early or late, raises an event and acts through its reaction entry. -/
  | hatchWatchdog (stage : Fin 6) (late : Bool)
  /-- R506: At the golden slot Hatch injects the golden set into H1 and H2. -/
  | goldenInstant
  /-- R510: Hatch is not idle within FORCE_US, so the forced golden run is abandoned and SELF_TEST is requested. -/
  | testStarved
  /-- R507: A golden run finishes and its stage CRCs are stored as the reference or compared with it. -/
  | goldenRunDone (upsets : List (BitVec 64))
  /-- R132: A Stipple job starts once its wait is met and the job before it has completed. -/
  | stippleJobStart
  /-- R143: A VOXELISE job quantises, hashes and merges points into cell records and completes. -/
  | voxelise (det : StpDet)
  /-- R147: A SORT job writes entries in ascending Morton code and completes. -/
  | sort (det : StpDet)
  /-- R150: A NEIGHBOURS job answers window or cell neighbour queries into result blocks and completes. -/
  | neighbours (det : StpDet)
  /-- R156: A RULEBOOK job builds the output sites, pairs and range table and writes valid last. -/
  | rulebook (det : StpDet)
  /-- R172: A needle core issues a burin command, which is checked against Table PLT-3 and the tail state and queued, or refused with exception 24. -/
  | xnBurin (plate : Fin 34) (core : Fin 64) (rd : Fin 32) (rs1 : Fin 32)
  /-- R176: The array loads a weight tile and its scales into the shadow weight registers. -/
  | loadw (plate : Fin 34) (upset : ArrUpset)
  /-- R177: The array adds the dot products of the activation rows into the accumulator rows, with optional ZERO and GATHER. -/
  | matmul (plate : Fin 34) (upset : ArrUpset)
  /-- R180: The drain stage converts the accumulator rows through scale, bias, curve and output format and writes or scatters them. -/
  | drain (plate : Fin 34) (upset : ArrUpset)
  /-- R182: The array copies a curve table into a curve slot. -/
  | loadc (plate : Fin 34) (upset : ArrUpset)
  /-- R204: A burin NOP occupies the array for one cycle and may signal under SIG. -/
  | burinNop (plate : Fin 34)
  /-- R199: The plate runtime handles interrupt 16 by recomputing the failed tile, at most twice. -/
  | tileRecompute (plate : Fin 34)
  /-- R186: A needle core enqueues a plate DMA descriptor, which is checked and queued, or refused with exception 25. -/
  | xnDmaq (plate : Fin 34) (core : Fin 64) (rd : Fin 32) (rs1 : Fin 32)
  /-- R188: The plate DMA engine executes a ROWS descriptor and signals once its writes are visible. -/
  | dmaRows (plate : Fin 34) (go : Stretch)
  /-- R188: The plate DMA engine executes a GATHER descriptor by index list. -/
  | dmaGather (plate : Fin 34) (go : Stretch)
  /-- R188: The plate DMA engine executes a SCATTER descriptor by index list. -/
  | dmaScatter (plate : Fin 34) (go : Stretch)
  /-- R191: A plate launch descriptor is checked in order at acceptance. -/
  | plateLaunch (sq : Fin 64) (d : List Byte)
  /-- R192: A launch starts on all its plates once its wait is met and a window grants them, after the parameters and data are copied. -/
  | launchStart (job : Nat)
  /-- R194: Every core has exited and all queued work has finished, so the launch writes its completion and signals. -/
  | launchComplete (job : Nat)
  /-- R205: A needle core executes a standard RV64 or vector instruction. -/
  | needleInstruction (plate : Fin 34) (core : Fin 64) (ins : NeedleInstr)
  /-- R212: A plate program ends by ECALL with a7 = 0 and its exit value in a0. -/
  | ecallExit (plate : Fin 34) (core : Fin 64)
  /-- R210: A core adds an amount to a sync object once its prior accesses are visible. -/
  | xnSig (plate : Fin 34) (core : Fin 64) (rs1 : Fin 32) (rs2 : Fin 32)
  /-- R219: A core begins waiting on a sync object with a deadline. -/
  | xnWait (plate : Fin 34) (core : Fin 64) (rd : Fin 32) (rs1 : Fin 32) (rs2 : Fin 32)
  /-- R219: A held xn.wait completes when the object reaches its value, or when its deadline passes. -/
  | xnWaitDone (plate : Fin 34) (core : Fin 64)
  /-- R369: A core reads a sync object's value. -/
  | xnSread (plate : Fin 34) (core : Fin 64) (rd : Fin 32) (rs1 : Fin 32)
  /-- R221: xn.crc extends a CRC-64 by 8 bytes. -/
  | xnCrc (plate : Fin 34) (core : Fin 64) (rd : Fin 32) (rs1 : Fin 32) (rs2 : Fin 32)
  /-- R221: xn.vcrc extends a CRC-64 by the vector's bytes. -/
  | xnVcrc (plate : Fin 34) (core : Fin 64) (vm : Bool) (rd : Fin 32) (vs2 : Fin 32) (rs1 : Fin 32)
  /-- R223: xn.fexpd computes xexp of a scalar difference. -/
  | xnFexpd (plate : Fin 34) (core : Fin 64) (rd : Fin 32) (rs1 : Fin 32) (rs2 : Fin 32)
  /-- R223: xn.vexpd computes xexp of each element minus a scalar. -/
  | xnVexpd (plate : Fin 34) (core : Fin 64) (vm : Bool) (vd : Fin 32) (vs2 : Fin 32) (rs1 : Fin 32)
  /-- R222: xn.vcurve applies a curve table to each element. -/
  | xnVcurve (plate : Fin 34) (core : Fin 64) (vm : Bool) (vd : Fin 32) (vs2 : Fin 32) (rs1 : Fin 32)
  /-- R224: xn.vrmax computes a running maximum over a vector and a scalar. -/
  | xnVrmax (plate : Fin 34) (core : Fin 64) (vm : Bool) (rd : Fin 32) (vs2 : Fin 32) (rs1 : Fin 32)
  /-- R225: xn.vncvt narrows FP32 elements to format F under a scale. -/
  | xnVncvt (plate : Fin 34) (core : Fin 64) (vm : Bool) (fmt : Fin 5) (vd : Fin 32) (vs2 : Fin 32) (rs1 : Fin 32)
  /-- R226: xn.vwcvt widens format-F elements to FP32 under a scale. -/
  | xnVwcvt (plate : Fin 34) (core : Fin 64) (vm : Bool) (fmt : Fin 5) (vd : Fin 32) (vs2 : Fin 32) (rs1 : Fin 32)
  /-- R227: xn.vmxscale computes the E8M0 block scale of up to 32 elements. -/
  | xnVmxscale (plate : Fin 34) (core : Fin 64) (vm : Bool) (fmt : Fin 5) (rd : Fin 32) (vs2 : Fin 32)
  /-- R245: A tracer COMMIT raises the staging fill and returns the new layer length. -/
  | trcCommit (tracer : Fin 2)
  /-- R247: A buffer held full for lack of a slot is flushed as soon as a slot of its tracer is freed. -/
  | deferredFlush (tracer : Fin 2) (cache : Fin 4) (seq : Nat) (layer : Nat)
  /-- R250: A tracer SCORE decays and adds masses to page scores. -/
  | trcScore (tracer : Fin 2)
  /-- R251: A tracer MAP writes page-state records to commons. -/
  | trcMap (tracer : Fin 2)
  /-- R252: A look-aside miss makes the tracer walk the directory and page entry, pin the epoch and return the mapping. -/
  | labMissWalk (plate : Fin 34) (cache : Fin 4) (seq : Nat) (layer : Nat) (page : Nat) (det : Bool)
  /-- R257: A quarantined slot goes to the free list once the pins of every epoch through its tag are zero. -/
  | slotRelease (tracer : Fin 2) (cache : Fin 4) (slot : Nat)
  /-- R238: The CACHE REGISTER operation registers a key-value cache. -/
  | cacheRegister (job : Nat)
  /-- R258: The CACHE UNREGISTER operation removes an idle cache. -/
  | cacheUnregister (job : Nat)
  /-- R258: CREATE makes a FREE sequence ACTIVE with open staging buffers. -/
  | cacheCreate (job : Nat)
  /-- R258: FORK shares a parent's pages with a child and raises their counts. -/
  | cacheFork (job : Nat)
  /-- R258: TRUNCATE removes tokens, copies the kept positions into staging and drops the slot counts after invalidation. -/
  | cacheTruncate (job : Nat)
  /-- R258: FREE drops the sequence's slot counts and makes it FREE. -/
  | cacheFree (job : Nat)
  /-- R261: PLACE moves eligible local pages to a CACHE module and marks them REMOTE. -/
  | cachePlace (job : Nat) (remoteSlots : List Nat)
  /-- R273: Burnisher REGISTER reads and checks a problem record and allocates memory. -/
  | brnRegister (job : Nat)
  /-- R270: Burnisher VALUES loads the matrix values and marks the preconditioner stale. -/
  | brnValues (job : Nat)
  /-- R283: Burnisher UPDATE writes words and a signature into a user slot. -/
  | brnUpdate (job : Nat)
  /-- R270: Burnisher RUN queues one run of the program. -/
  | brnRun (job : Nat)
  /-- R286: Burnisher ARM enables triggered runs from trig_obj. -/
  | brnArm (job : Nat)
  /-- R286: Burnisher DISARM ends triggering and aborts a waiting triggered run. -/
  | brnDisarm (job : Nat)
  /-- R272: Burnisher RELEASE frees a problem and its memory. -/
  | brnRelease (job : Nat)
  /-- R284: trig_obj reaches v_next and a triggered run is queued, or an overrun is counted. -/
  | brnTrigger (prob : Fin 8)
  /-- R287: The burnisher starts the highest-priority ready run that the schedule grants and reads its inputs. -/
  | brnRunStart (det : BrnDet)
  /-- R288: A SOLVE step iterates CG, MINRES or BiCGSTAB until convergence, max_iter or breakdown. -/
  | brnSolve (env : SolveEnv)
  /-- R281: An SPMV step computes dst := A a. -/
  | brnSpmv (det : BrnDet)
  /-- R281: An AXPBY step computes dst := s1 a + s2 b. -/
  | brnAxpby (det : BrnDet)
  /-- R281: A CLAMP step clamps a between two slots elementwise. -/
  | brnClamp (det : BrnDet)
  /-- R281: A COPY step copies one slot to another. -/
  | brnStepCopy (det : BrnDet)
  /-- R280: A LOOP step jumps back while its pass counter is below count. -/
  | brnLoop
  /-- R280: A TEST step jumps forward when the relative difference is within tolerance. -/
  | brnTest (det : BrnDet)
  /-- R293: An OUT step writes slot elements to its target under the stop-reason policy and signals. -/
  | brnOut
  /-- R282: An UPDATE_IN step reads an input entry into its slot. -/
  | brnUpdateIn
  /-- R292: END, or the last step, ends the run and writes its completion. -/
  | brnEnd
  /-- R289: A run's deadline arrives; the last complete iterate is kept and only DEADLINE-policy OUT steps run. -/
  | brnDeadline
  /-- R315: CTX_OPEN checks the root and save area and opens a job context. -/
  | ctxOpen (job : Nat)
  /-- R317: CTX_CLOSE invalidates an idle context and makes it FREE. -/
  | ctxClose (job : Nat)
  /-- R312: INVALIDATE drops the cached translations of a range and completes once older accesses have retired. -/
  | invalidate (job : Nat)
  /-- R324: RESUME makes a faulted channel retranslate and continue, or sets RESUMED on a saved one. -/
  | resume (job : Nat)
  /-- R327: ABORT ends the job that owns a faulted or saved channel with ABORTED. -/
  | abort (job : Nat)
  /-- R320, R321: COPY moves bytes between virtual addresses on a commons engine, to the boundary that `upTo` names or to its
  end. -/
  | memCopy (job : Nat) (go : Stretch)
  /-- R328: A channel stopped on NOT_RELEASED or CHANNEL_OFFLINE resumes within 10 us of release or of the channel coming online. -/
  | channelSelfResume (chan : Fin 98)
  /-- R328: nr_timeout passes after fault_time and the owning job ends NOT_READY. -/
  | nrTimeout (chan : Fin 98)
  /-- R305: A DDR4 case temperature crossing 85 C switches tREFI and sets or clears HOT. -/
  | refreshRateChange (chan : Fin 8) (report : CaseReport)
  /-- R303: A DDR4 channel returns online and its mirrored boot granules are copied back before reads are served from them. -/
  | ddrChannelOnline (chan : Fin 8)
  /-- R331: A pre-emption stops the cores, array and DMA channel of a plate and saves their state into the reserves. `late`: the command
  that was executing when TB_NS ended brought the array to its tile boundary (R201). -/
  | preemptRequest (plate : Fin 34) (late : Bool)
  /-- R336: A saved launch restores its array, cores and channel records and continues. -/
  | launchResume (job : Nat)
  /-- R340: A major-frame boundary arrives and ends any PREEMPT withdrawal. -/
  | majorFrameBoundary
  /-- R349: A window begins and launches not allowed by it are pre-empted on all their plates. -/
  | windowStart
  /-- R342: A write of PAR_CTRL.SWAP requests a schedule bank swap. -/
  | parSwap
  /-- R354: SCHED_LOAD loads and checks a schedule bank and requests a swap. -/
  | schedLoad (job : Nat)
  /-- R354: PART_SET writes a partition entry. -/
  | partSet (job : Nat)
  /-- R354: TASK_SET writes a task record and starts its supervision. -/
  | taskSet (job : Nat)
  /-- R354: TASK_CLEAR makes a task entry not VALID. -/
  | taskClear (job : Nat)
  /-- R354: CHAIN_SET writes a chain record. -/
  | chainSet (job : Nat)
  /-- R354: CHAIN_CLEAR makes a chain entry not VALID. -/
  | chainClear (job : Nat)
  /-- R356: max_ia_us passes with no arrival and a late-arrival violation is raised. -/
  | lateArrival (task : Fin 256)
  /-- R358: An activation's execution time exceeds budget_us. -/
  | budgetViolation (task : Fin 256)
  /-- R359: DT64 reaches arrival plus deadline_us before the activation is complete. -/
  | deadlineViolation (task : Fin 256)
  /-- R361: A chain activation is still armed late_us after arming. -/
  | chainLate (chain : Fin 32)
  /-- R376: SET writes a sync object's value and clears SATURATED and its taint. -/
  | syncSet (job : Nat)
  /-- R376: READ returns a sync object's value and its number of waiters. -/
  | syncRead (job : Nat)
  /-- R376: GRANT sets the owner of a sync-object group. -/
  | syncGrant (job : Nat)
  /-- R399: A descriptor's wait is satisfied; its state checks are made and it starts. -/
  | descriptorStart (job : Nat)
  /-- R371: wait_limit_ms passes with the wait unsatisfied and the descriptor completes WAIT_TIMEOUT. -/
  | waitTimeout (job : Nat)
  /-- R385: A host HELLO opens, confirms or only queries a session, and the device answers with its own HELLO. -/
  | hello (port : Fin 2) (f : HostFrame)
  /-- R381: A host HEARTBEAT carries acknowledgements and restarts the host-loss interval. -/
  | heartbeat (port : Fin 2) (f : HostFrame)
  /-- R390: A REG_READ is checked whole and returns count register words, clearing RC fields. -/
  | regRead (port : Fin 2) (r : ReadRequest)
  /-- R390: A REG_WRITE to registers without behaviour of their own is checked whole under R590 and R591 and written. -/
  | regWrite (port : Fin 2) (f : HostFrame)
  /-- R391: Writing SETUP_DONE in SETUP locks the reaction table and enters RUN. -/
  | setupDone (value : Bool)
  /-- R393: A DOORBELL applies cq_head and copies descriptors into a shadow ring, or is refused. -/
  | doorbell (port : Fin 2) (f : HostFrame)
  /-- R400: The NOP opcode does nothing, completes OK and applies its signal. -/
  | nop (job : Nat)
  /-- R402: TABLE_LOAD writes entries into an inactive bank and optionally requests a swap. -/
  | tableLoad (job : Nat)
  /-- R406: The HATCH_CONTROL READMIT operation returns an EXCLUDED or DEGRADED sensor to voting at the next boundary. -/
  | readmit (job : Nat)
  /-- R396: The device sends written completion records when the completion ring has room. -/
  | completion (cq : Fin 64)
  /-- R407: The device sends event and error-record items in the order raised. -/
  | event
  /-- R413: The device sends epoch records and copied sensor packets, reliably or session-less. -/
  | epochStream (queue : Fin 51)
  /-- R409: A push data frame is written through channel 0x34, and a report follows LAST. -/
  | bulkPush (port : Fin 2) (f : HostFrame) (det : ReadFault)
  /-- R411: A pull request makes the device send bytes in BULK_PULL frames followed by a report. -/
  | bulkPull (port : Fin 2) (f : HostFrame) (det : ReadFault)
  /-- R408: A BULK_CREDIT frame updates the peer's cumulative credits. -/
  | bulkCredit (port : Fin 2) (f : HostFrame)
  /-- R381: 50 us after accepting a reliable frame without another acknowledgement, or at once after a duplicate, the device sends a HEARTBEAT. -/
  | ackHeartbeat
  /-- R382: 200 us without acknowledgement makes the sender retransmit every unacknowledged frame of the stream. -/
  | retransmit (bulk : Bool)
  /-- R383: A host port link goes down and its streams fail over if the other link is up. -/
  | hostLinkDown (port : Fin 2)
  /-- R386: Every 10 ms in a session the device sends a HEARTBEAT on each port whose link is up. -/
  | deviceHeartbeat
  /-- R387: HOSTLOSS_MS passes without a host HEARTBEAT; the device enters HOST_LOST and applies the safe-state policy. -/
  | hostLost
  /-- R526: Until a session opens, the device sends a HELLO with session 0 every 100 ms on each checked port. -/
  | sessionlessHello (port : Fin 2)
  /-- R416: A ring flit is checked and accepted, or discarded with a NAK. -/
  | flitRx (port : Fin 2) (flit : Flit)
  /-- R417: On a NAK or a 4 us ack timeout the sender replays its kept flits, and 16 replays take the port down. -/
  | flitReplay (port : Fin 2)
  /-- R418: A lane leaves ACTIVE for RETRAIN after exchanging LANE_DROP. -/
  | laneRetrain (lane : Fin 8) (cause : LaneCause)
  /-- R419: A lane's PRBS31 run ends; the lane rejoins by LANE_ADD, retries, or becomes FAILED. -/
  | prbsRunDone (lane : Fin 8) (errors : Nat)
  /-- R422: Each module sends a ring HELLO on each port once per millisecond. -/
  | ringHello (port : Fin 2)
  /-- R422: 3 ms without a HELLO, or the port going down, loses the neighbour and starts a census. -/
  | neighbourLoss (port : Fin 2)
  /-- R423: A census not completed within 100 us is started again. -/
  | censusTimeout
  /-- R427: ROLE_LOAD loads a role table and starts a census. -/
  | roleLoad (job : Nat)
  /-- R428: ALL_GATHER collects every member's chunk into dst. -/
  | allGather (go : CollRun)
  /-- R428: REDUCE_SCATTER sums chunk r over all members in a fixed order. -/
  | reduceScatter (go : CollRun)
  /-- R428: RING_PASS sends a chunk downstream and receives one from upstream. -/
  | ringPass (go : CollRun)
  /-- R430: A collective whose members have not all joined within JOIN_MS completes NOT_READY. -/
  | joinTimeout (job : Nat)
  /-- R431: A collective with no progress for JOIN_MS completes NOT_READY on a non-faulted member. -/
  | collectiveStall (job : Nat)
  /-- R435: All comparisons covering a check epoch finish and the module broadcasts a COMMIT or RETRACT verdict. -/
  | checkEpochClose
  /-- R435: A check epoch not closed within LIMIT_US is broadcast as RETRACT. -/
  | checkLimitExpiry
  /-- R469: A failed control-state read makes the supervisor assert the safe state, put DDR4 in self-refresh and reset Birril. -/
  | containment (code : Fin 12) (unit : BitVec 32)
  /-- R475: The supervisor's duplicated state mismatches and the module restarts as from power-on. -/
  | supervisorMismatch
  /-- R453: The checker plate executes a proof record at its tile boundary and compares the CRCs. -/
  | proofCheck (plate : Fin 34) (slot : Fin 2) (upset : BitVec 64)
  /-- R454: The arbiter executes a mismatched record and the verdict names the faulty array. -/
  | proofArbitrate (plate : Fin 34) (slot : Fin 2) (upset : BitVec 64)
  /-- R457: step_obj reaches a multiple of K and the region digest is computed and broadcast. -/
  | digestCompute (region : Fin 64)
  /-- R459: DIGEST_WAIT_MS passes and the comparison proceeds without the missing members. -/
  | digestWaitExpiry (region : Fin 64)
  /-- R479: FIELD_TEST isolates a unit and runs its golden test. -/
  | fieldTest (job : Nat)
  /-- R479: A field test ends; the unit returns to its former state or becomes PERMANENT. -/
  | fieldTestDone (unit : BitVec 32) (failSub : Option Nat)
  /-- R481: The DIAG OFFLINE operation takes a unit offline. -/
  | offline (job : Nat)
  /-- R481: The DIAG ONLINE operation brings an offline unit back online. -/
  | online (job : Nat)
  /-- R457: REGION_SET registers a weight region and computes its reference digest. -/
  | regionSet (job : Nat)
  /-- R478: REGION_CLEAR removes a registered weight region. -/
  | regionClear (job : Nat)
  /-- R463: RELOAD resets a region's reference digest, optionally from the mirror, and lifts its refusals. -/
  | reload (job : Nat)
  /-- R481: HISTORY writes the unit history entries to memory. -/
  | history (job : Nat)
  /-- R467: A unit's event leaves the 500-hour window and its classification falls back. -/
  | eventAgeout (unit : BitVec 32)
  /-- R472: After a warm restart, firmware recomputes each kept region's digest and raises REGION_VERIFIED. -/
  | regionVerify (region : Fin 64)
  /-- R484: SAFE_IN held asserted for 100 us requests source SAFE_IN and drops command frames. -/
  | safeInAssert
  /-- R486: SAFE_IN released after at least 10 ms frees the latched sources whose causes have cleared. -/
  | safeInRelease
  /-- R485: hold_ms after a HOLD source's cause clears, the source releases its lines. -/
  | safeHoldExpiry (src : Fin 9)
  /-- R484: The time clock or rail AON-S goes out of or back within tolerance, setting or clearing source CLOCK. -/
  | clockSupervision (ok : Bool)
  /-- R582: A safe-state line reads back wrong for 1 ms and the other line is asserted. -/
  | safeLineFault (line : Fin 2) (mv : BitVec 16)
  /-- R489: A frame offered on a margin-guard path is checked, clamped, dropped or emitted through the policer. -/
  | marginFrame (path : Fin 10) (f : EgressFrame)
  /-- R499: MGD_CTRL.GO loads, verifies and locks the signed limit table. -/
  | mgdGo
  /-- R505: At 115 C junction the power limiter forces every plate to its lowest clock. -/
  | thermalThrottle (tj : Int)
  /-- R505: At 125 C the supervisor requests THERMAL, puts DDR4 in self-refresh and holds Birril in reset. -/
  | thermalTrip (tj : Int)
  /-- R505: The junction falls to 105 C and the restart proceeds. -/
  | thermalRecover (tj : Int)
  /-- R512: A periodic self-test slice starts when its conditions hold, or is skipped. -/
  | selftestSlice (unit : BitVec 32) (durNs : Nat)
  /-- R516: A slice ends, and a failure makes its unit PERMANENT and requests SELF_TEST. -/
  | sliceDone (unit : BitVec 32) (pass : Bool)
  /-- R515: INTERVAL_S passes without a complete pass and SELFTEST_LAPSED is raised. -/
  | selftestLapsed (unit : BitVec 32)
  /-- R574: VIN holds within range for 10 ms and the module starts cold. -/
  | powerGood (vinMv : Nat)
  /-- R519: Start-up BIST completes and the bad units and spares are decided. -/
  | startupBist (fails : List (BitVec 32))
  /-- R527: The boot ROM finishes, loads the calibration set or the defaults, and raises READY ROM. -/
  | romBootDone
  /-- R530: A channel finishes restoring or training, or fails and goes offline. -/
  | ddrTrainingDone (chan : Fin 8) (restored : Bool) (full : Option Bool)
  /-- R536: A release unit passes its memory test and is released. -/
  | regionRelease (unit : Fin 17) (badGranules : List Nat)
  /-- R540: A region fails its test, stays unreleased and its channel becomes PERMANENT. -/
  | regionTestFail (region : Fin 17) (kind : Fin 3) (addr : Nat)
  /-- R537: A retention pause ends, or is abandoned on a refresh change. -/
  | retentionPause (half : Fin 2) (abandoned : Bool)
  /-- R556: After the LAST push frame, the boot ROM verifies the staged image and starts it or reports the failure. -/
  | firmwareVerify (readFail : Option (Fin 7))
  /-- R547: Device firmware multicasts the needle firmware to every enabled plate. -/
  | needleFwMulticast
  /-- R550: A function finishes initialisation and its readiness entry becomes READY. -/
  | unitReady (fn : BitVec 16)
  /-- R529: EAS_CTRL.NVSAVE saves the active banks as the calibration set. -/
  | nvsave
  /-- R529: A calibration save completes. -/
  | nvsaveDone
  /-- R546: EAS_CTRL.RESTART restarts the module as from power-on. -/
  | restart
  /-- R562: SEC_CTRL.ATTEST makes an attestation report with the SEC_NONCE nonce. -/
  | attest
  /-- R563: A finished report is published under the generation protocol and ATTEST_READY is raised. -/
  | attestPublish
  /-- R560: SEC_CTRL.ADVANCE starts raising the anti-rollback counter to the running svn. -/
  | advance
  /-- R560: One rollback bit is blown and read back, and the last bit raises ROLLBACK. -/
  | fuseBitBlown
  /-- R567: SEC_CTRL.UNLOCK verifies the debug token and unlocks debug, or sets TOKEN_ERR. -/
  | unlock
  /-- R566: SEC_MACSEC.LOAD takes a new CAK into use and restarts the associations. -/
  | macsecLoad (port : Fin 2) (save : Bool)
  /-- R571: VIN crosses a band threshold after its filter time, setting flags and limiting clocks. -/
  | supplyBandChange (vinMv : Nat) (heldUs : Nat)
  /-- R573: VIN below 6.5 V for 2 ms, or the switch opening, asserts the safe state, resets Birril and switches the rails off. -/
  | brownOut
  /-- R578: WAKE low for 100 ms raises SUPPLY kind 0x4. -/
  | wakeLow
  /-- R578: WAKE stays low for DELAY_S and the module powers off. -/
  | wakePowerOff
  /-- R579: A camera port switch opens on overcurrent and raises CAMERA_POWER. -/
  | cameraOvercurrent (port : Fin 12) (mA : BitVec 16)
  /-- R579: 1 s after opening, the camera switch closes again unless it is locked out. -/
  | cameraReclose (port : Fin 12)
  /-- R579: A write of PWR_POC.ENABLE enables port switches and clears lock-outs. -/
  | pwrPocWrite (enable : BitVec 12)
  /-- R579: VCAM leaves or returns to 9 to 16 V and the switches are held open or released. -/
  | vcamRange (mv : BitVec 16)
  /-- R585: The base plate is out of range for 10 s and SUPPLY kind 0x5 is raised. -/
  | baseRange (temp : Int)
  /-- R587: The operating seconds reach 45,000 hours and MISSION_END is raised. -/
  | missionEnd
  /-- R578: WAKE rises above 6.0 V, cancelling a pending power-off or powering a WAKE-off module back up. -/
  | wakeRise
  /-- R582: A safe-state line reads back correctly again, so source CLOCK's cause clears and its HOLD mode starts. -/
  | safeLineFaultCured (line : Fin 2)
  /-- R36: A gPTP general message (Announce, Follow_Up, Pdelay_Resp_Follow_Up) is received and feeds the best master clock algorithm, the port roles and the servo. -/
  | gptpGeneralRx (port : Fin 8) (msg : GptpGeneral)
  /-- R44: At each logPdelayReqInterval a port sends a Pdelay_Req and latches its transmit stamp, or discards it into LOST. -/
  | pdelayReqTx (port : Fin 8)
  /-- R71: The on-module IMU finishes its own self-check and its sensor entry becomes PRESENT. -/
  | imuSelfCheckDone (pass : Bool)
  /-- R378: A host-port frame of the device EtherType with an unlisted or device-only type, a bad version or address, or a missing MACsec tag is discarded and counted in HTP_CNT.DISCARDED. -/
  | hostFrameDiscarded (port : Fin 2) (f : HostFrame)
  deriving DecidableEq, Repr

end Sys2Proof
end

