-- ==== Sys2Proof/Decode.lean ====
section
/-! DEFINITION. The decoder over the rows of spec/opcode_table.json that give bits: no row gives any, the commands of this
block are named by their rules and arrive through its ports and registers. -/

namespace Sys2Proof

/-- The command that a word spells by the table's bits: none, as the table gives no row bits. -/
def decodeTableWord (_nbits _w : Nat) : Option Instr := none

end Sys2Proof
end

