-- ==== Sys2Proof/Config.lean ====
section
/-! DEFINITION. What the spec leaves to the part or leaves open: free values (constants without a body) and the
cryptographic functions of the standards that the spec names, of which the model uses nothing but that they are functions. -/

namespace Sys2Proof.Config

/-- A value the spec does not state; `n` numbers the use (log entry 4). Nothing in Lean can evaluate it. -/
opaque free : Nat → Nat

/-- Temperature at a unit's nearest sensor, 0.1 degree C, as an error record reports it (Table PRF-6 key 4, log entry 4). -/
opaque recordTemp : Nat → Nat

/-- Supply rail of a unit in mV as an error record reports it (Table PRF-6 key 5, log entry 4). -/
opaque recordSupply : Nat → Nat

/-- The device secret in the security unit's key store, which no bus can read (Table SEC-1; log entry 7). -/
opaque secret : List Byte

/-- HMAC-SHA-384 as a number (R553; log entry 7). -/
opaque hmacSha384 : (key msg : List Byte) → Nat

/-- The public point of a P-384 private key: x and then y, 48 bytes each, big-endian (R554; log entry 7). -/
opaque p384Public : (d : Nat) → List Byte

/-- The 96-byte ES384 signature of a message under a P-384 private key (R465, R562; log entry 7). -/
opaque es384 : (d : Nat) → (msg : List Byte) → List Byte

/-- Whether `sig` is a good ECDSA P-384 signature of `msg` under the public key named by `key` (R556, R559, R567; log entry 7). -/
opaque verifyEs384 : (key msg sig : List Byte) → Bool

/-- SHA-384 (R556, R562; log entry 7). -/
opaque sha384 : List Byte → List Byte

/-- The AES-CMAC key derivation function of IEEE 802.1X-2020, for a key of `n` bits (R564; log entry 7). -/
opaque kdf : (key : Nat) → (label context : List Byte) → (n : Nat) → Nat

/-- A frame under MACsec (IEEE 802.1AE) with the SCI in its SecTAG and confidentiality offset 0, by its secure association key,
association number and packet number (R564; log entry 7). -/
opaque macsecFrame : (sak : Nat) → (sci : List Byte) → (an pn : Nat) → (frame : List Byte) → List Byte

/-- The order n of the P-384 group (R553). -/
def p384Order : Nat :=
  0xFFFFFFFFFFFFFFFFFFFFFFFFFFFFFFFFFFFFFFFFFFFFFFFFC7634D81F4372DDF581A0DB248B0A77AECEC196ACCC52973

/-- The ASCII labels "AXCIA-ID" while debug is SEALED and "AXCIA-DBG" while it is UNLOCKED (R553). -/
def identityLabel (unlocked : Bool) : List Byte :=
  [0x41#8, 0x58#8, 0x43#8, 0x49#8, 0x41#8, 0x2D#8] ++ (if unlocked then [0x44#8, 0x42#8, 0x47#8] else [0x49#8, 0x44#8])

/-- The identity private key (R553). -/
def identityKey (unlocked : Bool) : Nat := hmacSha384 secret (identityLabel unlocked) % (p384Order - 1) + 1

/-- The key identifier: the first 8 bytes of the SHA-384 of the public key (R554). -/
def keyIdBytes (unlocked : Bool) : List Byte := (sha384 (p384Public (identityKey unlocked))).take 8

/-- The key identifier as SEC_KID shows it, in address order (R554). -/
def keyId (unlocked : Bool) : Nat := (keyIdBytes unlocked).foldr (fun b n => b.toNat + 256 * n) 0

/-- The signature of the device identity key over `msg` (R465, R553). -/
def signEs384 (unlocked : Bool) (msg : List Byte) : List Byte := es384 (identityKey unlocked) msg

/-- The vector length that a core sets for a requested length between one and two times the maximum; V 1.0 leaves it open
between half the request and the maximum (log entry 40). -/
opaque vlPick : (avl vlmax : Nat) → Nat

/-- The result and the flags of an unordered floating-point sum; V 1.0 leaves the order of its additions open (log entry 40). -/
opaque unorderedSum : (rm start : Nat) → (elems : List Nat) → Nat

/-- Random bits the device draws, the `n`th draw of `w` bits (R553, R567; log entry 4). -/
opaque random : (w n : Nat) → Nat

/-- The vendor root public keys 0 and 1 in the mask ROM (Table SEC-1; log entry 7). -/
opaque vendorKey : (slot : Nat) → List Byte

/-- The SHA-384 of the mask ROM (Table SEC-4 key 6; log entry 7). -/
opaque romDigest : List Byte

/-- The certificate of the sealed identity key in the store (text after R554; log entry 7). -/
opaque certificate : List Byte

/-- The priority vector that this module announces, as one number; lower is better (Table TIM-2; log entry 4). -/
opaque ownPriority : Nat

/-- The lowest clock of a plate in kHz, to which the power monitor, the thermal limit and a low supply force it (R504, R505,
Table MOD-4); the spec gives no value. -/
opaque lowestKhz : Nat

/-- The long-term average rate that the ruling core derives from the latest values of RUL_INC; the spec does not say how (text after
R34; log entry 92). -/
opaque longTermRate : List Nat → Nat

/-- The fixed receive latency of a camera port in ns (Table ING-3; log entry 93). -/
opaque cameraLatency : (port : Nat) → Nat

/-- The bytes of a gPTP message of a port and type that the rules leave to IEEE 802.1AS: addresses, identities, flags, TLVs (Table
TIM-2; log entry 19). -/
opaque gptpTemplate : (port type : Nat) → List Byte

/-- The frame counter that the payload of an auxiliary, CAN FD or SPI frame carries; the spec does not say where it lies (R90; log
entry 94). -/
opaque frameCounter : (payload : List Byte) → Nat

/-- The golden set as the bytes of the golden area carry it: the data type and the image lines of its camera frame, and its lidar packets
as queued frames with their stamps; the spec gives "raw packets" and no layout (text before R506; log entry 15). -/
opaque goldenFrame : (area : List Byte) → Nat × List (List Byte)
opaque goldenPackets : (area : List Byte) → List (List Byte × Nat)

/-- timeout_ms of the entries of the default sensor table, of which R68 gives no value. -/
opaque defaultTimeout : Nat

end Sys2Proof.Config
end

