-- ==== Sys2Proof/Machine/Bits.lean ====
section
/-! DEFINITION. Bit fields, byte order, two's complement, rounding shifts and the detection codes of the spec. -/

namespace Sys2Proof.Machine

/-- Bits [lo + w - 1 : lo] of `v` (R6). -/
def bits (v lo w : Nat) : Nat := (v >>> lo) % 2 ^ w

/-- Bit `i` of `v`. -/
def bit (v i : Nat) : Bool := v.testBit i

/-- `v` with bits [lo + w - 1 : lo] replaced by `x` (R6). -/
def putBits (v lo w x : Nat) : Nat := v - (bits v lo w <<< lo) + ((x % 2 ^ w) <<< lo)

/-- `v` with bit `i` set to `b`. -/
def putBit (v i : Nat) (b : Bool) : Nat := putBits v i 1 b.toNat

/-- The little-endian value of a byte list (R5). -/
def leNat : List Byte → Nat
  | [] => 0
  | b :: r => b.toNat + 256 * leNat r

/-- The big-endian value of a byte list (R588, standards' fields). -/
def beNat (l : List Byte) : Nat := l.foldl (fun a b => a * 256 + b.toNat) 0

/-- `n` little-endian bytes of `v` (R5). -/
def le : Nat → Nat → List Byte
  | 0, _ => []
  | n + 1, v => BitVec.ofNat 8 v :: le n (v / 256)

/-- `n` big-endian bytes of `v`. -/
def be (n v : Nat) : List Byte := (le n v).reverse

/-- `n` zero bytes. -/
def zeros (n : Nat) : List Byte := List.replicate n 0#8

/-- `l` cut or filled with zero bytes to `n` bytes. -/
def padTo (n : Nat) (l : List Byte) : List Byte := l.take n ++ zeros (n - l.length)

/-- `n` bytes of `l` from `o`, zero beyond its end. -/
def slice (l : List Byte) (o n : Nat) : List Byte := padTo n (l.drop o)

/-- The `n`-byte little-endian field of `l` at offset `o` (R5). -/
def fld (l : List Byte) (o n : Nat) : Nat := leNat ((l.drop o).take n)

/-- `l` with the bytes from `o` replaced by `x`. -/
def patch (l : List Byte) (o : Nat) (x : List Byte) : List Byte := l.take o ++ x ++ l.drop (o + x.length)

/-- Whether bytes `o` to `o + n - 1` of `l` are zero (R8). -/
def zeroAt (l : List Byte) (o n : Nat) : Bool := fld l o n == 0

/-- The two's complement value of the low `w` bits of `v` (R7). -/
def sext (w v : Nat) : Int :=
  let u := v % 2 ^ w
  if w = 0 then 0 else if u.testBit (w - 1) then (u : Int) - 2 ^ w else u

/-- The low `w` bits of the two's complement of `i` (R7). -/
def toU (w : Nat) (i : Int) : Nat := (i % (2 ^ w : Int)).toNat

/-- `rnd` of Hatch Fusion Front-End: (x + 2^(n-1)) >> n, arithmetic; `rnd x 0` is x. -/
def rnd (x : Int) (n : Nat) : Int := if n = 0 then x else (x + 2 ^ (n - 1)) / 2 ^ n

/-- `i` held within [lo, hi]. -/
def clampI (lo hi i : Int) : Int := if i < lo then lo else if hi < i then hi else i

/-- `i` saturated to a signed word of `w` bits. -/
def satS (w : Nat) (i : Int) : Int := clampI (-(2 ^ (w - 1))) (2 ^ (w - 1) - 1) i

/-- `i` fits a signed word of `w` bits. -/
def fitsS (w : Nat) (i : Int) : Bool := decide (-(2 ^ (w - 1) : Int) ≤ i ∧ i < 2 ^ (w - 1))

/-- `n` saturated at the largest value of `w` bits. -/
def satU (w n : Nat) : Nat := min n (2 ^ w - 1)

/-- One bit step of a reflected CRC. -/
def crcStepR (poly c : Nat) : Nat → Nat
  | 0 => c
  | n + 1 => crcStepR poly (if c % 2 = 1 then (c / 2) ^^^ poly else c / 2) n

/-- A reflected CRC register after the bytes of `l`. -/
def crcRefl (poly : Nat) (l : List Byte) (c : Nat) : Nat :=
  l.foldl (fun c b => crcStepR poly (c ^^^ b.toNat) 8) c

/-- One bit step of an unreflected CRC of `w` bits. -/
def crcStepN (w poly c : Nat) : Nat → Nat
  | 0 => c
  | n + 1 => crcStepN w poly (if c.testBit (w - 1) then ((c <<< 1) % 2 ^ w) ^^^ poly else (c <<< 1) % 2 ^ w) n

/-- An unreflected CRC register of `w` bits after the bytes of `l`, each byte most significant bit first. -/
def crcNorm (w poly : Nat) (l : List Byte) (c : Nat) : Nat :=
  l.foldl (fun c b => crcStepN w poly (c ^^^ (b.toNat <<< (w - 8))) 8) c

/-- The mask of a 64-bit register of ones. -/
def ones64 : Nat := 0xFFFFFFFFFFFFFFFF

/-- The CRC-64 of the frozen-frame signature, ECMA-182 polynomial reflected (text before R88), extending a finished CRC. -/
def crc64Ext (c : Nat) (l : List Byte) : Nat := crcRefl 0xC96C5795D7870F42 l (c ^^^ ones64) ^^^ ones64

/-- The CRC-64 of the frozen-frame signature over `l` (text before R88, R184, R221). -/
def crc64 (l : List Byte) : Nat := crc64Ext 0 l

/-- CRC-32 of IEEE 802.3 (Tables ARC-8, HAT-15, R527). -/
def crc32 (l : List Byte) : Nat := crcRefl 0xEDB88320 l 0xFFFFFFFF ^^^ 0xFFFFFFFF

/-- CRC-32C of a ring flit (Table RNG-1). -/
def crc32c (l : List Byte) : Nat := crcRefl 0x82F63B78 l 0xFFFFFFFF ^^^ 0xFFFFFFFF

/-- The check bits of a DDR4 burst at physical address `pa` (R442). -/
def crcDdr (pa : Nat) (l : List Byte) : Nat :=
  crcNorm 64 0xD3A16B4C2E957F09 l (0xFFFFFFFC00000000 ||| bits pa 6 30)

/-- The detection code of a queue item: CRC-8, polynomial 0x2F, over 256 data bits and the 2-bit tag (text before Table ING-7). -/
def crc8Item (data : List Byte) (tag : Nat) : Nat :=
  let c := crcNorm 8 0x2F data 0
  crcStepN 8 0x2F (c ^^^ ((tag % 4) <<< 6)) 2

/-- The four parity bits of a 64-bit word of on-chip memory (R440). -/
def parity4 (v : Nat) : Nat :=
  (List.range 64).foldl (fun p i => if v.testBit i then p ^^^ (1 <<< (i % 4)) else p) 0

/-- The floor of the square root (for exact rounding). -/
def isqrt (n : Nat) : Nat := Nat.sqrt n

/-- The offset of the first check of a list that fails: checks stand as (offset, it fails). -/
def firstBad (l : List (Nat × Bool)) : Option Nat := (l.find? (fun e => e.2)).map (fun e => e.1)

end Sys2Proof.Machine
end

