-- ==== Sys2Proof/Machine/RegMap.lean ====
section
/-! DEFINITION. Every register field of the spec: address, element stride, bits, access code and reset value. -/

namespace Sys2Proof.Machine

/-- The access codes of Table SCO-3 (R10). -/
inductive Acc
  | ro | rw | w1c | wo | rc
  deriving DecidableEq, Repr

/-- One field of a register table: `addr` is the first element's byte address, element `i` lies at `addr + i * stride`,
bits [lo + width - 1 : lo] of it; `sat` says that its counter saturates. -/
structure RegField where
  addr : Nat
  count : Nat
  stride : Nat
  lo : Nat
  width : Nat
  acc : Acc
  reset : Nat
  sat : Bool
  deriving DecidableEq, Repr

namespace Reg

/-! Block EAS_ (file 16_bring_up.md of the spec). -/

/-- 1 = restart as from power-on (R546). -/
def EAS_CTRL_RESTART : RegField := ⟨0x0, 1, 0x0, 0, 1, .wo, 0, false⟩
/-- 1 = save the calibration set (R529). -/
def EAS_CTRL_NVSAVE : RegField := ⟨0x0, 1, 0x0, 1, 1, .wo, 0, false⟩
/-- 0x0 = cold, 0x1 = after containment, 0x2 = after thermal trip. -/
def EAS_BOOT_KIND : RegField := ⟨0x4, 1, 0x0, 0, 2, .ro, 0, false⟩
/-- Bit c = channel c restored from saved settings. -/
def EAS_BOOT_TRAIN_SAVED : RegField := ⟨0x4, 1, 0x0, 2, 8, .ro, 0, false⟩
/-- Bit c = channel c fully trained. -/
def EAS_BOOT_TRAIN_FULL : RegField := ⟨0x4, 1, 0x0, 10, 8, .ro, 0, false⟩
/-- A calibration set was loaded (R527). -/
def EAS_BOOT_CALSET : RegField := ⟨0x4, 1, 0x0, 18, 1, .ro, 0, false⟩
/-- A save is in progress. -/
def EAS_BOOT_NVSAVE_BUSY : RegField := ⟨0x4, 1, 0x0, 19, 1, .ro, 0, false⟩
/-- The last save was refused (R529). -/
def EAS_BOOT_NVSAVE_ERR : RegField := ⟨0x4, 1, 0x0, 20, 1, .w1c, 0, false⟩
/-- 0 = DEEP, 1 = QUICK (R541). -/
def EAS_MEMTEST_LEVEL : RegField := ⟨0x8, 1, 0x0, 0, 1, .rw, 0, false⟩
/-- 0x0 = training, 0x1 = boot region, 0x2 = region 0, 0x3 = retention, 0x4 = regions, 0x5 = done. -/
def EAS_MEMTEST_PHASE : RegField := ⟨0x8, 1, 0x0, 1, 3, .ro, 0, false⟩
/-- Bit r = region r failed (R540). -/
def EAS_MEMTEST_FAILED : RegField := ⟨0x8, 1, 0x0, 8, 16, .ro, 0, false⟩
/-- A-PHY quality threshold (Table BUP-8). -/
def EAS_LINKCHK_APHY_MIN : RegField := ⟨0xC, 1, 0x0, 0, 8, .rw, 0xa0, false⟩
/-- Signal quality index threshold. -/
def EAS_LINKCHK_SQI_MIN : RegField := ⟨0xC, 1, 0x0, 8, 3, .rw, 5, false⟩

/-- The fields of block EAS_. -/
def blockEas : List RegField :=
  [EAS_CTRL_RESTART, EAS_CTRL_NVSAVE, EAS_BOOT_KIND, EAS_BOOT_TRAIN_SAVED, EAS_BOOT_TRAIN_FULL, EAS_BOOT_CALSET, EAS_BOOT_NVSAVE_BUSY, EAS_BOOT_NVSAVE_ERR, EAS_MEMTEST_LEVEL, EAS_MEMTEST_PHASE, EAS_MEMTEST_FAILED, EAS_LINKCHK_APHY_MIN, EAS_LINKCHK_SQI_MIN]

/-! Block SEC_ (file 17_security.md of the spec). -/

/-- Debug UNLOCKED (R567). -/
def SEC_STAT_UNLOCKED : RegField := ⟨0x20000, 1, 0x0, 0, 1, .ro, 0, false⟩
/-- Debug scope in force. -/
def SEC_STAT_SCOPE : RegField := ⟨0x20000, 1, 0x0, 1, 2, .ro, 0, false⟩
/-- Last token refused. -/
def SEC_STAT_TOKEN_ERR : RegField := ⟨0x20000, 1, 0x0, 3, 1, .w1c, 0, false⟩
/-- A non-zero table key is latched (R558). -/
def SEC_STAT_TABLE_KEY : RegField := ⟨0x20000, 1, 0x0, 4, 1, .ro, 0, false⟩
/-- Bit n = host port n has a CAK. -/
def SEC_STAT_CAK : RegField := ⟨0x20000, 1, 0x0, 5, 2, .ro, 0, false⟩
/-- 1 = make a report (R562). -/
def SEC_CTRL_ATTEST : RegField := ⟨0x20004, 1, 0x0, 0, 1, .wo, 0, false⟩
/-- 1 = advance the anti-rollback counter (R560). -/
def SEC_CTRL_ADVANCE : RegField := ⟨0x20004, 1, 0x0, 1, 1, .wo, 0, false⟩
/-- 1 = verify the debug token (R567). -/
def SEC_CTRL_UNLOCK : RegField := ⟨0x20004, 1, 0x0, 2, 1, .wo, 0, false⟩
/-- 0x0 = none, 0x1 = OK, 0x2–0x8 as Table SEC-3, 0x9 = READ (R556). -/
def SEC_BOOT_RESULT : RegField := ⟨0x20008, 1, 0x0, 0, 4, .ro, 0, false⟩
/-- svn of the running image. -/
def SEC_BOOT_SVN : RegField := ⟨0x20008, 1, 0x0, 8, 8, .ro, 0, false⟩
/-- fw_version of the running image. -/
def SEC_BOOT_FW_VERSION : RegField := ⟨0x20008, 1, 0x0, 64, 64, .ro, 0, false⟩
/-- 0–128. -/
def SEC_ROLLBACK_COUNTER : RegField := ⟨0x20018, 1, 0x0, 0, 8, .ro, 0, false⟩
/-- Bits still to blow in the advance in progress. -/
def SEC_ROLLBACK_LEFT : RegField := ⟨0x20018, 1, 0x0, 8, 8, .ro, 0, false⟩
/-- SEC_KID.KID. -/
def SEC_KID_KID : RegField := ⟨0x20020, 1, 0x0, 0, 64, .ro, 0, false⟩
/-- SEC_CHAL.CHALLENGE. -/
def SEC_CHAL_CHALLENGE : RegField := ⟨0x20030, 1, 0x0, 0, 128, .ro, 0, false⟩
/-- SEC_NONCE.NONCE. -/
def SEC_NONCE_NONCE : RegField := ⟨0x20040, 1, 0x0, 0, 256, .rw, 0, false⟩
/-- SEC_ATTEST_GEN.GENERATION. -/
def SEC_ATTEST_GEN_GENERATION : RegField := ⟨0x20060, 1, 0x0, 0, 32, .ro, 0, false⟩
/-- SEC_ATTEST_LEN.LENGTH. -/
def SEC_ATTEST_LEN_LENGTH : RegField := ⟨0x20064, 1, 0x0, 0, 11, .ro, 0, false⟩
/-- 1 = take SEC_CAK into use (R566). -/
def SEC_MACSEC_LOAD : RegField := ⟨0x20080, 2, 0x4, 0, 1, .wo, 0, false⟩
/-- Keep the CAK wrapped in the store. -/
def SEC_MACSEC_SAVE : RegField := ⟨0x20080, 2, 0x4, 1, 1, .rw, 0, false⟩
/-- Transmit association number. -/
def SEC_MACSEC_TX_AN : RegField := ⟨0x20080, 2, 0x4, 8, 8, .ro, 0, false⟩
/-- Current receive association number. -/
def SEC_MACSEC_RX_AN : RegField := ⟨0x20080, 2, 0x4, 16, 8, .ro, 0, false⟩
/-- SEC_CAK.KEY. -/
def SEC_CAK_KEY : RegField := ⟨0x20100, 2, 0x20, 0, 256, .wo, 0, false⟩

/-- The fields of block SEC_. -/
def blockSec : List RegField :=
  [SEC_STAT_UNLOCKED, SEC_STAT_SCOPE, SEC_STAT_TOKEN_ERR, SEC_STAT_TABLE_KEY, SEC_STAT_CAK, SEC_CTRL_ATTEST, SEC_CTRL_ADVANCE, SEC_CTRL_UNLOCK, SEC_BOOT_RESULT, SEC_BOOT_SVN, SEC_BOOT_FW_VERSION, SEC_ROLLBACK_COUNTER, SEC_ROLLBACK_LEFT, SEC_KID_KID, SEC_CHAL_CHALLENGE, SEC_NONCE_NONCE, SEC_ATTEST_GEN_GENERATION, SEC_ATTEST_LEN_LENGTH, SEC_MACSEC_LOAD, SEC_MACSEC_SAVE] ++
  [SEC_MACSEC_TX_AN, SEC_MACSEC_RX_AN, SEC_CAK_KEY]

/-! Block SUP_ (file 15_safety_limits.md of the spec). -/

/-- Line asserted. -/
def SUP_STAT_SAFE_A : RegField := ⟨0x30000, 1, 0x0, 0, 1, .ro, 1, false⟩
/-- Line asserted. -/
def SUP_STAT_SAFE_B : RegField := ⟨0x30000, 1, 0x0, 1, 1, .ro, 1, false⟩
/-- Input asserted, as sampled from power-on; 1 while the input is unconnected (R487). -/
def SUP_STAT_SAFE_IN : RegField := ⟨0x30000, 1, 0x0, 2, 1, .ro, 1, false⟩
/-- R476 state. -/
def SUP_STAT_LOCKED : RegField := ⟨0x30000, 1, 0x0, 3, 1, .ro, 0, false⟩
/-- Bit s = source s of Table SAF-3 holds a line. -/
def SUP_STAT_ACTIVE : RegField := ⟨0x30000, 1, 0x0, 8, 9, .ro, 1, false⟩
/-- Bit s = source s of Table SAF-3, in LATCH mode, whose cause has cleared and which still holds SAFE_A only by its latch (R486). -/
def SUP_LATCH_LATCH_A : RegField := ⟨0x30004, 1, 0x0, 0, 9, .ro, 0, false⟩
/-- Bit s = source s of Table SAF-3, in LATCH mode, whose cause has cleared and which still holds SAFE_B only by its latch (R486). -/
def SUP_LATCH_LATCH_B : RegField := ⟨0x30004, 1, 0x0, 16, 9, .ro, 0, false⟩
/-- Deferrals, 0–4 (R509). -/
def SUP_GOLD_DEFERRED : RegField := ⟨0x30010, 1, 0x0, 0, 3, .ro, 0, false⟩
/-- R507. -/
def SUP_GOLD_REF_VALID : RegField := ⟨0x30010, 1, 0x0, 3, 1, .ro, 0, false⟩
/-- Sensor index for the golden frame. -/
def SUP_GOLD_CAMERA : RegField := ⟨0x30010, 1, 0x0, 4, 6, .rw, 0, false⟩
/-- Sensor index for the golden point set; the reset value names lidar port 0 in the default sensor table (R68). -/
def SUP_GOLD_LIDAR : RegField := ⟨0x30010, 1, 0x0, 10, 6, .rw, 0xc, false⟩
/-- R510. -/
def SUP_GOLD_FORCE_US : RegField := ⟨0x30010, 1, 0x0, 16, 16, .rw, 0x7d0, false⟩
/-- Golden runs completed. -/
def SUP_GOLD_CNT_RUNS : RegField := ⟨0x30014, 1, 0x0, 0, 16, .rc, 0, false⟩
/-- R508. -/
def SUP_GOLD_CNT_MISMATCHES : RegField := ⟨0x30014, 1, 0x0, 16, 8, .rc, 0, false⟩
/-- R510. -/
def SUP_GOLD_CNT_STARVED : RegField := ⟨0x30014, 1, 0x0, 24, 8, .rc, 0, false⟩
/-- SUP_BIST.INTERVAL_S. -/
def SUP_BIST_INTERVAL_S : RegField := ⟨0x30020, 1, 0x0, 0, 32, .rw, 0x708, false⟩
/-- Slices completed. -/
def SUP_BIST_CNT_SLICES : RegField := ⟨0x30024, 1, 0x0, 0, 16, .rc, 0, false⟩
/-- R512, R514. -/
def SUP_BIST_CNT_SKIPPED : RegField := ⟨0x30024, 1, 0x0, 16, 16, .rc, 0, false⟩
/-- Highest junction temperature, int12, 0.1 °C. -/
def SUP_THERM_TJ : RegField := ⟨0x30030, 1, 0x0, 0, 12, .ro, 0, false⟩
/-- 115 °C limit in force. -/
def SUP_THERM_THROTTLE : RegField := ⟨0x30030, 1, 0x0, 12, 1, .ro, 0, false⟩
/-- A trip has occurred since power-on. -/
def SUP_THERM_TRIPPED : RegField := ⟨0x30030, 1, 0x0, 13, 1, .ro, 0, false⟩

/-- The fields of block SUP_. -/
def blockSup : List RegField :=
  [SUP_STAT_SAFE_A, SUP_STAT_SAFE_B, SUP_STAT_SAFE_IN, SUP_STAT_LOCKED, SUP_STAT_ACTIVE, SUP_LATCH_LATCH_A, SUP_LATCH_LATCH_B, SUP_GOLD_DEFERRED, SUP_GOLD_REF_VALID, SUP_GOLD_CAMERA, SUP_GOLD_LIDAR, SUP_GOLD_FORCE_US, SUP_GOLD_CNT_RUNS, SUP_GOLD_CNT_MISMATCHES, SUP_GOLD_CNT_STARVED, SUP_BIST_INTERVAL_S, SUP_BIST_CNT_SLICES, SUP_BIST_CNT_SKIPPED, SUP_THERM_TJ, SUP_THERM_THROTTLE] ++
  [SUP_THERM_TRIPPED]

/-! Block MGD_ (file 15_safety_limits.md of the spec). -/

/-- 0x0 NONE, 0x1 LOADING, 0x2 LOCKED, 0x3 AUTH_FAIL, 0x4 BAD_FIELD. -/
def MGD_STAT_LOAD : RegField := ⟨0x40000, 1, 0x0, 0, 3, .ro, 0, false⟩
/-- 1 = load the table named by MGD_LOAD. -/
def MGD_CTRL_GO : RegField := ⟨0x40004, 1, 0x0, 0, 1, .wo, 0, false⟩
/-- Job context. -/
def MGD_LOAD_CONTEXT : RegField := ⟨0x40008, 1, 0x0, 0, 8, .rw, 0, false⟩
/-- Device virtual address of the COSE_Sign1 structure. -/
def MGD_LOAD_VA : RegField := ⟨0x40008, 1, 0x0, 32, 64, .rw, 0, false⟩
/-- Bytes, 1–16,384. -/
def MGD_LOAD_LENGTH : RegField := ⟨0x40008, 1, 0x0, 96, 15, .rw, 0, false⟩
/-- R493. -/
def MGD_PATH_VIOLATIONS : RegField := ⟨0x40100, 10, 0x4, 0, 16, .rc, 0, false⟩
/-- Frames dropped by the policer (R494, R502). -/
def MGD_PATH_POLICED : RegField := ⟨0x40100, 10, 0x4, 16, 16, .rc, 0, false⟩

/-- The fields of block MGD_. -/
def blockMgd : List RegField :=
  [MGD_STAT_LOAD, MGD_CTRL_GO, MGD_LOAD_CONTEXT, MGD_LOAD_VA, MGD_LOAD_LENGTH, MGD_PATH_VIOLATIONS, MGD_PATH_POLICED]

/-! Block PWR_ (file 18_module_hardware.md of the spec). -/

/-- VIN in mV, averaged over 1 ms. -/
def PWR_SUPPLY_VIN_MV : RegField := ⟨0x50000, 1, 0x0, 0, 16, .ro, 0, false⟩
/-- VCAM in mV, averaged over 1 ms. -/
def PWR_SUPPLY_VCAM_MV : RegField := ⟨0x50000, 1, 0x0, 16, 16, .ro, 0, false⟩
/-- Input power of R575 in units of 0.1 W, averaged over 10 ms. -/
def PWR_INPUT_POWER_DW : RegField := ⟨0x50004, 1, 0x0, 0, 16, .ro, 0, false⟩
/-- Highest POWER_DW since the last read. -/
def PWR_INPUT_PEAK_DW : RegField := ⟨0x50004, 1, 0x0, 16, 16, .rc, 0, false⟩
/-- VIN below 9.0 V (Table MOD-4). -/
def PWR_STAT_UNDERVOLT : RegField := ⟨0x50008, 1, 0x0, 0, 1, .ro, 0, false⟩
/-- VIN above 60 V. -/
def PWR_STAT_OVERVOLT : RegField := ⟨0x50008, 1, 0x0, 1, 1, .ro, 0, false⟩
/-- A ride-through has occurred (R572). -/
def PWR_STAT_RIDE_THROUGH : RegField := ⟨0x50008, 1, 0x0, 2, 1, .w1c, 0, false⟩
/-- The last power-down was a brown-out (R574). -/
def PWR_STAT_BROWNOUT : RegField := ⟨0x50008, 1, 0x0, 3, 1, .w1c, 0, false⟩
/-- The power limiter holds a clock below the maximum. -/
def PWR_STAT_LIMITING : RegField := ⟨0x50008, 1, 0x0, 4, 1, .ro, 0, false⟩
/-- WAKE high. -/
def PWR_STAT_WAKE : RegField := ⟨0x50008, 1, 0x0, 5, 1, .ro, 1, false⟩
/-- VCAM outside 9–16 V (R579). -/
def PWR_STAT_VCAM_BAD : RegField := ⟨0x50008, 1, 0x0, 6, 1, .ro, 0, false⟩
/-- R585. -/
def PWR_STAT_BASE_RANGE : RegField := ⟨0x50008, 1, 0x0, 7, 1, .ro, 0, false⟩
/-- Base-plate temperature, int16, 0.1 °C. -/
def PWR_TEMP_BASE : RegField := ⟨0x5000C, 1, 0x0, 0, 16, .ro, 0, false⟩
/-- Bit n = camera port n switch enabled; writing 1 clears a lock-out under R579. -/
def PWR_POC_ENABLE : RegField := ⟨0x50010, 1, 0x0, 0, 12, .rw, 0xfff, false⟩
/-- Bit n = port n switch open on overcurrent. -/
def PWR_POC_FAULT : RegField := ⟨0x50010, 1, 0x0, 16, 12, .ro, 0, false⟩
/-- Power-off delay after WAKE low, 0–600 s (R578). -/
def PWR_WAKE_DELAY_S : RegField := ⟨0x50014, 1, 0x0, 0, 10, .rw, 0xa, false⟩
/-- TRG00–TRG07: 0 = 3.3 V, 1 = 5 V. -/
def PWR_TRG_LEVEL_LO : RegField := ⟨0x50018, 1, 0x0, 0, 1, .rw, 0, false⟩
/-- TRG08–TRG15: 0 = 3.3 V, 1 = 5 V. -/
def PWR_TRG_LEVEL_HI : RegField := ⟨0x50018, 1, 0x0, 1, 1, .rw, 0, false⟩

/-- The fields of block PWR_. -/
def blockPwr : List RegField :=
  [PWR_SUPPLY_VIN_MV, PWR_SUPPLY_VCAM_MV, PWR_INPUT_POWER_DW, PWR_INPUT_PEAK_DW, PWR_STAT_UNDERVOLT, PWR_STAT_OVERVOLT, PWR_STAT_RIDE_THROUGH, PWR_STAT_BROWNOUT, PWR_STAT_LIMITING, PWR_STAT_WAKE, PWR_STAT_VCAM_BAD, PWR_STAT_BASE_RANGE, PWR_TEMP_BASE, PWR_POC_ENABLE, PWR_POC_FAULT, PWR_WAKE_DELAY_S, PWR_TRG_LEVEL_LO, PWR_TRG_LEVEL_HI]

/-! Block RUL_ (file 02_time_base.md of the spec). -/

/-- 1 = triggers and epochs run. -/
def RUL_CTRL_RUN : RegField := ⟨0x60000, 1, 0x0, 0, 1, .rw, 1, false⟩
/-- 0x0 = automatic, 0x1 = gPTP only, 0x2 = 1PPS only, 0x3 = free-run. -/
def RUL_CTRL_REF_SEL : RegField := ⟨0x60000, 1, 0x0, 1, 2, .rw, 0, false⟩
/-- 1 = swap banks at the next epoch boundary. -/
def RUL_CTRL_SWAP : RegField := ⟨0x60000, 1, 0x0, 3, 1, .wo, 0, false⟩
/-- 1 = apply RUL_STEP. -/
def RUL_CTRL_STEP_GO : RegField := ⟨0x60000, 1, 0x0, 4, 1, .wo, 0, false⟩
/-- State code of Table TIM-1. -/
def RUL_STAT_STATE : RegField := ⟨0x60004, 1, 0x0, 0, 2, .ro, 0, false⟩
/-- Time is traceable to TAI. -/
def RUL_STAT_TRACEABLE : RegField := ⟨0x60004, 1, 0x0, 2, 1, .ro, 0, false⟩
/-- Active bank. -/
def RUL_STAT_BANK : RegField := ⟨0x60004, 1, 0x0, 3, 1, .ro, 0, false⟩
/-- A swap waits for the boundary. -/
def RUL_STAT_SWAP_PENDING : RegField := ⟨0x60004, 1, 0x0, 4, 1, .ro, 0, false⟩
/-- Last swap refused. -/
def RUL_STAT_SWAP_ERR : RegField := ⟨0x60004, 1, 0x0, 5, 1, .w1c, 0, false⟩
/-- A step has occurred. -/
def RUL_STAT_STEPPED : RegField := ⟨0x60004, 1, 0x0, 6, 1, .w1c, 0, false⟩
/-- A slave port exists. -/
def RUL_STAT_SLAVE_VALID : RegField := ⟨0x60004, 1, 0x0, 7, 1, .ro, 0, false⟩
/-- Slave port number. -/
def RUL_STAT_SLAVE_PORT : RegField := ⟨0x60004, 1, 0x0, 8, 3, .ro, 0, false⟩
/-- Entry that failed the check of R51. -/
def RUL_STAT_ERR_ENTRY : RegField := ⟨0x60004, 1, 0x0, 16, 8, .ro, 0, false⟩
/-- Fraction bits, at 0x0008. -/
def RUL_INC_FRAC : RegField := ⟨0x60008, 1, 0x0, 0, 32, .ro, 0, false⟩
/-- Integer nanoseconds, bits [7:0] at 0x000C. -/
def RUL_INC_INT : RegField := ⟨0x60008, 1, 0x0, 32, 8, .ro, 4, false⟩
/-- DT96 fraction at 0x0010; a read latches the words at 0x0014 and 0x0018. -/
def RUL_TIME_FRAC : RegField := ⟨0x60010, 1, 0x0, 0, 32, .ro, 0, false⟩
/-- DT64 at 0x0014 (low) and 0x0018 (high), as latched. -/
def RUL_TIME_NS : RegField := ⟨0x60010, 1, 0x0, 32, 64, .ro, 0, false⟩
/-- Epoch length in ms (R48). -/
def RUL_EPOCH_LEN_MS : RegField := ⟨0x60020, 1, 0x0, 0, 10, .rw, 0x32, false⟩
/-- Sync object signalled at each boundary. -/
def RUL_EPOCH_SYNC_OBJ : RegField := ⟨0x60020, 1, 0x0, 16, 16, .rw, 0xffff, false⟩
/-- RUL_EPOCH_OFS.OFS_NS. -/
def RUL_EPOCH_OFS_OFS_NS : RegField := ⟨0x60024, 1, 0x0, 0, 32, .rw, 0, false⟩
/-- RUL_EPOCH_NUM.NUM. -/
def RUL_EPOCH_NUM_NUM : RegField := ⟨0x60028, 1, 0x0, 0, 32, .ro, 0, false⟩
/-- Signed step applied by STEP_GO. -/
def RUL_STEP_DELTA_NS : RegField := ⟨0x60030, 1, 0x0, 0, 64, .rw, 0, false⟩
/-- Lock threshold in ns. -/
def RUL_SERVO_LOCK_THR : RegField := ⟨0x60040, 1, 0x0, 0, 16, .rw, 0xfa, false⟩
/-- Clamped servo results. -/
def RUL_SERVO_CLAMPS : RegField := ⟨0x60040, 1, 0x0, 16, 16, .rc, 0, false⟩
/-- RUL_SERVO_STEP.STEP_THR. -/
def RUL_SERVO_STEP_STEP_THR : RegField := ⟨0x60044, 1, 0x0, 0, 32, .rw, 0xf4240, false⟩
/-- RUL_OFFSET.O. -/
def RUL_OFFSET_O : RegField := ⟨0x60048, 1, 0x0, 0, 32, .ro, 0, false⟩
/-- Bit n = entry n has TRACK and its sensor is locked. -/
def RUL_LOCK_LOCKED : RegField := ⟨0x60060, 1, 0x0, 0, 256, .ro, 0, false⟩
/-- Pulses suppressed under R57. -/
def RUL_TRGSUP_SUPPRESSED : RegField := ⟨0x60080, 16, 0x4, 0, 16, .rc, 0, false⟩
/-- Back-channel trigger latency in ns. -/
def RUL_BCLAT_LAT_NS : RegField := ⟨0x600C0, 12, 0x4, 0, 20, .rw, 0x7d0, false⟩
/-- Receive latency in units of 0.125 ns, as measured for this module and port. -/
def RUL_PLAT_RX_LAT : RegField := ⟨0x60100, 8, 0x8, 0, 16, .rw, 0, false⟩
/-- Transmit latency in units of 0.125 ns, as measured for this module and port. -/
def RUL_PLAT_TX_LAT : RegField := ⟨0x60100, 8, 0x8, 16, 16, .rw, 0, false⟩
/-- Stamps discarded under R44. -/
def RUL_PLAT_LOST : RegField := ⟨0x60100, 8, 0x8, 32, 16, .rc, 0, false⟩

/-- The fields of block RUL_. -/
def blockRul : List RegField :=
  [RUL_CTRL_RUN, RUL_CTRL_REF_SEL, RUL_CTRL_SWAP, RUL_CTRL_STEP_GO, RUL_STAT_STATE, RUL_STAT_TRACEABLE, RUL_STAT_BANK, RUL_STAT_SWAP_PENDING, RUL_STAT_SWAP_ERR, RUL_STAT_STEPPED, RUL_STAT_SLAVE_VALID, RUL_STAT_SLAVE_PORT, RUL_STAT_ERR_ENTRY, RUL_INC_FRAC, RUL_INC_INT, RUL_TIME_FRAC, RUL_TIME_NS, RUL_EPOCH_LEN_MS, RUL_EPOCH_SYNC_OBJ, RUL_EPOCH_OFS_OFS_NS] ++
  [RUL_EPOCH_NUM_NUM, RUL_STEP_DELTA_NS, RUL_SERVO_LOCK_THR, RUL_SERVO_CLAMPS, RUL_SERVO_STEP_STEP_THR, RUL_OFFSET_O, RUL_LOCK_LOCKED, RUL_TRGSUP_SUPPRESSED, RUL_BCLAT_LAT_NS, RUL_PLAT_RX_LAT, RUL_PLAT_TX_LAT, RUL_PLAT_LOST]

/-! Block ING_ (file 03_sensor_ingest.md of the spec). -/

/-- Link up and checked. -/
def ING_PORT_STAT_LINK : RegField := ⟨0x70000, 35, 0x4, 0, 1, .ro, 0, false⟩
/-- Camera downlink gear 1–3; zero otherwise. -/
def ING_PORT_STAT_GEAR : RegField := ⟨0x70000, 35, 0x4, 1, 3, .ro, 0, false⟩
/-- Link quality figure of the PHY. -/
def ING_PORT_STAT_QUALITY : RegField := ⟨0x70000, 35, 0x4, 8, 8, .ro, 0, false⟩
/-- Packets discarded under R64. -/
def ING_PORT_STAT_BAD : RegField := ⟨0x70000, 35, 0x4, 16, 8, .rc, 0, false⟩
/-- Frames discarded under R75. -/
def ING_PORT_STAT_UNMATCHED : RegField := ⟨0x70000, 35, 0x4, 24, 8, .rc, 0, false⟩
/-- State code of Table ING-5. -/
def ING_SENS_STATE : RegField := ⟨0x70100, 64, 0x8, 0, 3, .ro, 0, false⟩
/-- FROZEN frames. -/
def ING_SENS_FROZEN : RegField := ⟨0x70100, 64, 0x8, 16, 16, .rc, 0, false⟩
/-- Packets dropped under R93. -/
def ING_SENS_QUOTA_DROPS : RegField := ⟨0x70100, 64, 0x8, 32, 16, .rc, 0, false⟩
/-- 1 = swap sensor-table banks at the next epoch boundary. -/
def ING_ST_CTRL_SWAP : RegField := ⟨0x70300, 1, 0x0, 0, 1, .wo, 0, false⟩
/-- Active bank. -/
def ING_ST_CTRL_BANK : RegField := ⟨0x70300, 1, 0x0, 1, 1, .ro, 0, false⟩
/-- A swap waits for the boundary. -/
def ING_ST_CTRL_SWAP_PENDING : RegField := ⟨0x70300, 1, 0x0, 2, 1, .ro, 0, false⟩
/-- Last swap refused under R67. -/
def ING_ST_CTRL_SWAP_ERR : RegField := ⟨0x70300, 1, 0x0, 3, 1, .w1c, 0, false⟩
/-- Failing entry. -/
def ING_ST_CTRL_ERR_ENTRY : RegField := ⟨0x70300, 1, 0x0, 8, 6, .ro, 0, false⟩
/-- 0x0 = 125, 0x1 = 250, 0x2 = 500, 0x3 = 1,000 kbit/s. -/
def ING_CAN_BIT_NOM : RegField := ⟨0x70400, 6, 0x4, 0, 2, .rw, 2, false⟩
/-- 0x0 = 1, 0x1 = 2, 0x2 = 4, 0x3 = 5 Mbit/s. -/
def ING_CAN_BIT_DATA : RegField := ⟨0x70400, 6, 0x4, 2, 2, .rw, 1, false⟩
/-- 0x0 = CAN FD, 0x1 = classical only, 0x2 = listen-only, 0x3 reserved. -/
def ING_CAN_BIT_MODE : RegField := ⟨0x70400, 6, 0x4, 4, 2, .rw, 0, false⟩

/-- The fields of block ING_. -/
def blockIng : List RegField :=
  [ING_PORT_STAT_LINK, ING_PORT_STAT_GEAR, ING_PORT_STAT_QUALITY, ING_PORT_STAT_BAD, ING_PORT_STAT_UNMATCHED, ING_SENS_STATE, ING_SENS_FROZEN, ING_SENS_QUOTA_DROPS, ING_ST_CTRL_SWAP, ING_ST_CTRL_BANK, ING_ST_CTRL_SWAP_PENDING, ING_ST_CTRL_SWAP_ERR, ING_ST_CTRL_ERR_ENTRY, ING_CAN_BIT_NOM, ING_CAN_BIT_DATA, ING_CAN_BIT_MODE]

/-! Block SPQ_ (file 03_sensor_ingest.md of the spec). -/

/-- Queue enabled (R78). -/
def SPQ_CTRL_EN : RegField := ⟨0x80000, 51, 0x40, 0, 1, .rw, 1, false⟩
/-- 0 = default consumer, 1 = software. -/
def SPQ_CTRL_CONS : RegField := ⟨0x80000, 51, 0x40, 1, 1, .rw, 0, false⟩
/-- Middle data size 2^n bytes, n = 16 to 26. -/
def SPQ_CTRL_LOG2_SIZE : RegField := ⟨0x80000, 51, 0x40, 8, 5, .rw, 0x16, false⟩
/-- Physical address bits [35:16] of the middle. -/
def SPQ_MID_BASE_BASE : RegField := ⟨0x80004, 51, 0x40, 0, 20, .rw, 0, false⟩
/-- Readable words (R80). -/
def SPQ_COUNT_COUNT : RegField := ⟨0x80008, 51, 0x40, 0, 23, .ro, 0, false⟩
/-- Queue full (R81). -/
def SPQ_COUNT_FULL : RegField := ⟨0x80008, 51, 0x40, 24, 1, .ro, 0, false⟩
/-- Write ignored while full. -/
def SPQ_COUNT_OVERRUN : RegField := ⟨0x80008, 51, 0x40, 25, 1, .rc, 0, false⟩
/-- Packets discarded whole (R78, R82). -/
def SPQ_EVENTS_DROPPED : RegField := ⟨0x8000C, 51, 0x40, 0, 16, .rc, 0, false⟩
/-- Resets under R86. -/
def SPQ_EVENTS_RESETS : RegField := ⟨0x8000C, 51, 0x40, 16, 8, .rc, 0, false⟩
/-- Words delivered as POISON. -/
def SPQ_EVENTS_POISONED : RegField := ⟨0x8000C, 51, 0x40, 24, 8, .rc, 0, false⟩
/-- Tag of the popped word; a read pops under R87. -/
def SPQ_POP_TAG : RegField := ⟨0x80010, 51, 0x40, 0, 2, .ro, 0, false⟩
/-- SPQ_WORD0.DATA. -/
def SPQ_WORD0_DATA : RegField := ⟨0x80020, 51, 0x40, 0, 32, .ro, 0, false⟩
/-- SPQ_WORD1.DATA. -/
def SPQ_WORD1_DATA : RegField := ⟨0x80024, 51, 0x40, 0, 32, .ro, 0, false⟩
/-- SPQ_WORD2.DATA. -/
def SPQ_WORD2_DATA : RegField := ⟨0x80028, 51, 0x40, 0, 32, .ro, 0, false⟩
/-- SPQ_WORD3.DATA. -/
def SPQ_WORD3_DATA : RegField := ⟨0x8002C, 51, 0x40, 0, 32, .ro, 0, false⟩
/-- SPQ_WORD4.DATA. -/
def SPQ_WORD4_DATA : RegField := ⟨0x80030, 51, 0x40, 0, 32, .ro, 0, false⟩
/-- SPQ_WORD5.DATA. -/
def SPQ_WORD5_DATA : RegField := ⟨0x80034, 51, 0x40, 0, 32, .ro, 0, false⟩
/-- SPQ_WORD6.DATA. -/
def SPQ_WORD6_DATA : RegField := ⟨0x80038, 51, 0x40, 0, 32, .ro, 0, false⟩
/-- SPQ_WORD7.DATA. -/
def SPQ_WORD7_DATA : RegField := ⟨0x8003C, 51, 0x40, 0, 32, .ro, 0, false⟩

/-- The fields of block SPQ_. -/
def blockSpq : List RegField :=
  [SPQ_CTRL_EN, SPQ_CTRL_CONS, SPQ_CTRL_LOG2_SIZE, SPQ_MID_BASE_BASE, SPQ_COUNT_COUNT, SPQ_COUNT_FULL, SPQ_COUNT_OVERRUN, SPQ_EVENTS_DROPPED, SPQ_EVENTS_RESETS, SPQ_EVENTS_POISONED, SPQ_POP_TAG, SPQ_WORD0_DATA, SPQ_WORD1_DATA, SPQ_WORD2_DATA, SPQ_WORD3_DATA, SPQ_WORD4_DATA, SPQ_WORD5_DATA, SPQ_WORD6_DATA, SPQ_WORD7_DATA]

/-! Block HAT_ (file 04_hatch_fusion.md of the spec). -/

/-- Hatch processes epochs. -/
def HAT_CTRL_RUN : RegField := ⟨0x90000, 1, 0x0, 0, 1, .rw, 1, false⟩
/-- Active Hatch bank. -/
def HAT_CTRL_BANK : RegField := ⟨0x90000, 1, 0x0, 1, 1, .ro, 0, false⟩
/-- A swap waits for the boundary. -/
def HAT_CTRL_SWAP_PENDING : RegField := ⟨0x90000, 1, 0x0, 2, 1, .ro, 0, false⟩
/-- Inactive bank still in use (R98). -/
def HAT_CTRL_OLD_BUSY : RegField := ⟨0x90000, 1, 0x0, 3, 1, .ro, 0, false⟩
/-- Cell rows along x. -/
def HAT_GRID_NX : RegField := ⟨0x90010, 1, 0x0, 0, 16, .rw, 0x400, false⟩
/-- Cells along y. -/
def HAT_GRID_NY : RegField := ⟨0x90010, 1, 0x0, 16, 16, .rw, 0x100, false⟩
/-- Origin x, int32, 0.1 mm. -/
def HAT_GRID_X0 : RegField := ⟨0x90010, 1, 0x0, 32, 32, .rw, 0xfff8ad00, false⟩
/-- Origin y, int32, 0.1 mm. -/
def HAT_GRID_Y0 : RegField := ⟨0x90010, 1, 0x0, 64, 32, .rw, 0xfffb1e00, false⟩
/-- Cell size, 0.1 mm, 500–20,000. -/
def HAT_GRID_CELL : RegField := ⟨0x90010, 1, 0x0, 96, 16, .rw, 0x9c4, false⟩
/-- Reference time from epoch start, at most 2 × epoch length. -/
def HAT_EGO_REF_MS : RegField := ⟨0x90020, 1, 0x0, 0, 11, .rw, 0x32, false⟩
/-- Longest held run (R108). -/
def HAT_EGO_HOLD_MS : RegField := ⟨0x90020, 1, 0x0, 16, 16, .rw, 0x64, false⟩
/-- Velocity tolerance, 0.1 m/s. -/
def HAT_EGO_V_TOL : RegField := ⟨0x90020, 1, 0x0, 32, 16, .rw, 5, false⟩
/-- Rate tolerance, mrad/s. -/
def HAT_EGO_W_TOL : RegField := ⟨0x90020, 1, 0x0, 48, 16, .rw, 0x14, false⟩
/-- Plane wait after close, µs. -/
def HAT_VOTE_EVID_WAIT : RegField := ⟨0x90030, 1, 0x0, 0, 16, .rw, 0xfa0, false⟩
/-- Early limit. -/
def HAT_WD_EARLY_US : RegField := ⟨0x90100, 6, 0x8, 0, 32, .rw, 0, false⟩
/-- Late limit. -/
def HAT_WD_LATE_US : RegField := ⟨0x90100, 6, 0x8, 32, 32, .rw, 0, false⟩
/-- R95. -/
def HAT_CNT_LATE_FRAMES : RegField := ⟨0x90200, 1, 0x0, 0, 32, .rc, 0, false⟩
/-- R102. -/
def HAT_CNT_FORMAT_ERR : RegField := ⟨0x90204, 1, 0x0, 0, 32, .rc, 0, false⟩
/-- R104. -/
def HAT_CNT_SEQ_GAPS : RegField := ⟨0x90208, 1, 0x0, 0, 32, .rc, 0, false⟩
/-- R105, R114. -/
def HAT_CNT_POINT_DROPS : RegField := ⟨0x9020C, 1, 0x0, 0, 32, .rc, 0, false⟩
/-- R106. -/
def HAT_CNT_TIME_DROPS : RegField := ⟨0x90210, 1, 0x0, 0, 32, .rc, 0, false⟩
/-- R109. -/
def HAT_CNT_EGO_DROPS : RegField := ⟨0x90214, 1, 0x0, 0, 32, .rc, 0, false⟩
/-- R112. -/
def HAT_CNT_RANGE_DROPS : RegField := ⟨0x90218, 1, 0x0, 0, 32, .rc, 0, false⟩
/-- H1 output to an offline plate. -/
def HAT_CNT_DST_DROPS : RegField := ⟨0x9021C, 1, 0x0, 0, 32, .rc, 0, false⟩
/-- R127. -/
def HAT_CNT_LATE_EPOCHS : RegField := ⟨0x90220, 1, 0x0, 0, 32, .rc, 0, false⟩
/-- Evidence-window writes discarded (R115). -/
def HAT_CNT_EVID_BAD : RegField := ⟨0x90224, 1, 0x0, 0, 32, .rc, 0, false⟩
/-- 0x0 = voting, 0x1 = EXCLUDED, 0x2 = DEGRADED, 0x3 = EXCLUDED and re-qualifying. -/
def HAT_VSTATE_STATE : RegField := ⟨0x90400, 64, 0x4, 0, 2, .ro, 0, false⟩
/-- Disagreements in the current window, saturating. -/
def HAT_VSTATE_COUNT : RegField := ⟨0x90400, 64, 0x4, 8, 24, .ro, 0, true⟩

/-- The fields of block HAT_. -/
def blockHat : List RegField :=
  [HAT_CTRL_RUN, HAT_CTRL_BANK, HAT_CTRL_SWAP_PENDING, HAT_CTRL_OLD_BUSY, HAT_GRID_NX, HAT_GRID_NY, HAT_GRID_X0, HAT_GRID_Y0, HAT_GRID_CELL, HAT_EGO_REF_MS, HAT_EGO_HOLD_MS, HAT_EGO_V_TOL, HAT_EGO_W_TOL, HAT_VOTE_EVID_WAIT, HAT_WD_EARLY_US, HAT_WD_LATE_US, HAT_CNT_LATE_FRAMES, HAT_CNT_FORMAT_ERR, HAT_CNT_SEQ_GAPS, HAT_CNT_POINT_DROPS] ++
  [HAT_CNT_TIME_DROPS, HAT_CNT_EGO_DROPS, HAT_CNT_RANGE_DROPS, HAT_CNT_DST_DROPS, HAT_CNT_LATE_EPOCHS, HAT_CNT_EVID_BAD, HAT_VSTATE_STATE, HAT_VSTATE_COUNT]

/-! Block STP_ (file 05_stipple_points.md of the spec). -/

/-- 1 = jobs are accepted but none starts. -/
def STP_CTRL_HOLD : RegField := ⟨0xA0000, 1, 0x0, 0, 1, .rw, 0, false⟩
/-- A job is running. -/
def STP_STAT_BUSY : RegField := ⟨0xA0004, 1, 0x0, 0, 1, .ro, 0, false⟩
/-- op of the running job. -/
def STP_STAT_OP : RegField := ⟨0xA0004, 1, 0x0, 1, 3, .ro, 0, false⟩
/-- Jobs accepted and not completed, 0–16. -/
def STP_STAT_QUEUED : RegField := ⟨0xA0004, 1, 0x0, 8, 5, .ro, 0, false⟩
/-- Reruns of the running job under R162. -/
def STP_STAT_RETRY : RegField := ⟨0xA0004, 1, 0x0, 16, 2, .ro, 0, false⟩
/-- Jobs completed. -/
def STP_CNT_JOBS : RegField := ⟨0xA0100, 1, 0x0, 0, 32, .rc, 0, false⟩
/-- R142. -/
def STP_CNT_PROBE_DROPS : RegField := ⟨0xA0104, 1, 0x0, 0, 32, .rc, 0, false⟩
/-- Points dropped at cell_cap. -/
def STP_CNT_CELL_DROPS : RegField := ⟨0xA0108, 1, 0x0, 0, 32, .rc, 0, false⟩
/-- R139. -/
def STP_CNT_POINT_DROPS : RegField := ⟨0xA010C, 1, 0x0, 0, 32, .rc, 0, false⟩
/-- R136, R140 and REQ_VF. -/
def STP_CNT_FILTERED : RegField := ⟨0xA0110, 1, 0x0, 0, 32, .rc, 0, false⟩
/-- R157. -/
def STP_CNT_SITE_DROPS : RegField := ⟨0xA0114, 1, 0x0, 0, 32, .rc, 0, false⟩
/-- Reruns under R162. -/
def STP_CNT_RECOMPUTES : RegField := ⟨0xA0118, 1, 0x0, 0, 32, .rc, 0, false⟩
/-- Jobs ended under R141. -/
def STP_CNT_STALE : RegField := ⟨0xA011C, 1, 0x0, 0, 32, .rc, 0, false⟩
/-- Inserts and merges that found their slot at probe j. -/
def STP_PROBE_HIST_HITS : RegField := ⟨0xA0200, 8, 0x4, 0, 32, .rc, 0, false⟩

/-- The fields of block STP_. -/
def blockStp : List RegField :=
  [STP_CTRL_HOLD, STP_STAT_BUSY, STP_STAT_OP, STP_STAT_QUEUED, STP_STAT_RETRY, STP_CNT_JOBS, STP_CNT_PROBE_DROPS, STP_CNT_CELL_DROPS, STP_CNT_POINT_DROPS, STP_CNT_FILTERED, STP_CNT_SITE_DROPS, STP_CNT_RECOMPUTES, STP_CNT_STALE, STP_PROBE_HIST_HITS]

/-! Block BRN_ (file 09_burnisher_solver.md of the spec). -/

/-- 1 = operations are accepted but no run starts. -/
def BRN_CTRL_HOLD : RegField := ⟨0xB0000, 1, 0x0, 0, 1, .rw, 0, false⟩
/-- A run is executing. -/
def BRN_STAT_BUSY : RegField := ⟨0xB0004, 1, 0x0, 0, 1, .ro, 0, false⟩
/-- Problem of the running run. -/
def BRN_STAT_PROBLEM : RegField := ⟨0xB0004, 1, 0x0, 1, 3, .ro, 0, false⟩
/-- Step executing. -/
def BRN_STAT_STEP : RegField := ⟨0xB0004, 1, 0x0, 4, 6, .ro, 0, false⟩
/-- Operations accepted and not completed, 0–32. -/
def BRN_STAT_QUEUED : RegField := ⟨0xB0004, 1, 0x0, 10, 6, .ro, 0, false⟩
/-- A preconditioner is being built. -/
def BRN_STAT_SETUP : RegField := ⟨0xB0004, 1, 0x0, 16, 1, .ro, 0, false⟩
/-- Free burnisher memory in 4 KiB units. -/
def BRN_MEM_FREE_4K : RegField := ⟨0xB0008, 1, 0x0, 0, 11, .ro, 0x400, false⟩
/-- Table BRN-4. -/
def BRN_PROB_STATE : RegField := ⟨0xB0010, 8, 0x4, 0, 2, .ro, 0, false⟩
/-- Triggering is active. -/
def BRN_PROB_ARMED : RegField := ⟨0xB0010, 8, 0x4, 2, 1, .ro, 0, false⟩
/-- A triggered run waits (R285). -/
def BRN_PROB_PENDING : RegField := ⟨0xB0010, 8, 0x4, 3, 1, .ro, 0, false⟩
/-- The preconditioner will be rebuilt. -/
def BRN_PROB_PRE_STALE : RegField := ⟨0xB0010, 8, 0x4, 4, 1, .ro, 0, false⟩
/-- Memory held, in 4 KiB units. -/
def BRN_PROB_ALLOC_4K : RegField := ⟨0xB0010, 8, 0x4, 16, 11, .ro, 0, false⟩
/-- Runs completed. -/
def BRN_CNT_RUNS : RegField := ⟨0xB0100, 1, 0x0, 0, 32, .rc, 0, false⟩
/-- Iterations completed, saturating. -/
def BRN_CNT_ITERATIONS : RegField := ⟨0xB0104, 1, 0x0, 0, 32, .rc, 0, true⟩
/-- R269. -/
def BRN_CNT_SATURATIONS : RegField := ⟨0xB0108, 1, 0x0, 0, 32, .rc, 0, false⟩
/-- Runs stopped by deadline. -/
def BRN_CNT_DEADLINES : RegField := ⟨0xB010C, 1, 0x0, 0, 32, .rc, 0, false⟩
/-- Runs stopped by breakdown. -/
def BRN_CNT_BREAKDOWNS : RegField := ⟨0xB0110, 1, 0x0, 0, 32, .rc, 0, false⟩
/-- R291. -/
def BRN_CNT_WARM_REJECTS : RegField := ⟨0xB0114, 1, 0x0, 0, 32, .rc, 0, false⟩
/-- R284, R285. -/
def BRN_CNT_TRIG_OVERRUNS : RegField := ⟨0xB0118, 1, 0x0, 0, 32, .rc, 0, false⟩
/-- Reruns under R295. -/
def BRN_CNT_RECOMPUTES : RegField := ⟨0xB011C, 1, 0x0, 0, 32, .rc, 0, false⟩

/-- The fields of block BRN_. -/
def blockBrn : List RegField :=
  [BRN_CTRL_HOLD, BRN_STAT_BUSY, BRN_STAT_PROBLEM, BRN_STAT_STEP, BRN_STAT_QUEUED, BRN_STAT_SETUP, BRN_MEM_FREE_4K, BRN_PROB_STATE, BRN_PROB_ARMED, BRN_PROB_PENDING, BRN_PROB_PRE_STALE, BRN_PROB_ALLOC_4K, BRN_CNT_RUNS, BRN_CNT_ITERATIONS, BRN_CNT_SATURATIONS, BRN_CNT_DEADLINES, BRN_CNT_BREAKDOWNS, BRN_CNT_WARM_REJECTS, BRN_CNT_TRIG_OVERRUNS, BRN_CNT_RECOMPUTES]

/-! Block TRC_ (file 08_attention_cache.md of the spec). -/

/-- Tracer on and serving. -/
def TRC_STAT_RUN : RegField := ⟨0xC0000, 2, 0x8000, 0, 1, .ro, 0, false⟩
/-- Commands queued, 0–256. -/
def TRC_STAT_QUEUED : RegField := ⟨0xC0000, 2, 0x8000, 1, 9, .ro, 0, false⟩
/-- Epochs with a non-zero pin count, 0–64. -/
def TRC_STAT_PINNED : RegField := ⟨0xC0000, 2, 0x8000, 16, 7, .ro, 0, false⟩
/-- E held under R256. -/
def TRC_STAT_HELD : RegField := ⟨0xC0000, 2, 0x8000, 23, 1, .ro, 0, false⟩
/-- Reclamation epoch E. -/
def TRC_EPOCH_EPOCH : RegField := ⟨0xC0004, 2, 0x8000, 0, 32, .ro, 0, false⟩
/-- The cache is registered. -/
def TRC_CACHE_REGISTERED0 : RegField := ⟨0xC0010, 2, 0x8000, 0, 1, .ro, 0, false⟩
/-- Free slots of this tracer. -/
def TRC_CACHE_FREE_SLOTS0 : RegField := ⟨0xC0010, 2, 0x8000, 32, 32, .ro, 0, false⟩
/-- Slots in quarantine. -/
def TRC_CACHE_QUAR_SLOTS0 : RegField := ⟨0xC0010, 2, 0x8000, 64, 32, .ro, 0, false⟩
/-- ACTIVE sequences on this tracer. -/
def TRC_CACHE_ACTIVE_SEQS0 : RegField := ⟨0xC0010, 2, 0x8000, 96, 32, .ro, 0, false⟩
/-- The cache is registered. -/
def TRC_CACHE_REGISTERED1 : RegField := ⟨0xC0020, 2, 0x8000, 0, 1, .ro, 0, false⟩
/-- Free slots of this tracer. -/
def TRC_CACHE_FREE_SLOTS1 : RegField := ⟨0xC0020, 2, 0x8000, 32, 32, .ro, 0, false⟩
/-- Slots in quarantine. -/
def TRC_CACHE_QUAR_SLOTS1 : RegField := ⟨0xC0020, 2, 0x8000, 64, 32, .ro, 0, false⟩
/-- ACTIVE sequences on this tracer. -/
def TRC_CACHE_ACTIVE_SEQS1 : RegField := ⟨0xC0020, 2, 0x8000, 96, 32, .ro, 0, false⟩
/-- The cache is registered. -/
def TRC_CACHE_REGISTERED2 : RegField := ⟨0xC0030, 2, 0x8000, 0, 1, .ro, 0, false⟩
/-- Free slots of this tracer. -/
def TRC_CACHE_FREE_SLOTS2 : RegField := ⟨0xC0030, 2, 0x8000, 32, 32, .ro, 0, false⟩
/-- Slots in quarantine. -/
def TRC_CACHE_QUAR_SLOTS2 : RegField := ⟨0xC0030, 2, 0x8000, 64, 32, .ro, 0, false⟩
/-- ACTIVE sequences on this tracer. -/
def TRC_CACHE_ACTIVE_SEQS2 : RegField := ⟨0xC0030, 2, 0x8000, 96, 32, .ro, 0, false⟩
/-- The cache is registered. -/
def TRC_CACHE_REGISTERED3 : RegField := ⟨0xC0040, 2, 0x8000, 0, 1, .ro, 0, false⟩
/-- Free slots of this tracer. -/
def TRC_CACHE_FREE_SLOTS3 : RegField := ⟨0xC0040, 2, 0x8000, 32, 32, .ro, 0, false⟩
/-- Slots in quarantine. -/
def TRC_CACHE_QUAR_SLOTS3 : RegField := ⟨0xC0040, 2, 0x8000, 64, 32, .ro, 0, false⟩
/-- ACTIVE sequences on this tracer. -/
def TRC_CACHE_ACTIVE_SEQS3 : RegField := ⟨0xC0040, 2, 0x8000, 96, 32, .ro, 0, false⟩
/-- Walks (R252). -/
def TRC_CNT_WALKS : RegField := ⟨0xC0100, 2, 0x8000, 0, 32, .rc, 0, false⟩
/-- Walks that read DDR4. -/
def TRC_CNT_WALKS_DDR : RegField := ⟨0xC0104, 2, 0x8000, 0, 32, .rc, 0, false⟩
/-- R246. -/
def TRC_CNT_FLUSHES : RegField := ⟨0xC0108, 2, 0x8000, 0, 32, .rc, 0, false⟩
/-- R248. -/
def TRC_CNT_EVICTIONS : RegField := ⟨0xC010C, 2, 0x8000, 0, 32, .rc, 0, false⟩
/-- Pages copied into staging by FORK and TRUNCATE. -/
def TRC_CNT_COPIES : RegField := ⟨0xC0110, 2, 0x8000, 0, 32, .rc, 0, false⟩
/-- Slots released from quarantine (R257). -/
def TRC_CNT_RELEASES : RegField := ⟨0xC0114, 2, 0x8000, 0, 32, .rc, 0, false⟩
/-- R244. -/
def TRC_CNT_BAD_CMD : RegField := ⟨0xC0118, 2, 0x8000, 0, 32, .rc, 0, false⟩
/-- R264. -/
def TRC_CNT_POISONED : RegField := ⟨0xC011C, 2, 0x8000, 0, 32, .rc, 0, false⟩

/-- The fields of block TRC_. -/
def blockTrc : List RegField :=
  [TRC_STAT_RUN, TRC_STAT_QUEUED, TRC_STAT_PINNED, TRC_STAT_HELD, TRC_EPOCH_EPOCH, TRC_CACHE_REGISTERED0, TRC_CACHE_FREE_SLOTS0, TRC_CACHE_QUAR_SLOTS0, TRC_CACHE_ACTIVE_SEQS0, TRC_CACHE_REGISTERED1, TRC_CACHE_FREE_SLOTS1, TRC_CACHE_QUAR_SLOTS1, TRC_CACHE_ACTIVE_SEQS1, TRC_CACHE_REGISTERED2, TRC_CACHE_FREE_SLOTS2, TRC_CACHE_QUAR_SLOTS2, TRC_CACHE_ACTIVE_SEQS2, TRC_CACHE_REGISTERED3, TRC_CACHE_FREE_SLOTS3, TRC_CACHE_QUAR_SLOTS3] ++
  [TRC_CACHE_ACTIVE_SEQS3, TRC_CNT_WALKS, TRC_CNT_WALKS_DDR, TRC_CNT_FLUSHES, TRC_CNT_EVICTIONS, TRC_CNT_COPIES, TRC_CNT_RELEASES, TRC_CNT_BAD_CMD, TRC_CNT_POISONED]

/-! Block MEM_ (file 10_memory_translation.md of the spec). -/

/-- Bit r = region r released (R304). -/
def MEM_RELEASE_REGION : RegField := ⟨0xD0000, 1, 0x0, 0, 16, .ro, 0, false⟩
/-- Boot region and mirror released. -/
def MEM_RELEASE_BOOT : RegField := ⟨0xD0000, 1, 0x0, 16, 1, .ro, 0, false⟩
/-- 0x0 = not enabled, 0x1 = online, 0x2 = offline, 0x3 = online under field test (R306). -/
def MEM_DDR_STAT_STATE : RegField := ⟨0xD0010, 8, 0x4, 0, 2, .ro, 0, false⟩
/-- tREFI 3.9 µs in force (R305). -/
def MEM_DDR_STAT_HOT : RegField := ⟨0xD0010, 8, 0x4, 2, 1, .ro, 0, false⟩
/-- Boot-region reads served from the mirror (R303). -/
def MEM_DDR_STAT_MIRROR_READS : RegField := ⟨0xD0010, 8, 0x4, 16, 16, .rc, 0, false⟩
/-- Faults raised (R322). -/
def MEM_CNT_FAULTS : RegField := ⟨0xD0100, 1, 0x0, 0, 32, .rc, 0, false⟩
/-- RESUME operations accepted. -/
def MEM_CNT_RESUMES : RegField := ⟨0xD0104, 1, 0x0, 0, 32, .rc, 0, false⟩
/-- Jobs ended under R327. -/
def MEM_CNT_ABORTS : RegField := ⟨0xD0108, 1, 0x0, 0, 32, .rc, 0, false⟩
/-- Resumes under R328. -/
def MEM_CNT_SELF_RESUMES : RegField := ⟨0xD010C, 1, 0x0, 0, 32, .rc, 0, false⟩
/-- Jobs ended NOT_READY under R328. -/
def MEM_CNT_NR_TIMEOUTS : RegField := ⟨0xD0110, 1, 0x0, 0, 32, .rc, 0, false⟩
/-- INVALIDATE operations completed. -/
def MEM_CNT_INVALIDATES : RegField := ⟨0xD0114, 1, 0x0, 0, 32, .rc, 0, false⟩
/-- Plate saves (R332). -/
def MEM_CNT_PREEMPTS : RegField := ⟨0xD0118, 1, 0x0, 0, 32, .rc, 0, false⟩
/-- Spills (R334). -/
def MEM_CNT_SPILLS : RegField := ⟨0xD011C, 1, 0x0, 0, 32, .rc, 0, false⟩
/-- Context is OPEN. -/
def MEM_CTX_OPEN : RegField := ⟨0xD0400, 256, 0x4, 0, 1, .ro, 0, false⟩
/-- A launch of the context is saved. -/
def MEM_CTX_SAVED : RegField := ⟨0xD0400, 256, 0x4, 1, 1, .ro, 0, false⟩
/-- Jobs accepted and not completed, saturating. -/
def MEM_CTX_JOBS : RegField := ⟨0xD0400, 256, 0x4, 16, 16, .ro, 0, true⟩
/-- Channel state. -/
def MEM_CH_STATE : RegField := ⟨0xD1000, 98, 0x40, 0, 8, .ro, 0, false⟩
/-- Job context. -/
def MEM_CH_CONTEXT : RegField := ⟨0xD1000, 98, 0x40, 8, 8, .ro, 0, false⟩
/-- Fault kind of Table MEM-7. -/
def MEM_CH_KIND : RegField := ⟨0xD1000, 98, 0x40, 16, 8, .ro, 0, false⟩
/-- R325. -/
def MEM_CH_RESUMED : RegField := ⟨0xD1000, 98, 0x40, 24, 1, .ro, 0, false⟩
/-- Physical transfer (R409). -/
def MEM_CH_PHYSICAL : RegField := ⟨0xD1000, 98, 0x40, 25, 1, .ro, 0, false⟩
/-- Descriptors completed before the current one. -/
def MEM_CH_DESC_POS : RegField := ⟨0xD1000, 98, 0x40, 32, 32, .ro, 0, false⟩
/-- Progress in the current descriptor. -/
def MEM_CH_BYTES_DONE : RegField := ⟨0xD1000, 98, 0x40, 64, 64, .ro, 0, false⟩
/-- Faulting virtual address. -/
def MEM_CH_FAULT_VA : RegField := ⟨0xD1000, 98, 0x40, 128, 64, .ro, 0, false⟩
/-- Owning job's tag. -/
def MEM_CH_TAG : RegField := ⟨0xD1000, 98, 0x40, 192, 64, .ro, 0, false⟩
/-- DT64 of the fault. -/
def MEM_CH_FAULT_TIME : RegField := ⟨0xD1000, 98, 0x40, 256, 64, .ro, 0, false⟩

/-- The fields of block MEM_. -/
def blockMem : List RegField :=
  [MEM_RELEASE_REGION, MEM_RELEASE_BOOT, MEM_DDR_STAT_STATE, MEM_DDR_STAT_HOT, MEM_DDR_STAT_MIRROR_READS, MEM_CNT_FAULTS, MEM_CNT_RESUMES, MEM_CNT_ABORTS, MEM_CNT_SELF_RESUMES, MEM_CNT_NR_TIMEOUTS, MEM_CNT_INVALIDATES, MEM_CNT_PREEMPTS, MEM_CNT_SPILLS, MEM_CTX_OPEN, MEM_CTX_SAVED, MEM_CTX_JOBS, MEM_CH_STATE, MEM_CH_CONTEXT, MEM_CH_KIND, MEM_CH_RESUMED] ++
  [MEM_CH_PHYSICAL, MEM_CH_DESC_POS, MEM_CH_BYTES_DONE, MEM_CH_FAULT_VA, MEM_CH_TAG, MEM_CH_FAULT_TIME]

/-! Block PAR_ (file 11_partitions_sync.md of the spec). -/

/-- 1 = swap schedule banks at the instant of R342; refused while a swap is pending (R591). -/
def PAR_CTRL_SWAP : RegField := ⟨0xE0000, 1, 0x0, 0, 1, .wo, 0, false⟩
/-- Active bank. -/
def PAR_STAT_BANK : RegField := ⟨0xE0004, 1, 0x0, 0, 1, .ro, 0, false⟩
/-- A swap waits for the boundary. -/
def PAR_STAT_SWAP_PENDING : RegField := ⟨0xE0004, 1, 0x0, 1, 1, .ro, 0, false⟩
/-- Last swap refused under R341. -/
def PAR_STAT_SWAP_ERR : RegField := ⟨0xE0004, 1, 0x0, 2, 1, .w1c, 0, false⟩
/-- Reaction table locked (R363). -/
def PAR_STAT_LOCKED : RegField := ⟨0xE0004, 1, 0x0, 3, 1, .ro, 0, false⟩
/-- Current window. -/
def PAR_STAT_WINDOW : RegField := ⟨0xE0004, 1, 0x0, 8, 6, .ro, 0, false⟩
/-- Failing window, or 0xFF for the header. -/
def PAR_STAT_ERR_INDEX : RegField := ⟨0xE0004, 1, 0x0, 16, 8, .ro, 0, false⟩
/-- floor((DT64 − OFS_NS) / frame length) mod 2³². -/
def PAR_FRAME_NUM : RegField := ⟨0xE0008, 1, 0x0, 0, 32, .ro, 0, false⟩
/-- Launches pre-empted under R349. -/
def PAR_CNT_WINDOW_PREEMPTS : RegField := ⟨0xE0100, 1, 0x0, 0, 32, .rc, 0, false⟩
/-- Starts and resumes under R347. -/
def PAR_CNT_BACKFILL_STARTS : RegField := ⟨0xE0104, 1, 0x0, 0, 32, .rc, 0, false⟩
/-- R348. -/
def PAR_CNT_BACKFILL_PREEMPTS : RegField := ⟨0xE0108, 1, 0x0, 0, 32, .rc, 0, false⟩
/-- Early-arrival violations (R356). -/
def PAR_CNT_EARLY : RegField := ⟨0xE010C, 1, 0x0, 0, 32, .rc, 0, false⟩
/-- Late-arrival violations (R356). -/
def PAR_CNT_LATE : RegField := ⟨0xE0110, 1, 0x0, 0, 32, .rc, 0, false⟩
/-- R358. -/
def PAR_CNT_BUDGET : RegField := ⟨0xE0114, 1, 0x0, 0, 32, .rc, 0, false⟩
/-- R359. -/
def PAR_CNT_DEADLINE : RegField := ⟨0xE0118, 1, 0x0, 0, 32, .rc, 0, false⟩
/-- Chain failures (R361). -/
def PAR_CNT_CHAIN : RegField := ⟨0xE011C, 1, 0x0, 0, 32, .rc, 0, false⟩
/-- Activations outstanding, 0–4. -/
def PAR_TASK_STAT_OUTSTANDING : RegField := ⟨0xE0800, 256, 0x8, 0, 3, .ro, 0, false⟩
/-- 0x0 = none, 0x1 = early, 0x2 = late, 0x3 = budget, 0x4 = deadline. -/
def PAR_TASK_STAT_LAST_KIND : RegField := ⟨0xE0800, 256, 0x8, 8, 4, .ro, 0, false⟩
/-- Jobs not charged (R358), saturating. -/
def PAR_TASK_STAT_UNCHARGED : RegField := ⟨0xE0800, 256, 0x8, 12, 4, .rc, 0, true⟩
/-- Violations, saturating. -/
def PAR_TASK_STAT_VIOLATIONS : RegField := ⟨0xE0800, 256, 0x8, 16, 16, .rc, 0, true⟩
/-- Activations since TASK_SET, numbered as R356, modulo 2³². -/
def PAR_TASK_STAT_ACTIVATIONS : RegField := ⟨0xE0800, 256, 0x8, 32, 32, .ro, 0, false⟩

/-- The fields of block PAR_. -/
def blockPar : List RegField :=
  [PAR_CTRL_SWAP, PAR_STAT_BANK, PAR_STAT_SWAP_PENDING, PAR_STAT_SWAP_ERR, PAR_STAT_LOCKED, PAR_STAT_WINDOW, PAR_STAT_ERR_INDEX, PAR_FRAME_NUM, PAR_CNT_WINDOW_PREEMPTS, PAR_CNT_BACKFILL_STARTS, PAR_CNT_BACKFILL_PREEMPTS, PAR_CNT_EARLY, PAR_CNT_LATE, PAR_CNT_BUDGET, PAR_CNT_DEADLINE, PAR_CNT_CHAIN, PAR_TASK_STAT_OUTSTANDING, PAR_TASK_STAT_LAST_KIND, PAR_TASK_STAT_UNCHARGED, PAR_TASK_STAT_VIOLATIONS] ++
  [PAR_TASK_STAT_ACTIVATIONS]

/-! Block SYN_ (file 11_partitions_sync.md of the spec). -/

/-- Object shown by SYN_VAL and SYN_INFO. -/
def SYN_SEL_OBJECT : RegField := ⟨0xF0000, 1, 0x0, 0, 16, .rw, 0, false⟩
/-- Value of the selected object. -/
def SYN_VAL_VALUE : RegField := ⟨0xF0008, 1, 0x0, 0, 64, .ro, 0, false⟩
/-- Waits held on the selected object. -/
def SYN_INFO_WAITERS : RegField := ⟨0xF0010, 1, 0x0, 0, 13, .ro, 0, false⟩
/-- R367. -/
def SYN_INFO_SATURATED : RegField := ⟨0xF0010, 1, 0x0, 13, 1, .ro, 0, false⟩
/-- Descriptor waits held device-wide, 0–4,096 (R375). -/
def SYN_INFO_HELD : RegField := ⟨0xF0010, 1, 0x0, 16, 13, .ro, 0, false⟩
/-- Owner of group 8i + n in bits [4n + 3:4n] (R369). -/
def SYN_GROUP_OWNER : RegField := ⟨0xF0100, 32, 0x4, 0, 32, .rw, 0xffffffff, false⟩
/-- R371. -/
def SYN_CNT_WAIT_TIMEOUTS : RegField := ⟨0xF0200, 1, 0x0, 0, 32, .rc, 0, false⟩
/-- R367. -/
def SYN_CNT_SATURATIONS : RegField := ⟨0xF0204, 1, 0x0, 0, 32, .rc, 0, false⟩
/-- Accesses refused or trapped under R369. -/
def SYN_CNT_GRANT_REFUSALS : RegField := ⟨0xF0208, 1, 0x0, 0, 32, .rc, 0, false⟩
/-- Descriptors completed NO_RESOURCE under R375. -/
def SYN_CNT_WAIT_FULL : RegField := ⟨0xF020C, 1, 0x0, 0, 32, .rc, 0, false⟩

/-- The fields of block SYN_. -/
def blockSyn : List RegField :=
  [SYN_SEL_OBJECT, SYN_VAL_VALUE, SYN_INFO_WAITERS, SYN_INFO_SATURATED, SYN_INFO_HELD, SYN_GROUP_OWNER, SYN_CNT_WAIT_TIMEOUTS, SYN_CNT_SATURATIONS, SYN_CNT_GRANT_REFUSALS, SYN_CNT_WAIT_FULL]

/-! Block HTP_ (file 12_host_transport.md of the spec). -/

/-- Writing 1 sets it until reset (R391). -/
def HTP_CTRL_SETUP_DONE : RegField := ⟨0x100000, 1, 0x0, 0, 1, .rw, 0, false⟩
/-- Table HST-4. -/
def HTP_STAT_STATE : RegField := ⟨0x100004, 1, 0x0, 0, 3, .ro, 0, false⟩
/-- A session is open. -/
def HTP_STAT_SESSION : RegField := ⟨0x100004, 1, 0x0, 3, 1, .ro, 0, false⟩
/-- Port carrying the control stream. -/
def HTP_STAT_C_PORT : RegField := ⟨0x100004, 1, 0x0, 4, 1, .ro, 0, false⟩
/-- Port carrying the bulk stream. -/
def HTP_STAT_B_PORT : RegField := ⟨0x100004, 1, 0x0, 5, 1, .ro, 1, false⟩
/-- Current session. -/
def HTP_SESSION_ID : RegField := ⟨0x100008, 1, 0x0, 0, 32, .ro, 0, false⟩
/-- EtherType of device frames. -/
def HTP_CFG_ETHERTYPE : RegField := ⟨0x10000C, 1, 0x0, 0, 16, .rw, 0x88b5, false⟩
/-- R387, 10–10,000. -/
def HTP_CFG_HOSTLOSS_MS : RegField := ⟨0x10000C, 1, 0x0, 16, 16, .rw, 0x64, false⟩
/-- Bit q = queue q is streamed (R413). -/
def HTP_STREAM_QUEUES : RegField := ⟨0x100010, 1, 0x0, 0, 35, .rw, 0x73f0f0000, false⟩
/-- Link up and checked. -/
def HTP_PORT_LINK : RegField := ⟨0x100020, 2, 0x8, 0, 1, .ro, 0, false⟩
/-- 1 = PHY master, from the next start. -/
def HTP_PORT_MS : RegField := ⟨0x100020, 2, 0x8, 1, 1, .rw, 0, false⟩
/-- R377. -/
def HTP_PORT_MACSEC : RegField := ⟨0x100020, 2, 0x8, 2, 1, .rw, 0, false⟩
/-- Frames carry an 802.1Q tag. -/
def HTP_PORT_TAGGED : RegField := ⟨0x100020, 2, 0x8, 3, 1, .rw, 0, false⟩
/-- VLAN identifier. -/
def HTP_PORT_VID : RegField := ⟨0x100020, 2, 0x8, 4, 12, .rw, 0, false⟩
/-- Priority code point. -/
def HTP_PORT_PCP : RegField := ⟨0x100020, 2, 0x8, 16, 3, .rw, 0, false⟩
/-- Signal quality index 0–7 as measured by the PHY while the link is up, before and after the link check passes; 0 while the link is down. -/
def HTP_PORT_SQI : RegField := ⟨0x100020, 2, 0x8, 32, 3, .ro, 0, false⟩
/-- Port MAC address. The first byte sent on the wire lies at bits [7:0] and the sixth at bits [47:40]. Each module carries two universally administered addresses from Vothava's assigned block, unique to the module. Read as a 48-bit number with the first byte most significant, the address of H1 is that of H0 plus 1. -/
def HTP_MAC_ADDR : RegField := ⟨0x100040, 2, 0x8, 0, 48, .ro, 0, false⟩
/-- Size 2^n entries, n = 4–16 (R392). -/
def HTP_SQ_LOG2_SIZE : RegField := ⟨0x100100, 64, 0x4, 0, 5, .rw, 4, false⟩
/-- Ring enabled. -/
def HTP_SQ_EN : RegField := ⟨0x100100, 64, 0x4, 8, 1, .rw, 0, false⟩
/-- Completion ring. -/
def HTP_SQ_CQ : RegField := ⟨0x100100, 64, 0x4, 16, 6, .rw, 0, false⟩
/-- Size 2^n entries, n = 4–16. -/
def HTP_CQ_LOG2_SIZE : RegField := ⟨0x100200, 64, 0x4, 0, 5, .rw, 4, false⟩
/-- Ring enabled. -/
def HTP_CQ_EN : RegField := ⟨0x100200, 64, 0x4, 8, 1, .rw, 0, false⟩
/-- Shadow producer index. -/
def HTP_SQ_IDX_TAIL : RegField := ⟨0x100400, 64, 0x8, 0, 32, .ro, 0, false⟩
/-- Slots freed (R395). -/
def HTP_SQ_IDX_FREED : RegField := ⟨0x100400, 64, 0x8, 32, 32, .ro, 0, false⟩
/-- Next index the device writes. -/
def HTP_CQ_IDX_PROD : RegField := ⟨0x100800, 64, 0x8, 0, 32, .ro, 0, false⟩
/-- Latest cq_head from the host. -/
def HTP_CQ_IDX_HEAD : RegField := ⟨0x100800, 64, 0x8, 32, 32, .ro, 0, false⟩
/-- R382. -/
def HTP_CNT_RETRANSMITS : RegField := ⟨0x100F00, 1, 0x0, 0, 32, .rc, 0, false⟩
/-- R380. -/
def HTP_CNT_DUP_FRAMES : RegField := ⟨0x100F04, 1, 0x0, 0, 32, .rc, 0, false⟩
/-- R380. -/
def HTP_CNT_OUT_OF_WINDOW : RegField := ⟨0x100F08, 1, 0x0, 0, 32, .rc, 0, false⟩
/-- R377, R378. -/
def HTP_CNT_DISCARDED : RegField := ⟨0x100F0C, 1, 0x0, 0, 32, .rc, 0, false⟩
/-- R393. -/
def HTP_CNT_DOORBELL_REFUSED : RegField := ⟨0x100F10, 1, 0x0, 0, 32, .rc, 0, false⟩
/-- R383. -/
def HTP_CNT_FAILOVERS : RegField := ⟨0x100F14, 1, 0x0, 0, 32, .rc, 0, false⟩
/-- R412. -/
def HTP_CNT_STREAM_DROPS : RegField := ⟨0x100F18, 1, 0x0, 0, 32, .rc, 0, false⟩
/-- Entries into HOST_LOST (R387). -/
def HTP_CNT_HOST_LOSSES : RegField := ⟨0x100F1C, 1, 0x0, 0, 32, .rc, 0, false⟩

/-- The fields of block HTP_. -/
def blockHtp : List RegField :=
  [HTP_CTRL_SETUP_DONE, HTP_STAT_STATE, HTP_STAT_SESSION, HTP_STAT_C_PORT, HTP_STAT_B_PORT, HTP_SESSION_ID, HTP_CFG_ETHERTYPE, HTP_CFG_HOSTLOSS_MS, HTP_STREAM_QUEUES, HTP_PORT_LINK, HTP_PORT_MS, HTP_PORT_MACSEC, HTP_PORT_TAGGED, HTP_PORT_VID, HTP_PORT_PCP, HTP_PORT_SQI, HTP_MAC_ADDR, HTP_SQ_LOG2_SIZE, HTP_SQ_EN, HTP_SQ_CQ] ++
  [HTP_CQ_LOG2_SIZE, HTP_CQ_EN, HTP_SQ_IDX_TAIL, HTP_SQ_IDX_FREED, HTP_CQ_IDX_PROD, HTP_CQ_IDX_HEAD, HTP_CNT_RETRANSMITS, HTP_CNT_DUP_FRAMES, HTP_CNT_OUT_OF_WINDOW, HTP_CNT_DISCARDED, HTP_CNT_DOORBELL_REFUSED, HTP_CNT_FAILOVERS, HTP_CNT_STREAM_DROPS, HTP_CNT_HOST_LOSSES]

/-! Block RNG_ (file 13_ring_ports.md of the spec). -/

/-- A ring or chain is formed. -/
def RNG_STAT_FORMED : RegField := ⟨0x110000, 1, 0x0, 0, 1, .ro, 0, false⟩
/-- 1 = closed ring, 0 = chain. -/
def RNG_STAT_CLOSED : RegField := ⟨0x110000, 1, 0x0, 1, 1, .ro, 0, false⟩
/-- Members less one. -/
def RNG_STAT_MEMBERS : RegField := ⟨0x110000, 1, 0x0, 2, 3, .ro, 0, false⟩
/-- This module's rank. -/
def RNG_STAT_RANK : RegField := ⟨0x110000, 1, 0x0, 5, 3, .ro, 0, false⟩
/-- This module's number. -/
def RNG_STAT_MODULE : RegField := ⟨0x110000, 1, 0x0, 8, 3, .ro, 0, false⟩
/-- Table RNG-4. -/
def RNG_STAT_ROLE : RegField := ⟨0x110000, 1, 0x0, 11, 3, .ro, 4, false⟩
/-- A role table is loaded. -/
def RNG_STAT_ROLES_LOADED : RegField := ⟨0x110000, 1, 0x0, 14, 1, .ro, 0, false⟩
/-- Collectives accepted and not completed. -/
def RNG_STAT_COLLS : RegField := ⟨0x110000, 1, 0x0, 16, 7, .ro, 0, false⟩
/-- RNG_GEN.GENERATION. -/
def RNG_GEN_GENERATION : RegField := ⟨0x110004, 1, 0x0, 0, 32, .ro, 0, false⟩
/-- R418. -/
def RNG_CFG_LANE_ERR : RegField := ⟨0x110008, 1, 0x0, 0, 8, .rw, 4, false⟩
/-- R422. -/
def RNG_CFG_TIME_TOL_US : RegField := ⟨0x110008, 1, 0x0, 8, 8, .rw, 0xa, false⟩
/-- R430, R431. -/
def RNG_CFG_JOIN_MS : RegField := ⟨0x110008, 1, 0x0, 16, 16, .rw, 0x64, false⟩
/-- RNG_CABLE.CABLE_NS. -/
def RNG_CABLE_CABLE_NS : RegField := ⟨0x11000C, 1, 0x0, 0, 16, .rw, 5, false⟩
/-- Check-epoch length, 100–50,000; written only while FORMED is 0. -/
def RNG_CHECK_PERIOD_US : RegField := ⟨0x110010, 1, 0x0, 0, 16, .rw, 0x3e8, false⟩
/-- Closing limit (R435), 100–60,000. -/
def RNG_CHECK_LIMIT_US : RegField := ⟨0x110010, 1, 0x0, 16, 16, .rw, 0x7d0, false⟩
/-- Highest check epoch through which the module has committed. -/
def RNG_COMMIT_THROUGH : RegField := ⟨0x110020, 8, 0x4, 0, 32, .ro, 0, false⟩
/-- 0x0 = ACTIVE, 0x1 = RETRAIN, 0x2 = FAILED, 0x3 = offline. -/
def RNG_LANE_STATE : RegField := ⟨0x110040, 8, 0x4, 0, 2, .ro, 0, false⟩
/-- Failed PRBS runs (R419). -/
def RNG_LANE_RUNS : RegField := ⟨0x110040, 8, 0x4, 2, 2, .ro, 0, false⟩
/-- Sync-header errors. -/
def RNG_LANE_SYNC_ERR : RegField := ⟨0x110040, 8, 0x4, 16, 16, .rc, 0, false⟩
/-- Flits discarded under R416. -/
def RNG_CNT_CRC_ERRORS : RegField := ⟨0x110100, 1, 0x0, 0, 32, .rc, 0, false⟩
/-- R417. -/
def RNG_CNT_REPLAYS : RegField := ⟨0x110104, 1, 0x0, 0, 32, .rc, 0, false⟩
/-- Lanes entering RETRAIN. -/
def RNG_CNT_RETRAINS : RegField := ⟨0x110108, 1, 0x0, 0, 32, .rc, 0, false⟩
/-- R420. -/
def RNG_CNT_LANE_DEFERRED : RegField := ⟨0x11010C, 1, 0x0, 0, 32, .rc, 0, false⟩
/-- FORMED taking effect. -/
def RNG_CNT_REFORMS : RegField := ⟨0x110110, 1, 0x0, 0, 32, .rc, 0, false⟩
/-- Taints retracted here. -/
def RNG_CNT_RETRACTS : RegField := ⟨0x110114, 1, 0x0, 0, 32, .rc, 0, false⟩
/-- R434. -/
def RNG_CNT_TAINT_WAITS : RegField := ⟨0x110118, 1, 0x0, 0, 32, .rc, 0, false⟩
/-- R439. -/
def RNG_CNT_HOLD_DROPS : RegField := ⟨0x11011C, 1, 0x0, 0, 32, .rc, 0, false⟩

/-- The fields of block RNG_. -/
def blockRng : List RegField :=
  [RNG_STAT_FORMED, RNG_STAT_CLOSED, RNG_STAT_MEMBERS, RNG_STAT_RANK, RNG_STAT_MODULE, RNG_STAT_ROLE, RNG_STAT_ROLES_LOADED, RNG_STAT_COLLS, RNG_GEN_GENERATION, RNG_CFG_LANE_ERR, RNG_CFG_TIME_TOL_US, RNG_CFG_JOIN_MS, RNG_CABLE_CABLE_NS, RNG_CHECK_PERIOD_US, RNG_CHECK_LIMIT_US, RNG_COMMIT_THROUGH, RNG_LANE_STATE, RNG_LANE_RUNS, RNG_LANE_SYNC_ERR, RNG_CNT_CRC_ERRORS] ++
  [RNG_CNT_REPLAYS, RNG_CNT_RETRAINS, RNG_CNT_LANE_DEFERRED, RNG_CNT_REFORMS, RNG_CNT_RETRACTS, RNG_CNT_TAINT_WAITS, RNG_CNT_HOLD_DROPS]

/-! Block PRF_ (file 14_silent_errors.md of the spec). -/

/-- Digest wait of R459, 1–60,000. -/
def PRF_CFG_DIGEST_WAIT_MS : RegField := ⟨0x120000, 1, 0x0, 0, 16, .rw, 0x64, false⟩
/-- Containments since power-on, saturating. -/
def PRF_STAT_CONTAINMENTS : RegField := ⟨0x120004, 1, 0x0, 0, 8, .ro, 0, true⟩
/-- Units classified PERMANENT. -/
def PRF_STAT_PERMANENT : RegField := ⟨0x120004, 1, 0x0, 8, 12, .ro, 0, false⟩
/-- Unit of the latest containment. -/
def PRF_CONTAIN_UNIT : RegField := ⟨0x120008, 1, 0x0, 0, 32, .ro, 0, false⟩
/-- Table PRF-3. -/
def PRF_CONTAIN_CODE : RegField := ⟨0x120008, 1, 0x0, 32, 8, .ro, 0, false⟩
/-- Detection time of the latest containment. -/
def PRF_CONTAIN_TIME_DT64 : RegField := ⟨0x120010, 1, 0x0, 0, 64, .ro, 0, false⟩
/-- Operating seconds. -/
def PRF_SECONDS_SECONDS : RegField := ⟨0x120018, 1, 0x0, 0, 64, .ro, 0, false⟩
/-- Unit shown by PRF_UNIT. -/
def PRF_UNIT_SEL_UNIT : RegField := ⟨0x120020, 1, 0x0, 0, 32, .rw, 0, false⟩
/-- 0x0 CLEAN, 0x1 TRANSIENT, 0x2 SUSPECT, 0x3 PERMANENT. -/
def PRF_UNIT_STATE : RegField := ⟨0x120024, 1, 0x0, 0, 2, .ro, 0, false⟩
/-- Unit offline. -/
def PRF_UNIT_OFFLINE : RegField := ⟨0x120024, 1, 0x0, 2, 1, .ro, 0, false⟩
/-- Field test running. -/
def PRF_UNIT_TEST : RegField := ⟨0x120024, 1, 0x0, 3, 1, .ro, 0, false⟩
/-- Events within the window. -/
def PRF_UNIT_EVENTS : RegField := ⟨0x120024, 1, 0x0, 16, 16, .ro, 0, false⟩
/-- Parity detections (R440). -/
def PRF_CNT_SRAM_DET : RegField := ⟨0x120100, 1, 0x0, 0, 32, .rc, 0, false⟩
/-- DDR4 detections (R443). -/
def PRF_CNT_DDR_DET : RegField := ⟨0x120104, 1, 0x0, 0, 32, .rc, 0, false⟩
/-- Second reads that passed (R444). -/
def PRF_CNT_DDR_REREAD_OK : RegField := ⟨0x120108, 1, 0x0, 0, 32, .rc, 0, false⟩
/-- Destinations written poisoned (R446). -/
def PRF_CNT_POISONED : RegField := ⟨0x12010C, 1, 0x0, 0, 32, .rc, 0, false⟩
/-- Class-1 recomputations. -/
def PRF_CNT_RECOMPUTES : RegField := ⟨0x120110, 1, 0x0, 0, 32, .rc, 0, false⟩
/-- Class-2 fetches, mirror reads included. -/
def PRF_CNT_REFETCHES : RegField := ⟨0x120114, 1, 0x0, 0, 32, .rc, 0, false⟩
/-- Tiles compared (R454). -/
def PRF_CNT_PROOF_TILES : RegField := ⟨0x120118, 1, 0x0, 0, 32, .rc, 0, false⟩
/-- Comparisons that differed. -/
def PRF_CNT_PROOF_MISMATCH : RegField := ⟨0x12011C, 1, 0x0, 0, 32, .rc, 0, false⟩
/-- R451. -/
def PRF_CNT_UNCHECKABLE : RegField := ⟨0x120120, 1, 0x0, 0, 32, .rc, 0, false⟩
/-- Sampled tiles held for a slot (R451). -/
def PRF_CNT_PROOF_STALLS : RegField := ⟨0x120124, 1, 0x0, 0, 32, .rc, 0, false⟩
/-- Digests computed (R457). -/
def PRF_CNT_DIGESTS : RegField := ⟨0x120128, 1, 0x0, 0, 32, .rc, 0, false⟩
/-- Members left out of a comparison (R459). -/
def PRF_CNT_DIGEST_LATE : RegField := ⟨0x12012C, 1, 0x0, 0, 32, .rc, 0, false⟩
/-- R461. -/
def PRF_CNT_EXPULSIONS : RegField := ⟨0x120130, 1, 0x0, 0, 32, .rc, 0, false⟩
/-- Error records made (R464). -/
def PRF_CNT_RECORDS : RegField := ⟨0x120134, 1, 0x0, 0, 32, .rc, 0, false⟩
/-- Field tests completed. -/
def PRF_CNT_FIELD_TESTS : RegField := ⟨0x120138, 1, 0x0, 0, 32, .rc, 0, false⟩
/-- 0x0 free, 0x1 VALID, 0x2 LOST, 0x3 EXPELLED, 0x4 SUSPENDED, 0x5 verified after restart. -/
def PRF_REGION_STATE : RegField := ⟨0x120200, 64, 0x4, 0, 3, .ro, 0, false⟩
/-- Job context. -/
def PRF_REGION_CONTEXT : RegField := ⟨0x120200, 64, 0x4, 8, 8, .ro, 0, false⟩
/-- Comparisons made, saturating. -/
def PRF_REGION_COMPARES : RegField := ⟨0x120200, 64, 0x4, 16, 16, .rc, 0, true⟩

/-- The fields of block PRF_. -/
def blockPrf : List RegField :=
  [PRF_CFG_DIGEST_WAIT_MS, PRF_STAT_CONTAINMENTS, PRF_STAT_PERMANENT, PRF_CONTAIN_UNIT, PRF_CONTAIN_CODE, PRF_CONTAIN_TIME_DT64, PRF_SECONDS_SECONDS, PRF_UNIT_SEL_UNIT, PRF_UNIT_STATE, PRF_UNIT_OFFLINE, PRF_UNIT_TEST, PRF_UNIT_EVENTS, PRF_CNT_SRAM_DET, PRF_CNT_DDR_DET, PRF_CNT_DDR_REREAD_OK, PRF_CNT_POISONED, PRF_CNT_RECOMPUTES, PRF_CNT_REFETCHES, PRF_CNT_PROOF_TILES, PRF_CNT_PROOF_MISMATCH] ++
  [PRF_CNT_UNCHECKABLE, PRF_CNT_PROOF_STALLS, PRF_CNT_DIGESTS, PRF_CNT_DIGEST_LATE, PRF_CNT_EXPULSIONS, PRF_CNT_RECORDS, PRF_CNT_FIELD_TESTS, PRF_REGION_STATE, PRF_REGION_CONTEXT, PRF_REGION_COMPARES]

/-! Block PLT_ (file 06_plates_compute.md of the spec). -/

/-- 0x0 = OFF, 0x1 = IDLE, 0x2 = RUNNING, 0x3 = STOPPING, 0x4 = SAVED, 0x5 = TEST. -/
def PLT_STAT_STATE : RegField := ⟨0x1000000, 34, 0x10000, 0, 3, .ro, 0, false⟩
/-- Plate enabled and online. -/
def PLT_STAT_ONLINE : RegField := ⟨0x1000000, 34, 0x10000, 3, 1, .ro, 0, false⟩
/-- Job context of the running launch. -/
def PLT_STAT_CONTEXT : RegField := ⟨0x1000000, 34, 0x10000, 8, 8, .ro, 0, false⟩
/-- Cores running, 0–64. -/
def PLT_STAT_CORES : RegField := ⟨0x1000000, 34, 0x10000, 16, 7, .ro, 0, false⟩
/-- Commands queued, 0–32. -/
def PLT_ARR_STAT_QUEUED : RegField := ⟨0x1000004, 34, 0x10000, 0, 6, .ro, 0, false⟩
/-- A command is executing. -/
def PLT_ARR_STAT_BUSY : RegField := ⟨0x1000004, 34, 0x10000, 6, 1, .ro, 0, false⟩
/-- At a tile boundary (R200). -/
def PLT_ARR_STAT_AT_TB : RegField := ⟨0x1000004, 34, 0x10000, 7, 1, .ro, 1, false⟩
/-- 0x0 = none, 0x1 = INT32, 0x2 = FP32, 0x3 = MXINT8. -/
def PLT_ARR_STAT_ACC_TYPE : RegField := ⟨0x1000004, 34, 0x10000, 8, 2, .ro, 0, false⟩
/-- acc_exp of the accumulators, int16. -/
def PLT_ARR_STAT_ACC_EXP : RegField := ⟨0x1000004, 34, 0x10000, 16, 16, .ro, 0, false⟩
/-- Tile tag of the latest error. -/
def PLT_ARR_ERR_TILE : RegField := ⟨0x1000008, 34, 0x10000, 0, 32, .ro, 0, false⟩
/-- Cause of Table PLT-11. -/
def PLT_ARR_ERR_CAUSE : RegField := ⟨0x1000008, 34, 0x10000, 32, 4, .ro, 0, false⟩
/-- Issuing logical core. -/
def PLT_ARR_ERR_CORE : RegField := ⟨0x1000008, 34, 0x10000, 36, 6, .ro, 0, false⟩
/-- Physical stripe, for cause 0x2. -/
def PLT_ARR_ERR_STRIPE : RegField := ⟨0x1000008, 34, 0x10000, 42, 4, .ro, 0, false⟩
/-- Array-buffer share base. -/
def PLT_SHARE_ABUF_BASE : RegField := ⟨0x1000010, 34, 0x10000, 0, 22, .ro, 0, false⟩
/-- Array-buffer share size in bytes. -/
def PLT_SHARE_ABUF_LIMIT : RegField := ⟨0x1000010, 34, 0x10000, 32, 22, .ro, 0, false⟩
/-- Local-memory share base, per core. -/
def PLT_SHARE_LM_BASE : RegField := ⟨0x1000010, 34, 0x10000, 64, 15, .ro, 0, false⟩
/-- Local-memory share size in bytes. -/
def PLT_SHARE_LM_LIMIT : RegField := ⟨0x1000010, 34, 0x10000, 96, 15, .ro, 0, false⟩
/-- Bit s = physical stripe s in use. -/
def PLT_SPARE_STRIPE_MAP : RegField := ⟨0x1000020, 34, 0x10000, 0, 9, .ro, 0, false⟩
/-- Bit c = physical needle core c in use. -/
def PLT_SPARE_CORE_MAP : RegField := ⟨0x1000020, 34, 0x10000, 32, 66, .ro, 0, false⟩
/-- Plate clock in force, in kHz. -/
def PLT_CLK_KHZ : RegField := ⟨0x1000030, 34, 0x10000, 0, 21, .ro, 0, false⟩
/-- Tile-boundary wait in ns, 0–2,500; a larger value is stored as 2,500 (R201). -/
def PLT_PRE_TB_NS : RegField := ⟨0x1000034, 34, 0x10000, 0, 16, .rw, 0x7d0, false⟩
/-- Descriptors queued, 0–64. -/
def PLT_DMA_STAT_QUEUED : RegField := ⟨0x1000040, 34, 0x10000, 0, 7, .ro, 0, false⟩
/-- A transfer is executing. -/
def PLT_DMA_STAT_BUSY : RegField := ⟨0x1000040, 34, 0x10000, 7, 1, .ro, 0, false⟩
/-- The channel is stopped on a fault. -/
def PLT_DMA_STAT_FAULTED : RegField := ⟨0x1000040, 34, 0x10000, 8, 1, .ro, 0, false⟩
/-- Activation rows executed. -/
def PLT_CNT_MATMUL_ROWS : RegField := ⟨0x1000100, 34, 0x10000, 0, 32, .rc, 0, false⟩
/-- DRAIN commands executed. -/
def PLT_CNT_DRAINS : RegField := ⟨0x1000104, 34, 0x10000, 0, 32, .rc, 0, false⟩
/-- Saturating additions (R170, R182). -/
def PLT_CNT_ACC_SAT : RegField := ⟨0x1000108, 34, 0x10000, 0, 32, .rc, 0, true⟩
/-- Errors of causes 0x1–0x3 (R198). -/
def PLT_CNT_PARITY : RegField := ⟨0x100010C, 34, 0x10000, 0, 32, .rc, 0, false⟩
/-- R178. -/
def PLT_CNT_IDX_ERR : RegField := ⟨0x1000110, 34, 0x10000, 0, 32, .rc, 0, false⟩
/-- R172. -/
def PLT_CNT_CMD_REFUSED : RegField := ⟨0x1000114, 34, 0x10000, 0, 32, .rc, 0, false⟩
/-- Stops at a tile boundary (R201). -/
def PLT_CNT_TB_STOPS : RegField := ⟨0x1000118, 34, 0x10000, 0, 32, .rc, 0, false⟩
/-- Forced saves (R201). -/
def PLT_CNT_FORCED_SAVES : RegField := ⟨0x100011C, 34, 0x10000, 0, 32, .rc, 0, false⟩

/-- The fields of block PLT_. -/
def blockPlt : List RegField :=
  [PLT_STAT_STATE, PLT_STAT_ONLINE, PLT_STAT_CONTEXT, PLT_STAT_CORES, PLT_ARR_STAT_QUEUED, PLT_ARR_STAT_BUSY, PLT_ARR_STAT_AT_TB, PLT_ARR_STAT_ACC_TYPE, PLT_ARR_STAT_ACC_EXP, PLT_ARR_ERR_TILE, PLT_ARR_ERR_CAUSE, PLT_ARR_ERR_CORE, PLT_ARR_ERR_STRIPE, PLT_SHARE_ABUF_BASE, PLT_SHARE_ABUF_LIMIT, PLT_SHARE_LM_BASE, PLT_SHARE_LM_LIMIT, PLT_SPARE_STRIPE_MAP, PLT_SPARE_CORE_MAP, PLT_CLK_KHZ] ++
  [PLT_PRE_TB_NS, PLT_DMA_STAT_QUEUED, PLT_DMA_STAT_BUSY, PLT_DMA_STAT_FAULTED, PLT_CNT_MATMUL_ROWS, PLT_CNT_DRAINS, PLT_CNT_ACC_SAT, PLT_CNT_PARITY, PLT_CNT_IDX_ERR, PLT_CNT_CMD_REFUSED, PLT_CNT_TB_STOPS, PLT_CNT_FORCED_SAVES]

/-! Block NDL_ (file 07_needle_cores.md of the spec). -/

/-- 0x0 = off or spare, 0x1 = idle, 0x2 = running, 0x3 = held in a queue or wait instruction. -/
def NDL_CORE_STAT_STATE : RegField := ⟨0x2000000, 4352, 0x200, 0, 2, .ro, 0, false⟩
/-- 1 = M mode. -/
def NDL_CORE_STAT_PRIV : RegField := ⟨0x2000000, 4352, 0x200, 2, 1, .ro, 0, false⟩
/-- Logical core number (R206). -/
def NDL_CORE_STAT_LOGICAL : RegField := ⟨0x2000000, 4352, 0x200, 8, 6, .ro, 0, false⟩
/-- mcause exception code of the latest unhandled exception. -/
def NDL_CORE_STAT_LAST_CAUSE : RegField := ⟨0x2000000, 4352, 0x200, 16, 6, .ro, 0, false⟩
/-- mepc at the latest unhandled exception. -/
def NDL_CORE_PC_PC : RegField := ⟨0x2000008, 4352, 0x200, 0, 64, .ro, 0, false⟩
/-- Instructions retired, saturating. -/
def NDL_CORE_CNT_RETIRED : RegField := ⟨0x2000010, 4352, 0x200, 0, 32, .rc, 0, true⟩
/-- Cycles held under R173, R187 or xn.wait, saturating. -/
def NDL_CORE_CNT_HELD : RegField := ⟨0x2000010, 4352, 0x200, 32, 32, .rc, 0, true⟩

/-- The fields of block NDL_. -/
def blockNdl : List RegField :=
  [NDL_CORE_STAT_STATE, NDL_CORE_STAT_PRIV, NDL_CORE_STAT_LOGICAL, NDL_CORE_STAT_LAST_CAUSE, NDL_CORE_PC_PC, NDL_CORE_CNT_RETIRED, NDL_CORE_CNT_HELD]

/-- Every register field. -/
def all : List RegField :=
  blockEas ++ blockSec ++ blockSup ++ blockMgd ++ blockPwr ++ blockRul ++ blockIng ++ blockSpq ++ blockHat ++ blockStp ++ blockBrn ++ blockTrc ++ blockMem ++ blockPar ++ blockSyn ++ blockHtp ++ blockRng ++ blockPrf ++ blockPlt ++ blockNdl

end Reg

end Sys2Proof.Machine
end

