-- ==== Sys2Proof/Machine/State.lean ====
section
/-! DEFINITION. The state of the block as plain data, its reset, and the reasons a step can stop. -/

namespace Sys2Proof.Machine

/-- Why a step stops with a fault. -/
inductive Fault
  /-- Raised by no meaning: the spec gives every command of the table an effect, or no effect, in every state. Safe. -/
  | unreachable
  deriving DecidableEq, Repr

/-- Why a step answers no state. -/
inductive Refusal
  /-- Raised by the dispatch for a row that has no meaning yet. Safe. -/
  | notModelled (mnemonic : String)
  deriving DecidableEq, Repr

/-! ### Spill queues (Sensor Ports, Discovery and Spill Queues) -/

/-- A queue item: its tag (Table ING-7) and its 32 data bytes. -/
structure QItem where
  tag : Nat
  data : List Byte
  deriving DecidableEq, Repr

/-- A packet that is open in a queue (R79): the LENGTH word so far and the DATA words stored. -/
structure OpenPkt where
  head : List Byte
  words : List (List Byte)
  bytes : Nat
  deriving DecidableEq, Repr

/-- One spill queue (R76 to R87). -/
structure Queue where
  /-- Words of closed packets not yet read, oldest first (R80). -/
  items : List QItem
  opened : Option OpenPkt
  /-- Words that the default consumer has read and not yet used. -/
  inbox : List QItem
  /-- Copies of packets that the transport is to stream (R413), oldest first. -/
  copies : List (List QItem)
  /-- The pointers, each held twice (R86). -/
  head : Nat
  headCopy : Nat
  tail : Nat
  tailCopy : Nat
  /-- Serial numbers, counted as the head pointer counts, of the stored words that lie or have lain in the middle (R84). -/
  middle : List Nat
  /-- Event numbers in the order raised, for the items of queues 0x30 and 0x31 (R407). -/
  order : List Nat
  /-- Events were lost since the last one stored (R407). -/
  lost : Bool
  deriving DecidableEq, Repr

/-- A queue at reset: empty. -/
def Queue.reset : Queue := ⟨[], none, [], [], 0, 0, 0, 0, [], [], false⟩

/-! ### Ruling engine (Ruling Engine and Device Time) -/

/-- A latched stamp and the message it belongs to (R43, R44). -/
structure Stamp where
  at8 : Nat
  msgType : Nat
  seqId : Nat
  deriving DecidableEq, Repr

/-- The reference in use (R36). -/
inductive RefSrc
  | none
  | gptp
  | pps
  deriving DecidableEq, Repr

/-- Drift tracking of one sensor (R58 to R63). -/
structure Track where
  locked : Bool
  /-- Consecutive good frames, at most 8. -/
  good : Nat
  /-- The frame counter and trigger number of the pairing made at the lock. -/
  base : Option (Nat × Nat)
  /-- Triggers since the epoch zero of the last frame paired. -/
  lastTrig : Nat
  deriving DecidableEq, Repr

/-- One trigger line: the end and the start of its latest pulse (R54, R57, R503). -/
structure Line where
  untilNs : Nat
  lastStart : Option Nat
  deriving DecidableEq, Repr

/-- The ruling engine's state beside its registers and tables. -/
structure TimeSt where
  dt96 : Nat
  /-- DT64 as the latest read of RUL_TIME latched it. -/
  latch : Nat
  /-- Consecutive updates within LOCK_THR, at most 8 (R37). -/
  good : Nat
  /-- The latest values of RUL_INC, newest first, at most 16 (R38). -/
  incHist : List Nat
  ref : RefSrc
  /-- Tick of the latest Sync message of the slave port. -/
  refAt : Nat
  syncNs : Nat
  /-- Tick of the latest 1PPS edge, and whether it came 1 s +- 100 ppm after the one before (R36). -/
  ppsAt : Option Nat
  ppsOk : Bool
  secondsSet : Bool
  gptpSlave : Option Nat
  /-- Ports on which a better grandmaster has been announced, with its priority vector. -/
  best : Tbl Nat
  /-- The grandmaster's precise origin of the latest Sync at the slave port (R46). -/
  origin : Option Nat
  /-- The instant of the next epoch boundary, and the start of the epoch in progress (R41, R47). -/
  nextEpoch : Nat
  epochStart : Option Nat
  epochNo : Nat
  rx : Tbl (List Stamp)
  tx : Tbl (List Stamp)
  /-- Tick of the latest Pdelay_Resp per time-stamping port (R70). -/
  pdelayAt : Tbl Nat
  txSeq : Tbl Nat
  lines : Tbl Line
  /-- The latest trigger time served per ruling entry. -/
  fired : Tbl Nat
  track : Tbl Track
  deriving DecidableEq, Repr

/-- The ruling engine after reset: DT96 zero, no reference. -/
def TimeSt.reset : TimeSt :=
  { dt96 := 0, latch := 0, good := 0, incHist := [], ref := .none, refAt := 0, syncNs := 125000000, ppsAt := none,
    ppsOk := false, secondsSet := false, gptpSlave := none, best := .empty, origin := none, nextEpoch := 0,
    epochStart := none, epochNo := 0, rx := .empty, tx := .empty, pdelayAt := .empty, txSeq := .empty, lines := .empty,
    fired := .empty, track := .empty }

/-! ### Ingest (Sensor Ports, Discovery and Spill Queues) -/

/-- Ingest state of one sensor-table entry beside ING_SENS. -/
structure SensSt where
  /-- Quota charged to the epoch in progress, to the one before, and to the next one (R92). -/
  used : Nat
  past : Nat
  ahead : Nat
  prevFrame : Option Nat
  /-- Signatures of the latest frames, newest first (R88). -/
  sigs : List Nat
  first : Bool
  /-- A packet of the frame in progress was dropped for quota (R94). -/
  cut : Bool
  /-- Stamp and number of the latest Frame Start; a frame is open. -/
  frameStamp : Nat
  frameNo : Nat
  inFrame : Bool
  /-- Ticks of the latest accepted data and of the latest Frame Start (R72). -/
  lastAt : Nat
  lastFsAt : Nat
  idTries : Nat
  idTryAt : Nat
  /-- Payloads of the image lines and of the embedded lines of the frame in progress. -/
  lines : List (List Byte)
  embedded : List (List Byte)
  /-- The trigger paired with the frame in progress, its drift, and whether the drift leaves the window. -/
  trig : Nat
  drift : Int
  outside : Bool
  /-- The latest frames: stamp of their start and the trigger paired with them, newest first. -/
  paired : List (Nat × Nat)
  deriving DecidableEq, Repr

def SensSt.reset : SensSt :=
  { used := 0, past := 0, ahead := 0, prevFrame := none, sigs := [], first := true, cut := false, frameStamp := 0, frameNo := 0,
    inFrame := false, lastAt := 0, lastFsAt := 0, idTries := 0, idTryAt := 0, lines := [], embedded := [], trig := 0,
    drift := 0, outside := false, paired := [] }

/-- The ingest ports' state. -/
structure IngSt where
  sens : Tbl SensSt
  /-- Per Ethernet port 0-5: the chassis ID of the latest LLDP frame. -/
  chassis : Tbl Nat
  imuOk : Bool
  deriving DecidableEq, Repr

def IngSt.reset : IngSt := ⟨.empty, .empty, false⟩

/-! ### Hatch (Hatch Fusion Front-End) and golden frames -/

/-- Why a scheduled frame is where it is: still expected, fused, or the reason for which it is not (Table HAT-16). -/
inductive FrameEnd
  | expected
  | fused
  | absent
  | excluded
  | unlocked
  | frozen
  | missed
  deriving DecidableEq, Repr

/-- A frame scheduled in an epoch: its sensor, its trigger time and its deadline (R95). -/
structure HFrame where
  sensor : Nat
  trig : Nat
  due : Nat
  state : FrameEnd
  /-- The frame is one of the epoch's schedule. -/
  sched : Bool
  deriving DecidableEq, Repr

/-- A decoded point before H4: sensor-frame coordinates in 0.1 mm, capture time from the start of its epoch (Table HAT-7). -/
structure HPoint where
  x : Int
  y : Int
  z : Int
  tOfs : Nat
  intensity : Nat
  ring : Nat
  ret : Nat
  deriving DecidableEq, Repr

/-- A fused sweep: its sensor, its trigger time, and its points. -/
structure HSweep where
  sensor : Nat
  trig : Nat
  points : List HPoint
  deriving DecidableEq, Repr

/-- One sample of the ego track (R107): v in 2^-16 x 0.1 mm per ms, w in Q2.29 rad per ms, held or voted. -/
structure EgoSample where
  v : Int × Int × Int
  w : Int × Int × Int
  held : Bool
  deriving DecidableEq, Repr

/-- A pose of the track: rotation vector Q2.29, translation 2^-16 x 0.1 mm (text before R109). -/
structure Pose where
  r : Int × Int × Int
  d : Int × Int × Int
  deriving DecidableEq, Repr

/-- A point after H4: its record without the bits that H5 adds, and whether it is gridded. -/
structure FPoint where
  x : Int
  y : Int
  z : Int
  tOfs : Nat
  intensity : Nat
  ring : Nat
  sensor : Nat
  flags : Nat
  deriving DecidableEq, Repr

/-- How far an epoch has come: input open, closed, track complete, points written, plane wait over, cells voted. -/
inductive HStage
  | input
  | closed
  | tracked
  | placed
  | waited
  | voted
  deriving DecidableEq, Repr

/-- An epoch that Hatch is processing. -/
structure HEpoch where
  no : Nat
  start : Nat
  lenNs : Nat
  /-- Banks active at the boundary that opened it (R97): Hatch, ruling, sensor table. -/
  bank : Nat
  rulBank : Nat
  sensBank : Nat
  frames : List HFrame
  stage : HStage
  /-- DT64 and tick of the input close. -/
  closeNs : Nat
  closeTick : Nat
  stepped : Bool
  watchdog : Bool
  noGrid : Bool
  uncal : Bool
  egoDegraded : Bool
  egoLost : Bool
  pointDrops : Bool
  sweeps : List HSweep
  /-- Sweeps of EXCLUDED sensors, voted in shadow (R119). -/
  shadow : List HSweep
  pointsIn : Nat
  dropped : Nat
  poses : List Pose
  points : List FPoint
  shadowPoints : List FPoint
  fusedCount : Nat
  /-- The evidence planes accepted when the plane wait ended: camera sensor and slot (R116). -/
  planes : List (Nat × Nat)
  /-- Those of EXCLUDED cameras, voted in shadow (R119). -/
  shadowPlanes : List (Nat × Nat)
  grid : List Byte
  disputed : Nat
  occupied : Nat
  deriving DecidableEq, Repr

/-- A lidar's sweep in progress and its format state (R102 to R106). -/
structure SweepSt where
  state : Option Nat
  lastSeq : Option Nat
  lastAz : Option Int
  /-- A sweep is open: its trigger time, its drift, whether it is FROZEN, and its points. -/
  opened : Option (Nat × Int × Bool)
  points : List HPoint
  deriving DecidableEq, Repr

def SweepSt.reset : SweepSt := ⟨none, none, none, none, []⟩

/-- Disagreement supervision of one sensor (R118, R119): its window, the shadow counter of that window, epochs re-qualified, and
whether it is to be EXCLUDED or to return at the next boundary. -/
structure VoteSt where
  window : Nat
  shadow : Nat
  good : Nat
  exclude : Bool
  back : Bool
  deriving DecidableEq, Repr

def VoteSt.reset : VoteSt := ⟨0, 0, 0, false, false⟩

/-- Dispute supervision of one pair of sensors (R120). -/
structure PairSt where
  a : Nat
  b : Nat
  overRun : Nat
  underRun : Nat
  degraded : Bool
  deriving DecidableEq, Repr

/-- Hatch beside the HAT_ registers and its tables. -/
structure HatSt where
  epochs : List HEpoch
  /-- Per lidar port. -/
  sweep : Tbl SweepSt
  /-- Packets of a camera port taken from its queue whose frame has not ended: LENGTH word, payload, and whether it is
  damaged. -/
  camBuf : Tbl (List (List Byte × List Byte × Bool))
  /-- Next byte of each image ring (R535). -/
  ringPos : Tbl Nat
  /-- The image of a sensor's frame carried VALID: (sensor, epoch number). -/
  valid : List (Nat × Nat)
  /-- The same of frames that only the exclusion of their sensor kept from being fused (R119). -/
  shadowValid : List (Nat × Nat)
  /-- Odometry values decoded so far: meaning and value (Table HAT-8). -/
  odo : Tbl Int
  /-- The last voted ego sample (R107). -/
  lastEgo : EgoSample
  votes : Tbl VoteSt
  pairs : List PairSt
  /-- Points fused per epoch record: epoch number and count, newest first (R139). -/
  fused : List (Nat × Nat)
  /-- Stages running, with the tick of their start; those that failed late; those that completed early (R128). -/
  running : Tbl Nat
  lateHit : List Nat
  early : List Nat
  /-- The number of the epoch that each stage works on or has worked on last. -/
  stageEpoch : Tbl Nat
  deriving DecidableEq, Repr

def HatSt.reset : HatSt :=
  { epochs := [], sweep := .empty, camBuf := .empty, ringPos := .empty, valid := [], odo := .empty, lastEgo := ⟨(0, 0, 0), (0, 0, 0), true⟩,
    votes := .empty, pairs := [], fused := [], running := .empty, lateHit := [], early := [],
    shadowValid := [], stageEpoch := .empty }

/-- Golden frames and periodic self-test (R506 to R516). -/
structure GoldSt where
  /-- A golden run is in progress; it repeats one that mismatched in these stages. -/
  running : Bool
  repeated : Bool
  mismatched : List Nat
  /-- A forced run waits for Hatch to become idle, since this tick. -/
  forcedAt : Option Nat
  /-- The instant to which a collision deferred the run. -/
  deferred : Option Nat
  /-- The latest golden instant served. -/
  served : Nat
  /-- Slices running: unit, start tick, duration in ns. -/
  slices : List (Nat × Nat × Nat)
  /-- Slices passed by each unit in its present pass, and the tick at which the last complete pass ended. -/
  passed : Tbl Nat
  since : Tbl Nat
  /-- The tick of the latest start, from which INTERVAL_S runs for a unit without a complete pass. -/
  begun : Nat
  deriving DecidableEq, Repr

def GoldSt.reset : GoldSt := ⟨false, false, [], none, none, 0, [], .empty, .empty, 0⟩

/-! ### Jobs, sync objects, tasks -/

/-- Where an accepted descriptor stands (R394 to R399). -/
inductive Phase
  | waiting
  | started
  | running
  | saved
  deriving DecidableEq, Repr

/-- One entry of a taint: provisional data of a module's check epochs lo to hi (R432, R433). -/
structure Taint where
  module : Nat
  lo : Nat
  hi : Nat
  deriving DecidableEq, Repr

/-- An accepted descriptor that has not completed. -/
structure Job where
  id : Nat
  ring : Nat
  desc : List Byte
  param : List Byte
  phase : Phase
  atTick : Nat
  /-- Device time at acceptance. -/
  atNs : Nat
  startTick : Nat
  runTicks : Nat
  charge : Option (Nat × Nat)
  flags : Nat
  outAt : Option Nat
  taint : List Taint
  /-- A record with its tag has been written, so its shadow slot is free (R395). -/
  freed : Bool
  /-- It has been counted as waiting for a taint to be freed (R434). -/
  taintWait : Bool
  deriving DecidableEq, Repr

/-- A sync object (R367, R433). -/
structure SyncObj where
  value : Nat
  sat : Bool
  taint : List Taint
  deriving DecidableEq, Repr

def SyncObj.reset : SyncObj := ⟨0, false, []⟩

/-- One outstanding activation (R356 to R359). -/
structure Activation where
  num : Nat
  arriveNs : Nat
  execTicks : Nat
  budgetHit : Bool
  deadHit : Bool
  deriving DecidableEq, Repr

/-- The supervisor's record of one task. -/
structure TaskSt where
  base : Nat
  acts : List Activation
  /-- Activations complete to which jobs are or were charged, until their execution time is settled (R358). -/
  past : List Activation
  lastArrive : Option Nat
  /-- The instant from which max_ia_us is measured. -/
  lateFrom : Option Nat
  count : Nat
  done : Nat
  deriving DecidableEq, Repr

def TaskSt.reset : TaskSt := ⟨0, [], [], none, none, 0, 0⟩

/-- One armed chain activation (R361). -/
structure ChainAct where
  num : Nat
  armNs : Nat
  lateHit : Bool
  deriving DecidableEq, Repr

/-- The supervisor's record of one chain. -/
structure ChainSt where
  firstBase : Nat
  lastBase : Nat
  armed : List ChainAct
  deriving DecidableEq, Repr

def ChainSt.reset : ChainSt := ⟨0, 0, []⟩

/-- Count of violations through a reaction entry in its current window (Table PAR-7). -/
structure ReactSt where
  window : Nat
  count : Nat
  deriving DecidableEq, Repr

/-- The partition schedule's state beside its registers and tables (R340 to R352). -/
structure ParSt where
  frameStart : Nat
  /-- The window in progress continues until the first boundary of the new time line (R343). -/
  hold : Bool
  withdrawn : List Nat
  deriving DecidableEq, Repr

def ParSt.reset : ParSt := ⟨0, false, []⟩

/-! ### Units, history and error records -/

/-- State of one unit of Table ARC-7 (R30, R468, R480). -/
structure UnitSt where
  offline : Bool
  test : Bool
  offlinePending : Bool
  bad : Bool
  deriving DecidableEq, Repr

def UnitSt.reset : UnitSt := ⟨false, false, false, false⟩

/-- A history entry (Table PRF-8). -/
structure History where
  state : Nat
  source : Nat
  events : Nat
  seconds : List Nat
  lastOp : Nat
  record : Nat
  deriving DecidableEq, Repr

def History.reset : History := ⟨0, 0, 0, [], 0, 0⟩

/-- Detections being gathered into one error record (R464). -/
structure Gather where
  unit : Nat
  op : Nat
  timeNs : Nat
  atTick : Nat
  count : Nat
  cls : Nat
  detail : List (Nat × Nat)
  deriving DecidableEq, Repr

/-- A weight region (Table PRF-4, R457 to R463) beside PRF_REGION. -/
structure Region where
  block : List Byte
  ref : Nat
  root : Nat
  lastStep : Nat
  deriving DecidableEq, Repr

/-- A digest of one member for one step (R459). -/
structure Digest where
  module : Nat
  group : Nat
  step : Nat
  region : Nat
  value : Nat
  deriving DecidableEq, Repr

/-- A field test in progress (R479). -/
structure FieldTest where
  unit : Nat
  job : Nat
  startTick : Nat
  /-- The unit's test has ended; it failed. -/
  ended : Bool
  failed : Bool
  deriving DecidableEq, Repr

/-- Error detection, proof sampling and containment beside the registers (R440 to R481). -/
structure PrfSt where
  regions : Tbl Region
  digests : List Digest
  /-- Own digest steps waiting for the comparison: region, step, tick (R459). -/
  digestWait : List (Nat × Nat × Nat)
  tests : List FieldTest
  gathers : List Gather
  /-- Operating seconds of the containments (R476). -/
  containSecs : List Nat
  /-- The supervisor holds Birril in reset until the supply is removed (R476). -/
  heldReset : Bool
  deriving DecidableEq, Repr

def PrfSt.reset : PrfSt := ⟨.empty, [], [], [], [], [], false⟩

/-! ### Host transport (Host Ports and Transport) -/

/-- A reliable frame of the device (R379). -/
structure TxFrame where
  seq : Nat
  sentAt : Nat
  type : Nat
  payload : List Byte
  deriving DecidableEq, Repr

/-- One of the two streams (R379 to R383). -/
structure Stream where
  nextTx : Nat
  nextRx : Nat
  unacked : List TxFrame
  waiting : List TxFrame
  periods : Nat
  ackDue : Option Nat
  deriving DecidableEq, Repr

def Stream.reset : Stream := ⟨0, 0, [], [], 0, none⟩

/-- One item of the bulk channel's work: a push data frame not yet written, or a pull (R408 to R411). -/
structure Bulk where
  xfer : Nat
  pull : Bool
  space : Nat
  context : Nat
  addr : Nat
  data : List Byte
  last : Bool
  /-- Bytes of a pull. -/
  total : Nat
  /-- Bytes written or sent. -/
  done : Nat
  /-- Report flags (Table HST-12). -/
  flags : Nat
  deriving DecidableEq, Repr

/-- Host transport beside the HTP_ registers. -/
structure HtSt where
  /-- The control stream and the bulk stream. -/
  ctl : Stream
  blk : Stream
  /-- Descriptors in each shadow ring not yet taken. -/
  shadow : Tbl (List (List Byte))
  /-- Records of each completion ring written and not yet sent (R396). -/
  cq : Tbl (List (List Byte))
  /-- Records held by CONFIRM (R438): the job and its record. -/
  confirm : List (Job × List Byte)
  /-- Jobs reported PROVISIONAL: submission ring, tag, taint (R437). -/
  provisional : List (Nat × Nat × List Taint)
  everSession : Bool
  lastHb : Nat
  devHb : Nat
  /-- Per port: the tick of the latest HELLO without a session (R526). -/
  lastHello : Tbl Nat
  bulk : List Bulk
  /-- Push transfers open: bytes written and report flags so far. -/
  pushed : Tbl (Nat × Nat)
  /-- Push transfers that ended before their LAST frame: the rest of them is discarded. -/
  ended : List Nat
  creditIn : Nat
  usedIn : Nat
  creditOut : Nat
  usedOut : Nat
  eventNo : Nat
  orderNo : Nat
  eventLost : Bool
  /-- Items of a former session's EVENT and EPOCH_STREAM frames to be delivered again first (R385). -/
  againEvents : List (List Byte)
  againEpochs : List (List Byte)
  hostMac : Tbl Nat
  /-- Bit n = the link of host port n is known to be down; otherwise it is up or coming up (R383; log entry 118). -/
  down : Nat
  deriving DecidableEq, Repr

def HtSt.reset : HtSt :=
  ⟨.reset, .reset, .empty, .empty, [], [], false, 0, 0, .empty, [], .empty, [], 0, 0, 0, 0, 0, 0, false, [], [], .empty, 0⟩

/-! ### Power, part and non-volatile store -/

/-- What leaves the module. -/
inductive EmitKind
  | hostFrame
  | egress
  | flit
  | gptp
  | trigger
  | backChannel
  | phaseCommand
  | control
  deriving DecidableEq, Repr

/-- One thing that left the module: on which port or line, and its bytes. -/
structure Emit where
  kind : EmitKind
  port : Nat
  atNs : Nat
  bytes : List Byte
  deriving DecidableEq, Repr

/-- Power phase of the module. -/
inductive Power
  | off
  | held
  | starting
  | up
  deriving DecidableEq, Repr

/-- Fuses and factory data of the part (R3, R43, R518, Table BUP-2). -/
structure Part where
  serial : Nat
  ordering : Nat
  clockKhz : Nat
  limitW : Nat
  stepping : Nat
  badPlate : Nat
  badStripe : List Nat
  badCore : List Nat
  badMisc : Nat
  rollback : Nat
  mac : List Nat
  rxLat : List Nat
  txLat : List Nat
  deriving DecidableEq, Repr

/-- A blank AXC-150 (log entry 2). -/
def Part.reset : Part :=
  ⟨0, 150, 1400000, 150, 0, 0, [], [], 0, 0, [0, 0], [], []⟩

/-- A copy of the calibration set (R527 to R529). -/
structure CalSet where
  /-- The bytes that are not zero of the ruling, sensor and Hatch tables, at their addresses in bank 0. -/
  cells : List Host.Cell
  size : Nat
  /-- Its CRC-32 checks. -/
  good : Bool
  deriving DecidableEq, Repr

/-- The non-volatile store. -/
structure NvSt where
  inc : Option Nat
  cal : List CalSet
  history : Tbl History
  errors : List (List Byte)
  recordNo : Nat
  seconds : Nat
  training : Nat
  memLevel : Nat
  aphyMin : Nat
  sqiMin : Nat
  ms : List Bool
  cak : List (Option Nat)
  macsecSave : List Bool
  brownOut : Option Nat
  regions : Tbl (Region × Nat)
  deriving DecidableEq, Repr

/-- An empty store (log entry 2). -/
def NvSt.reset : NvSt :=
  ⟨none, [], .empty, [], 0, 0, 0, 0, 160, 5, [false, false], [none, none], [false, false], none, .empty⟩

/-! ### Supervisor and margin guard (Functional Safety and Hardware Limits) -/

/-- One source of Table SAF-3: the lines it holds (bit 0 A, bit 1 B), whether its cause is present, and the tick at which
its cause last cleared. -/
structure SrcSt where
  lines : Nat
  cause : Bool
  clearedAt : Nat
  deriving DecidableEq, Repr

/-- The supervisor beside the SUP_ registers. -/
structure SupSt where
  src : Tbl SrcSt
  /-- The reaction entry that the latest safe-state request of source 2 names (R366). -/
  entry : Option Nat
  /-- SAFE_IN is asserted, since this tick. -/
  safeInAt : Option Nat
  /-- A confirmed golden mismatch or the like keeps the cause of SELF_TEST: the Hatch stages concerned (R508). -/
  goldenStages : List Nat
  /-- A plate forced to its lowest clock by the power monitor, since this tick (R504). -/
  trippedAt : Option Nat
  /-- The module is held in reset by a thermal trip (R505). -/
  thermalHold : Bool
  /-- The time clock or rail AON-S is out of tolerance (Table SAF-3); bit 0 SAFE_A, bit 1 SAFE_B reads back wrong (R582). -/
  clockBad : Bool
  lineBad : Nat
  deriving DecidableEq, Repr

/-- From power-on source POWER_ON holds both lines (R488). -/
def SupSt.reset : SupSt := ⟨⟨[(0, ⟨3, true, 0⟩)]⟩, none, some 0, [], none, false, false, 0⟩

/-- A token bucket in 1/1,000,000,000 of a token, and the tick of its last refill (R502). -/
structure Bucket where
  level : Nat
  atTick : Nat
  deriving DecidableEq, Repr

/-- The margin guard beside the MGD_ registers: the locked payload, the value last emitted per field, the tick of the last
emission per command, the policers. -/
structure MgdSt where
  table : List Byte
  /-- The COSE_Sign1 structure that carried it. -/
  raw : List Byte
  prev : Tbl Int
  lastEmit : Tbl Nat
  buckets : Tbl Bucket
  deriving DecidableEq, Repr

def MgdSt.reset : MgdSt := ⟨[], [], .empty, .empty, .empty⟩

/-! ### Memory (Memory, Translation, DMA and Pre-emption) -/

/-- An OPEN job context (R314, R315). -/
structure CtxSt where
  root : Nat
  save : Nat
  saveLen : Nat
  /-- In units of 10 ms; 0 = none. -/
  nrTimeout : Nat
  deriving DecidableEq, Repr

/-- A cached walk: the context, the page's first virtual address, its size and its page-table entry (R311). -/
structure CachedWalk where
  context : Nat
  va : Nat
  size : Nat
  pte : Nat
  deriving DecidableEq, Repr

/-! ### Plates and needle cores (Plates and Burin Arrays; Needle Cores and the Xneedle Extension) -/

/-- A queued burin command or DMA descriptor, and the logical core that issued it (64 = device firmware). -/
structure Queued where
  bytes : List Byte
  core : Nat
  deriving DecidableEq, Repr

/-- The commands of a tile, or of a run outside a tile, that a recomputation repeats (R199; log entry 111). -/
structure TileLog where
  id : Nat
  /-- Without their SIG, the LOADW of its weights first. -/
  cmds : List Queued
  /-- The accumulators before the first of them. -/
  acc : Tbl Nat
  /-- What its DRAINs wrote over, newest first: plate offset, bytes, whether a word of them fails. -/
  undo : List (Nat × List Byte × Bool)
  closed : Bool
  /-- Recomputations made. -/
  tries : Nat
  deriving DecidableEq, Repr

/-- A failure of the array's work that the plate runtime has to recompute (R198, R199, R447). -/
structure ArrFail where
  /-- The log it lies in; none when no log holds its tile tag. -/
  log : Option Nat
  tile : Nat
  cause : Nat
  stripe : Nat
  /-- The failing read was of weights, which a LOADW names. -/
  load : Option Queued
  deriving DecidableEq, Repr

/-- A burin array (R165 to R184, R202). -/
structure ArrSt where
  /-- Accumulator row m, column n at key 64 m + n, as a 32-bit pattern. -/
  acc : Tbl Nat
  accType : Nat
  accExp : Nat
  /-- Columns of the accumulators: 64, or 16 for BF16. -/
  accN : Nat
  queue : List Queued
  /-- Tail state (R172): type, columns, acc_exp, the latest LOADW's fmt byte, loaded curve slots. -/
  tailType : Nat
  tailN : Nat
  tailExp : Nat
  tailLoad : Option Nat
  tailCurves : Nat
  /-- Weight registers: tile, then scales; the active set and the shadow set loaded since. -/
  active : List Byte
  shadow : Option (List Byte)
  curves : List (List Byte)
  /-- What the plate runtime can repeat: the tile in progress or last executed, and those since the oldest failure that waits
  for its recomputation (R199). -/
  tiles : List TileLog
  nextTile : Nat
  /-- The commands at the head of the queue that repeat a tile: its number, for each (R199). -/
  replay : List Nat
  /-- Failures that wait for interrupt 16 to be handled (R199, R213). -/
  fails : List ArrFail
  /-- The latest LOADW executed. -/
  lastLoad : Option Queued
  /-- A tile is open: a MATMUL with ZERO has run and no DRAIN with CRC since (text before R449). -/
  inTile : Bool
  deriving DecidableEq, Repr

def ArrSt.reset : ArrSt := ⟨.empty, 0, 0, 64, [], 0, 64, 0, none, 0, [], none, [[], [], [], []], [], 0, [], [], none, false⟩

/-- What a needle core is held on (R173, R187, R219). -/
inductive Hold
  | burin
  | dmaq
  | wait (obj value : Nat) (deadline : Option Nat) (rd : Nat)
  deriving DecidableEq, Repr

/-- A needle core (R205 to R220). -/
structure CoreSt where
  x : Tbl Nat
  f : Tbl Nat
  v : Tbl (List Byte)
  pc : Nat
  machine : Bool
  csr : Tbl Nat
  resv : Option Nat
  hold : Option Hold
  running : Bool
  exited : Bool
  exitVal : Nat
  /-- Tile tag of the last burin command issued (R447). -/
  lastTile : Nat
  /-- Pending interrupts: bit 16 array fault, bit 17 pre-emption. -/
  irq : Nat
  /-- The pc and the deadline of an xn.wait that has begun, kept over pre-emption (R214, R219). -/
  waitTill : Option (Nat × Nat)
  deriving DecidableEq, Repr

def CoreSt.reset : CoreSt := ⟨.empty, .empty, .empty, 0, false, .empty, none, none, false, false, 0, 0, 0, none⟩

/-- A tile being recorded or recorded for proof sampling (R451). -/
structure ProofRec where
  job : Nat
  context : Nat
  tile : Nat
  /-- The log of the tile recorded. -/
  log : Nat
  /-- Commands with the operand bytes that the array read for them (R451). -/
  cmds : List (List Byte × List Byte)
  /-- Bytes of the record so far. -/
  size : Nat
  /-- Accumulators and curve slots as the tile found them. -/
  acc : Tbl Nat
  curves : List (List Byte)
  /-- The source array's CRC, once its DRAIN has delivered it; then the checker's. -/
  crc : Option Nat
  checkCrc : Option Nat
  deriving DecidableEq, Repr

/-- Proof-sampling window of one context on one plate (R449, R450). -/
structure ProofWin where
  lfsr : Nat
  /-- The epoch whose seed the register took last. -/
  epoch : Option Nat
  n : Nat
  tile : Nat
  offset : Nat
  deriving DecidableEq, Repr

/-- One plate (Plates and Burin Arrays). -/
structure PlateSt where
  run : Option Nat
  arr : ArrSt
  dma : List Queued
  /-- Descriptors of the job completed on the channel (MEM_CH.DESC_POS). -/
  dmaDone : Nat
  slots : List ProofRec
  recording : Option ProofRec
  wins : Tbl ProofWin
  /-- Descriptors that filled the array buffer of this launch, oldest first: where its weights came from (R199). -/
  fetched : List Queued
  deriving DecidableEq, Repr

def PlateSt.reset : PlateSt := ⟨none, .reset, [], 0, [], none, .empty, []⟩

/-- What a pre-emption saved of one plate (R332). -/
structure SavedPlate where
  arr : ArrSt
  dma : List Queued
  dmaDone : Nat
  cores : List (Nat × CoreSt)
  forced : Bool
  /-- Bytes spilled to the save area: plate offset and length (R334). -/
  spill : List (Nat × Nat)
  /-- The records of the plate's DMA channel and fetch path (Table MEM-6), state aside. -/
  dmaRec : List Nat
  fetchRec : List Nat
  /-- The proof record of the tile in progress (R451). -/
  recording : Option ProofRec
  fetched : List Queued
  deriving DecidableEq, Repr

/-- A plate launch that has started (R190 to R196). -/
structure Launch where
  job : Nat
  /-- Physical plates in ascending logical order. -/
  plates : List Nat
  cores : Nat
  tilesRedone : Nat
  /-- A failure that makes it complete DATA_ERROR: tile tag, unit, cause (R199, R455). -/
  dataErr : Option (Nat × Nat × Nat)
  /-- The tick of a pre-emption request that is not complete (R201, R331). -/
  preempt : Option Nat
  saved : Tbl SavedPlate
  deriving DecidableEq, Repr

/-! ### Stipple, burnisher, ring: jobs in progress -/

/-- What a Stipple job that has been computed still has to write, and how it completes (R134, R163). -/
structure StpOut where
  writes : List (Nat × List Byte)
  status : Nat
  result : Nat
  detail : Nat
  dropped : Bool
  deriving DecidableEq, Repr

/-- The Stipple engine's job (R132, R162): whether its sources have been read whole, whether a read of this run met a
detection, and its outcome once computed. -/
structure StpSt where
  run : Option Nat
  readDone : Bool
  hit : Bool
  out : Option StpOut
  deriving DecidableEq, Repr

def StpSt.reset : StpSt := ⟨none, false, false, none⟩

/-! ### Start, security, supply, clock islands -/

/-- Bring-up beside the EAS_ registers and the readiness table (R517 to R552). -/
structure BootSt where
  /-- This start follows a containment or a thermal trip (R552). -/
  warm : Bool
  /-- Release units that were released before the warm restart: bit r = region r, bit 16 = boot region (R471). -/
  kept : Nat
  bistDone : Bool
  /-- Bit c = channel c's training has ended. -/
  trained : Nat
  /-- Bit h = the first retention pause of half h has ended, bit 2 + h = its retention phase has (Table BUP-6). -/
  retained : Nat
  /-- Regions that failed their test, with the reason of Table BUP-10 (R540). -/
  failed : Tbl Nat
  /-- Boot-region granules whose boot copy failed the ADDRESS test (R539). -/
  badBoot : List Nat
  /-- A calibration save in progress (R529). -/
  saving : Option CalSet
  /-- The calibration set loaded at start. -/
  calSet : Option CalSet
  /-- The running image's header; empty while no firmware runs (R544). -/
  fwHeader : List Byte
  /-- A push of space 0x2 ended with LAST: the transfer whose report waits for the verification (R544). -/
  verify : Option Nat
  /-- Readiness of a function before it went OFFLINE. -/
  before : Tbl Nat
  /-- The needle firmware has been multicast; bit p = physical plate p has received it (R24, R547). -/
  needleFw : Bool
  fwPlates : Nat
  /-- The case temperature last reported by a DDR4 device, in 0.1 °C: key channel x 8 + device (R305). -/
  caseTemp : Tbl Int
  /-- EAS_MEMTEST.LEVEL as this start found it (R541). -/
  level : Nat
  deriving DecidableEq, Repr

def BootSt.reset : BootSt := ⟨false, 0, false, 0, 0, .empty, [], none, none, [], none, .empty, false, 0, .empty, 0⟩

/-- The security unit beside the SEC_ registers (R553 to R568). -/
structure SecSt where
  /-- Draws of random bits so far. -/
  draws : Nat
  /-- The table key latched (R558). -/
  tableKey : List Byte
  /-- The CAK in use per host port. -/
  cak : Tbl Nat
  /-- The counter value that the advance in progress ends at (R560). -/
  target : Option Nat
  /-- Nonces of reports being built and waiting to be built (R563). -/
  reports : List (List Byte)
  /-- Packets sent under the current transmit association of a host port, and the transmit and receive associations (R565). -/
  sent : Tbl Nat
  txAssoc : Tbl Nat
  rxAssoc : Tbl Nat
  deriving DecidableEq, Repr

def SecSt.reset : SecSt := ⟨0, [], .empty, none, [], .empty, .empty, .empty⟩

/-- Supply, camera power and clock islands beside the PWR_ registers (R2, R17, R571 to R585). -/
structure PwrSt where
  /-- VIN in mV; since which ticks it has been below 6.5 V, and above 60 V (Table MOD-4). -/
  vin : Nat
  underSince : Option Nat
  overSince : Option Nat
  /-- Since which tick VIN has been above 72 V (Table MOD-4). -/
  surgeSince : Option Nat
  /-- WAKE has been low since this tick (R578). -/
  wakeLow : Option Nat
  /-- The module is off because WAKE was low (R578). -/
  wakeOff : Bool
  /-- MISSION_END has been raised since the start (R587). -/
  missionTold : Bool
  /-- The ticks of the latest faults of a camera port, newest first; whether it is locked open; when its switch opened (R579). -/
  pocFaults : Tbl (List Nat)
  pocLocked : Tbl Bool
  pocOpen : Tbl Nat
  /-- The clock of an island in kHz, and the tick at which its gate opens again (R17). -/
  clock : Tbl Nat
  gateUntil : Tbl Nat
  /-- The averaged input power has been above the limit since this tick (R2). -/
  overLimit : Option Nat
  /-- Bit d = power domain d is on (Table ARC-3). -/
  domains : Nat
  /-- Ticks of the latest domain switch-ons (R517). -/
  switched : List Nat
  deriving DecidableEq, Repr

def PwrSt.reset : PwrSt := ⟨0, none, none, none, none, false, false, .empty, .empty, .empty, .empty, .empty, none, 1, []⟩

/-! ### Key-value caches (Attention and the Paged Key-Value Cache) -/

/-- What a look-aside entry maps (R252). -/
inductive LabMap
  | slot (n : Nat)
  | staging
  | nothing
  | remote (module slot : Nat)
  deriving DecidableEq, Repr

/-- A look-aside entry (R252 to R255); the latest used comes first in its plate's list. -/
structure LabEntry where
  cache : Nat
  seq : Nat
  layer : Nat
  page : Nat
  map : LabMap
  epoch : Nat
  deriving DecidableEq, Repr

/-- A registered cache (Table ATT-3). -/
structure KvCache where
  block : List Byte
  /-- Staging buffer numbers of each ACTIVE sequence, one per layer. -/
  bufs : Tbl (List Nat)
  /-- Sequence and layer whose full buffer waits for a slot (R247). -/
  held : List (Nat × Nat)
  /-- Slots in QUARANTINE with their tag (R256). -/
  quar : List (Nat × Nat)
  /-- Pages placed on other modules, by module × 2^24 + slot: bytes and scales. A flushed page is never written again, so its
  module answers reads with these (R251, R261). -/
  remote : Tbl (List Byte × List Byte)
  deriving DecidableEq, Repr

/-- A tracer: its command queue (command, plate channel), reclamation epoch and pins (R243, R252, R256). -/
structure TracerSt where
  queue : List (List Byte × Nat)
  epoch : Nat
  pins : Tbl Nat
  deriving DecidableEq, Repr

def TracerSt.reset : TracerSt := ⟨[], 0, .empty⟩

/-! ### Ring (Ring Ports and Multi-Module Operation) -/

/-- An admitted neighbour, as its latest HELLO gives it (Table RNG-2, R422). -/
structure Neighbour where
  serial : Nat
  role : Nat
  roleCrc : Nat
  generation : Nat
  lastAt : Nat
  deriving DecidableEq, Repr

/-- A member of the ring in census order (R423 to R425). -/
structure Member where
  serial : Nat
  module : Nat
  role : Nat
  roleCrc : Nat
  deriving DecidableEq, Repr

/-- The sending side of a ring port: the next sequence number, the flits kept for replay, the seq at which the latest replays
began with their number and tick, the credits held, and the flits that wait for one (R415 to R417). -/
structure PortTx where
  next : Nat
  kept : List (Nat × List Byte)
  keptAt : Nat
  replaySeq : Nat
  replays : Nat
  ctrlCredit : Nat
  dataCredit : Nat
  waitCtrl : List (List Byte)
  waitData : List (List Byte)
  deriving DecidableEq, Repr

def PortTx.reset : PortTx := ⟨0, [], 0, 0, 0, 16, 240, [], []⟩

/-- A transfer: its header (R432) and the bytes of it received so far. -/
structure Xfer where
  coll : Nat
  op : Nat
  sender : Nat
  step : Nat
  size : Nat
  ofs : Nat
  taint : List Taint
  got : List Byte
  /-- It came over a port that ran on 3 lanes (R421). -/
  slow : Bool
  deriving DecidableEq, Repr

/-- The receiving side of a ring port (R416): the seq expected, whether a NAK has been sent since the last accepted flit, and
the transfer under way. -/
structure PortRx where
  expect : Nat
  nak : Bool
  xfer : Option Xfer
  deriving DecidableEq, Repr

def PortRx.reset : PortRx := ⟨0, false, none⟩

/-- A collective that has not completed (R428 to R431). -/
structure Coll where
  job : Nat
  number : Nat
  /-- It has started, at this tick; the tick of its latest progress. -/
  startAt : Option Nat
  progressAt : Nat
  /-- Its first transfer has been sent; transfers received and used; transfers received and not yet used. -/
  sent : Bool
  step : Nat
  received : List Xfer
  deriving DecidableEq, Repr

/-- A margin-guard word held until its taint commits (R438, R439): path, element, word with its binary point, job. -/
structure HeldWord where
  path : Nat
  elem : Nat
  word : Int
  point : Int
  step : Nat
  job : Nat
  taint : List Taint
  deriving DecidableEq, Repr

/-- A verdict of a module on its check epochs from `lo` to `hi`: on one epoch as it is broadcast, or RETRACT on all that a departed
module left uncommitted (R426, R435). -/
structure Verdict where
  module : Nat
  lo : Nat
  hi : Nat
  retract : Bool
  deriving DecidableEq, Repr

/-- The ring beside the RNG_ registers. -/
structure RingSt where
  neigh : Tbl Neighbour
  members : List Member
  /-- The role table; empty = none. -/
  roles : List Byte
  tx : Tbl PortTx
  rx : Tbl PortRx
  /-- A census begun by the serial, at the tick. -/
  census : Option (Nat × Nat)
  genSeen : Nat
  colls : List Coll
  /-- Verdicts heard, and those that a departure stands for (R426, R435). -/
  verdicts : List Verdict
  /-- Check epochs in which this module sent a transfer and not yet closed, with the jobs and the contexts whose output it sent. -/
  sent : List (Nat × List Nat × List Nat)
  /-- Jobs of which a proof or digest comparison failed. -/
  badJobs : List Nat
  held : List HeldWord
  /-- Bit l = lane l has passed its PRBS check. -/
  passed : Nat
  /-- Bit l = lane l has block lock. -/
  locked : Nat
  helloAt : Tbl Nat
  /-- Transfers of collectives that this module has not started. -/
  early : List Xfer
  /-- Slots that hold pages placed here by other modules: module, cache, slot (R261, R427). -/
  placed : List (Nat × Nat × Nat)
  /-- Pins of remote look-aside entries: module, cache, slot, epoch (R262). -/
  remotePins : List (Nat × Nat × Nat × Nat)
  deriving DecidableEq, Repr

def RingSt.reset : RingSt :=
  ⟨.empty, [], [], .empty, .empty, none, 0, [], [], [], [], [], 0, 0, .empty, [], [], []⟩

/-! ### Burnisher (Burnisher Sparse Solver) -/

/-- A scalar m * 2^e of the burnisher (R266). -/
structure Sc where
  m : Int
  e : Int
  deriving DecidableEq, Repr

/-- Vectors and scalars that CG carries from one iteration to the next (text after R277). -/
structure CgSt where
  x : List Int
  r : List Int
  p : List Int
  rho : Sc
  deriving DecidableEq, Repr

/-- What BiCGSTAB carries from one iteration to the next; `rh` is r̂₀. -/
structure BiSt where
  rh : List Int
  x : List Int
  r : List Int
  p : List Int
  v : List Int
  rho : Sc
  deriving DecidableEq, Repr

/-- What MINRES carries from one iteration to the next. -/
structure MrSt where
  x : List Int
  r1 : List Int
  r2 : List Int
  y : List Int
  w : List Int
  w2 : List Int
  beta : Sc
  oldb : Sc
  dbar : Sc
  eps : Sc
  phibar : Sc
  cs : Sc
  sn : Sc
  deriving DecidableEq, Repr

/-- How far a SOLVE has come at a boundary where it can stop (R298): nothing done, rows of the preconditioner built, or
iterate k - 1 complete, with the norm that the residual is relative to and the limit of the convergence test. -/
inductive SolvePhase
  | begun
  | rows (n : Nat)
  | cg (bb thr : Sc) (k : Nat) (s : CgSt)
  | bi (bb thr : Sc) (k : Nat) (s : BiSt)
  | mr (beta1 thr : Sc) (k : Nat) (s : MrSt)
  deriving DecidableEq, Repr

/-- A SOLVE that has begun: whether a warm start was accepted, the start value, how far it has come, and the last complete
iterate with its index and residual (R289 to R291). -/
structure SolveSt where
  warm : Bool
  x0 : List Int
  phase : SolvePhase
  iters : Nat
  x : List Int
  res : Nat
  deriving DecidableEq, Repr

/-- A run that has started and not completed (R282 to R298). -/
structure BrnRun where
  job : Nat
  /-- Its number among the problem's runs (Table BRN-8). -/
  no : Nat
  step : Nat
  /-- Pass counters of LOOP steps. -/
  passes : Tbl Nat
  /-- The next input entry to read at the start; 4 = all read. -/
  inputs : Nat
  /-- Absolute deadline, if it has one. -/
  deadline : Option Nat
  /-- The deadline has arrived: only OUT steps with the DEADLINE policy run. -/
  late : Bool
  /-- Stop reason of the latest SOLVE, its iterations and residual (Table BRN-8). -/
  reason : Nat
  iters : Nat
  resid : Nat
  /-- The step at which the run stopped, once it has. -/
  stopStep : Nat
  /-- Reruns made under R295, and whether structure and values are to be fetched again first. -/
  retries : Nat
  refetch : Bool
  /-- Slots and signatures as the run found them. -/
  snapSlots : Tbl (List Int)
  snapSigs : Tbl Nat
  /-- User slots that the run has written (R296). -/
  touched : List Nat
  /-- The SOLVE step that has begun and not ended. -/
  solve : Option SolveSt
  deriving DecidableEq, Repr

/-- A registered problem (R270 to R285). -/
structure BrnProb where
  /-- BRN_PROB.STATE: 1 NO_VALUES, 2 READY, 3 STALE. -/
  state : Nat
  /-- The context of its REGISTER descriptor. -/
  context : Nat
  record : List Byte
  program : List Byte
  /-- Resident structure and values; empty when streamed. -/
  rowptr : List Byte
  cols : List Byte
  vals : List Byte
  /-- Context and address of the value array of the last VALUES. -/
  valsAt : Nat × Nat
  /-- The structure signature: n + 2^32 times the CRC-64 (text after R274). -/
  sig : Nat
  /-- Words and signatures of the user slots; signature 0 is the null signature. -/
  slots : Tbl (List Int)
  sigs : Tbl Nat
  /-- User slots that hold a poisoned word (R446). -/
  poison : List Nat
  /-- The preconditioner's words per row, and whether it will be rebuilt. -/
  pre : List (List (Nat × Int))
  stale : Bool
  /-- The ARM descriptor while it is armed, and the next trigger value. -/
  armed : Option Job
  vNext : Nat
  runs : Nat
  /-- Jobs of the runs queued and not started, and the triggered one among them. -/
  queued : List Nat
  trigRun : Option Nat
  run : Option BrnRun
  deriving DecidableEq, Repr

/-- The burnisher: its problems, and the problem whose run executes. -/
structure BrnSt where
  probs : Tbl BrnProb
  cur : Option Nat
  /-- The job whose accesses the next two fields hold. -/
  accJob : Nat
  /-- Accesses of the operation that a fault holds, to be taken from here when it executes again; the last one goes on from
  what it has moved (R322, R324). -/
  redo : List (List Byte × Bool)
  /-- Accesses that the operation executing has made. -/
  made : List (List Byte × Bool)
  deriving DecidableEq, Repr

def BrnSt.reset : BrnSt := ⟨.empty, none, 0, [], []⟩

/-! ### The whole -/

/-- The state of the block. -/
structure State where
  pending : List Instr
  regs : Tbl Nat
  mem : List Host.Cell
  bad : List Nat
  free : Nat
  ticks : Nat
  emitted : List Emit
  power : Power
  part : Part
  nv : NvSt
  tm : TimeSt
  ing : IngSt
  hat : HatSt
  gold : GoldSt
  queues : Tbl Queue
  units : Tbl UnitSt
  /-- The generation field of the Device Description Table, 0 at each start (R28; log entry 117). -/
  ddtGen : Nat
  /-- Bit n = physical plate n is enabled (R14). -/
  plateMap : Nat
  /-- ddr_bytes of the table, set at start (Table ARC-8). -/
  ddrBytes : Nat
  /-- Bit c = DDR4 channel c is enabled (R300, R471). -/
  chanMap : Nat
  prf : PrfSt
  jobs : List Job
  nextJob : Nat
  ht : HtSt
  sync : Tbl SyncObj
  tasks : Tbl TaskSt
  chains : Tbl ChainSt
  reacts : Tbl ReactSt
  par : ParSt
  sup : SupSt
  mgd : MgdSt
  ctxs : Tbl CtxSt
  /-- Translation caches per DMA channel and fetch path (R311). -/
  tlbs : Tbl (List CachedWalk)
  /-- Jobs that own the transfers of the channels outside the plates (Table MEM-5). -/
  chanJob : Tbl Nat
  /-- Bytes moved of the COPY jobs that have left their engine for one of higher priority (R321). -/
  copyDone : Tbl Nat
  plates : Tbl PlateSt
  /-- Needle cores: physical plate * 128 + logical core. -/
  cores : Tbl CoreSt
  /-- The M-mode CSRs of the needle cores that have been written: NDL_ index × 4,096 + CSR number (Table NDL-3). -/
  mcsr : Tbl Nat
  /-- Started launches by job. -/
  launches : Tbl Launch
  stp : StpSt
  boot : BootSt
  sec : SecSt
  pwr : PwrSt
  caches : Tbl KvCache
  tracers : Tbl TracerSt
  /-- Look-aside buffers per physical plate. -/
  labs : Tbl (List LabEntry)
  ring : RingSt
  brn : BrnSt
  deriving DecidableEq, Repr

/-- The machine right after reset: every register at its reset value, memory with nothing listed, no job, no session. -/
def State.reset : State where
  pending := []
  regs := .empty
  mem := []
  bad := []
  free := 0
  ticks := 0
  emitted := []
  power := .off
  part := .reset
  nv := .reset
  tm := .reset
  ing := .reset
  hat := .reset
  gold := .reset
  queues := .empty
  units := .empty
  ddtGen := 0
  plateMap := 0
  ddrBytes := 0
  chanMap := 0
  prf := .reset
  jobs := []
  nextJob := 0
  ht := .reset
  sync := .empty
  tasks := .empty
  chains := .empty
  reacts := .empty
  par := .reset
  sup := .reset
  mgd := .reset
  ctxs := .empty
  tlbs := .empty
  chanJob := .empty
  copyDone := .empty
  plates := .empty
  cores := .empty
  mcsr := .empty
  launches := .empty
  stp := .reset
  boot := .reset
  sec := .reset
  pwr := .reset
  caches := .empty
  tracers := .empty
  labs := .empty
  ring := .reset
  brn := .reset

/-- The outcome of a meaning. -/
abbrev Res := Host.Outcome State Fault Refusal

end Sys2Proof.Machine
end

