-- ==== Sys2Proof/Machine/Ops.lean ====
section
/-! DEFINITION. The named operations that every meaning is written with: register fields, device time, memory, spill
queues, events and error records. -/

namespace Sys2Proof.Machine

/-! ### Register fields (R10) -/

/-- The key of element `i` of a field in the register table. -/
def regKey (f : RegField) (i : Nat) : Nat := (f.addr + f.stride * i) * 8 + f.lo

/-- Reset values of HAT_WD per stage (Table HAT-17): EARLY_US and LATE_US of stage `i + 1`. -/
def watchdogReset (early : Bool) (i : Nat) : Nat :=
  if early then [20, 5, 5, 10, 20, 5].getD i 0 else [8000, 2000, 1000, 3000, 2000, 1000].getD i 0

/-- The reset value of element `i` of a field. -/
def regReset (f : RegField) (i : Nat) : Nat :=
  if f.addr = 0x80004 then i * 0x44
  else if f.addr = 0x90100 then watchdogReset (f.lo == 0) i
  else f.reset

/-- The value of element `i` of a register field. -/
def State.rd (s : State) (f : RegField) (i : Nat := 0) : Nat := (s.regs.find (regKey f i)).getD (regReset f i)

/-- Element `i` of a register field set to `v`. -/
def State.wr (s : State) (f : RegField) (v : Nat) (i : Nat := 0) : State :=
  { s with regs := s.regs.set (regKey f i) (v % 2 ^ f.width) }

/-- A flag field as a truth value. -/
def State.flag (s : State) (f : RegField) (i : Nat := 0) : Bool := s.rd f i != 0

/-- A counter field advanced by `n`: saturating where its table says so, otherwise modulo its width (log entry 9). -/
def State.bump (s : State) (f : RegField) (i : Nat := 0) (n : Nat := 1) : State :=
  s.wr f (if f.sat then satU f.width (s.rd f i + n) else s.rd f i + n) i

/-! ### Device time (R32, R47) -/

/-- DT64 (text before R32). -/
def State.dt64 (s : State) : Nat := s.tm.dt96 / 2 ^ 32 % 2 ^ 64

/-- The epoch length in ns (R47). -/
def State.epochLen (s : State) : Nat := s.rd Reg.RUL_EPOCH_LEN_MS * 1000000

/-- The whole number of epochs from the offset to instant `t`; negative before it (R47). -/
def State.epochIndex (s : State) (t : Nat) : Int :=
  ((t : Int) - s.rd Reg.RUL_EPOCH_OFS_OFS_NS) / (s.epochLen : Int)

/-- The epoch number of instant `t` (R47). -/
def State.epochOf (s : State) (t : Nat) : Nat := toU 32 (s.epochIndex t)

/-- The first epoch boundary after instant `t` (R47). -/
def State.nextBoundary (s : State) (t : Nat) : Nat :=
  ((s.epochIndex t + 1) * s.epochLen + s.rd Reg.RUL_EPOCH_OFS_OFS_NS).toNat

/-- Ticks of the time clock in `us` microseconds (R18: 250 MHz). -/
def usTicks (us : Nat) : Nat := us * 250

/-- Ticks of the time clock in `ms` milliseconds. -/
def msTicks (ms : Nat) : Nat := ms * 250000

/-- Whether `d` ticks have passed since tick `t`. -/
def State.passed (s : State) (t d : Nat) : Bool := decide (t + d ≤ s.ticks)

/-! ### Free values -/

/-- A free value of `w` bits: nothing constrains it (log entry 4). -/
def State.freeVal (s : State) (w : Nat) : Nat := Config.free s.free % 2 ^ w

/-- The state after one free value has been used. -/
def State.usedFree (s : State) : State := { s with free := s.free + 1 }

/-! ### Memory (Table ARC-4, R300 to R303, R592) -/

/-- A byte address: the memory `space` and the offset in it. -/
def gaddr (space ofs : Nat) : Nat := space * 2 ^ 44 + ofs

/-- Spaces: DDR4 by physical address, commons, Hatch memory, plate memory (4 MiB per physical plate), tables that lie in
register windows, Hatch tables, frame templates, burnisher memory, easel SRAM staging. -/
def spDdr : Nat := 0
def spCommons : Nat := 1
def spHatch : Nat := 2
def spPlate : Nat := 3
def spWindow : Nat := 4
def spHatTab : Nat := 5
def spTemplate : Nat := 6
def spBurnisher : Nat := 7
def spEasel : Nat := 8

/-- The address of plate `p`'s byte `o`. -/
def plateAddr (p o : Nat) : Nat := gaddr spPlate (p * 2 ^ 22 + o)

/-- The address of the byte at register address `r` of a table window. -/
def winAddr (r : Nat) : Nat := gaddr spWindow r

/-- What a byte of a register-window table holds at reset: partition 0 (text after R345), the default schedule bank
(text after R343) and the reaction entries (Table PAR-8). -/
def windowReset (r : Nat) : Nat :=
  if 0xE1000 ≤ r ∧ r < 0xE1030 then
    (if r = 0xE1000 then 0xE8 else if r = 0xE1001 then 0x03 else if r = 0xE1002 then 1 else if r = 0xE1024 then 1 else 0)
  else if 0xE3000 ≤ r ∧ r < 0xE3020 then
    [1, 0, 0, 0, 0, 0, 0, 0, 0x00, 0x60, 0x27, 0x00, 0, 0, 0x00, 0x56].getD (r - 0xE3000) 0
  else if 0xE7000 ≤ r ∧ r < 0xE7200 then [0, 1, 0xE8, 0x03].getD ((r - 0xE7000) % 8) 0
  else 0

/-- What an address that the memory does not list reads as: the reset contents the spec gives, otherwise zero (log entry 3). -/
def memDefault (a : Nat) : Byte :=
  if a / 2 ^ 44 = spWindow then BitVec.ofNat 8 (windowReset (a % 2 ^ 44)) else 0#8

/-- The byte of memory `m` at address `a`. -/
def memGet (m : List Host.Cell) (a : Nat) : Byte := (Tbl.findIn m a).getD (memDefault a)

/-- Memory `m` with the byte at `a` now `v`; a byte equal to what an unlisted address reads as is not listed. -/
def memSet (m : List Host.Cell) (a : Nat) (v : Byte) : List Host.Cell :=
  if v = memDefault a then m.filter (fun c => c.1 != a) else Tbl.setIn m a v

/-- Addresses strictly rising, each above `lo`. -/
def risingFrom : Nat → List Host.Cell → Bool
  | _, [] => true
  | lo, c :: r => decide (lo ≤ c.1) && risingFrom (c.1 + 1) r

/-- The canonical form of memory: addresses strictly rising, no entry equal to what an unlisted address reads as. -/
def Memory.wf (m : List Host.Cell) : Bool := risingFrom 0 m && m.all (fun c => c.2 != memDefault c.1)

/-- Memory with the bytes of `l` from address `a`. -/
def memWrite (m : List Host.Cell) (a : Nat) : List Byte → List Host.Cell
  | [] => m
  | b :: r => memWrite (memSet m a b) (a + 1) r

/-- `n` bytes of memory from address `a`. -/
def memRead (m : List Host.Cell) (a : Nat) : Nat → List Byte
  | 0 => []
  | n + 1 => memGet m a :: memRead m (a + 1) n

/-- The check unit of an address: a 64-byte burst of DDR4 (R442) or an 8-byte word of on-chip memory (R440). -/
def checkKey (a : Nat) : Nat := if a / 2 ^ 44 = spDdr then a / 64 * 64 else a / 8 * 8

/-- The byte at `a`. -/
def State.byte (s : State) (a : Nat) : Byte := memGet s.mem a

/-- `n` bytes from `a`. -/
def State.bytes (s : State) (a n : Nat) : List Byte := memRead s.mem a n

/-- The little-endian number of `n` bytes at `a` (R5). -/
def State.num (s : State) (a n : Nat) : Nat := leNat (s.bytes a n)

/-- The bytes of `l` stored from `a`, with good check codes: no check unit they touch stays marked (R444). -/
def State.store (s : State) (a : Nat) (l : List Byte) : State :=
  if l.isEmpty then s
  else { s with mem := memWrite s.mem a l,
                bad := s.bad.filter (fun k => decide (k < checkKey a) || decide (checkKey (a + l.length - 1) < k)) }

/-- A number stored little-endian in `n` bytes. -/
def State.storeNum (s : State) (a n v : Nat) : State := s.store a (le n v)

/-- The bytes of `l` stored from `a` with inverted parity or check bits (R446). -/
def State.storeBad (s : State) (a : Nat) (l : List Byte) : State :=
  if l.isEmpty then s
  else
    let s := s.store a l
    let step := if a / 2 ^ 44 = spDdr then 64 else 8
    let first := checkKey a
    let n := (checkKey (a + l.length - 1) - first) / step + 1
    { s with bad := (List.range n).map (fun i => first + i * step) ++ s.bad }

/-- Whether a read of `n` bytes from `a` meets a word or burst stored with a failing code (R446). -/
def State.badRead (s : State) (a n : Nat) : Bool :=
  s.bad.any (fun k => decide (checkKey a ≤ k) && decide (k ≤ checkKey (a + n - 1)) && decide (0 < n))

/-- `n` bytes from `a` read again as memory that nothing has written, with good check codes. -/
def State.eraseRange (s : State) (a n : Nat) : State :=
  let out := fun (k : Nat) => decide (a ≤ k) && decide (k < a + n)
  { s with mem := s.mem.filter (fun c => !out c.1), bad := s.bad.filter (fun k => !out k) }

/-- The enabled DDR4 channels of the half that holds physical address `pa`, ascending (R300, R301). -/
def State.halfChans (s : State) (pa : Nat) : List Nat :=
  ((List.range 4).map (fun i => pa / 2 ^ 35 % 2 * 4 + i)).filter (fun c => bit s.chanMap c)

/-- The channel that a physical address maps to (R301). -/
def State.chanOf (s : State) (pa : Nat) : Nat :=
  let l := s.halfChans pa
  l.getD (pa % 2 ^ 35 / 4096 % l.length) 0

/-- The address that a physical address has within its channel: granule number g div k and the offset within 4 KiB (R301). -/
def State.chanAddr (s : State) (pa : Nat) : Nat :=
  pa % 2 ^ 35 / 4096 / (s.halfChans pa).length * 4096 + pa % 4096

/-- The physical address holds memory (R302). -/
def State.holdsMem (s : State) (pa : Nat) : Bool :=
  decide (pa < 2 ^ 36) && decide (pa % 2 ^ 35 < (s.halfChans pa).length * 2 ^ 33)

/-! ### Emissions -/

/-- Something leaves the module. -/
def State.emit (s : State) (k : EmitKind) (port : Nat) (l : List Byte) : State :=
  { s with emitted := s.emitted ++ [⟨k, port, s.dt64, l⟩] }

/-! ### Units (Table ARC-7) -/

/-- A unit identifier: class and index. -/
def unitId (cls idx : Nat) : Nat := cls * 2 ^ 24 + idx

/-- The plate that an array, stripe or needle core belongs to; other units stand for themselves (Table ARC-7). -/
def ownerUnit (u : Nat) : Nat :=
  let i := bits u 0 24
  match u / 2 ^ 24 with
  | 2 => unitId 1 i
  | 3 => unitId 1 (i / 16)
  | 4 => unitId 1 (i / 256)
  | 8 => unitId 7 (i / 8)
  | _ => u

/-- The power domain that holds a unit (Table ARC-3). -/
def domainOf (u : Nat) : Nat :=
  let i := bits u 0 24
  match ownerUnit u / 2 ^ 24 with
  | 1 => 1 + bits (ownerUnit u) 0 24
  | 5 => 35 + i
  | 6 => 35 + i
  | 7 => 41 + bits (ownerUnit u) 0 24 / 4
  | 9 => 37
  | 0x0C => 38
  | 0x0D => 39
  | 0x0E => 40
  | 0x14 => i
  | _ => 0

/-- Islands of Table ARC-2, in its order; plate `p` is island `p`. -/
def islCm (half : Nat) : Nat := 34 + half
def islHat : Nat := 36
def islStp : Nat := 37
def islBrn : Nat := 38
def islRng : Nat := 39
def islDdr : Nat := 40
def islHio : Nat := 41
def islFab : Nat := 42

/-- The clock of an island is gated: its generator relocks, so that nothing in it moves and what its crossings hold waits (R17). -/
def State.gated (s : State) (island : Nat) : Bool := decide (s.ticks < s.pwr.gateUntil.get 0 island)

/-- The domain of a unit is switched on (R20, Table ARC-3). -/
def State.domainOn (s : State) (u : Nat) : Bool := bit s.pwr.domains (domainOf u)

/-- The state of a unit. -/
def State.unit (s : State) (u : Nat) : UnitSt := s.units.get .reset u

/-- A unit's state changed. -/
def State.setUnit (s : State) (u : Nat) (f : UnitSt → UnitSt) : State := { s with units := s.units.modify .reset u f }

/-- A unit keeps its work and its place in the tables during a test (Table PRF-12). -/
def testOnline (u : Nat) : Bool :=
  let c := u / 2 ^ 24
  c == 7 || c == 9 || c == 0x0C || c == 0x0D

/-- A unit shows offline: taken offline, or isolated by its test (R479, Table PRF-12). -/
def State.unitOff (s : State) (u : Nat) : Bool :=
  let x := s.unit u
  x.offline || (x.test && !testOnline u)

/-- A unit counts as online in the tables: neither shown offline nor bad (R30, Table PRF-12). -/
def State.unitOnline (s : State) (u : Nat) : Bool := !s.unitOff u && !(s.unit u).bad

/-- No mark of its own keeps a unit from working: neither offline, nor under test, nor bad. -/
def State.unitFit (s : State) (u : Nat) : Bool :=
  let x := s.unit u
  !x.offline && !x.test && !x.bad

/-- A unit works: no mark keeps it from working, and its domain is on (R20). -/
def State.unitUp (s : State) (u : Nat) : Bool := s.unitFit u && s.domainOn u

/-! ### Spill queues (R76 to R87) -/

/-- The queue numbers that are built (Table ING-6). -/
def queueBuilt (q : Nat) : Bool :=
  decide (q < 12) || (decide (0x10 ≤ q) && decide (q ≤ 0x15)) || (decide (0x18 ≤ q) && decide (q ≤ 0x1D)) ||
  (decide (0x20 ≤ q) && decide (q ≤ 0x22)) || (decide (0x30 ≤ q) && decide (q ≤ 0x32))

def State.queue (s : State) (q : Nat) : Queue := s.queues.get .reset q

def State.setQueue (s : State) (q : Nat) (x : Queue) : State := { s with queues := s.queues.set q x }

/-- The capacity of a queue in words: its middle and its 32 register stages; before the boot region is released, the
stages only (text before R78, R534). -/
def State.queueCap (s : State) (q : Nat) : Nat :=
  if s.flag Reg.MEM_RELEASE_BOOT then 2 ^ s.rd Reg.SPQ_CTRL_LOG2_SIZE q / 32 + 32 else 32

/-- Words an open packet holds, its LENGTH slot included (R79). -/
def openWords (q : Queue) : Nat := match q.opened with | some o => 1 + o.words.length | none => 0

/-- COUNT and FULL as the queue's contents give them (R80, R81). -/
def State.showQueue (s : State) (q : Nat) : State :=
  let x := s.queue q
  let s := s.wr Reg.SPQ_COUNT_COUNT x.items.length q
  s.wr Reg.SPQ_COUNT_FULL (decide (s.queueCap q ≤ x.items.length + openWords x)).toNat q

/-- The bytes of `l` in 32-byte words, the last one filled with zeros (R76); `n` bounds the words. -/
def words32 : Nat → List Byte → List (List Byte)
  | 0, _ => []
  | n + 1, l => if l.isEmpty then [] else padTo 32 (l.take 32) :: words32 n (l.drop 32)

/-- Status bits of a LENGTH word (Table ING-8). -/
def stDataError : Nat := 1
def stTruncated : Nat := 2
def stFrozen : Nat := 4
def stQuotaCut : Nat := 8

/-- The fields of a LENGTH word that the producer supplies (Table ING-8). -/
structure LenHead where
  status : Nat
  sensor : Nat
  src : Nat
  ident : Nat
  stamp : Nat
  deriving DecidableEq, Repr

/-- A LENGTH word (Table ING-8). -/
def lengthWord (words bytes : Nat) (h : LenHead) (epoch : Nat) : List Byte :=
  le 4 words ++ le 4 bytes ++ le 1 h.status ++ le 1 h.sensor ++ le 1 h.src ++ le 1 0 ++ le 4 h.ident ++ le 8 h.stamp ++
  le 4 epoch ++ le 4 0

/-- The words that 16 older and 16 newer ones stand around have left the register stages: they lie in the middle in DDR4 (text
before R78). -/
def Queue.spilled (x : Queue) : Queue :=
  let inMid := (List.range (x.items.length - 32)).map (fun k => x.head + 16 + k)
  { x with middle := x.middle ++ inMid.filter (fun n => !x.middle.contains n) }

/-- The two copies of a pointer differ (R86). -/
def Queue.torn (x : Queue) : Bool := x.head != x.headCopy || x.tail != x.tailCopy

/-- A detection of a unit by an operation joins those gathered within 1 ms of the first, or begins to be gathered (R464). -/
def State.gather (s : State) (unit op cls : Nat) (detail : List (Nat × Nat)) : State :=
  if s.prf.gathers.any (fun g => g.unit == unit && g.op == op) then
    { s with prf := { s.prf with gathers := s.prf.gathers.map (fun g =>
        if g.unit == unit && g.op == op then { g with count := g.count + 1 } else g) } }
  else
    { s with prf := { s.prf with gathers := s.prf.gathers ++ [⟨unit, op, s.dt64, s.ticks, 1, cls, detail⟩] } }

/-- A queue resets to empty: its contents and any open packet are discarded, the reset is counted, and an error record of op 0x04 will
name the queue (R86). -/
def State.resetQueue (s : State) (q : Nat) : State :=
  let x := s.queue q
  let s := s.setQueue q { x with items := [], opened := none, inbox := [], middle := [], order := [], headCopy := x.head,
                                 tailCopy := x.tail }
  ((s.showQueue q).bump Reg.SPQ_EVENTS_RESETS q).gather (unitId 0x15 q) 4 0 [(1, q)]

/-- Every access to a queue compares its pointers first; a mismatch resets it (R86). -/
def State.access (s : State) (q : Nat) : State := if (s.queue q).torn then s.resetQueue q else s

/-- A packet's words become readable in one step (R80); a queue named in HTP_STREAM keeps a copy for the transport (R413). -/
def State.closePacket (s : State) (q : Nat) (items : List QItem) : State :=
  let x := s.queue q
  let copies := if bit (s.rd Reg.HTP_STREAM_QUEUES) q then x.copies ++ [items] else x.copies
  let n := items.length
  let x := { x with items := x.items ++ items, copies := copies, tail := x.tail + n, tailCopy := x.tailCopy + n }
  (s.setQueue q x.spilled).showQueue q

/-- A queue's contents are discarded; its pointers stay as they are (R78). -/
def State.emptyQueue (s : State) (q : Nat) : State :=
  let x := s.queue q
  (s.setQueue q { x with items := [], opened := none, inbox := [], middle := [], order := [] }).showQueue q

/-- A producer may not store: EN is 0, or the queue's unit is offline or under test (R78, Table PRF-12). -/
def State.queueShut (s : State) (q : Nat) : Bool :=
  !s.flag Reg.SPQ_CTRL_EN q || (s.unit (unitId 0x15 q)).offline || (s.unit (unitId 0x15 q)).test

/-- A packet of payload `l` enters queue `q` and closes (R76 to R82). One that fills the queue before its last word is closed with the
words stored, the rest being ignored. The answer says whether it was stored whole. -/
def State.enqueue (s : State) (q : Nat) (h : LenHead) (l : List Byte) : State × Bool :=
  if s.queueShut q then (s.bump Reg.SPQ_EVENTS_DROPPED q, false)
  else
    let s := s.access q
    let x := s.queue q
    let room := s.queueCap q - (x.items.length + openWords x)
    if room = 0 then (((s.bump Reg.SPQ_EVENTS_DROPPED q).wr Reg.SPQ_COUNT_OVERRUN 1 q), false)
    else
      let ws := words32 (l.length / 32 + 1) l
      let fits := decide (ws.length + 1 ≤ room)
      let ws := if fits then ws else ws.take (room - 1)
      let n := min l.length (32 * ws.length)
      let h := if fits then h else { h with status := h.status ||| stDataError ||| stTruncated }
      let s := if fits then s else s.wr Reg.SPQ_COUNT_OVERRUN 1 q
      (s.closePacket q ((⟨2, lengthWord ws.length n h (s.epochOf h.stamp)⟩ : QItem) :: ws.map (fun w => ⟨1, w⟩)), fits)

/-- The words of a stream up to the next LENGTH word, and the rest from it on (R85). -/
def splitPacket : List QItem → List QItem × List QItem
  | [] => ([], [])
  | i :: r => if i.tag = 2 then ([], i :: r) else let (a, b) := splitPacket r; (i :: a, b)

/-- The next packet that a consumer of queue `q` has whole: its LENGTH word and the number of words that it states. Words before a
LENGTH word are discarded (R76, R85). -/
def takePacket (l : List QItem) : Option (QItem × List QItem × List QItem) :=
  match (splitPacket l).2 with
  | [] => none
  | h :: r => let n := fld h.data 0 4; if n ≤ r.length then some (h, r.take n, r.drop n) else none

/-- The queue's words not yet used by its consumer: those read and those still stored. -/
def Queue.stream (x : Queue) : List QItem := x.inbox ++ x.items

/-- The first `n` words of queue `q` leave it. -/
def Queue.popped (x : Queue) (n : Nat) : Queue :=
  { x with items := x.items.drop n, head := x.head + n, headCopy := x.headCopy + n,
           middle := x.middle.filter (fun k => decide (x.head + n ≤ k)) }

/-- The next packet of queue `q`, taken by its hardware consumer, which it has unless CONS is 1 (text before R87). A word that is
discarded stands for a packet whose LENGTH word came as POISON (R85). -/
def State.dequeue (s : State) (q : Nat) : Option (QItem × List QItem × State) :=
  if s.flag Reg.SPQ_CTRL_CONS q then none
  else
    let s := s.access q
    match takePacket (s.queue q).stream with
    | none => none
    | some (h, ws, rest) =>
      let x := s.queue q
      let used := x.stream.length - rest.length
      let lost := if used = 1 + ws.length then 0 else 1
      let y := { x.popped (used - x.inbox.length) with inbox := x.inbox.drop used, order := x.order.drop (1 + lost) }
      some (h, ws, (s.setQueue q y).showQueue q)

/-- Whether a packet is to be treated as one with DATA_ERROR (R85). -/
def packetBad (h : QItem) (ws : List QItem) : Bool := bit (fld h.data 8 1) 0 || ws.any (fun w => w.tag == 3)

/-- The payload bytes of a packet. -/
def packetBytes (h : QItem) (ws : List QItem) : List Byte := (ws.flatMap (·.data)).take (fld h.data 4 4)

/-! ### Events (Table HST-16, R407) -/

/-- A record enters queue 0x30 or 0x31 as a packet of its own, with its place in the common order (R407, R466). The answer says
whether it was stored whole. -/
def State.enqueueOwn (s : State) (q : Nat) (l : List Byte) : State × Bool :=
  let s := s.access q
  let n := (s.queue q).items.length
  let (s, whole) := s.enqueue q ⟨0, 0xFF, 0, 0, s.dt64⟩ l
  let x := s.queue q
  if n < x.items.length then
    ({ (s.setQueue q { x with order := x.order ++ [s.ht.orderNo] }) with ht := { s.ht with orderNo := s.ht.orderNo + 1 } }, whole)
  else (s, whole)

/-- An event is raised: a 64-byte record enters queue 0x30 under the spill-queue rules. The first record stored after one that was not
stored whole carries LOST, and numbers count from 1 (R407, Table HST-16; log entry 10). -/
def State.raise (s : State) (code unit : Nat) (data : List Byte) : State :=
  let no := s.ht.eventNo + 1
  let item := le 2 code ++ le 1 s.ht.eventLost.toNat ++ le 1 0 ++ le 4 unit ++ le 8 s.dt64 ++ le 4 no ++ le 4 0 ++ padTo 40 data
  let (t, whole) := s.enqueueOwn 0x30 item
  { t with ht := { t.ht with eventNo := no, eventLost := !whole } }

/-! ### The sensor table (Table ING-4) and ingest states (Table ING-5) -/

/-- The address of the active bank's entry of sensor `i`. -/
def State.sensorAddr (s : State) (i : Nat) : Nat := winAddr (0x71000 + s.rd Reg.ING_ST_CTRL_BANK * 0x1000 + 64 * i)

/-- The `n`-byte field at offset `o` of sensor `i`'s active entry. -/
def State.sensor (s : State) (i o n : Nat) : Nat := s.num (s.sensorAddr i + o) n

/-- Ingest state of a sensor. -/
def State.sensSt (s : State) (i : Nat) : SensSt := s.ing.sens.get .reset i

def State.setSens (s : State) (i : Nat) (f : SensSt → SensSt) : State :=
  { s with ing := { s.ing with sens := s.ing.sens.modify .reset i f } }

/-- Drift tracking of a sensor. -/
def State.trackOf (s : State) (i : Nat) : Track := s.tm.track.get ⟨false, 0, none, 0⟩ i

def State.setTrack (s : State) (i : Nat) (x : Track) : State := { s with tm := { s.tm with track := s.tm.track.set i x } }

/-- A sensor's ingest state becomes `v`; a change raises INGEST_STATE (R73). A sensor that becomes PRESENT starts anew:
its first frame has no predecessor, and it starts UNLOCKED; one that becomes ABSENT leaves UNLOCKED and is probed anew (R63, R69, text
after R74). -/
def State.setIngest (s : State) (i v : Nat) : State :=
  let old := s.rd Reg.ING_SENS_STATE i
  if old = v then s
  else
    let s := (s.wr Reg.ING_SENS_STATE v i).raise 0x0301 0 (le 1 i ++ le 1 (s.sensor i 1 1) ++ le 1 old ++ le 1 v)
    let s := s.setTrack i ⟨false, 0, none, 0⟩
    if v = 1 then s.setSens i (fun x => { x with idTries := 0, idTryAt := s.ticks })
    else if v = 3 then
      s.setSens i (fun x => { x with first := true, sigs := [], prevFrame := none, cut := false, lines := [],
                                     embedded := [], inFrame := false, lastAt := s.ticks, lastFsAt := s.ticks })
    else s

/-- The sensor entries of one kind and port that are in use. -/
def State.sensorsOn (s : State) (kind port : Nat) : List Nat :=
  (List.range 64).filter (fun i => s.sensor i 0 1 == kind && s.sensor i 1 1 == port)

/-- Every entry of the list that is not EMPTY or ABSENT becomes ABSENT (R72). -/
def State.sensorsAbsent (s : State) (l : List Nat) : State :=
  l.foldl (fun s i => if s.rd Reg.ING_SENS_STATE i ≤ 1 then s else s.setIngest i 1) s

/-- Flags of Table HST-12. -/
def cfRecomputed : Nat := 0
def cfWarmRejected : Nat := 1
def cfDropped : Nat := 2
def cfProvisional : Nat := 3
def cfDegraded : Nat := 4
def cfSaturated : Nat := 5

end Sys2Proof.Machine
end

