-- ==== Sys2Proof/Machine/Frames.lean ====
section
/-! DEFINITION. Sending on the host ports: egress policers, transport headers, reliable streams, failover (R379 to R384, R501,
R502, Tables HST-2, HST-3). -/

namespace Sys2Proof.Machine

/-! ### Egress policers (R501, R502) -/

/-- A limit table is LOCKED (R499). -/
def State.locked (s : State) : Bool := s.rd Reg.MGD_STAT_LOAD == 2

/-- Rate and burst of policer `i`: lidar 0-3, auxiliary 0-1, CAN FD 0-5, H0, H1; the locked table's or the defaults (R501). -/
def State.policer (s : State) (i : Nat) : Nat × Nat :=
  if s.locked then (fld s.mgd.table (224 + 8 * i) 4, fld s.mgd.table (228 + 8 * i) 4)
  else if i < 6 then (12500000, 65536) else if i < 12 then (2000, 64) else (1250000000, 1048576)

/-- The path entry whose POLICED counter a policer's drops count in (MGD_PATH); lidar ports have none. -/
def policerPath (i : Nat) : Option Nat :=
  if i < 4 then none else if i < 6 then some (i + 2) else if i < 12 then some (i - 6) else some (i - 4)

/-- A frame of the cost given meets policer `i`: it leaves when the bucket, full at burst and refilled at rate, holds its
cost; otherwise it is dropped and counted (R494, R502). -/
def State.police (s : State) (i cost : Nat) : State × Bool :=
  let (rate, burst) := s.policer i
  let b := s.mgd.buckets.get ⟨burst * 1000000000, s.ticks⟩ i
  let level := min (b.level + rate * 4 * (s.ticks - b.atTick)) (burst * 1000000000)
  let ok := decide (cost * 1000000000 ≤ level)
  let left := if ok then level - cost * 1000000000 else level
  let s := { s with mgd := { s.mgd with buckets := s.mgd.buckets.set i ⟨left, s.ticks⟩ } }
  if ok then (s, true)
  else match policerPath i with
    | some p => (s.bump Reg.MGD_PATH_POLICED p, false)
    | none => (s, false)

/-- A frame leaves through policer `i`, if it may. -/
def State.emitPoliced (s : State) (k : EmitKind) (port i cost : Nat) (l : List Byte) : State :=
  match s.police i cost with
  | (s, true) => s.emit k port l
  | (s, false) => s

/-- Device states of Table HST-4. -/
def stRom : Nat := 0
def stSetup : Nat := 1
def stRun : Nat := 2
def stHostLost : Nat := 3
def stRestart : Nat := 4

/-- HTP_STAT.STATE. -/
def State.dev (s : State) : Nat := s.rd Reg.HTP_STAT_STATE

/-- A session is open. -/
def State.inSession (s : State) : Bool := s.flag Reg.HTP_STAT_SESSION

/-- The stream of a message type: none, control (some false) or bulk (some true) (Table HST-3). -/
def typeStream (t : Nat) : Option Bool :=
  if t = 0x10 ∨ t = 0x11 ∨ t = 0x20 ∨ t = 0x21 ∨ t = 0x22 then some false
  else if t = 0x30 ∨ t = 0x31 ∨ t = 0x32 ∨ t = 0x40 then some true
  else none

/-- A stream's state. -/
def State.stream (s : State) (bulk : Bool) : Stream := if bulk then s.ht.blk else s.ht.ctl

def State.setStream (s : State) (bulk : Bool) (x : Stream) : State :=
  if bulk then { s with ht := { s.ht with blk := x } } else { s with ht := { s.ht with ctl := x } }

/-- The port that carries a stream (R383). -/
def State.streamPort (s : State) (bulk : Bool) : Nat := if bulk then s.rd Reg.HTP_STAT_B_PORT else s.rd Reg.HTP_STAT_C_PORT

/-- The Ethernet header of a device frame on a host port; MAC fields and EtherType in network order (Table HST-1, HTP_MAC). -/
def State.etherHeader (s : State) (port dst : Nat) : List Byte :=
  le 6 dst ++ le 6 (s.rd Reg.HTP_MAC_ADDR port) ++
  (if s.flag Reg.HTP_PORT_TAGGED port then
    be 2 0x8100 ++ be 2 (s.rd Reg.HTP_PORT_PCP port * 2 ^ 13 + s.rd Reg.HTP_PORT_VID port) else []) ++
  be 2 (s.rd Reg.HTP_CFG_ETHERTYPE)

/-- The transport header (Table HST-2). -/
def transportHeader (type flags session seq ackC ackB len time : Nat) : List Byte :=
  le 1 1 ++ le 1 type ++ le 1 flags ++ le 1 0 ++ le 4 session ++ le 2 seq ++ le 2 ackC ++ le 2 ackB ++ le 2 len ++ le 8 time ++ le 8 0

/-- The link of a host port is up and the port is not offline or under test. -/
def State.portUp (s : State) (port : Nat) : Bool := s.flag Reg.HTP_PORT_LINK port && s.unitUp (unitId 0x0F port)

/-- A frame protected by MACsec is counted; when the packet number of the association reaches 0xF000_0000, the port moves to the
next one (R565). -/
def State.countSecured (s : State) (port : Nat) : State :=
  if !s.flag Reg.HTP_PORT_MACSEC port then s
  else
    let n := s.sec.sent.get 0 port + 1
    if n < 0xF0000000 then { s with sec := { s.sec with sent := s.sec.sent.set port n } }
    else
      let a := s.sec.txAssoc.get 0 port + 1
      ({ s with sec := { s.sec with sent := s.sec.sent.set port 0, txAssoc := s.sec.txAssoc.set port a } } : State).wr
        Reg.SEC_MACSEC_TX_AN (a % 4) port

/-- The secure association key of association `n` of a host port; direction 0 is from the device to the host (R564). -/
def State.sak (s : State) (port dir n : Nat) : Nat :=
  Config.kdf (s.sec.cak.get 0 port) [0x41#8, 0x78#8, 0x63#8, 0x69#8, 0x61#8, 0x20#8, 0x53#8, 0x41#8, 0x4B#8]
    (le 8 s.part.serial ++ le 1 port ++ le 1 dir ++ le 4 n) 256

/-- A frame as it leaves a host port: under MACsec where the port has it, with the device's SCI and the next packet number of the
association in use (R564, R565). -/
def State.secured (s : State) (port : Nat) (frame : List Byte) : List Byte :=
  if s.flag Reg.HTP_PORT_MACSEC port then
    let a := s.sec.txAssoc.get 0 port
    Config.macsecFrame (s.sak port 0 a) (le 6 (s.rd Reg.HTP_MAC_ADDR port) ++ be 2 1) (a % 4) (s.sec.sent.get 0 port + 1) frame
  else frame

/-- The bytes that MACsec adds to a frame of a host port: a SecTAG with the SCI, and the integrity check value (log entry 119). -/
def State.macsecBytes (s : State) (port : Nat) : Nat := if s.flag Reg.HTP_PORT_MACSEC port then 32 else 0

/-- One device frame leaves on a host port whose link is up, unless its policer drops it, padded to the minimum data field (R378
text); it carries both acknowledgements, so neither stream has one due any longer (R381, R502). -/
def State.sendFrame (s : State) (port dst session type seq : Nat) (payload : List Byte) : State :=
  let flags := match typeStream type with
    | none => 0
    | some b => (if type = 0x40 ∧ session = 0 then 0 else 1) + 2 * b.toNat
  let body := transportHeader type flags session seq s.ht.ctl.nextRx s.ht.blk.nextRx payload.length s.dt64 ++ payload
  let least := if s.flag Reg.HTP_PORT_TAGGED port then 42 else 46
  let frame := s.etherHeader port dst ++ body ++ zeros (least - body.length)
  if !s.portUp port then s
  else match s.police (12 + port) (frame.length + 4 + s.macsecBytes port) with
    | (s, true) =>
      let s := (s.emit .hostFrame port (s.secured port frame)).countSecured port
      { s with ht := { s.ht with ctl := { s.ht.ctl with ackDue := none }, blk := { s.ht.blk with ackDue := none } } }
    | (s, false) => s

/-- The host's address on a port: the source of the latest frame received there (log entry 11). -/
def State.hostMac (s : State) (port : Nat) : Nat := s.ht.hostMac.get 0xFFFFFFFFFFFF port

/-- A reliable frame of a stream is transmitted on its port. -/
def State.transmit (s : State) (bulk : Bool) (f : TxFrame) : State :=
  s.sendFrame (s.streamPort bulk) (s.hostMac (s.streamPort bulk)) (s.rd Reg.HTP_SESSION_ID) f.type f.seq f.payload

/-- Whether a stream may send one more reliable frame: at most 64 are unacknowledged, and none is sent in HOST_LOST (R379, R387). -/
def State.canSend (s : State) (bulk : Bool) : Bool :=
  decide ((s.stream bulk).unacked.length < 64) && (s.stream bulk).waiting.isEmpty && s.dev != stHostLost

/-- A reliable frame takes the next sequence number of its stream and is sent, or waits while 64 are unacknowledged (R379). -/
def State.sendReliable (s : State) (bulk : Bool) (type : Nat) (payload : List Byte) : State :=
  let x := s.stream bulk
  let f : TxFrame := ⟨x.nextTx, s.ticks, type, payload⟩
  let next := (x.nextTx + 1) % 65536
  if s.canSend bulk then
    (s.setStream bulk { x with nextTx := next, unacked := x.unacked ++ [f] }).transmit bulk f
  else s.setStream bulk { x with nextTx := next, waiting := x.waiting ++ [f] }

/-- Waiting frames are sent while the stream has room; `n` bounds their number. -/
def State.pump (bulk : Bool) : Nat → State → State
  | 0, s => s
  | n + 1, s =>
    let x := s.stream bulk
    match x.waiting with
    | [] => s
    | f :: r =>
      if x.unacked.length < 64 ∧ s.dev ≠ stHostLost then
        let f := { f with sentAt := s.ticks }
        State.pump bulk n ((s.setStream bulk { x with unacked := x.unacked ++ [f], waiting := r }).transmit bulk f)
      else s

/-- The peer's acknowledgement number of a stream: it covers every earlier frame (R381). -/
def State.acked (s : State) (bulk : Bool) (ack : Nat) : State :=
  let x := s.stream bulk
  let covered := fun (f : TxFrame) => decide (0 < (ack + 65536 - f.seq) % 65536 ∧ (ack + 65536 - f.seq) % 65536 ≤ 64)
  if x.unacked.any covered then
    let s := s.setStream bulk { x with unacked := x.unacked.filter (fun f => !covered f), periods := 0 }
    s.pump bulk (x.waiting.length)
  else s

/-- Every unacknowledged frame of a stream is sent again in sequence order; each is counted (R382). -/
def State.resend (s : State) (bulk : Bool) : State :=
  let x := s.stream bulk
  let fs := x.unacked.map (fun f => { f with sentAt := s.ticks })
  let s := s.setStream bulk { x with unacked := fs }
  let s := fs.foldl (fun s f => s.transmit bulk f) s
  s.bump Reg.HTP_CNT_RETRANSMITS 0 fs.length

/-- While the streams share a port, every transfer that is open, of a push or of a pull, keeps DEGRADED for its report (text
after R384, Table HST-12). -/
def State.markShared (s : State) : State :=
  if s.rd Reg.HTP_STAT_C_PORT = s.rd Reg.HTP_STAT_B_PORT then
    let mark := fun (n : Nat) => n ||| 2 ^ cfDegraded
    { s with ht := { s.ht with bulk := s.ht.bulk.map (fun b => { b with flags := mark b.flags }),
                               pushed := ⟨s.ht.pushed.rows.map (fun r => (r.1, r.2.1, mark r.2.2))⟩ } }
  else s

/-- A stream is carried on a port from now on (R381, R383). -/
def State.moveStream (s : State) (bulk : Bool) (port : Nat) : State :=
  (s.wr (if bulk then Reg.HTP_STAT_B_PORT else Reg.HTP_STAT_C_PORT) port).markShared

/-- A stream moves to the other port: its unacknowledged frames are sent again there, PORT_FAILOVER is raised and the move
counted. It moves only when the other port's link is up (R383). -/
def State.failover (s : State) (bulk : Bool) : State :=
  let other := 1 - s.streamPort bulk
  if s.portUp other then
    let s := s.moveStream bulk other
    let s := s.setStream bulk { s.stream bulk with periods := 0 }
    let s := (s.resend bulk).raise 0x0703 (unitId 0x0F other) (le 1 bulk.toNat ++ le 1 other)
    s.bump Reg.HTP_CNT_FAILOVERS
  else s

/-- A host port's link is known to be down, or its unit is not in use (R383). -/
def State.portGone (s : State) (port : Nat) : Bool := bit s.ht.down port || !s.unitUp (unitId 0x0F port)

/-- What is known of a host port's link: it has gone down, or it is up. -/
def State.setLink (s : State) (port : Nat) (up : Bool) : State := { s with ht := { s.ht with down := putBit s.ht.down port (!up) } }

/-- Each stream moves whose port is down while the other is up, or that has gone 16 periods unanswered (R383). -/
def State.failoverDue (s : State) : State :=
  let go := fun (s : State) (b : Bool) =>
    if s.portGone (s.streamPort b) || decide (16 ≤ (s.stream b).periods) then s.failover b else s
  go (go s false) true

end Sys2Proof.Machine
end

