-- ==== Sys2Proof/Machine/Ready.lean ====
section
/-! DEFINITION. The readiness table (R550, Tables BUP-9, BUP-10). -/

namespace Sys2Proof.Machine

/-- States of a readiness entry (Table BUP-10). -/
def rdWaiting : Nat := 0
def rdProgress : Nat := 1
def rdReady : Nat := 2
def rdFailed : Nat := 3
def rdRetired : Nat := 4
def rdOffline : Nat := 5

/-- The index of a function (Table BUP-9). -/
def fnIndex (fn : Nat) : Nat :=
  let i := fn % 256
  match fn / 256 with
  | 0 => i
  | 1 => 16 + i
  | 2 => 32 + i
  | 3 => 64 + i
  | 4 => 40 + i
  | 5 => 52 + i
  | 6 => 58 + i
  | _ => 60 + i

/-- Every function of Table BUP-9. -/
def allFns : List Nat :=
  (List.range 10).map (· + 1) ++ (List.range 16).map (0x100 + ·) ++ (List.range 8).map (0x200 + ·) ++
  (List.range 32).map (0x300 + ·) ++ (List.range 12).map (0x400 + ·) ++ (List.range 6).map (0x500 + ·) ++
  (List.range 2).map (0x600 + ·) ++ (List.range 2).map (0x700 + ·)

/-- The address of a function's readiness entry. -/
def fnAddr (fn : Nat) : Nat := winAddr (0x1000 + 16 * fnIndex fn)

/-- The readiness state of a function. -/
def State.fnState (s : State) (fn : Nat) : Nat := s.num (fnAddr fn + 2) 1

/-- A function's entry is written, without an event. -/
def State.setFnQuiet (s : State) (fn st reason : Nat) : State :=
  s.store (fnAddr fn) (le 2 fn ++ le 1 st ++ le 1 reason ++ le 4 0 ++ le 8 s.dt64)

/-- The physical number of an enabled logical plate; the logical number itself when it is not enabled. -/
def physicalIn (map i : Nat) : Nat := (((List.range 34).filter map.testBit)).getD i i

/-- The unit that a readiness event of a function names; 0 = none (R593). -/
def State.fnUnit (s : State) (fn : Nat) : Nat :=
  let i := fn % 256
  match fn / 256 with
  | 0 => if i = 9 ∨ i = 10 then unitId 5 (i - 9) else if i = 7 then unitId 0x0C 0 else if i = 8 then unitId 0x0D 0 else 0
  | 2 => unitId 7 i
  | 3 => unitId 1 (physicalIn s.plateMap i)
  | 4 => unitId 0x0A i
  | 5 => unitId 0x0B i
  | 7 => unitId 0x0F i
  | _ => 0

/-- A function's state becomes `st`: the entry is written before its event; READY and FUNCTION_FAILED are raised on entering
those states (R550). Nothing happens when the state is already that. -/
def State.setFn (s : State) (fn st reason : Nat) : State :=
  if s.fnState fn = st ∧ s.num (fnAddr fn) 2 = fn then s
  else
    let s := s.setFnQuiet fn st reason
    if st = rdReady then s.raise 0x0102 (s.fnUnit fn) (le 2 fn)
    else if st = rdFailed then s.raise 0x0B01 (s.fnUnit fn) (le 2 fn ++ le 1 reason)
    else s

/-- A function becomes READY. -/
def State.fnReady (s : State) (fn : Nat) : State := s.setFn fn rdReady 0

/-- The readiness entries of a unit follow it into and out of OFFLINE: on its return they take their earlier state (R550). -/
def State.fnOffline (s : State) (fn : Nat) (off : Bool) : State :=
  let st := s.fnState fn
  if off then
    if st = rdOffline ∨ st = rdRetired ∨ s.num (fnAddr fn) 2 = 0 then s
    else ({ s with boot := { s.boot with before := s.boot.before.set fn st } } : State).setFnQuiet fn rdOffline 0
  else if st = rdOffline then s.setFn fn (s.boot.before.get 0 fn) 0
  else s

/-- The logical number of a physical plate among the enabled ones (R14). -/
def logicalIn (map p : Nat) : Nat := ((List.range 34).filter (fun q => map.testBit q && decide (q < p))).length

/-- The function of a unit (Table BUP-9); 0 = none. -/
def State.unitFn (s : State) (u : Nat) : Nat :=
  let i := bits u 0 24
  match u / 2 ^ 24 with
  | 1 => if bit s.plateMap i then 0x300 + logicalIn s.plateMap i else 0
  | 5 => 9 + i
  | 7 => 0x200 + i
  | 9 => 4
  | 0x0A => 0x400 + i
  | 0x0B => 0x500 + i
  | 0x0C => 7
  | 0x0D => 8
  | 0x0F => 0x700 + i
  | _ => 0

end Sys2Proof.Machine
end

