-- ==== Sys2Proof/Machine/Records.lean ====
section
/-! DEFINITION. Units going offline and online with the Device Description Table, error records, and the history that
classifies units (R27 to R30, R464 to R468). -/

namespace Sys2Proof.Machine

/-! ### Device Description Table (Table ARC-8) -/

/-- Bit `i` of the number is `p i`, for `i` below `n`. -/
def mapBits (n : Nat) (p : Nat → Bool) : Nat := (List.range n).foldl (fun a i => a + (p i).toNat * 2 ^ i) 0

/-- How many bits below `n` of `v` are set. -/
def popBits (n v : Nat) : Nat := ((List.range n).filter (fun i => bit v i)).length

/-- Physical plate `p` is enabled and online. -/
def State.plateOnline (s : State) (p : Nat) : Bool := bit s.plateMap p && s.unitFit (unitId 1 p)

/-- A DDR4 channel is enabled and online; a field test leaves it online (R306). -/
def State.chanServes (s : State) (c : Nat) : Bool := bit s.chanMap c && !(s.unit (unitId 7 c)).offline

/-- The Device Description Table with its check field `crc` (Table ARC-8). -/
def State.ddtBytes (s : State) (crc : Nat) : List Byte :=
  le 4 0x54444441 ++ le 2 1 ++ le 2 256 ++ le 4 crc ++ le 4 s.ddtGen ++ le 8 s.part.serial ++ le 2 s.part.ordering ++
  le 2 s.part.stepping ++ le 4 s.part.clockKhz ++ le 2 s.part.limitW ++ le 2 0 ++
  le 1 34 ++ le 1 (popBits 34 s.plateMap) ++ le 1 66 ++ le 1 64 ++ le 8 s.plateMap ++
  le 8 (mapBits 34 s.plateOnline) ++ le 1 64 ++ le 1 64 ++ le 1 8 ++ le 1 9 ++ le 4 4194304 ++ le 4 2621440 ++
  le 4 24576 ++ le 4 10485760 ++ le 1 (mapBits 2 (fun i => s.unitFit (unitId 5 i))) ++
  le 1 (mapBits 8 s.chanServes) ++ le 2 3200 ++ le 8 s.ddrBytes ++ le 4 4194304 ++ le 4 4194304 ++
  le 4 4194304 ++ le 1 12 ++ le 1 4 ++ le 1 2 ++ le 1 6 ++ le 1 2 ++ le 1 16 ++ le 1 2 ++ le 1 2 ++
  le 2 (mapBits 12 (fun i => s.unitFit (unitId 0x0A i))) ++ le 1 (mapBits 6 (fun i => s.unitFit (unitId 0x0B i))) ++
  le 1 (mapBits 8 (fun i => s.unitFit (unitId 0x0E i))) ++ le 4 65536 ++ le 2 256 ++ le 1 64 ++ le 1 64 ++ le 2 256 ++
  le 1 64 ++ le 1 64 ++ le 1 16 ++ le 1 8 ++ le 1 64 ++ le 1 64 ++ le 4 1048576 ++ le 4 262144 ++ le 4 1048576 ++
  le 4 32768 ++ le 4 262144 ++ le 4 4194304 ++ zeros 104

/-- The table as a reading finds it: its CRC-32 is taken with the check field as zero (Table ARC-8). -/
def State.ddt (s : State) : List Byte := s.ddtBytes (crc32 (s.ddtBytes 0))

/-! ### Units offline and online (R28, R30) -/

/-- The units of Table ARC-7 that can be taken offline one by one (R31). -/
def plainUnits : List Nat :=
  (List.range 34).map (unitId 1) ++ (List.range 2).map (unitId 5) ++ (List.range 2).map (unitId 6) ++
  (List.range 8).map (unitId 7) ++ (List.range 6).map (fun i => unitId 9 (i + 1)) ++ (List.range 12).map (unitId 0x0A) ++
  (List.range 6).map (unitId 0x0B) ++ [unitId 0x0C 0, unitId 0x0D 0] ++ (List.range 8).map (unitId 0x0E) ++
  (List.range 2).map (unitId 0x0F)

/-- The index exists for the class (Table ARC-7, R26). -/
def unitBuilt (u : Nat) : Bool :=
  let i := bits u 0 24
  match u / 2 ^ 24 with
  | 1 => decide (i < 34)
  | 2 => decide (i < 34)
  | 3 => decide (i / 16 < 34 ∧ i % 16 < 9)
  | 4 => decide (i / 256 < 34 ∧ i % 256 < 66)
  | 5 => decide (i < 2)
  | 6 => decide (i < 2)
  | 7 => decide (i < 8)
  | 8 => decide (i / 8 < 8 ∧ i % 8 < 5)
  | 9 => decide (1 ≤ i ∧ i ≤ 6)
  | 0x0A => decide (i < 12)
  | 0x0B => decide (i < 6)
  | 0x0C => i == 0
  | 0x0D => i == 0
  | 0x0E => decide (i < 8)
  | 0x0F => decide (i < 2)
  | 0x10 => i == 0
  | 0x11 => i == 0
  | 0x12 => i == 0
  | 0x13 => decide (i < 6) || i == 0x10 || i == 0x11 || i == 0x20 || i == 0x21
  | 0x14 => decide (i < 43)
  | 0x15 => queueBuilt i
  | 0x16 => decide (i < 48)
  | _ => false

/-- The change that a unit's state makes outside its own flags: sensors of a port become ABSENT (Table PRF-12), a ring lane
shows FAILED, a plate's ONLINE follows, streams leave a host port (R383), a queue's contents are discarded (R78). -/
def State.unitShown (s : State) (u : Nat) : State :=
  let i := bits u 0 24
  let up := s.unitOnline u
  let fn := s.unitFn u
  let s := if fn = 0 then s else s.fnOffline fn (!up)
  match u / 2 ^ 24 with
  | 1 => s.wr Reg.PLT_STAT_ONLINE (bit s.plateMap i && up).toNat i
  | 7 => s.wr Reg.MEM_DDR_STAT_STATE (if !bit s.chanMap i then 0 else if (s.unit u).offline then 2
                                       else if (s.unit u).test then 3 else 1) i
  | 0x0A => if up then s else s.sensorsAbsent (s.sensorsOn 1 i)
  | 0x0B => if up then s else s.sensorsAbsent (if i < 4 then s.sensorsOn 2 i else s.sensorsOn 3 (i - 4))
  | 0x0E => if (s.unit u).offline then s.wr Reg.RNG_LANE_STATE 3 i else s
  | 0x0F => s.failoverDue
  | 0x15 => if up then s else s.emptyQueue i
  | _ => s

/-- A live change of the Device Description Table: the generation passes through odd to even, and UNIT_STATE names the unit
and its new state (R28, R30). -/
def State.liveUpdate (s : State) (u : Nat) : State :=
  ({ s with ddtGen := (s.ddtGen + 2) % 2 ^ 32 } : State).raise 0x0101 u (le 1 (!(s.unitOnline u)).toNat)

/-- A unit's marks change: what shows it follows, with a live change when it comes online or goes offline (R28, R30). -/
def State.changeUnit (s : State) (u : Nat) (f : UnitSt → UnitSt) : State :=
  let t := (s.setUnit u f).unitShown u
  if t.unitOnline u = s.unitOnline u then t else t.liveUpdate u

/-- A unit goes offline (R30, R481). -/
def State.offlineNow (s : State) (u : Nat) : State :=
  if (s.unit u).offline then s else s.changeUnit u (fun x => { x with offline := true, offlinePending := false })

/-- A unit comes back online (R30, R481). -/
def State.onlineNow (s : State) (u : Nat) : State :=
  if (s.unit u).offline then s.changeUnit u (fun x => { x with offline := false })
  else s.setUnit u (fun x => { x with offlinePending := false })

/-- A launch holds the plate: it runs there or is being stopped (R197). -/
def State.plateHeld (s : State) (p : Nat) : Bool := s.rd Reg.PLT_STAT_STATE p == 2 || s.rd Reg.PLT_STAT_STATE p == 3

/-- A unit is taken offline: a plate with a running launch only when that launch completes (R197, R480). -/
def State.takeOffline (s : State) (u : Nat) : State :=
  if u / 2 ^ 24 = 1 ∧ s.plateHeld (bits u 0 24) then s.setUnit u (fun x => { x with offlinePending := true })
  else s.offlineNow u

/-! ### History and classification (R467, R468, Tables PRF-8, PRF-9) -/

def State.history (s : State) (u : Nat) : History := s.nv.history.get .reset u

/-- Operating seconds for which an event counts: 500 hours (R467). -/
def historyWindow : Nat := 1800000

/-- Events of a unit within the window. -/
def State.recentEvents (s : State) (u : Nat) : Nat :=
  ((s.history u).seconds.filter (fun t => decide (s.nv.seconds < t + historyWindow))).length

/-- The classification that a history entry gives (R467). -/
def State.classOf (s : State) (u : Nat) : Nat :=
  if (s.history u).state = 3 then 3
  else let n := s.recentEvents u; if 3 ≤ n then 3 else n

/-- What becoming PERMANENT does until the next start (R468, Table PRF-9). -/
def State.actPermanent (s : State) (u : Nat) : State :=
  let i := bits u 0 24
  match u / 2 ^ 24 with
  | 1 => s.takeOffline u
  | 2 => s.takeOffline (ownerUnit u)
  | 3 => s.takeOffline (ownerUnit u)
  | 4 => s.takeOffline (ownerUnit u)
  | 5 => s.offlineNow u
  | 6 => s.offlineNow u
  | 9 => s.offlineNow u
  | 0x0A => s.offlineNow u
  | 0x0B => s.offlineNow u
  | 0x0C => s.offlineNow u
  | 0x0D => s.offlineNow u
  | 0x0E => s.offlineNow u
  | 0x0F => if s.portUp (1 - i) then s.offlineNow u else s
  | 0x13 => s.offlineNow u
  | 0x15 => s.offlineNow u
  | _ => s

def State.setHistory (s : State) (u : Nat) (h : History) : State :=
  if (s.nv.history.find u).isSome || decide (s.nv.history.rows.length < 4096) then
    { s with nv := { s.nv with history := s.nv.history.set u h } }
  else s

/-- A unit's classification becomes `c`; a change raises UNIT_CLASS, and PERMANENT acts under R468 (R467). -/
def State.setClass (s : State) (u c : Nat) : State :=
  let old := (s.history u).state
  if old = c then s
  else
    let s := s.setHistory u { s.history u with state := c }
    let s := s.raise 0x0901 u (le 1 old ++ le 1 c)
    if c = 3 then (s.bump Reg.PRF_STAT_PERMANENT).actPermanent u else s

/-- An event of a unit enters its history: detections within one operating second are one event (R467). -/
def State.histEvent (s : State) (u source : Nat) : State :=
  let h := s.history u
  let h := match h.seconds with
    | t :: _ => if t = s.nv.seconds then h
                else { h with events := satU 16 (h.events + 1), seconds := (s.nv.seconds :: h.seconds).take 3 }
    | [] => { h with events := satU 16 (h.events + 1), seconds := [s.nv.seconds] }
  let s := s.setHistory u { h with source := h.source ||| source }
  s.setClass u (s.classOf u)

/-- A failed field test or periodic self-test makes the unit PERMANENT at once (R467). -/
def State.histFailed (s : State) (u : Nat) : State :=
  (s.setHistory u { s.history u with source := (s.history u).source ||| 8 }).setClass u 3

/-! ### Error records (R464 to R466, Tables PRF-6, PRF-7) -/

/-- A CBOR head of a major type (RFC 8949, deterministic encoding). -/
def cborHead (major v : Nat) : List Byte :=
  if v < 24 then be 1 (major * 32 + v)
  else if v < 2 ^ 8 then be 1 (major * 32 + 24) ++ be 1 v
  else if v < 2 ^ 16 then be 1 (major * 32 + 25) ++ be 2 v
  else if v < 2 ^ 32 then be 1 (major * 32 + 26) ++ be 4 v
  else be 1 (major * 32 + 27) ++ be 8 v

def cborInt (i : Int) : List Byte := if i < 0 then cborHead 1 (-1 - i).toNat else cborHead 0 i.toNat
def cborBytes (l : List Byte) : List Byte := cborHead 2 l.length ++ l
def cborBool (b : Bool) : List Byte := be 1 (if b then 0xF5 else 0xF4)

/-- Whether a detail entry of an operation is a truth value (Table PRF-7). -/
def detailBool (op key : Nat) : Bool := (op == 2 && key == 3) || (op == 8 && (key == 1 || key == 2))

/-- The detail map of a record. -/
def cborDetail (op : Nat) (d : List (Nat × Nat)) : List Byte :=
  cborHead 5 d.length ++ d.flatMap (fun e => cborHead 0 e.1 ++ if detailBool op e.1 then cborBool (e.2 != 0) else cborHead 0 e.2)

/-- The protected header {1: -35} (R465). -/
def coseProtected : List Byte := cborHead 5 1 ++ cborInt 1 ++ cborInt (-35)

/-- What a COSE_Sign1 signature covers (RFC 9052). -/
def coseToSign (payload : List Byte) : List Byte :=
  cborHead 4 4 ++ (cborHead 3 10 ++ [0x53#8, 0x69#8, 0x67#8, 0x6E#8, 0x61#8, 0x74#8, 0x75#8, 0x72#8, 0x65#8, 0x31#8]) ++
  cborBytes coseProtected ++ cborBytes [] ++ cborBytes payload

/-- A COSE_Sign1 structure over `payload` signed with the device identity key (R465, RFC 9052). -/
def coseSign1 (unlocked : Bool) (payload : List Byte) : List Byte :=
  cborHead 6 18 ++ cborHead 4 4 ++ cborBytes coseProtected ++ (cborHead 5 1 ++ cborInt 4 ++ cborBytes (le 8 (Config.keyId unlocked))) ++
  cborBytes payload ++ cborBytes (padTo 96 (Config.signEs384 unlocked (coseToSign payload)))

/-- The non-volatile ring with one more record: the newest records that fit 8 MiB (R466). -/
def keepRecords (l : List (List Byte)) : List (List Byte) :=
  (l.reverse.foldl (fun (a : List (List Byte) × Nat) r =>
    if a.2 + r.length ≤ 8388608 then (r :: a.1, a.2 + r.length) else (a.1, 8388609)) ([], 0)).1

/-- An error record is made: it takes the next record number, is signed, enters the non-volatile ring and queue 0x31 (R464 to R466). -/
def State.record (s : State) (unit op timeNs cls count : Nat) (detail : List (Nat × Nat)) : State :=
  let no := s.nv.recordNo + 1
  let h := s.history unit
  let s := if (s.nv.history.find unit).isSome then s.setHistory unit { h with lastOp := op, record := no % 2 ^ 32 } else s
  let payload := cborHead 5 12 ++
    cborInt 1 ++ cborHead 0 unit ++ cborInt 2 ++ cborHead 0 op ++ cborInt 3 ++ cborHead 0 timeNs ++
    cborInt 4 ++ cborInt (sext 16 (Config.recordTemp s.free)) ++ cborInt 5 ++ cborHead 0 (Config.recordSupply s.free % 65536) ++
    cborInt 6 ++ cborHead 0 cls ++ cborInt 7 ++ cborHead 0 count ++ cborInt 8 ++ cborDetail op detail ++
    cborInt 9 ++ cborHead 0 s.part.serial ++ cborInt 10 ++ cborHead 0 no ++ cborInt 11 ++ cborHead 0 s.nv.seconds ++
    cborInt 12 ++ cborHead 0 (s.history unit).state
  let r := coseSign1 (s.flag Reg.SEC_STAT_UNLOCKED) payload
  let s := { s with free := s.free + 1, nv := { s.nv with recordNo := no, errors := keepRecords (s.nv.errors ++ [r]) } }
  (s.enqueueOwn 0x31 r).1.bump Reg.PRF_CNT_RECORDS

/-- A detection of a unit by an operation: it enters the history and is gathered, with those within 1 ms of the first, into
one record, which is made when that time has passed (R464, R467; log entry 12). -/
def State.detect (s : State) (unit op cls : Nat) (detail : List (Nat × Nat)) : State :=
  (s.histEvent unit 4).gather unit op cls detail

/-- The records of gatherings whose millisecond has passed are made (R464); a queue that was reset enters the history then (R86, R467;
log entry 12). -/
def State.flushGathers (s : State) : State :=
  let due := s.prf.gathers.filter (fun g => s.passed g.atTick (msTicks 1))
  let s := { s with prf := { s.prf with gathers := s.prf.gathers.filter (fun g => !s.passed g.atTick (msTicks 1)) } }
  due.foldl (fun s g => (if g.op = 4 then s.histEvent g.unit 4 else s).record g.unit g.op g.timeNs g.cls g.count g.detail) s

/-- A parity detection in on-chip memory of a unit (R440, Table PRF-7 op 0x01): the byte offset and the parity bits that differ, all
four in a word stored with inverted parity (R446). -/
def State.sramDetect (s : State) (unit cls ofs : Nat) (stored : Bool) : State :=
  let diff := if stored then 15 else 1 + Config.free s.free % 15
  ((s.bump Reg.PRF_CNT_SRAM_DET).detect unit 1 cls [(1, ofs), (2, diff)]).usedFree

/-- A detection in a DDR4 burst (R443, R444, Table PRF-7 op 0x02): the physical address, how the CRCs differ, in every bit where the
burst is stored with inverted check bits (R446), and whether the second read passed. -/
def State.ddrDetect (s : State) (cls pa : Nat) (passed stored : Bool) : State :=
  let diff := if stored then 2 ^ 64 - 1 else 1 + Config.free s.free % (2 ^ 64 - 1)
  let s := s.bump Reg.PRF_CNT_DDR_DET
  let s := if passed then s.bump Reg.PRF_CNT_DDR_REREAD_OK else s
  s.detect (unitId 7 (s.chanOf pa)) 2 cls [(1, pa), (2, diff), (3, passed.toNat)] |>.usedFree

end Sys2Proof.Machine
end

