-- ==== Sys2Proof/Machine/Supervisor.lean ====
section
/-! DEFINITION. The supervisor's sources and the safe-state lines (R483 to R488, Table SAF-3). -/

namespace Sys2Proof.Machine

/-- Source codes of Table SAF-3. -/
def srcPowerOn : Nat := 0
def srcContainment : Nat := 1
def srcReaction : Nat := 2
def srcMargin : Nat := 3
def srcHostLost : Nat := 4
def srcSelfTest : Nat := 5
def srcThermal : Nat := 6
def srcSafeIn : Nat := 7
def srcClock : Nat := 8

/-- Default policy of Table SAF-3: lines, whether LATCH, hold in ms. -/
def defaultPolicy (n : Nat) : Nat × Bool × Nat :=
  [(3, false, 0), (3, true, 0), (3, true, 0), (0, false, 100), (2, false, 0), (1, true, 0), (3, false, 0), (3, false, 0),
   (3, false, 0)].getD n (0, false, 0)

/-- The policy of a source: the locked table's, else the default (R488, R501, Table SAF-4). -/
def State.policy (s : State) (n : Nat) : Nat × Bool × Nat :=
  if s.locked then
    (fld s.mgd.table (32 + 4 * n) 1, fld s.mgd.table (33 + 4 * n) 1 == 1, fld s.mgd.table (34 + 4 * n) 2)
  else defaultPolicy n

def State.source (s : State) (n : Nat) : SrcSt := s.sup.src.get ⟨0, false, 0⟩ n
def State.setSource (s : State) (n : Nat) (x : SrcSt) : State := { s with sup := { s.sup with src := s.sup.src.set n x } }

/-- Whether some source holds the line of mask `m`. -/
def State.lineHeld (s : State) (m : Nat) : Bool := (List.range 9).any (fun n => (s.source n).lines &&& m != 0)

/-- Bit n = source n, in LATCH mode, whose cause has cleared, holds the line of mask `m` (SUP_LATCH). -/
def State.latchMap (s : State) (m : Nat) : Nat :=
  mapBits 9 (fun n => (s.policy n).2.1 && !(s.source n).cause && (s.source n).lines &&& m != 0)

/-- The lines and the SUP_ registers follow the sources; each line that changes raises SAFE_STATE naming source `n` (R484). -/
def State.showLines (s : State) (n : Nat) : State :=
  let a := s.lineHeld 1
  let b := s.lineHeld 2
  let oldA := s.flag Reg.SUP_STAT_SAFE_A
  let oldB := s.flag Reg.SUP_STAT_SAFE_B
  let s := ((s.wr Reg.SUP_STAT_SAFE_A a.toNat).wr Reg.SUP_STAT_SAFE_B b.toNat).wr Reg.SUP_STAT_ACTIVE
    (mapBits 9 (fun n => (s.source n).lines != 0))
  let s := (s.wr Reg.SUP_LATCH_LATCH_A (s.latchMap 1)).wr Reg.SUP_LATCH_LATCH_B (s.latchMap 2)
  let s := if a != oldA then s.raise 0x0A01 (unitId 0x12 0) (le 1 0 ++ le 1 a.toNat ++ le 1 n) else s
  if b != oldB then s.raise 0x0A01 (unitId 0x12 0) (le 1 1 ++ le 1 b.toNat ++ le 1 n) else s

/-- Source `n` requests lines; `stays` says whether its cause stays present (R484, R485). -/
def State.requestLines (s : State) (n lines : Nat) (stays : Bool) : State :=
  (s.setSource n ⟨(s.source n).lines ||| lines, stays || (s.source n).cause, s.ticks⟩).showLines n

/-- Source `n` requests the lines of its policy, and its cause stays present. -/
def State.requestHeld (s : State) (n : Nat) : State := s.requestLines n (s.policy n).1 true

/-- Source `n` requests the lines of its policy, and its cause clears at once (Table SAF-3). -/
def State.requestOnce (s : State) (n : Nat) : State := s.requestLines n (s.policy n).1 false

/-- Whether source `n` releases its lines now under HOLD: its cause has cleared and hold_ms has passed (R485). In the state
of R476 nothing is released (R488). -/
def State.holdOver (s : State) (n : Nat) : Bool :=
  !(s.policy n).2.1 && !(s.source n).cause && (s.source n).lines != 0 && !s.flag Reg.SUP_STAT_LOCKED &&
  s.passed (s.source n).clearedAt (msTicks (s.policy n).2.2)

/-- Source `n` releases its lines. -/
def State.releaseSource (s : State) (n : Nat) : State := (s.setSource n { s.source n with lines := 0 }).showLines n

/-- The cause of source `n` clears: under HOLD with hold_ms zero its lines are released at once, otherwise they wait for the
hold (R485) or for SAFE_IN (R486). -/
def State.clearCause (s : State) (n : Nat) : State :=
  if (s.source n).cause then
    let s := s.setSource n { s.source n with cause := false, clearedAt := s.ticks }
    if s.holdOver n then s.releaseSource n else s.showLines n
  else s

end Sys2Proof.Machine
end

