-- ==== Sys2Proof/Machine/Mmu.lean ====
section
/-! DEFINITION. Physical memory, address translation, and the records of the DMA channels (R300 to R313, R319 to R329). -/

namespace Sys2Proof.Machine

/-- Status codes of Table HST-10. -/
def stOk : Nat := 0
def stWrongState : Nat := 1
def stBadLength : Nat := 2
def stBadField : Nat := 3
def stNoResource : Nat := 4
def stXlateFault : Nat := 5
def stDeadline : Nat := 6
def stDataErr : Nat := 7
def stRetracted : Nat := 8
def stUnitOffline : Nat := 9
def stAuthFail : Nat := 10
def stWaitTimeout : Nat := 11
def stAborted : Nat := 12
def stExpelled : Nat := 13
def stNotReady : Nat := 14

/-- Fault kinds of Table MEM-7. -/
def fkNotMapped : Nat := 1
def fkWriteProtect : Nat := 2
def fkBadEntry : Nat := 3
def fkNotReleased : Nat := 4
def fkNoExec : Nat := 5
def fkKvRange : Nat := 6
def fkOffline : Nat := 7
/-- Not a fault of Table MEM-7: a table entry whose burst fails detection (Table PRF-3, code 0x01). -/
def fkDetected : Nat := 8

/-- How memory is accessed. -/
inductive Access
  | read
  | write
  | exec
  deriving DecidableEq, Repr

/-- The boot region (Table MEM-1). -/
def inBoot (pa : Nat) : Bool := decide (pa < 2 ^ 30)

/-- The mirror of the boot region (Table MEM-1). -/
def inMirror (pa : Nat) : Bool := decide (2 ^ 35 ≤ pa ∧ pa < 2 ^ 35 + 2 ^ 30)

/-- The physical address lies in released memory (R304). -/
def State.released (s : State) (pa : Nat) : Bool :=
  if inBoot pa || inMirror pa then s.flag Reg.MEM_RELEASE_BOOT else bit (s.rd Reg.MEM_RELEASE_REGION) (pa / 2 ^ 32)

/-- The DDR4 channel of a physical address is online: neither offline nor in a domain that is off, whose devices are in self-refresh (R20,
R21, R307); the boot copy of a granule that failed its test is not used (R539). -/
def State.chanOnline (s : State) (pa : Nat) : Bool :=
  let u := unitId 7 (s.chanOf pa)
  !(s.unit u).offline && s.domainOn u && s.holdsMem pa && !(inBoot pa && s.boot.badBoot.contains (pa / 4096))

/-- The mirror granule of a boot-region address. -/
def mirrorAddr (pa : Nat) : Nat := pa + 2 ^ 35

/-- A read of `n` bytes of the boot region is served from the mirror: its granule's channel is offline, or the read fails detection, and
the mirror's channel serves (R303). -/
def State.mirrorServes (s : State) (pa n : Nat) : Bool :=
  inBoot pa && (!s.chanOnline pa || s.badRead (gaddr spDdr pa) n) && s.chanOnline (mirrorAddr pa)

/-- A read at a physical address reaches memory. -/
def State.readable (s : State) (pa : Nat) : Bool := s.chanOnline pa || (inBoot pa && s.chanOnline (mirrorAddr pa))

/-- A read of `n` bytes fails detection, the mirror's copy included (R303, R444). -/
def State.readFails (s : State) (pa n : Nat) : Bool :=
  if s.mirrorServes pa n then s.badRead (gaddr spDdr (mirrorAddr pa)) n else s.badRead (gaddr spDdr pa) n

/-- Bytes at a physical address, the mirror's where it serves the read (R303). -/
def State.physRead (s : State) (pa n : Nat) : List Byte :=
  if s.mirrorServes pa n then s.bytes (gaddr spDdr (mirrorAddr pa)) n else s.bytes (gaddr spDdr pa) n

/-- A read served from the mirror is counted (MEM_DDR_STAT.MIRROR_READS). -/
def State.countMirror (s : State) (pa n : Nat) : State :=
  if s.mirrorServes pa n then s.bump Reg.MEM_DDR_STAT_MIRROR_READS (s.chanOf pa) else s

/-- Bytes stored at a physical address within one granule; a write to the boot region is also made to the mirror. No access reaches a
channel that is offline (R303, R307). -/
def State.physPiece (s : State) (pa : Nat) (l : List Byte) : State :=
  let s := if s.chanOnline pa then s.store (gaddr spDdr pa) l else s
  if inBoot pa && s.chanOnline (mirrorAddr pa) then s.store (gaddr spDdr (mirrorAddr pa)) l else s

/-- How far a chunk at `a` goes: to the next 4 KiB boundary, at most `n`. -/
def chunk (a n : Nat) : Nat := min n (4096 - a % 4096)

/-- Bytes stored from a physical address on, granule by granule; `fuel` bounds the granules. -/
def State.physLoop : Nat → State → Nat → List Byte → State
  | 0, s, _, _ => s
  | fuel + 1, s, pa, l =>
    if l.isEmpty then s
    else State.physLoop fuel (s.physPiece pa (l.take (chunk pa l.length))) (pa + chunk pa l.length) (l.drop (chunk pa l.length))

def State.physWrite (s : State) (pa : Nat) (l : List Byte) : State := State.physLoop (l.length / 4096 + 2) s pa l

/-! ### The walk (R308 to R310) -/

/-- The physical address field of an entry (Table MEM-3). -/
def pteAddr (e : Nat) : Nat := bits e 8 28 * 256

/-- A VALID entry of a level is well formed (R309). -/
def State.pteOk (s : State) (level e : Nat) : Bool :=
  let pa := pteAddr e
  let leaf := bit e 1
  let align := if leaf then (if level = 2 then 2 ^ 21 else 2 ^ 16) else (if level = 1 then 2 ^ 16 else 256)
  (if level = 1 then !leaf else if level = 3 then leaf else true) && pa % align == 0 && s.holdsMem pa && !inMirror pa &&
  !(bit e 2 && inBoot pa) && bits e 5 3 == 0 && e / 2 ^ 36 == 0

/-- One level's step: the fault kind, or the entry. -/
def State.pteAt (s : State) (level pa : Nat) : Except Nat Nat :=
  if !s.released pa then .error fkNotReleased
  else if !s.readable pa then .error fkOffline
  else if s.readFails pa 8 then .error fkDetected
  else
    let e := leNat (s.physRead pa 8)
    if !bit e 0 then .error fkNotMapped else if !s.pteOk level e then .error fkBadEntry else .ok e

/-- The walk of a virtual address from the level-1 table at `root`: the leaf entry and the page size (R308, Table MEM-2). -/
def State.walk (s : State) (root va : Nat) : Except Nat (Nat × Nat) :=
  if va / 2 ^ 48 ≠ 0 then .error fkNotMapped
  else do
    let e1 ← s.pteAt 1 (root + 8 * bits va 34 14)
    let e2 ← s.pteAt 2 (pteAddr e1 + 8 * bits va 21 13)
    if bit e2 1 then pure (e2, 2 ^ 21)
    else
      let e3 ← s.pteAt 3 (pteAddr e2 + 8 * bits va 16 5)
      pure (e3, 2 ^ 16)

/-- The addresses of the entries that a walk reads, in order. -/
def State.walkReads (s : State) (root va : Nat) : List Nat :=
  let a1 := root + 8 * bits va 34 14
  match s.pteAt 1 a1 with
  | .error _ => [a1]
  | .ok e1 =>
    let a2 := pteAddr e1 + 8 * bits va 21 13
    match s.pteAt 2 a2 with
    | .error _ => [a1, a2]
    | .ok e2 => if bit e2 1 then [a1, a2] else [a1, a2, pteAddr e2 + 8 * bits va 16 5]

/-- What a walk leaves beside its answer: the entries served from the mirror are counted (R303), and one whose burst fails is a detection
of control state (R444, Table PRF-2). -/
def State.walked (s : State) (root va : Nat) : State :=
  let l := if va / 2 ^ 48 ≠ 0 then [] else s.walkReads root va
  let s := l.foldl (fun s a => s.countMirror a 8) s
  match l.find? (fun a => s.readable a && s.readFails a 8) with
  | some a => s.ddrDetect 4 a false true
  | none => s

/-- The walk of a context. -/
def State.walkCtx (s : State) (ctx va : Nat) : Except Nat (Nat × Nat) :=
  match s.ctxs.find ctx with
  | none => .error fkNotMapped
  | some c => s.walk c.root va

/-- The access check at a leaf entry, and the physical address (Table MEM-7, R307, R310). -/
def State.checkLeaf (s : State) (acc : Access) (e size va : Nat) : Except Nat Nat :=
  let pa := pteAddr e + va % size
  if acc = .write ∧ !bit e 2 then .error fkWriteProtect
  else if acc = .exec ∧ !bit e 3 then .error fkNoExec
  else if !s.released pa then .error fkNotReleased
  else if !(if acc = .write then s.chanOnline pa else s.readable pa) then .error fkOffline
  else .ok pa

/-- The physical address of an access without a translation cache. -/
def State.translate (s : State) (ctx va : Nat) (acc : Access) : Except Nat Nat :=
  match s.walkCtx ctx va with
  | .error k => .error k
  | .ok (e, size) => s.checkLeaf acc e size va

/-- The physical address of a channel's access through its translation cache: a hit uses the cached entry, a walk that
succeeds enters the cache, which keeps the 32 latest (R311; log entry 13). -/
def State.translateOn (s : State) (ch ctx va : Nat) (acc : Access) : State × Except Nat Nat :=
  let cache := s.tlbs.get [] ch
  match cache.find? (fun w => w.context == ctx && decide (w.va ≤ va) && decide (va < w.va + w.size)) with
  | some w => (s, s.checkLeaf acc w.pte w.size va)
  | none =>
    let r := s.walkCtx ctx va
    let s := match s.ctxs.find ctx with | some c => s.walked c.root va | none => s
    match r with
    | .error k => (s, .error k)
    | .ok (e, size) =>
      let s := { s with tlbs := s.tlbs.set ch ((⟨ctx, va / size * size, size, e⟩ :: cache).take 32) }
      (s, s.checkLeaf acc e size va)

/-- Cached walks that the predicate names are dropped from every cache (R312). -/
def State.dropWalks (s : State) (p : CachedWalk → Bool) : State :=
  { s with tlbs := ⟨s.tlbs.rows.map (fun r => (r.1, r.2.filter (fun w => !p w)))⟩ }

/-! ### Reads and writes through translation -/

/-- Up to `n` bytes from virtual address `va` for channel `ch`: the bytes before the first fault, and the fault with its
address. `fuel` bounds the 4 KiB pieces. -/
def State.vreadLoop (ch ctx : Nat) (acc : Access) : Nat → State → Nat → Nat → List Byte → State × List Byte × Option (Nat × Nat)
  | 0, s, _, _, a => (s, a, none)
  | fuel + 1, s, va, n, a =>
    if n = 0 then (s, a, none)
    else
      match s.translateOn ch ctx va acc with
      | (s, .error k) => (s, a, some (k, va))
      | (s, .ok pa) =>
        let c := chunk va n
        let l := s.physRead pa c
        State.vreadLoop ch ctx acc fuel (s.countMirror pa c) (va + c) (n - c) (a ++ l)

def State.vread (s : State) (ch ctx va n : Nat) : State × List Byte × Option (Nat × Nat) :=
  State.vreadLoop ch ctx .read (n / 4096 + 2) s va n []

/-- The bytes of `l` written from virtual address `va` by channel `ch`, up to the first fault: how many were written, and
the fault with its address (R322). `poison` writes them with inverted check bits (R446). -/
def State.vwriteLoop (ch ctx : Nat) (poison : Bool) : Nat → State → Nat → List Byte → Nat → State × Nat × Option (Nat × Nat)
  | 0, s, _, _, d => (s, d, none)
  | fuel + 1, s, va, l, d =>
    if l.isEmpty then (s, d, none)
    else
      match s.translateOn ch ctx va .write with
      | (s, .error k) => (s, d, some (k, va))
      | (s, .ok pa) =>
        let c := chunk va l.length
        let s := if poison then s.storeBad (gaddr spDdr pa) (l.take c) else s.store (gaddr spDdr pa) (l.take c)
        State.vwriteLoop ch ctx poison fuel s (va + c) (l.drop c) (d + c)

def State.vwrite (s : State) (ch ctx va : Nat) (l : List Byte) : State × Nat × Option (Nat × Nat) :=
  State.vwriteLoop ch ctx false (l.length / 4096 + 2) s va l 0

/-- The physical addresses of a virtual range in 4 KiB pieces, or the first fault: for checks that read nothing. -/
def State.vcheck (s : State) (ctx : Nat) (acc : Access) : Nat → Nat → Nat → Option (Nat × Nat)
  | 0, _, _ => none
  | fuel + 1, va, n =>
    if n = 0 then none
    else match s.translate ctx va acc with
      | .error k => some (k, va)
      | .ok _ => State.vcheck s ctx acc fuel (va + chunk va n) (n - chunk va n)

/-- Whether a virtual range reads a burst stored with a failing code (R444, R446). -/
def State.vbad (s : State) (ctx : Nat) : Nat → Nat → Nat → Bool
  | 0, _, _ => false
  | fuel + 1, va, n =>
    if n = 0 then false
    else match s.translate ctx va .read with
      | .error _ => false
      | .ok pa => s.readFails pa (chunk va n) || State.vbad s ctx fuel (va + chunk va n) (n - chunk va n)

/-- The status by which a fault of a kind refuses a descriptor at acceptance (R329). -/
def acceptStatus (k : Nat) : Nat := if k = fkNotReleased ∨ k = fkOffline then stNotReady else if k = fkDetected then stDataErr else stXlateFault

/-- Reads at acceptance (R329): the bytes, or the status and the virtual address that refuse the descriptor. -/
def State.acceptLoop (s : State) (ctx : Nat) : Nat → Nat → Nat → List Byte → Except (Nat × Nat) (List Byte)
  | 0, _, _, a => .ok a
  | fuel + 1, va, n, a =>
    if n = 0 then .ok a
    else match s.translate ctx va .read with
      | .error k => .error (acceptStatus k, va)
      | .ok pa =>
        let c := chunk va n
        if s.readFails pa c then .error (stDataErr, va)
        else State.acceptLoop s ctx fuel (va + c) (n - c) (a ++ s.physRead pa c)

def State.acceptRead (s : State) (ctx va n : Nat) : Except (Nat × Nat) (List Byte) :=
  s.acceptLoop ctx (n / 4096 + 2) va n []

/-! ### Channel records (Table MEM-6) -/

def chIdle : Nat := 0
def chRunning : Nat := 1
def chFaulted : Nat := 2
def chSaved : Nat := 3
def chOffline : Nat := 4

/-- A channel's state code. -/
def State.chan (s : State) (c : Nat) : Nat := s.rd Reg.MEM_CH_STATE c

/-- The unit that a DMA_FAULT event of a channel names (R593). -/
def chanUnit (c : Nat) : Nat :=
  if c ≤ 0x21 then unitId 1 c
  else if 0x28 ≤ c ∧ c ≤ 0x2F then unitId 5 ((c - 0x28) / 4)
  else if c = 0x31 then unitId 0x0C 0
  else if c = 0x32 then unitId 0x0D 0
  else if 0x40 ≤ c ∧ c ≤ 0x61 then unitId 1 (c - 0x40)
  else 0

/-- A channel's state as MEM_CH shows it: OFFLINE while the unit that it belongs to is offline. -/
def State.chanState (s : State) (c : Nat) : Nat := if chanUnit c ≠ 0 ∧ !s.unitOnline (chanUnit c) then chOffline else s.chan c

/-- A channel idle, its record clear. -/
def State.chanClear (s : State) (c : Nat) : State :=
  ((((((((s.wr Reg.MEM_CH_STATE 0 c).wr Reg.MEM_CH_CONTEXT 0 c).wr Reg.MEM_CH_KIND 0 c).wr Reg.MEM_CH_RESUMED 0 c).wr
    Reg.MEM_CH_PHYSICAL 0 c).wr Reg.MEM_CH_DESC_POS 0 c).wr Reg.MEM_CH_BYTES_DONE 0 c).wr Reg.MEM_CH_FAULT_VA 0 c).wr
    Reg.MEM_CH_TAG 0 c |>.wr Reg.MEM_CH_FAULT_TIME 0 c

/-- A channel runs a transfer. -/
def State.chanStart (s : State) (c ctx descPos bytesDone tag : Nat) (physical : Bool) : State :=
  (((((((s.wr Reg.MEM_CH_STATE chRunning c).wr Reg.MEM_CH_CONTEXT ctx c).wr Reg.MEM_CH_KIND 0 c).wr Reg.MEM_CH_RESUMED 0 c).wr
    Reg.MEM_CH_PHYSICAL physical.toNat c).wr Reg.MEM_CH_DESC_POS descPos c).wr Reg.MEM_CH_BYTES_DONE bytesDone c).wr
    Reg.MEM_CH_TAG tag c

/-- The channel holds a fault, FAULTED or SAVED (R327). -/
def State.holdsFault (s : State) (c : Nat) : Bool := s.rd Reg.MEM_CH_KIND c != 0

end Sys2Proof.Machine
end

