-- ==== Sys2Proof/Machine/Restart.lean ====
section
/-! DEFINITION. Starts of the module, cold and warm, and containment (R469 to R476, R488, R546, R552, Table BUP-11). -/

namespace Sys2Proof.Machine

/-- The kind of start (EAS_BOOT.KIND). -/
def startCold : Nat := 0
def startContained : Nat := 1
def startThermal : Nat := 2

/-- Whether a register field's row lives through a warm start: the supervisor's registers, PRF_CONTAIN, PRF_CONTAIN_TIME and
the count of containments, RUL_INC, the host ports' links, and the supply's measurements (R469, Table BUP-11). -/
def keptRow (time : Bool) (r : Nat × Nat) : Bool :=
  let a := r.1 / 8
  (decide (0x30000 ≤ a ∧ a < 0x40000)) || (decide (0x120008 ≤ a ∧ a < 0x120018)) || r.1 == 0x120004 * 8 ||
  (time && decide (0x60008 ≤ a ∧ a < 0x60010)) ||
  r.1 == 0x100020 * 8 || r.1 == 0x100028 * 8 || r.1 == 0x100020 * 8 + 32 || r.1 == 0x100028 * 8 + 32 ||
  decide (0x50000 ≤ a ∧ a < 0x50010)

/-- The anti-rollback counter: the index of the lowest unblown bit of the fuse field (text before R560). -/
def rollbackCount (field : Nat) : Nat := (List.range 128).foldl (fun n i => if n = i ∧ bit field i then n + 1 else n) 0

/-- The readiness table at a start: every function waits, and a host port whose link is kept is ready (Tables BUP-9 to BUP-11). -/
def State.startReadiness (s : State) : State :=
  let s := allFns.foldl (fun s fn => s.setFnQuiet fn rdWaiting 0) s
  (List.range 2).foldl (fun s n => if s.flag Reg.HTP_PORT_LINK n then s.setFnQuiet (0x700 + n) rdReady 0 else s) s

/-- Registers that a start sets from the fuses, the store and the security unit. -/
def State.startRegs (s : State) (kind : Nat) : State :=
  let s := (s.wr Reg.EAS_BOOT_KIND kind).startReadiness
  let s := s.wr Reg.EAS_MEMTEST_LEVEL s.nv.memLevel
  let s := (s.wr Reg.EAS_LINKCHK_APHY_MIN s.nv.aphyMin).wr Reg.EAS_LINKCHK_SQI_MIN s.nv.sqiMin
  let s := s.wr Reg.PRF_STAT_PERMANENT (s.nv.history.rows.filter (fun r => r.2.state == 3)).length
  let s := s.wr Reg.SEC_ROLLBACK_COUNTER (rollbackCount s.part.rollback)
  let s := (s.wr Reg.SEC_KID_KID (Config.keyId false)).wr Reg.SEC_CHAL_CHALLENGE (Config.random 128 s.sec.draws)
  let s := { s with sec := { s.sec with draws := s.sec.draws + 1 } }
  let s := s.store (winAddr 0x21000) (le 4 Config.certificate.length ++ Config.certificate)
  (List.range 2).foldl (fun s n =>
    let s := s.wr Reg.HTP_MAC_ADDR (s.part.mac.getD n 0) n
    let s := s.wr Reg.HTP_PORT_MS (s.nv.ms.getD n false).toNat n
    s.wr Reg.SEC_MACSEC_SAVE (s.nv.macsecSave.getD n false).toNat n) s

/-- The latencies of the time-stamping ports from the factory data (RUL_PLAT). -/
def State.startLatencies (s : State) : State :=
  (List.range 8).foldl (fun s n =>
    (s.wr Reg.RUL_PLAT_RX_LAT (s.part.rxLat.getD n 0) n).wr Reg.RUL_PLAT_TX_LAT (s.part.txLat.getD n 0) n) s

/-- Rows of what is measured at the module's inputs: SAFE_IN, VIN, VCAM, WAKE and the base plate, with their flags. -/
def inputRow (r : Nat × Nat) : Bool :=
  ([regKey Reg.SUP_STAT_SAFE_IN 0, regKey Reg.PWR_SUPPLY_VIN_MV 0, regKey Reg.PWR_SUPPLY_VCAM_MV 0, regKey Reg.PWR_STAT_UNDERVOLT 0,
    regKey Reg.PWR_STAT_OVERVOLT 0, regKey Reg.PWR_STAT_WAKE 0, regKey Reg.PWR_STAT_VCAM_BAD 0, regKey Reg.PWR_STAT_BASE_RANGE 0,
    regKey Reg.PWR_TEMP_BASE 0] : List Nat).contains r.1

/-- What a start, or the loss of power, leaves of the supply's state: what is measured at the inputs, and when domains were last
switched on (R517). -/
def PwrSt.inputs (x : PwrSt) : PwrSt :=
  { PwrSt.reset with
    vin := x.vin, underSince := x.underSince, overSince := x.overSince, surgeSince := x.surgeSince, wakeLow := x.wakeLow, switched := x.switched }

/-- Everything that power and reset clear takes its reset value; the store, the fuses and what is measured at the inputs stay. -/
def State.cleared (s : State) : State :=
  { State.reset with
    pending := s.pending, nv := s.nv, part := s.part, ticks := s.ticks, free := s.free, emitted := s.emitted,
    regs := ⟨s.regs.rows.filter inputRow⟩, pwr := s.pwr.inputs, sec := { SecSt.reset with draws := s.sec.draws } }

/-- The security unit at a start: the saved connectivity association keys are loaded (R566), everything else afresh. -/
def State.startSec (s : State) (draws : Nat) : SecSt :=
  { SecSt.reset with draws := draws, cak := ⟨((List.range 2).filterMap (fun n => (s.nv.cak.getD n none).map (fun k => (n, k))))⟩ }

/-- A cold start: everything takes its reset value but the store, the fuses and what is measured at the inputs (R546, R574,
Table BUP-11). -/
def State.coldStart (s : State) : State :=
  let safeIn := if s.flag Reg.SUP_STAT_SAFE_IN then some s.ticks else none
  let t := { s.cleared with
    power := .starting, sec := s.startSec s.sec.draws, gold := { GoldSt.reset with begun := s.ticks },
    sup := { SupSt.reset with src := ⟨[(0, ⟨3, true, s.ticks⟩)]⟩, safeInAt := safeIn } }
  let t := t.wr Reg.PWR_STAT_BROWNOUT s.nv.brownOut.isSome.toNat
  let t := match s.nv.inc with
    | some v => (t.wr Reg.RUL_INC_FRAC (v % 2 ^ 32)).wr Reg.RUL_INC_INT (v / 2 ^ 32)
    | none => t
  (t.startRegs startCold).startLatencies.wr Reg.SEC_STAT_CAK (mapBits 2 (fun n => (t.sec.cak.find n).isSome))

/-- A warm start after containment (kind 1) or a thermal trip (kind 2): the supervisor, device time unless `time` is false,
DDR4, the channel set and the store are kept (R469 to R472, R488, Table BUP-11). -/
def State.warmStart (s : State) (kind : Nat) (time : Bool) : State :=
  let kept := if s.power = .up ∨ !s.boot.warm then s.rd Reg.MEM_RELEASE_REGION + (s.rd Reg.MEM_RELEASE_BOOT) * 2 ^ 16
              else s.boot.kept ||| (s.rd Reg.MEM_RELEASE_REGION + (s.rd Reg.MEM_RELEASE_BOOT) * 2 ^ 16)
  let t := { State.reset with
    pending := s.pending, nv := s.nv, part := s.part, ticks := s.ticks, free := s.free, emitted := s.emitted,
    power := .starting, regs := ⟨s.regs.rows.filter (keptRow time)⟩,
    mem := s.mem.filter (fun c => decide (c.1 / 2 ^ 44 = spDdr)), bad := s.bad.filter (fun a => decide (a / 2 ^ 44 = spDdr)),
    tm := { TimeSt.reset with dt96 := if time then s.tm.dt96 else 0, nextEpoch := if time then (s.dt64 + 49999999) / 50000000 * 50000000 else 0 },
    sec := s.startSec s.sec.draws, gold := { GoldSt.reset with begun := s.ticks },
    sup := s.sup, ht := { HtSt.reset with down := s.ht.down }, pwr := s.pwr.inputs, chanMap := s.chanMap, ddrBytes := s.ddrBytes,
    prf := { PrfSt.reset with containSecs := s.prf.containSecs, heldReset := s.prf.heldReset },
    boot := { BootSt.reset with
      warm := true, kept := kept, badBoot := s.boot.badBoot, retained := s.boot.retained, failed := s.boot.failed,
      caseTemp := s.boot.caseTemp } }
  let t := match s.nv.inc with
    | some v => if time then t else (t.wr Reg.RUL_INC_FRAC (v % 2 ^ 32)).wr Reg.RUL_INC_INT (v / 2 ^ 32)
    | none => t
  let t := (t.startRegs kind).startLatencies.wr Reg.SEC_STAT_CAK (mapBits 2 (fun n => (t.sec.cak.find n).isSome))
  let t := t.wr Reg.SUP_GOLD_REF_VALID 0
  let t := t.wr Reg.EAS_MEMTEST_FAILED (mapBits 16 (fun r => (s.boot.failed.find r).isSome))
  t.wr Reg.HTP_STAT_STATE stRestart

/-- Containment with a code of Table PRF-3 naming a unit: the safe-state outputs are asserted, DDR4 goes into self-refresh and
Birril is reset (R469); a fourth within 600 operating seconds holds it in reset (R476). -/
def State.contain (s : State) (code unit : Nat) : State :=
  if s.power = .off ∨ s.power = .held then s
  else
    let s := s.requestLines srcContainment 3 true
    let s := ((s.wr Reg.PRF_CONTAIN_UNIT unit).wr Reg.PRF_CONTAIN_CODE code).wr Reg.PRF_CONTAIN_TIME_DT64 s.dt64
    let s := s.wr Reg.PRF_STAT_CONTAINMENTS (satU 8 (s.rd Reg.PRF_STAT_CONTAINMENTS + 1))
    let secs := s.nv.seconds :: s.prf.containSecs.filter (fun t => decide (s.nv.seconds ≤ t + 600))
    let s := { s with prf := { s.prf with containSecs := secs } }
    let s := s.warmStart startContained (code != 0x0A)
    if 4 ≤ secs.length then
      ({ s with power := .held, prf := { s.prf with heldReset := true } } : State).wr Reg.SUP_STAT_LOCKED 1
    else s

/-! ### Control-state errors met by memory accesses (R313, R322) -/

/-- Bytes of the boot region stored by the spill queues, Hatch or the easel; any other physical address is not performed, and is a
control-state error naming the unit `u` (R313; its code is that of a DMA record, log entry 110). -/
def State.bootWrite (s : State) (u pa : Nat) (l : List Byte) : State :=
  if inBoot pa ∧ inBoot (pa + (l.length - 1)) then s.physWrite pa l else s.contain 0x04 u

/-- The DMA_FAULT event of a channel's record (R322, Table HST-17). -/
def State.chanEvent (s : State) (c : Nat) : State :=
  s.raise 0x0501 (chanUnit c) (le 1 c ++ le 1 (s.rd Reg.MEM_CH_CONTEXT c) ++ le 1 (s.rd Reg.MEM_CH_KIND c) ++
    le 1 (s.rd Reg.MEM_CH_RESUMED c + 2 * s.rd Reg.MEM_CH_PHYSICAL c) ++ le 4 (s.rd Reg.MEM_CH_DESC_POS c) ++
    le 8 (s.rd Reg.MEM_CH_FAULT_VA c) ++ le 8 (s.rd Reg.MEM_CH_BYTES_DONE c) ++ le 8 (s.rd Reg.MEM_CH_TAG c))

/-- A channel stops with a fault: its record holds it, DMA_FAULT is raised and counted (R322). A failed read of a table entry is no fault
of the channel but a control-state error, and leads to containment (Table PRF-3). -/
def State.chanFault (s : State) (c kind bytesDone va : Nat) : State :=
  if kind = fkDetected then s.contain 0x01 (chanUnit c)
  else
  let s := ((((s.wr Reg.MEM_CH_STATE chFaulted c).wr Reg.MEM_CH_KIND kind c).wr Reg.MEM_CH_BYTES_DONE bytesDone c).wr
    Reg.MEM_CH_FAULT_VA va c).wr Reg.MEM_CH_FAULT_TIME s.dt64 c
  (s.chanEvent c).bump Reg.MEM_CNT_FAULTS

end Sys2Proof.Machine
end

