-- ==== Sys2Proof/Machine/RingLink.lean ====
section
/-! DEFINITION. The link layer of the ring ports: lanes, flits, credits, ranks, transfers and their tags, and the messages by which
tracers of different modules reach each other's slots (R414 to R416, R424, R432, R261, R262). -/

namespace Sys2Proof.Machine

/-! ### Lanes and ports (R418 to R421, R549) -/

def laneActive : Nat := 0
def laneRetrain : Nat := 1
def laneFailed : Nat := 2

/-- The unit of lane `i`. -/
def laneUnit (i : Nat) : Nat := unitId 0x0E i

/-- A lane is ACTIVE, past its check at start, and neither offline nor under test. -/
def State.lanePassed (s : State) (i : Nat) : Bool :=
  s.rd Reg.RNG_LANE_STATE i == laneActive && bit s.ring.passed i && s.unitUp (laneUnit i)

/-- A lane carries flits: it has block lock as well. -/
def State.laneServes (s : State) (i : Nat) : Bool := s.lanePassed i && bit s.ring.locked i

/-- The lanes of a port that carry flits. -/
def State.lanes (s : State) (p : Nat) : Nat := ((List.range 4).filter (fun l => s.laneServes (p * 4 + l))).length

/-- A port is up with at least 3 lanes (R420, R549). -/
def State.ringUp (s : State) (p : Nat) : Bool := decide (3 ≤ s.lanes p)

def State.tx (s : State) (p : Nat) : PortTx := s.ring.tx.get .reset p
def State.rx (s : State) (p : Nat) : PortRx := s.ring.rx.get .reset p
def State.setTx (s : State) (p : Nat) (x : PortTx) : State := { s with ring := { s.ring with tx := s.ring.tx.set p x } }
def State.setRx (s : State) (p : Nat) (x : PortRx) : State := { s with ring := { s.ring with rx := s.ring.rx.set p x } }

/-! ### Flits (Table RNG-1, R415 to R417) -/

def flitData : Nat := 1
def flitCtrl : Nat := 2
def ctHello : Nat := 1
def ctLaneDrop : Nat := 2
def ctLaneAdd : Nat := 3
def ctCensus : Nat := 4
def ctFormed : Nat := 5
def ctCheck : Nat := 6

/-- A flit with its CRC (Table RNG-1). -/
def flitBytes (type code seq ack crCtrl crData : Nat) (payload : List Byte) : List Byte :=
  let l := le 1 type ++ le 1 code ++ le 2 seq ++ le 2 ack ++ le 1 crCtrl ++ le 1 crData ++ padTo 128 payload
  l ++ le 4 (crc32c l) ++ zeros 4

/-- A flit leaves on a port; it carries the next number expected from the peer. -/
def State.flitOut (s : State) (p type code seq crCtrl crData : Nat) (payload : List Byte) : State :=
  s.emit .flit p (flitBytes type code seq (s.rx p).expect crCtrl crData payload)

/-- An IDLE flit with credits to return, or a NAK (R415, R416). -/
def State.idleFlit (s : State) (p crCtrl crData : Nat) (nak : Bool) : State := s.flitOut p 0 nak.toNat 0 crCtrl crData []

/-- A sequenced flit takes a credit and the next number, is kept for replay, and leaves (R415, R416). -/
def State.sendKept (s : State) (p : Nat) (f : List Byte) : State :=
  let x := s.tx p
  let type := fld f 0 1
  let x := if type = flitCtrl then { x with ctrlCredit := x.ctrlCredit - 1 } else { x with dataCredit := x.dataCredit - 1 }
  let kept := x.kept ++ [(x.next, f)]
  let s := s.setTx p { x with next := (x.next + 1) % 65536, kept := kept.drop (kept.length - 256),
                              keptAt := if x.kept.isEmpty then s.ticks else x.keptAt }
  s.flitOut p type (fld f 1 1) x.next 0 0 (f.drop 2)

/-- Waiting flits leave while credits last, control ahead of data (R415); `n` bounds their number. -/
def State.drainPort (p : Nat) : Nat → State → State
  | 0, s => s
  | n + 1, s =>
    let x := s.tx p
    match x.waitCtrl, x.waitData with
    | f :: r, _ =>
      if 0 < x.ctrlCredit then State.drainPort p n ((s.setTx p { x with waitCtrl := r }).sendKept p f) else s
    | [], f :: r =>
      if 0 < x.dataCredit then State.drainPort p n ((s.setTx p { x with waitData := r }).sendKept p f) else s
    | [], [] => s

/-- A flit is offered to a port that is up; it leaves as soon as its class has a credit. -/
def State.sendFlit (s : State) (p type code : Nat) (payload : List Byte) : State :=
  if !s.ringUp p then s
  else
    let f := le 1 type ++ le 1 code ++ padTo 128 payload
    let x := s.tx p
    let x := if type = flitCtrl then { x with waitCtrl := x.waitCtrl ++ [f] } else { x with waitData := x.waitData ++ [f] }
    (s.setTx p x).drainPort p (x.waitCtrl.length + x.waitData.length)

def State.sendCtrl (s : State) (p code : Nat) (payload : List Byte) : State := s.sendFlit p flitCtrl code payload

/-- The members that have a rank, in rank order (R424). -/
def rankOrder (l : List Member) (closed : Bool) : List Member :=
  let l := l.filter (fun m => m.role != 0)
  if closed then
    let low := l.foldl (fun a m => min a m.module) 0x100
    let i := l.findIdx (fun m => m.module == low)
    l.drop i ++ l.take i
  else l

/-- The members in rank order. -/
def State.ranks (s : State) : List Member := rankOrder s.ring.members (s.flag Reg.RNG_STAT_CLOSED)

/-- A module of the ring by its number. -/
def State.moduleIn (s : State) (m : Nat) : Option Member := s.ring.members.find? (fun x => x.module == m && x.role != 0)

/-- The check epoch of an instant (text before R432). -/
def State.checkEpoch (s : State) : Nat :=
  toU 32 (((s.dt64 : Int) - s.rd Reg.RUL_EPOCH_OFS_OFS_NS) / ((s.rd Reg.RNG_CHECK_PERIOD_US * 1000 : Nat) : Int))

/-! ### Transfers (R432) -/

/-- The transfer header in the first DATA flit (R432). -/
def xferHeader (x : Xfer) : List Byte :=
  let t := fun (m : Nat) => x.taint.find? (fun e => e.module == m)
  le 4 x.coll ++ le 1 x.op ++ le 1 x.sender ++ le 1 x.step ++ le 1 0 ++ le 4 x.size ++ le 8 x.ofs ++
  le 1 (mapBits 8 (fun m => (t m).isSome)) ++ le 3 0 ++
  (List.range 8).flatMap (fun m => match t m with
    | some e => le 4 e.lo ++ le 4 e.hi
    | none => zeros 8)

/-- The transfer that a header announces. -/
def readHeader (l : List Byte) : Xfer :=
  { coll := fld l 0 4, op := fld l 4 1, sender := fld l 5 1, step := fld l 6 1, size := fld l 8 4, ofs := fld l 12 8,
    taint := (List.range 8).filterMap (fun m => if bit (fld l 20 1) m then some ⟨m, fld l (24 + 8 * m) 4, fld l (28 + 8 * m) 4⟩ else none),
    got := [], slow := false }

/-- The bytes of `l` in DATA payloads of 128 bytes; `n` bounds their number. -/
def payloads128 : Nat → List Byte → List (List Byte)
  | 0, _ => []
  | n + 1, l => if l.isEmpty then [] else padTo 128 (l.take 128) :: payloads128 n (l.drop 128)

/-- A transfer leaves in check epoch `k`: its epoch waits for a verdict that covers these jobs and this context (R435). -/
def State.noteSent (s : State) (k : Nat) (jobs : List Nat) (ctx : Nat) : State :=
  let sent := if s.ring.sent.any (fun e => e.1 == k) then
      s.ring.sent.map (fun e => if e.1 = k then (k, (e.2.1 ++ jobs).eraseDups, (ctx :: e.2.2).eraseDups) else e)
    else s.ring.sent ++ [(k, jobs, [ctx])]
  { s with ring := { s.ring with sent := sent } }

/-- The launches of a context whose sampled tiles are not yet compared (R435). -/
def State.sampledJobs (s : State) (ctx : Nat) : List Nat :=
  ((s.plates.rows.flatMap (fun r => r.2.slots)).filter (fun x => x.context == ctx)).map (·.job)

/-- The flits of a transfer leave by a port: its header, then its data (R432). -/
def State.xferOut (s : State) (p : Nat) (x : Xfer) : State :=
  (xferHeader x :: payloads128 (x.got.length / 128 + 1) x.got).foldl (fun s l => s.sendFlit p flitData 0 l) s

/-! ### Messages between tracers (R256, R261 to R263; log entry 114)

The spec does not lay them out. Here each is a transfer whose op is one of the codes below, with the slot in coll, the module that
sends in sender, the cache in step, and the module that it goes to in the top byte of the destination offset. -/

def kvPlace : Nat := 0x81
def kvPin : Nat := 0x82
def kvUnpin : Nat := 0x83
def kvDrop : Nat := 0x84
def kvRaise : Nat := 0x85
/-- A transfer is a message between tracers. -/
def Xfer.isKv (x : Xfer) : Bool := decide (0x81 ≤ x.op ∧ x.op ≤ 0x85)
/-- The module that a message goes to. -/
def Xfer.kvTo (x : Xfer) : Nat := x.ofs / 2 ^ 56

/-- The port by which module `m` is reached: downstream in a closed ring, towards its rank in a chain. -/
def State.kvPort (s : State) (m : Nat) : Nat :=
  let at' := fun n => s.ranks.findIdx (fun x => x.module == n)
  if s.flag Reg.RNG_STAT_CLOSED || decide (at' (s.rd Reg.RNG_STAT_MODULE) < at' m) then 0 else 1

/-- A message to the tracer of module `m` that holds a slot. One with data counts as a transfer of the present check epoch. -/
def State.kvSend (s : State) (m op ci ctx n arg : Nat) (data : List Byte) : State :=
  let k := s.checkEpoch
  let me := s.rd Reg.RNG_STAT_MODULE
  let s := if data.isEmpty then s else s.noteSent k (s.sampledJobs ctx) ctx
  s.xferOut (s.kvPort m) ⟨n, op, me, ci, data.length, m * 2 ^ 56 + arg, [⟨me, k, k⟩], data, false⟩

end Sys2Proof.Machine
end

