-- ==== Sys2Proof/Machine/Engines.lean ====
section
/-! DEFINITION. Jobs and the engines that run them: descriptor fields, stopping and pre-empting, completion records
(R195, R331, R364, R395, R396, Tables HST-8, HST-9). -/

namespace Sys2Proof.Machine

/-! ### Descriptor header (Table HST-8) -/

def Job.opcode (j : Job) : Nat := fld j.desc 0 2
def Job.confirm (j : Job) : Bool := bit (fld j.desc 2 1) 0
/-- The task a job belongs to; 0 = none (R355). -/
def Job.task (j : Job) : Nat := fld j.desc 3 1
def Job.context (j : Job) : Nat := fld j.desc 4 1
def Job.part (j : Job) : Nat := fld j.desc 5 1
def Job.priority (j : Job) : Nat := fld j.desc 6 1
def Job.tag (j : Job) : Nat := fld j.desc 8 8
def Job.waitObj (j : Job) : Nat := fld j.desc 16 2
def Job.sigObj (j : Job) : Nat := fld j.desc 18 2
def Job.sigAdd (j : Job) : Nat := fld j.desc 20 4
def Job.waitValue (j : Job) : Nat := fld j.desc 24 8
/-- The `n`-byte payload field at descriptor byte `o`. -/
def Job.arg (j : Job) (o n : Nat) : Nat := fld j.desc o n

/-- The accepted job with number `id`. -/
def State.job (s : State) (id : Nat) : Option Job := s.jobs.find? (fun j => j.id == id)

/-- The job's entry replaced. -/
def State.setJob (s : State) (j : Job) : State := { s with jobs := s.jobs.map (fun k => if k.id = j.id then j else k) }

/-- A completion flag of Table HST-12 is added to a job. -/
def State.addFlag (s : State) (id bitNo : Nat) : State :=
  { s with jobs := s.jobs.map (fun k => if k.id = id then { k with flags := k.flags ||| 2 ^ bitNo } else k) }

/-- MEM_CTX.JOBS and SAVED of a context follow its jobs. -/
def State.showCtx (s : State) (c : Nat) : State :=
  let n := (s.jobs.filter (fun j => j.context == c)).length
  (s.wr Reg.MEM_CTX_JOBS (satU 16 n) c).wr Reg.MEM_CTX_SAVED
    ((s.jobs.any (fun j => j.context == c && j.phase == .saved && j.opcode == 0x10)).toNat) c

/-! ### Taints (R432 to R434) -/

/-- `a` is at or before `b` among 32-bit serial numbers. -/
def serLe (a b : Nat) : Bool := decide ((b + 2 ^ 32 - a) % 2 ^ 32 < 2 ^ 31)

/-- A taint holds check epoch `k` of module `m`. -/
def taintHolds (t : List Taint) (m k : Nat) : Bool := t.any (fun e => e.module == m && serLe e.lo k && serLe k e.hi)

/-- The first epoch of an entry on which a verdict RETRACT lies (R436). -/
def Verdict.retracts (v : Verdict) (e : Taint) : Option (Nat × Nat) :=
  if v.retract && e.module == v.module && serLe e.lo v.hi && serLe v.lo e.hi then
    some (v.module, if serLe v.lo e.lo then e.lo else v.lo)
  else none

/-- The retracted epoch that a taint holds, if it holds one: module and epoch (R436). -/
def State.retractedIn (s : State) (t : List Taint) : Option (Nat × Nat) :=
  s.ring.verdicts.findSome? (fun v => t.findSome? v.retracts)

/-- The detail of a RETRACTED record (R437). -/
def retractDetail (m k : Nat) : Nat := k + m * 2 ^ 32

/-- One entry merged into a taint: one range per module, the hull of both. -/
def mergeEntry (l : List Taint) (e : Taint) : List Taint :=
  if l.any (fun x => x.module == e.module) then
    l.map (fun x => if x.module = e.module then
      ⟨x.module, if serLe x.lo e.lo then x.lo else e.lo, if serLe x.hi e.hi then e.hi else x.hi⟩ else x)
  else l.filter (fun x => x.module < e.module) ++ [e] ++ l.filter (fun x => e.module < x.module)

/-- The merge of two taints (text before R432). -/
def mergeTaint (a b : List Taint) : List Taint := b.foldl mergeEntry a

/-- The module of an entry has committed every epoch of it: it has broadcast COMMIT through the last, and RETRACT for none of them
(text before R432, R436). -/
def State.committed (s : State) (e : Taint) : Bool :=
  s.ring.verdicts.any (fun v => v.module == e.module && !v.retract && serLe e.hi v.hi) && (s.retractedIn [e]).isNone

/-- The entries of a taint that are not committed. -/
def State.live (s : State) (t : List Taint) : List Taint := t.filter (fun e => !s.committed e)

/-- A taint merged into one that is held: entries committed already are dropped. -/
def State.merge (s : State) (a b : List Taint) : List Taint := mergeTaint a (s.live b)

/-! ### Look-aside entries and the pins they hold (R252 to R256) -/

def State.tracer (s : State) (t : Nat) : TracerSt := s.tracers.get .reset t

/-- TRC_STAT and TRC_EPOCH of a tracer follow its state. -/
def State.showTracer (s : State) (t : Nat) : State :=
  let x := s.tracer t
  let oldest := x.pins.get 0 ((x.epoch + 2 ^ 32 - 63) % 2 ^ 32)
  (((s.wr Reg.TRC_STAT_QUEUED x.queue.length t).wr Reg.TRC_STAT_PINNED (x.pins.rows.filter (fun r => r.2 != 0)).length t).wr
    Reg.TRC_STAT_HELD ((oldest != 0)).toNat t).wr Reg.TRC_EPOCH_EPOCH x.epoch t

def State.setTracer (s : State) (t : Nat) (x : TracerSt) : State :=
  ({ s with tracers := s.tracers.set t x } : State).showTracer t

/-- One pin more on an epoch, or one less. -/
def State.pin (s : State) (t e : Nat) (more : Bool) : State :=
  let x := s.tracer t
  let n := x.pins.get 0 e
  let n := if more then n + 1 else n - 1
  s.setTracer t { x with pins := if n = 0 then x.pins.erase e else x.pins.set e n }

/-- A look-aside entry is dropped: its pin is released, and the pin on the module that holds a remote slot (R252, R262). -/
def State.releaseLab (s : State) (e : LabEntry) : State :=
  let s := s.pin (e.seq % 2) e.epoch false
  match e.map with
  | .remote m n => s.kvSend m kvUnpin e.cache 0 n 0 []
  | _ => s

/-- Look-aside entries that the predicate names are dropped in every plate, each releasing its pin (R252, R255). -/
def State.dropLabs (s : State) (p : LabEntry → Bool) : State :=
  let gone := s.labs.rows.flatMap (fun r => r.2.filter p)
  let s := { s with labs := ⟨s.labs.rows.map (fun r => (r.1, r.2.filter (fun e => !p e)))⟩ }
  gone.foldl State.releaseLab s

/-- A plate drops every look-aside entry (R254). -/
def State.dropPlateLabs (s : State) (plate : Nat) : State :=
  let gone := s.labs.get [] plate
  gone.foldl State.releaseLab { s with labs := s.labs.set plate [] }

/-! ### Plates -/

def State.plate (s : State) (p : Nat) : PlateSt := s.plates.get .reset p
def State.setPlate (s : State) (p : Nat) (x : PlateSt) : State := { s with plates := s.plates.set p x }
/-- The key of a needle core. -/
def coreKey (p c : Nat) : Nat := p * 128 + c
def State.core (s : State) (p c : Nat) : CoreSt := s.cores.get .reset (coreKey p c)
def State.setCore (s : State) (p c : Nat) (x : CoreSt) : State := { s with cores := s.cores.set (coreKey p c) x }

/-- Enabled physical plates in ascending order: logical plate i is the i-th (R14). -/
def State.platesOn (s : State) : List Nat := (List.range 34).filter (bit s.plateMap)

/-- The physical plates of a set of logical plates, ascending (R14, R15). -/
def State.physical (s : State) (map : Nat) : List Nat :=
  ((List.range 32).filter (fun i => bit map i && decide (i < s.platesOn.length))).map (fun i => s.platesOn.getD i 0)

/-- The logical number of a physical plate. -/
def State.logical (s : State) (p : Nat) : Nat := (s.platesOn.filter (fun q => decide (q < p))).length

/-- Commands that programs have queued and that have not executed: repetitions of a tile take no entry (R173, R199). -/
def ArrSt.entries (x : ArrSt) : Nat := x.queue.length - x.replay.length

/-- Registers that show a plate's array and DMA queues. -/
def State.showPlate (s : State) (p : Nat) : State :=
  let x := s.plate p
  let atTb := match x.arr.queue with
    | [] => true
    | c :: _ => fld c.bytes 0 1 == 2 && bit (fld c.bytes 2 1) 0
  ((((((s.wr Reg.PLT_ARR_STAT_QUEUED x.arr.entries p).wr Reg.PLT_ARR_STAT_AT_TB atTb.toNat p).wr
    Reg.PLT_ARR_STAT_ACC_TYPE x.arr.accType p).wr Reg.PLT_ARR_STAT_ACC_EXP x.arr.accExp p).wr
    Reg.PLT_DMA_STAT_QUEUED x.dma.length p).wr Reg.PLT_DMA_STAT_FAULTED (decide (s.chan p = chFaulted)).toNat p).wr
    Reg.PLT_DMA_STAT_BUSY (decide (s.chan p = chRunning)).toNat p

/-- The physical core of a logical one: the n-th core in use (R206). -/
def State.physCore (s : State) (p c : Nat) : Nat :=
  ((List.range 66).filter (bit (s.rd Reg.PLT_SPARE_CORE_MAP p))).getD c c

/-- The key of a core's registers in the NDL_ block: physical plate and core. -/
def State.ndl (s : State) (p c : Nat) : Nat := p * 128 + s.physCore p c

/-- A core that was started is idle: no launch runs on it (R195, NDL_CORE_STAT). -/
def State.idleCore (s : State) (p c : Nat) : State :=
  if s.rd Reg.NDL_CORE_STAT_STATE (s.ndl p c) ≤ 1 then s
  else (s.wr Reg.NDL_CORE_STAT_STATE 1 (s.ndl p c)).wr Reg.NDL_CORE_STAT_PRIV 0 (s.ndl p c)

/-- The cores of a plate that run (PLT_STAT.CORES). -/
def State.showCores (s : State) (p : Nat) : State :=
  s.wr Reg.PLT_STAT_CORES ((List.range 64).filter (fun c => (s.core p c).running)).length p

/-- Waits that needle cores hold on an object (R375). -/
def State.coreWaiters (s : State) (o : Nat) : Nat :=
  (s.cores.rows.filter (fun r => match r.2.hold with | some (.wait obj _ _ _) => obj == o | _ => false)).length

/-- A slice of the periodic self-test runs in unit `u`: its launches, jobs and runs wait until it ends (R513). -/
def State.sliced (s : State) (u : Nat) : Bool := s.gold.slices.any (fun x => x.1 == u)

/-- A pending offline request of a plate takes effect when no launch holds it (R197). -/
def State.offlineDeferred (s : State) (p : Nat) : State :=
  if (s.unit (unitId 1 p)).offlinePending && !s.plateHeld p then s.offlineNow (unitId 1 p) else s

/-- A channel's record but its state, as numbers: context, kind, RESUMED, PHYSICAL, desc_pos, bytes_done, fault_va, tag,
fault_time (Table MEM-6). -/
def State.chanRec (s : State) (c : Nat) : List Nat :=
  [s.rd Reg.MEM_CH_CONTEXT c, s.rd Reg.MEM_CH_KIND c, s.rd Reg.MEM_CH_RESUMED c, s.rd Reg.MEM_CH_PHYSICAL c,
   s.rd Reg.MEM_CH_DESC_POS c, s.rd Reg.MEM_CH_BYTES_DONE c, s.rd Reg.MEM_CH_FAULT_VA c, s.rd Reg.MEM_CH_TAG c,
   s.rd Reg.MEM_CH_FAULT_TIME c]

/-- A channel shows a state and a record. -/
def State.setChanRec (s : State) (c st : Nat) (r : List Nat) : State :=
  (((((((((s.wr Reg.MEM_CH_STATE st c).wr Reg.MEM_CH_CONTEXT (r.getD 0 0) c).wr Reg.MEM_CH_KIND (r.getD 1 0) c).wr
    Reg.MEM_CH_RESUMED (r.getD 2 0) c).wr Reg.MEM_CH_PHYSICAL (r.getD 3 0) c).wr Reg.MEM_CH_DESC_POS (r.getD 4 0) c).wr
    Reg.MEM_CH_BYTES_DONE (r.getD 5 0) c).wr Reg.MEM_CH_FAULT_VA (r.getD 6 0) c).wr Reg.MEM_CH_TAG (r.getD 7 0) c).wr
    Reg.MEM_CH_FAULT_TIME (r.getD 8 0) c

/-- The records saved of a plate, by job. -/
def State.savedOn (s : State) (p : Nat) : List (Nat × SavedPlate) :=
  s.launches.rows.filterMap (fun r => (r.2.saved.find p).map (fun x => (r.1, x)))

/-- A plate that no launch runs on shows the launch saved there last, or is idle (PLT_STAT.STATE, Table MEM-6; log entry 33). -/
def State.showIdle (s : State) (p : Nat) : State :=
  let s := (s.wr Reg.PLT_STAT_CONTEXT 0 p).wr Reg.PLT_STAT_CORES 0 p
  let s := match (s.savedOn p).getLast? with
    | some (_, x) => ((s.wr Reg.PLT_STAT_STATE 4 p).setChanRec p chSaved x.dmaRec).setChanRec (0x40 + p) chSaved x.fetchRec
    | none => ((s.wr Reg.PLT_STAT_STATE 1 p).chanClear p).chanClear (0x40 + p)
  s.showPlate p

/-- A plate's queues, cores, translation caches and look-aside entries are discarded (R195, R254, R311). -/
def State.clearPlate (s : State) (p : Nat) : State :=
  let x := s.plate p
  let s := s.setPlate p { x with run := none, dma := [], dmaDone := 0, recording := none, fetched := [],
                                 arr := { ArrSt.reset with curves := x.arr.curves } }
  let s := (List.range 64).foldl (fun s c => s.idleCore p c) s
  let s := { s with cores := ⟨s.cores.rows.filter (fun r => decide (r.1 / 128 ≠ p))⟩,
                    tlbs := (s.tlbs.erase p).erase (0x40 + p) }
  s.dropPlateLabs p

/-- A plate's launch ends: the plate becomes idle, and a pending offline request takes effect (R195, R197). -/
def State.freePlate (s : State) (p : Nat) : State := ((s.clearPlate p).showIdle p).offlineDeferred p

/-- A started launch ends: its plates are freed, a saved one's records are dropped (R195, R327, R338). -/
def State.stopLaunch (s : State) (id : Nat) : State :=
  match s.launches.find id with
  | none => s
  | some l =>
    let s := { s with launches := s.launches.erase id }
    l.plates.foldl (fun s p => if (s.plate p).run = some id then s.freePlate p
                               else if s.rd Reg.PLT_STAT_STATE p = 4 then (s.showIdle p).offlineDeferred p else s) s

/-- A channel outside the plates that carries a job's transfer is idle again. -/
def State.freeChans (s : State) (id : Nat) : State :=
  (s.chanJob.rows.filter (fun r => r.2 == id)).foldl (fun s r =>
    (({ s with chanJob := s.chanJob.erase r.1 } : State).chanClear r.1)) s

/-- A registered problem. -/
def State.prob (s : State) (i : Nat) : Option BrnProb := s.brn.probs.find i

/-- BRN_PROB and BRN_STAT of problem `i` follow its state; a problem without a preconditioner has none that will be rebuilt. -/
def State.showProb (s : State) (i : Nat) : State :=
  let s := match s.prob i with
    | none => (((s.wr Reg.BRN_PROB_STATE 0 i).wr Reg.BRN_PROB_ARMED 0 i).wr Reg.BRN_PROB_PENDING 0 i).wr Reg.BRN_PROB_PRE_STALE 0 i
    | some p => (((s.wr Reg.BRN_PROB_STATE p.state i).wr Reg.BRN_PROB_ARMED p.armed.isSome.toNat i).wr
        Reg.BRN_PROB_PENDING p.trigRun.isSome.toNat i).wr Reg.BRN_PROB_PRE_STALE (p.stale && fld p.record 1 1 != 0).toNat i
  let s := s.wr Reg.BRN_STAT_BUSY s.brn.cur.isSome.toNat
  match s.brn.cur with
  | none => ((s.wr Reg.BRN_STAT_PROBLEM 0).wr Reg.BRN_STAT_STEP 0).wr Reg.BRN_STAT_SETUP 0
  | some c =>
    let r := (s.prob c).bind (·.run)
    let setup := match r.bind (·.solve) with | some x => (match x.phase with | .rows _ => 1 | _ => 0) | none => 0
    ((s.wr Reg.BRN_STAT_PROBLEM c).wr Reg.BRN_STAT_STEP (r.elim 0 (·.step))).wr Reg.BRN_STAT_SETUP setup

/-- A burnisher job leaves its problem: a run queued or started is dropped, the burnisher is free if it executed, and BRN_PROB
and BRN_STAT follow (R285, R299). -/
def State.dropRun (s : State) (id : Nat) : State :=
  let mine := fun (p : BrnProb) => match p.run with | some r => r.job == id | none => false
  let cur := match s.brn.cur.bind s.prob with | some p => mine p | none => false
  let hit := (s.brn.probs.rows.filter (fun e => mine e.2 || e.2.trigRun == some id)).map (·.1)
  let probs := s.brn.probs.rows.map (fun e => (e.1,
    { e.2 with queued := e.2.queued.filter (· != id),
               trigRun := (if e.2.trigRun = some id then none else e.2.trigRun),
               run := (if mine e.2 then none else e.2.run) }))
  let s := { s with brn := { s.brn with probs := ⟨probs⟩, cur := if cur then none else s.brn.cur } }
  hit.foldl (fun s i => s.showProb i) (if cur then s.chanClear 0x32 else s)

/-- Free bytes stored at a virtual range: what it holds is undefined (log entry 4). -/
def State.spoil (s : State) (ctx : Nat) (r : Nat × Nat) : State :=
  let l := (List.range r.2).map (fun i => BitVec.ofNat 8 (Config.free (s.free + i)))
  (({ s with free := s.free + r.2 } : State).vwrite 0x31 ctx r.1 l).1

/-- Points in the buffer of epoch `e`, if it is still held: no later epoch has taken the buffer (R138, R139). -/
def State.heldPoints (s : State) (e : Nat) : Option Nat :=
  match s.hat.fused.find? (fun f => f.1 % 4 == e % 4) with
  | some f => if f.1 = e then some f.2 else none
  | none => none

/-- The input points of source `i` of a VOXELISE job (R139). -/
def State.srcPoints (s : State) (p : List Byte) (i : Nat) : Nat :=
  if fld p (64 + 64 * i) 1 = 1 then (s.heldPoints (fld p (72 + 64 * i) 4)).getD 0 else fld p (64 + 64 * i + 4) 4

/-- The output areas of a Stipple job: address and length (Tables STP-4, STP-7, STP-8, STP-10). -/
def State.stpAreas (s : State) (op : Nat) (p : List Byte) : List (Nat × Nat) :=
  match op with
  | 1 => (fld p 32 8, 32 * fld p 4 4) ::
      (if bit (fld p 1 1) 0 then [(fld p 40 8, 4 * ((List.range (fld p 0 1)).map (s.srcPoints p)).sum)] else [])
  | 2 => [(fld p 16 8, 64 + 16 * fld p 4 4)]
  | 3 => [(fld p 32 8, fld p 12 4 * (8 + 8 * fld p 2 1))]
  | 4 =>
    let n := [0, 1, 8, 27].getD (fld p 0 1) 0
    [(fld p 24 8, 8 * fld p 8 4), (fld p 32 8, 8 * n * fld p 8 4), (fld p 40 8, 64 + 8 * fld p 3 1 * n)]
  | _ => []

/-- A running Stipple job that does not end OK leaves its output areas undefined, and a rule book not valid (R133). -/
def State.stpSpoil (s : State) (j : Job) : State :=
  let s := (s.stpAreas (j.arg 32 1) j.param).foldl (fun s r => s.spoil j.context r) s
  if j.arg 32 1 = 4 then (s.vwrite 0x31 j.context (fld j.param 40 8 + 40) (zeros 4)).1 else s

/-- The Stipple engine has no job. -/
def State.stpIdle (s : State) : State :=
  ((({ s with stp := .reset } : State).wr Reg.STP_STAT_BUSY 0).wr Reg.STP_STAT_OP 0).wr Reg.STP_STAT_RETRY 0

/-- The collectives accepted and not completed; RNG_STAT.COLLS counts them. -/
def State.setColls (s : State) (l : List Coll) : State :=
  ({ s with ring := { s.ring with colls := l } } : State).wr Reg.RNG_STAT_COLLS l.length

/-- What runs a job stops: a plate launch is stopped under R195; a Stipple, burnisher, copy or ring job leaves its engine. -/
def State.stopJob (s : State) (j : Job) : State :=
  let s := s.freeChans j.id
  match j.opcode with
  | 0x10 => s.stopLaunch j.id
  | 0x11 => if s.stp.run = some j.id then (s.stpSpoil j).stpIdle else s
  | 0x12 => s.dropRun j.id
  | 0x30 => s.setColls (s.ring.colls.filter (fun c => c.job != j.id))
  | _ => s

/-- A pre-emption of a running launch is requested: its plates show STOPPING until they are saved (R331). -/
def State.requestPreempt (s : State) (id : Nat) : State :=
  match s.launches.find id, s.job id with
  | some l, some j =>
    if j.phase = .running ∧ l.preempt.isNone then
      let s := { s with launches := s.launches.set id { l with preempt := some s.ticks } }
      l.plates.foldl (fun s p => s.wr Reg.PLT_STAT_STATE 3 p) s
    else s
  | _, _ => s

/-- PREEMPT: every launch of the partition is pre-empted and the partition holds no grant until the next major-frame
boundary (R365). -/
def State.withdraw (s : State) (part : Nat) : State :=
  let s := { s with par := { s.par with withdrawn := if s.par.withdrawn.contains part then s.par.withdrawn
                                                      else s.par.withdrawn ++ [part] } }
  (s.jobs.filter (fun j => j.part == part)).foldl (fun s j => s.requestPreempt j.id) s

/-! ### Completion records (Table HST-9, R395, R396) -/

/-- A completion record. -/
def recordBytes (tag status flags ring result outAt detail : Nat) : List Byte :=
  le 8 tag ++ le 1 status ++ le 1 flags ++ le 1 ring ++ le 1 0 ++ le 4 result ++ le 8 outAt ++ le 8 detail

/-- A record is written into the completion ring of submission ring `ring`, with the next index (R396). -/
def State.writeRecord (s : State) (ring : Nat) (r : List Byte) : State :=
  let cq := s.rd Reg.HTP_SQ_CQ ring
  ({ s with ht := { s.ht with cq := s.ht.cq.modify [] cq (· ++ [r]) } } : State).bump Reg.HTP_CQ_IDX_PROD cq

/-- A shadow slot of a submission ring is freed (R395). -/
def State.freeSlot (s : State) (ring : Nat) : State := s.bump Reg.HTP_SQ_IDX_FREED ring

/-- Ticks a job has spent executing (R358). -/
def State.jobTicks (s : State) (j : Job) : Nat :=
  j.runTicks + (if j.phase = .started ∨ j.phase = .running then s.ticks - j.startTick else 0)

/-- A job's execution time is added to the activation it is charged to (R358). -/
def State.chargeJob (s : State) (j : Job) : State :=
  match j.charge with
  | none => s
  | some (t, n) =>
    let x := s.tasks.get .reset t
    let add := fun (a : Activation) => if a.num = n then { a with execTicks := a.execTicks + s.jobTicks j } else a
    { s with tasks := s.tasks.set t { x with acts := x.acts.map add, past := x.past.map add } }

/-- A job leaves the list of accepted jobs. -/
def State.dropJob (s : State) (j : Job) : State :=
  ({ s with jobs := s.jobs.filter (fun k => k.id != j.id) } : State).showCtx j.context

/-- A job completes with its record and without a signal: the record is written, the shadow slot freed, the time charged
(R358, R372, R395). A non-empty taint gives PROVISIONAL, and the job is remembered for a retraction (R433, R437). -/
def State.finishQuiet (s : State) (j : Job) (status result detail : Nat) : State :=
  let prov := !j.taint.isEmpty
  let flags := if prov then j.flags ||| 2 ^ cfProvisional else j.flags
  let s := (s.chargeJob j).dropJob j
  let s := s.writeRecord j.ring (recordBytes j.tag status flags j.ring result (j.outAt.getD s.dt64) detail)
  let s := if j.freed then s else s.freeSlot j.ring
  if prov then { s with ht := { s.ht with provisional := s.ht.provisional ++ [(j.ring, j.tag, j.taint)] } } else s

/-- Record and signal of a job with CONFIRM and a taint are held; its shadow slot is freed (R395, R438). -/
def State.holdConfirm (s : State) (j : Job) (status result detail : Nat) : State :=
  let s := (s.chargeJob j).dropJob j
  let s := if j.freed then s else s.freeSlot j.ring
  { s with ht := { s.ht with confirm := s.ht.confirm ++
      [(j, recordBytes j.tag status j.flags j.ring result (j.outAt.getD s.dt64) detail)] } }

/-- A job that holds a retracted taint and has not completed ends RETRACTED, PROVISIONAL and without a signal; it is not remembered
for another retraction (R433, R437). -/
def State.retractJob (s : State) (j : Job) (m k : Nat) : State :=
  (s.stopJob j).finishQuiet { j with taint := [], flags := j.flags ||| 2 ^ cfProvisional } stRetracted 0 (retractDetail m k)

/-- A job absorbs a taint; it ends when it then holds a retracted one (R433, R437). -/
def State.absorb (s : State) (id : Nat) (t : List Taint) : State :=
  let s := { s with jobs := s.jobs.map (fun (j : Job) => if j.id = id then { j with taint := s.merge j.taint t } else j) }
  match s.job id with
  | none => s
  | some j => match s.retractedIn j.taint with
    | some (m, k) => s.retractJob j m k
    | none => s

end Sys2Proof.Machine
end

