-- ==== Sys2Proof/Machine/Sync.lean ====
section
/-! DEFINITION. Tasks, chains and reactions, sync objects and signals, job completion (R355 to R376, R395 to R401). -/

namespace Sys2Proof.Machine

/-! ### Reactions (R362 to R366) -/

/-- KILL ends a job unless it is a Stipple job already running (R364). -/
def killable (t : Nat) (j : Job) : Bool := j.task == t && !(j.opcode == 0x11 && j.phase == .running)

/-- KILL for task `t`: every job of it accepted and not completed ends ABORTED with detail [39:32] 0x3E (R364). -/
def State.killTask (s : State) (t : Nat) : State :=
  if t = 0 then s
  else (s.jobs.filter (killable t)).foldl (fun s j => (s.stopJob j).finishQuiet j 0xC 0 (0x3E * 2 ^ 32)) s

/-- The action of a reaction entry (Table PAR-7). -/
def State.reaction (s : State) (e o n : Nat) : Nat := s.num (winAddr (0xE7000 + 8 * e) + o) n

/-- The major-frame number (PAR_FRAME). -/
def State.frameNum (s : State) : Nat :=
  let len := s.num (winAddr (0xE1000 + s.rd Reg.PAR_STAT_BANK * 0x1000)) 2 * 1000
  toU 32 (((s.dt64 : Int) - s.rd Reg.RUL_EPOCH_OFS_OFS_NS) / (len : Int))

/-- The state after a violation is counted through entry `e`, and the action it invokes: the entry's when its count within
the current window reaches the threshold, REPORT otherwise (R363, Table PAR-7). -/
def State.countReaction (s : State) (e : Nat) : State × Nat :=
  let w := s.frameNum / max 1 (s.reaction e 2 2)
  let r := s.reacts.get ⟨0, 0⟩ e
  let n := if r.window = w then r.count + 1 else 1
  ({ s with reacts := s.reacts.set e ⟨w, n⟩ }, if s.reaction e 1 1 ≤ n then s.reaction e 0 1 else 0)

/-- A violation: its event (R362), and the action of its reaction entry on the tasks and partitions named (R363 to R366); a safe-state request names the entry.
`src` is the source kind and number, `kind` the violation kind of Table HST-17. -/
def State.violate (s : State) (srcKind src unit kind e activation measuredUs : Nat) (tasks parts : List Nat) : State :=
  let (s, action) := s.countReaction e
  let s := s.raise 0x0601 unit (le 1 srcKind ++ le 1 src ++ le 1 kind ++ le 1 e ++ le 1 action ++ le 3 0 ++ le 4 activation ++
    le 4 measuredUs)
  match action with
  | 1 => tasks.foldl (fun s t => s.killTask t) s
  | 2 => parts.foldl (fun s p => s.withdraw p) s
  | 3 => ({ s with sup := { s.sup with entry := some e } } : State).requestOnce srcReaction
  | _ => s

/-- The `n`-byte field at offset `o` of task `t`'s record (Table PAR-5). -/
def State.taskRec (s : State) (t o n : Nat) : Nat := s.num (winAddr (0xE4000 + 32 * t) + o) n

/-- A task record is VALID. -/
def State.taskValid (s : State) (t : Nat) : Bool := t != 0 && bit (s.taskRec t 0 1) 0

/-- The `n`-byte field at offset `o` of chain `c`'s record (Table PAR-6). -/
def State.chainRec (s : State) (c o n : Nat) : Nat := s.num (winAddr (0xE6000 + 16 * c) + o) n

def State.chainValid (s : State) (c : Nat) : Bool := bit (s.chainRec c 0 1) 0

def State.taskSt (s : State) (t : Nat) : TaskSt := s.tasks.get .reset t
def State.setTask (s : State) (t : Nat) (x : TaskSt) : State :=
  (({ s with tasks := s.tasks.set t x } : State).wr Reg.PAR_TASK_STAT_OUTSTANDING x.acts.length t).wr
    Reg.PAR_TASK_STAT_ACTIVATIONS x.count t
def State.chainSt (s : State) (c : Nat) : ChainSt := s.chains.get .reset c
def State.setChain (s : State) (c : Nat) (x : ChainSt) : State := { s with chains := s.chains.set c x }

/-- Whole microseconds of DT64 from `a` to `b` (R360). -/
def usBetween (a b : Nat) : Nat := (b - a) / 1000

/-- A violation of task `t`: kinds 1 early, 2 late, 3 budget, 4 deadline (R356, R358, R359). -/
def State.taskViolation (s : State) (t kind activation measuredUs : Nat) : State :=
  let s := s.bump (match kind with
    | 1 => Reg.PAR_CNT_EARLY
    | 2 => Reg.PAR_CNT_LATE
    | 3 => Reg.PAR_CNT_BUDGET
    | _ => Reg.PAR_CNT_DEADLINE)
  let s := (s.wr Reg.PAR_TASK_STAT_LAST_KIND kind t).bump Reg.PAR_TASK_STAT_VIOLATIONS t
  s.violate 0 t 0 kind (s.taskRec t (23 + kind) 1) activation measuredUs [t] [s.taskRec t 1 1]

/-- A failure of chain `c`: kinds 1 early, 2 late (R361). -/
def State.chainViolation (s : State) (c kind activation measuredUs : Nat) : State :=
  let s := s.bump Reg.PAR_CNT_CHAIN
  let a := s.chainRec c 1 1
  let b := s.chainRec c 2 1
  s.violate 1 c 0 kind (s.chainRec c (11 + kind) 1) activation measuredUs [a, b]
    (if s.taskRec a 1 1 = s.taskRec b 1 1 then [s.taskRec a 1 1] else [s.taskRec a 1 1, s.taskRec b 1 1])

/-! ### Sync objects (R367 to R370) -/

def State.obj (s : State) (o : Nat) : SyncObj := s.sync.get .reset o
def State.setObj (s : State) (o : Nat) (x : SyncObj) : State := { s with sync := s.sync.set o x }

/-- The owner of an object's group: a partition, or 0xF = shared (R369). -/
def State.owner (s : State) (o : Nat) : Nat := bits (s.rd Reg.SYN_GROUP_OWNER (o / 256 / 8)) (o / 256 % 8 * 4) 4

/-- A partition may use an object (R368, R369). -/
def State.mayUse (s : State) (part o : Nat) : Bool := o == 0xFFFF || s.owner o == 0xF || s.owner o == part

/-- A wait on object `o` for value `v` is satisfied (R368, R370). -/
def State.reached (s : State) (o v : Nat) : Bool := o == 0xFFFF || v == 0 || decide (v ≤ (s.obj o).value)

/-- A descriptor's wait is satisfied (R370). -/
def State.waitMet (s : State) (j : Job) : Bool := s.reached j.waitObj j.waitValue

/-- A descriptor's wait is held: it is accepted, not started, and not satisfied (R375). -/
def State.heldWait (s : State) (j : Job) : Bool := j.phase == .waiting && !s.waitMet j

/-- Descriptor waits held device-wide (SYN_INFO.HELD). -/
def State.heldWaits (s : State) : Nat := (s.jobs.filter s.heldWait).length

/-- Waits held on an object, of descriptors and of needle cores (SYN_INFO.WAITERS). -/
def State.waiters (s : State) (o : Nat) : Nat :=
  (s.jobs.filter (fun j => j.waitObj == o && s.heldWait j)).length + s.coreWaiters o

/-- The tasks that hold `p`. -/
def State.tasksWith (s : State) (p : Nat → Bool) : List Nat := (List.range 256).filter (fun t => s.taskValid t && p t)
def State.chainsWith (s : State) (p : Nat → Bool) : List Nat := (List.range 32).filter (fun c => s.chainValid c && p c)

/-- Completion of activation `num` of task `t`: chains that end in it stop, early or in time (R361). -/
def State.stopChains (s : State) (t num : Nat) : State :=
  (s.chainsWith (fun c => s.chainRec c 2 1 == t)).foldl (fun s c =>
    let x := s.chainSt c
    match x.armed.find? (fun a => a.num + x.lastBase == num) with
    | none => s
    | some a =>
      let s := s.setChain c { x with armed := x.armed.filter (fun b => b.num != a.num) }
      let d := usBetween a.armNs s.dt64
      if s.chainRec c 4 4 ≠ 0 ∧ d < s.chainRec c 4 4 then s.chainViolation c 1 a.num d else s) s

/-- A job not completed is charged to activation `num` of task `t` (R358). -/
def State.charged (s : State) (t num : Nat) : Bool := s.jobs.any (fun j => j.charge == some (t, num))

/-- Activations of task `t` that done_obj's value covers complete, oldest first (R357); `n` bounds their number. One whose
execution time is not settled yet is kept for it (R358). -/
def State.completeActs (t : Nat) : Nat → State → State
  | 0, s => s
  | n + 1, s =>
    let x := s.taskSt t
    match x.acts with
    | [] => s
    | a :: r =>
      if x.base + a.num * s.taskRec t 6 2 ≤ (s.obj (s.taskRec t 4 2)).value then
        let kept := x.past.filter (fun y => s.charged t y.num || (!y.budgetHit && decide (s.taskRec t 16 4 ≠ 0 ∧ s.taskRec t 16 4 < y.execTicks / 250)))
        let here := if s.charged t a.num || decide (0 < a.execTicks) then [a] else []
        State.completeActs t n ((s.setTask t { x with acts := r, past := kept ++ here, done := a.num }).stopChains t a.num)
      else s

/-- An arrival of task `t` (R356), which arms the chains that begin with it (R361). -/
def State.arrive (s : State) (t : Nat) : State :=
  let x := s.taskSt t
  let now := s.dt64
  let d := match x.lastArrive with | some a => usBetween a now | none => 0
  let early := x.lastArrive.isSome && decide (s.taskRec t 8 4 ≠ 0 ∧ d < s.taskRec t 8 4)
  let full := decide (4 ≤ x.acts.length)
  let num := if full then x.count else x.count + 1
  let x := { x with lastArrive := some now, lateFrom := some now }
  let x := if full then x else { x with count := num, acts := x.acts ++ [⟨num, now, 0, false, false⟩] }
  let s := s.setTask t x
  let s := if full then s else
    (s.chainsWith (fun c => s.chainRec c 1 1 == t)).foldl (fun s c =>
      let y := s.chainSt c
      s.setChain c { y with armed := y.armed ++ [⟨num - y.firstBase, now, false⟩] }) s
  let s := if early || full then s.taskViolation t 1 num d else s
  s.completeActs t 4

/-- A signal of object `o` by `add`, with the signaller's taint (R367, R368, R433): the value saturates, arrivals and
completions of tasks follow (R356, R357). -/
def State.signal (s : State) (o add : Nat) (taint : List Taint) : State :=
  if o = 0xFFFF then s
  else
    let x := s.obj o
    let v := x.value + add
    let wraps := decide (2 ^ 64 ≤ v)
    let s := s.setObj o { value := min v (2 ^ 64 - 1), sat := x.sat || wraps, taint := s.merge x.taint taint }
    let s := if wraps then s.bump Reg.SYN_CNT_SATURATIONS else s
    let raised := decide (x.value < min v (2 ^ 64 - 1))
    let s := if raised then (s.tasksWith (fun t => s.taskRec t 2 2 == o)).foldl (fun s t => s.arrive t) s else s
    (s.tasksWith (fun t => s.taskRec t 4 2 == o)).foldl (fun s t => s.completeActs t 4) s

/-- A job starts executing: it is charged to the oldest outstanding activation of its task, or counted as not charged (R358). -/
def State.beginJob (s : State) (j : Job) (ph : Phase) : State :=
  let charge := if j.task = 0 then none else (s.taskSt j.task).acts.head?.map (fun a => (j.task, a.num))
  let s := s.setJob { j with phase := ph, startTick := s.ticks, charge := charge }
  if j.task ≠ 0 ∧ charge.isNone then s.bump Reg.PAR_TASK_STAT_UNCHARGED j.task else s

/-- The job's last output so far has been written now (Table HST-9). -/
def State.wroteOut (s : State) (id : Nat) : State :=
  { s with jobs := s.jobs.map (fun k => if k.id = id then { k with outAt := some s.dt64 } else k) }

/-! ### Completion (R372, R395, R396, R438) -/

/-- A job completes: its record is written, its shadow slot freed, its execution time charged; with status OK or DEADLINE
its signal is applied (R372). With CONFIRM and a taint, record and signal are held (R438). -/
def State.finish (s : State) (j : Job) (status result detail : Nat) : State :=
  if j.confirm && !j.taint.isEmpty && (status == 0 || status == 6) then s.holdConfirm j status result detail
  else
    let s := s.finishQuiet j status result detail
    if status = 0 ∨ status = 6 then s.signal j.sigObj j.sigAdd j.taint else s

/-- The job with number `id`, as it stands now, completes. -/
def State.finishNow (s : State) (id status result detail : Nat) : State :=
  match s.job id with
  | some j => s.finish j status result detail
  | none => s

/-- A job completes OK with result and detail zero. -/
def State.finishOk (s : State) (j : Job) : State := s.finish j 0 0 0

end Sys2Proof.Machine
end

