-- ==== Sys2Proof/Machine/Flags.lean ====
section
/-! DEFINITION. Completion statuses, the details of refused descriptors, and the kinds of object state (Tables HST-10,
HST-13, R398 to R401). -/

namespace Sys2Proof.Machine

/-- Why a descriptor is refused: status and detail. -/
structure Refuse where
  status : Nat
  detail : Nat
  deriving DecidableEq, Repr

/-- BAD_FIELD at a byte offset of the descriptor (R401). -/
def badField (ofs : Nat) : Option Refuse := some ⟨stBadField, ofs⟩
/-- BAD_FIELD at a byte offset of the parameter block (R401). -/
def badParam (ofs : Nat) : Option Refuse := some ⟨stBadField, 0x8000 + ofs⟩
/-- BAD_LENGTH at a byte offset of the descriptor (R401). -/
def badLength (ofs : Nat) : Option Refuse := some ⟨stBadLength, ofs⟩
/-- WRONG_STATE with a kind of Table HST-13 and a state code (R401). -/
def wrongState (kind code : Nat) : Option Refuse := some ⟨stWrongState, kind * 256 + code⟩
def noResource : Option Refuse := some ⟨stNoResource, 0⟩
def unitOffline : Option Refuse := some ⟨stUnitOffline, 0⟩

/-- The first refusal of a list of checks, in order (R398). -/
def firstOf : List (Option Refuse) → Option Refuse
  | [] => none
  | some r :: _ => some r
  | none :: l => firstOf l

/-- A refusal when the condition holds. -/
def refuseIf (c : Bool) (r : Option Refuse) : Option Refuse := if c then r else none

/-- A job that has started (its wait met), with the opcode and operation byte named: the guard of an operation's command. -/
def State.startedOp (s : State) (id opcode op : Nat) : Option Job :=
  match s.job id with
  | some j => if j.phase = .started ∧ j.opcode = opcode ∧ j.arg 32 1 = op then some j else none
  | none => none

/-- A started job with the opcode named. -/
def State.startedJob (s : State) (id opcode : Nat) : Option Job :=
  match s.job id with
  | some j => if j.phase = .started ∧ j.opcode = opcode then some j else none
  | none => none

/-- A refused job completes with the refusal's status and detail; it signals nothing (R399). -/
def State.refuse (s : State) (j : Job) (r : Refuse) : State := s.finishQuiet j r.status 0 r.detail

/-- A job is refused for the reason given, or runs. -/
def State.runOr (s : State) (j : Job) (c : Option Refuse) (run : State → State) : State :=
  match c with
  | some r => s.refuse j r
  | none => run s

end Sys2Proof.Machine
end

