-- ==== Sys2Proof/Machine/Partition.lean ====
section
/-! DEFINITION. The partition schedule, tasks and chains (R340 to R361). -/

namespace Sys2Proof.Machine

/-! ### Schedule banks (Tables PAR-1, PAR-2) -/

/-- The address of a schedule bank. -/
def schedAddr (b : Nat) : Nat := winAddr (0xE1000 + b * 0x1000)

/-- The contents of a schedule bank. -/
def State.sched (s : State) (b : Nat) : List Byte := s.bytes (schedAddr b) 2080

def State.activeSched (s : State) : List Byte := s.sched (s.rd Reg.PAR_STAT_BANK)

def schedFrameUs (l : List Byte) : Nat := fld l 0 2
def schedWindows (l : List Byte) : Nat := fld l 2 1
def winStartUs (l : List Byte) (w : Nat) : Nat := fld l (32 + 32 * w) 2
def winFlags (l : List Byte) (w : Nat) : Nat := fld l (34 + 32 * w) 1
def winGrant (l : List Byte) (w : Nat) : Nat := fld l (36 + 32 * w) 2
/-- The partition to which window `w` assigns logical plate `n`; 0xF = none. -/
def winPlate (l : List Byte) (w n : Nat) : Nat := bits (fld l (40 + 32 * w + n / 2) 1) (n % 2 * 4) 4
/-- The end of window `w` in microseconds of the frame. -/
def winEndUs (l : List Byte) (w : Nat) : Nat := if w + 1 < schedWindows l then winStartUs l (w + 1) else schedFrameUs l

/-- The `n`-byte field at offset `o` of partition `p`'s entry (Table PAR-3). -/
def State.partRec (s : State) (p o n : Nat) : Nat := s.num (winAddr (0xE3000 + 32 * p) + o) n
def State.partDefined (s : State) (p : Nat) : Bool := decide (p < 15) && bit (s.partRec p 0 1) 0
def State.partSafety (s : State) (p : Nat) : Bool := s.partDefined p && bit (s.partRec p 0 1) 1
def State.partBackfill (s : State) (p : Nat) : Bool := s.partDefined p && bit (s.partRec p 0 1) 2

/-- A window's numbers. -/
def schedIdx (l : List Byte) : List Nat := List.range (schedWindows l)

/-- The first index of a list that satisfies `p`. -/
def firstIdx (l : List Nat) (p : Nat → Bool) : Option Nat := l.find? p

/-- The partitions that window `w` names. -/
def winParts (l : List Byte) (w : Nat) : List Nat :=
  ((List.range 32).map (winPlate l w)).filter (· != 0xF) ++ (List.range 15).filter (bit (winGrant l w))

/-- What R341 finds first wrong in a bank: the failing window, or 0xFF for the header, and the offset of the field in the bank. -/
def State.schedError (s : State) (l : List Byte) : Option (Nat × Nat) :=
  let epochUs := s.rd Reg.RUL_EPOCH_LEN_MS * 1000
  let ws := schedIdx l
  let on := s.platesOn.length
  let first := fun (o : Nat) (bad : Nat → Bool) => (firstIdx ws bad).map (fun w => (w, 32 + 32 * w + o))
  if schedFrameUs l < 100 ∨ 50000 < schedFrameUs l ∨ epochUs % schedFrameUs l ≠ 0 then some (0xFF, 0)
  else if schedWindows l = 0 ∨ 64 < schedWindows l then some (0xFF, 2)
  else if winStartUs l 0 ≠ 0 then some (0, 32)
  else
    ([ first 0 (fun w => decide (0 < w ∧ winStartUs l w ≤ winStartUs l (w - 1))),
       first 0 (fun w => decide (winEndUs l w < winStartUs l w + 20)),
       first 8 (fun w => (List.range 32).any (fun n => decide (on ≤ n) && winPlate l w n != 0xF)),
       (firstIdx ws (fun w => (winParts l w).any (fun p => !s.partDefined p))).map (fun w =>
         (w, 32 + 32 * w + if (List.range 15).any (fun p => bit (winGrant l w) p && !s.partDefined p) then 4 else 8)),
       if zeroAt l 3 29 then none else some (0xFF, 3),
       (firstIdx ws (fun w => winFlags l w / 2 != 0 || !zeroAt l (35 + 32 * w) 1 || bit (winGrant l w) 15 ||
         !zeroAt l (38 + 32 * w) 2 || !zeroAt l (56 + 32 * w) 8)).map (fun w =>
         (w, 32 + 32 * w + if winFlags l w / 2 != 0 then 2 else if !zeroAt l (35 + 32 * w) 1 then 3
           else if bit (winGrant l w) 15 then 4 else if !zeroAt l (38 + 32 * w) 2 then 6 else 24)) ] :
      List (Option (Nat × Nat))).findSome? id

/-- The check of a partition entry (R344, Table PAR-3): the offset of the failing field. -/
def partError (l : List Byte) : Option Nat :=
  if fld l 0 1 / 8 ≠ 0 then some 0
  else if fld l 4 4 % 4096 ≠ 0 then some 4
  else if fld l 8 4 % 4096 ≠ 0 then some 8
  else if 2621440 < fld l 4 4 + fld l 8 4 + 40960 then some 4
  else if fld l 12 2 % 256 ≠ 0 then some 12
  else if fld l 14 2 % 256 ≠ 0 then some 14
  else if 24576 < fld l 12 2 + fld l 14 2 + 2560 then some 12
  else if !zeroAt l 16 16 then some 16
  else none

/-- The check of a reaction entry (R363, Table PAR-7). -/
def reactionOk (l : List Byte) : Bool :=
  decide (fld l 0 1 ≤ 3) && fld l 1 1 != 0 && fld l 2 2 != 0 && zeroAt l 4 4

/-! ### Grants (R346 to R351) -/

/-- The current window. -/
def State.window (s : State) : Nat := s.rd Reg.PAR_STAT_WINDOW

/-- The partition that holds a physical plate in the current window; none while it is withdrawn (R365). -/
def State.plateOwner (s : State) (p : Nat) : Nat :=
  let q := winPlate s.activeSched s.window (s.logical p)
  if s.par.withdrawn.contains q then 0xF else q

/-- The physical plates of a launch descriptor's set. -/
def State.launchPlates (s : State) (j : Job) : List Nat := s.physical (j.arg 52 4)

/-- An accepted launch of partition `q` whose wait has been met needs plate `p` (R347, R348); a wait once met stays met. -/
def State.wantsPlate (s : State) (q p : Nat) : Bool :=
  s.jobs.any (fun j => j.opcode == 0x10 && j.part == q && (j.phase != .waiting || s.waitMet j) && (s.launchPlates j).contains p)

/-- The window assigns every plate of the set to the partition (R346). -/
def State.assignedAll (s : State) (q : Nat) (plates : List Nat) : Bool :=
  !s.par.withdrawn.contains q && plates.all (fun p => winPlate s.activeSched s.window (s.logical p) == q)

/-- Backfill is allowed on every plate of the set (R347). -/
def State.backfillAll (s : State) (q : Nat) (plates : List Nat) : Bool :=
  s.partBackfill q && !s.par.withdrawn.contains q &&
  plates.all (fun p =>
    let o := winPlate s.activeSched s.window (s.logical p)
    o == q || o == 0xF || !s.wantsPlate o p)

/-- A launch may start or resume in the current window (R346). -/
def State.mayRun (s : State) (j : Job) : Bool :=
  s.assignedAll j.part (s.launchPlates j) || s.backfillAll j.part (s.launchPlates j)

/-- Some window of a bank allows the launch's whole set to its partition, alone or under R347 (R350). -/
def State.someWindow (s : State) (l : List Byte) (part map : Nat) : Bool :=
  (schedIdx l).any (fun w => s.partBackfill part ||
    ((List.range 32).filter (bit map)).all (fun n => winPlate l w n == part))

/-- The current window grants the burnisher to the partition (R351). -/
def State.brnGranted (s : State) (part : Nat) : Bool :=
  bit (winGrant s.activeSched s.window) part && !s.par.withdrawn.contains part

/-- A window begins: every running launch that it does not allow is pre-empted on all its plates (R349). -/
def State.beginWindow (s : State) (w : Nat) : State :=
  let s := s.wr Reg.PAR_STAT_WINDOW w
  (s.jobs.filter (fun j => j.opcode == 0x10 && j.phase == .running)).foldl (fun s j =>
    if s.mayRun j then s else (s.requestPreempt j.id).bump Reg.PAR_CNT_WINDOW_PREEMPTS) s

/-- Launches not started that no window of the active bank allows any longer complete NO_RESOURCE (R350). -/
def State.dropUnscheduled (s : State) : State :=
  (s.jobs.filter (fun j => j.opcode == 0x10 && (j.phase == .waiting || j.phase == .started))).foldl (fun s j =>
    if s.someWindow s.activeSched j.part (j.arg 52 4) then s else s.finishQuiet j stNoResource 0 0) s

/-- The latest major-frame boundary at or before DT64 under a frame length in ns (R340). -/
def State.frameFloor (s : State) (lenNs : Nat) : Nat :=
  let ofs : Int := s.rd Reg.RUL_EPOCH_OFS_OFS_NS
  ((((s.dt64 : Int) - ofs) / lenNs) * lenNs + ofs).toNat

/-- A pending schedule swap at a boundary instant `b` of the active bank: the new bank is checked, and takes effect when `b`
is a boundary under its frame length too (R341, R342). -/
def State.swapSchedule (s : State) (b : Nat) : State :=
  if !s.flag Reg.PAR_STAT_SWAP_PENDING then s
  else
    let new := 1 - s.rd Reg.PAR_STAT_BANK
    let l := s.sched new
    match s.schedError l with
    | some e => ((s.wr Reg.PAR_STAT_SWAP_PENDING 0).wr Reg.PAR_STAT_SWAP_ERR 1).wr Reg.PAR_STAT_ERR_INDEX e.1
    | none =>
      if s.frameFloor (schedFrameUs l * 1000) = b then
        ((s.wr Reg.PAR_STAT_SWAP_PENDING 0).wr Reg.PAR_STAT_BANK new).dropUnscheduled
      else s

/-- A major-frame boundary (R340): withdrawals end (R365), a pending bank may take effect, window 0 begins. After a step that
lands on a boundary of the new time line, that boundary is the first one (R343). -/
def execMajorFrameBoundary (s : State) : Res :=
  let b := s.frameFloor (schedFrameUs s.activeSched * 1000)
  if b = s.par.frameStart ∧ !(s.par.hold && b == s.dt64) then .next s
  else
    let s := { s with par := { frameStart := b, hold := false, withdrawn := [] } }
    .next ((s.swapSchedule b).beginWindow 0)

/-- The next window of the frame begins once its start has come, except while a window continues after a step (R343, R349). -/
def execWindowStart (s : State) : Res :=
  let w := s.window + 1
  if w < schedWindows s.activeSched ∧ !s.par.hold ∧ s.par.frameStart + winStartUs s.activeSched w * 1000 ≤ s.dt64 then
    .next (s.beginWindow w)
  else .next s

/-- PAR_CTRL.SWAP: a swap of the schedule banks is requested; refused while one is pending (R342, R591). -/
def execParSwap (s : State) : Res :=
  if s.flag Reg.PAR_STAT_SWAP_PENDING ∨ s.flag Reg.HTP_CTRL_SETUP_DONE then .next s
  else .next (s.wr Reg.PAR_STAT_SWAP_PENDING 1)

/-- A step of device time, or a change of the offset: the window in progress continues until the first boundary of the new
time line (R343). -/
def State.holdWindow (s : State) : State :=
  { s with par := { s.par with hold := true, frameStart := s.frameFloor (schedFrameUs s.activeSched * 1000) } }

/-! ### Partition descriptors (Table PAR-4, R354) -/

/-- SCHED_LOAD: the block enters the inactive bank, a swap is pending, and the descriptor completes OK (R354). -/
def execSchedLoad (job : Nat) (s : State) : Res :=
  match s.startedOp job 3 1 with
  | none => .next s
  | some j => .next (s.runOr j (firstOf [
      refuseIf (j.param.isEmpty) none,
      refuseIf (s.flag Reg.PAR_STAT_SWAP_PENDING) (wrongState 5 1)]) (fun s =>
        if j.param.isEmpty then s.finishOk j
        else ((s.store (schedAddr (1 - s.rd Reg.PAR_STAT_BANK)) j.param).wr Reg.PAR_STAT_SWAP_PENDING 1).finishOk j))

/-- A partition is named in the active bank. -/
def State.partNamed (s : State) (p : Nat) : Bool :=
  (schedIdx s.activeSched).any (fun w => (winParts s.activeSched w).contains p)

/-- A partition has a job accepted and not completed other than `id`, or a saved launch (R354, R591). -/
def State.partBusy (s : State) (p id : Nat) : Bool := s.jobs.any (fun j => j.part == p && j.id != id)

/-- PART_SET writes a partition entry (R354). -/
def execPartSet (job : Nat) (s : State) : Res :=
  match s.startedOp job 3 2 with
  | none => .next s
  | some j =>
    let p := j.arg 33 1
    .next (s.runOr j (firstOf [
      refuseIf (!j.param.isEmpty && s.partBusy p j.id) (wrongState 6 (s.partDefined p).toNat),
      refuseIf (!j.param.isEmpty && !bit (fld j.param 0 1) 0 && s.partNamed p) (wrongState 6 1)]) (fun s =>
        (if j.param.isEmpty then s else s.store (winAddr (0xE3000 + 32 * p)) j.param).finishOk j))

/-- TASK_SET makes a task VALID; its base is the present value of done_obj (R354, R357). -/
def execTaskSet (job : Nat) (s : State) : Res :=
  match s.startedOp job 3 3 with
  | none => .next s
  | some j =>
    let t := j.arg 33 1
    .next (s.runOr j (refuseIf (!j.param.isEmpty && s.taskValid t) (wrongState 6 1)) (fun s =>
      if j.param.isEmpty then s.finishOk j
      else
        let s := s.store (winAddr (0xE4000 + 32 * t)) j.param
        (s.setTask t { TaskSt.reset with base := (s.obj (fld j.param 4 2)).value }).finishOk j))

/-- TASK_CLEAR makes a task not VALID; refused while a VALID chain names it (R354). -/
def execTaskClear (job : Nat) (s : State) : Res :=
  match s.startedOp job 3 4 with
  | none => .next s
  | some j =>
    let t := j.arg 33 1
    let named := !(s.chainsWith (fun c => s.chainRec c 1 1 == t || s.chainRec c 2 1 == t)).isEmpty
    .next (s.runOr j (refuseIf named (wrongState 6 (s.taskValid t).toNat)) (fun s =>
      ((s.store (winAddr (0xE4000 + 32 * t)) (zeros 32)).setTask t .reset).finishOk j))

/-- CHAIN_SET makes a chain VALID; both its tasks are VALID, and activations count from here (R354, R361). -/
def execChainSet (job : Nat) (s : State) : Res :=
  match s.startedOp job 3 5 with
  | none => .next s
  | some j =>
    let c := j.arg 33 1
    let go := !j.param.isEmpty
    .next (s.runOr j (firstOf [
      refuseIf (go && !s.taskValid (fld j.param 1 1)) (badParam 1),
      refuseIf (go && !s.taskValid (fld j.param 2 1)) (badParam 2),
      refuseIf (go && s.chainValid c) (wrongState 6 1)]) (fun s =>
        if j.param.isEmpty then s.finishOk j
        else
          let s := s.store (winAddr (0xE6000 + 16 * c)) j.param
          (s.setChain c ⟨(s.taskSt (fld j.param 1 1)).count, (s.taskSt (fld j.param 2 1)).count, []⟩).finishOk j))

/-- CHAIN_CLEAR makes a chain not VALID (R354). -/
def execChainClear (job : Nat) (s : State) : Res :=
  match s.startedOp job 3 6 with
  | none => .next s
  | some j =>
    let c := j.arg 33 1
    .next (((s.store (winAddr (0xE6000 + 16 * c)) (zeros 16)).setChain c .reset).finishOk j)

/-! ### Supervision (R356 to R361) -/

/-- max_ia_us has passed with no arrival: a late-arrival violation, and the interval is measured again (R356). -/
def execLateArrival (task : Fin 256) (s : State) : Res :=
  let t := task.val
  let x := s.taskSt t
  match x.lateFrom with
  | some a =>
    if s.taskValid t ∧ s.taskRec t 12 4 ≠ 0 ∧ s.taskRec t 12 4 ≤ usBetween a s.dt64 then
      .next ((s.setTask t { x with lateFrom := some s.dt64 }).taskViolation t 2 x.count (usBetween a s.dt64))
    else .next s
  | none => .next s

/-- The execution time of an activation so far, in ticks: jobs completed and jobs running (R358). -/
def State.actTicks (s : State) (t : Nat) (a : Activation) : Nat :=
  a.execTicks + ((s.jobs.filter (fun j => j.charge == some (t, a.num))).map s.jobTicks).sum

/-- The execution time of an activation, in whole microseconds, exceeds budget_us: once per activation, whether it is outstanding
or complete with a job still charged to it (R358, R360). -/
def execBudgetViolation (task : Fin 256) (s : State) : Res :=
  let t := task.val
  let x := s.taskSt t
  let b := s.taskRec t 16 4
  match (x.acts ++ x.past).find? (fun a => !a.budgetHit && decide (b < s.actTicks t a / 250)) with
  | some a =>
    if s.taskValid t ∧ b ≠ 0 then
      let mark := fun (y : Activation) => if y.num = a.num then { y with budgetHit := true } else y
      .next ((s.setTask t { x with acts := x.acts.map mark, past := x.past.map mark }).taskViolation t 3 a.num (s.actTicks t a / 250))
    else .next s
  | none => .next s

/-- DT64 reaches an activation's arrival time + deadline_us before it is complete: once per activation (R359). -/
def execDeadlineViolation (task : Fin 256) (s : State) : Res :=
  let t := task.val
  let x := s.taskSt t
  let d := s.taskRec t 20 4
  match x.acts.find? (fun a => !a.deadHit && decide (a.arriveNs + d * 1000 ≤ s.dt64)) with
  | some a =>
    if s.taskValid t ∧ d ≠ 0 then
      .next ((s.setTask t { x with acts := x.acts.map (fun y => if y.num = a.num then { y with deadHit := true } else y) }).taskViolation
        t 4 a.num (usBetween a.arriveNs s.dt64))
    else .next s
  | none => .next s

/-- A chain activation is still armed late_us after arming: once per activation (R361). -/
def execChainLate (chain : Fin 32) (s : State) : Res :=
  let c := chain.val
  let x := s.chainSt c
  match x.armed.find? (fun a => !a.lateHit && decide (s.chainRec c 8 4 ≤ usBetween a.armNs s.dt64)) with
  | some a =>
    if s.chainValid c then
      .next ((s.setChain c { x with armed := x.armed.map (fun y => if y.num = a.num then { y with lateHit := true } else y) }).chainViolation
        c 2 a.num (usBetween a.armNs s.dt64))
    else .next s
  | none => .next s

end Sys2Proof.Machine
end

