-- ==== Sys2Proof/Machine/SyncOps.lean ====
section
/-! DEFINITION. The sync descriptor, and what the acceptance of sync and partition descriptors checks (R354, R376, Tables
PAR-4, PAR-9). -/

namespace Sys2Proof.Machine

/-! ### Acceptance -/

/-- The checks of a sync descriptor at acceptance (R376, R400, Table PAR-9). -/
def State.syncAccept (j : Job) : Except Refuse (List Byte) :=
  let op := j.arg 32 1
  match firstOf [
    refuseIf (op == 0 || decide (3 < op)) (badField 32),
    refuseIf (if op = 3 then decide (15 < j.arg 33 1) else j.arg 33 1 != 0) (badField 33),
    refuseIf (if op = 3 then decide (255 < j.arg 34 2) else op == 1 && j.arg 34 2 == 0xFFFF) (badField 34),
    refuseIf (!zeroAt j.desc 36 4) (badField 36),
    refuseIf (op != 1 && !zeroAt j.desc 40 8) (badField 40),
    refuseIf (!zeroAt j.desc 48 16) (badField 48)] with
  | some e => .error e
  | none => .ok []

/-- A task record breaks Table PAR-5, or names a reaction entry that is Hatch's: the offset of the field. -/
def taskError (l : List Byte) : Option Nat :=
  let entryBad := fun (o : Nat) => decide (fld l o 1 < 12 ∨ 63 < fld l o 1)
  ([ (0, decide (fld l 0 1 ≠ 1)), (1, decide (14 < fld l 1 1)), (2, decide (fld l 2 2 = 0xFFFF)),
     (4, decide (fld l 4 2 = 0xFFFF ∨ fld l 4 2 = fld l 2 2)), (6, decide (fld l 6 2 = 0)),
     (24, entryBad 24), (25, fld l 12 4 != 0 && entryBad 25), (26, fld l 16 4 != 0 && entryBad 26),
     (27, fld l 20 4 != 0 && entryBad 27), (28, !zeroAt l 28 4) ] : List (Nat × Bool)).find? (fun e => e.2) |>.map (·.1)

/-- A chain record breaks Table PAR-6; that its tasks are VALID is checked when it takes effect. -/
def chainError (l : List Byte) : Option Nat :=
  let entryBad := fun (o : Nat) => decide (fld l o 1 < 12 ∨ 63 < fld l o 1)
  ([ (0, decide (fld l 0 1 ≠ 1)), (3, !zeroAt l 3 1), (8, decide (fld l 8 4 = 0)),
     (12, fld l 4 4 != 0 && entryBad 12), (13, entryBad 13), (14, !zeroAt l 14 2) ] : List (Nat × Bool)).find? (fun e => e.2)
    |>.map (·.1)

/-- The parameter length that Table PAR-4 gives an operation. -/
def partParamLen (op : Nat) : Nat := if op = 1 then 2080 else if op = 2 ∨ op = 3 then 32 else if op = 5 then 16 else 0

/-- The checks of a partition descriptor at acceptance; its block is kept (R354, R400). -/
def State.partAccept (s : State) (j : Job) : Except Refuse (List Byte) :=
  let op := j.arg 32 1
  let i := j.arg 33 1
  let len := j.arg 36 4
  match firstOf [
    refuseIf (op == 0 || decide (6 < op)) (badField 32),
    refuseIf (len != 0 && len != partParamLen op) (badLength 36),
    refuseIf (match op with
      | 1 => i != 0
      | 2 => decide (14 < i)
      | 3 => i == 0
      | 4 => i == 0
      | _ => decide (31 < i)) (badField 33),
    refuseIf (!zeroAt j.desc 34 2) (badField 34),
    refuseIf (!zeroAt j.desc 48 16) (badField 48)] with
  | some e => .error e
  | none =>
    if len = 0 then .ok []
    else match s.acceptRead j.context (j.arg 40 8) len with
      | .error e => .error ⟨e.1, e.2⟩
      | .ok l =>
        let wrong := match op with
          | 1 => (s.schedError l).map (·.2)
          | 2 => partError l
          | 3 => taskError l
          | _ => chainError l
        match wrong with
        | some o => .error ⟨stBadField, 0x8000 + o⟩
        | none => .ok l

/-! ### Operations (R376) -/

/-- An object is bound: trig_obj of an armed burnisher problem, or arr_obj or done_obj of a VALID task (R376). -/
def State.objBound (s : State) (o : Nat) : Bool :=
  s.brn.probs.rows.any (fun r => r.2.armed.isSome && fld r.2.record 56 2 == o) ||
  !(s.tasksWith (fun t => s.taskRec t 2 2 == o || s.taskRec t 4 2 == o)).isEmpty

/-- A region whose steps the object counts: multiples of K above the value now are yet to be reached, the value itself included (R457). -/
def State.stepsSet (s : State) (o v : Nat) : State :=
  let back := fun (g : Region) =>
    if fld g.block 4 2 = o ∧ v < g.lastStep then { g with lastStep := (v - 1) / max 1 (fld g.block 2 2) * max 1 (fld g.block 2 2) } else g
  { s with prf := { s.prf with regions := ⟨s.prf.regions.rows.map (fun r => (r.1, back r.2))⟩ } }

/-- SET writes the object's value and clears SATURATED (R376). -/
def execSyncSet (job : Nat) (s : State) : Res :=
  match s.startedOp job 2 1 with
  | none => .next s
  | some j =>
    let o := j.arg 34 2
    .next (s.runOr j (firstOf [
      refuseIf (decide (s.waiters o ≠ 0)) (wrongState 7 1),
      refuseIf (s.objBound o) (wrongState 7 2)]) (fun s =>
        ((s.setObj o ⟨j.arg 40 8, false, []⟩).stepsSet o (j.arg 40 8)).finishOk j))

/-- READ completes with the value in detail and the number of waiters in result (R376); object 0xFFFF holds nothing (R368). -/
def execSyncRead (job : Nat) (s : State) : Res :=
  match s.startedOp job 2 2 with
  | none => .next s
  | some j =>
    let o := j.arg 34 2
    .next (if o = 0xFFFF then s.finishOk j else s.finish j stOk (s.waiters o) (s.obj o).value)

/-- The objects of a group on which a wait is held (R376). -/
def State.groupWaited (s : State) (g : Nat) : Bool :=
  s.jobs.any (fun j => j.waitObj / 256 == g && s.heldWait j) ||
  s.cores.rows.any (fun r => match r.2.hold with | some (.wait obj _ _ _) => obj / 256 == g | _ => false)

/-- The owner of a group becomes `p` (R369). -/
def State.setOwner (s : State) (g p : Nat) : State :=
  s.wr Reg.SYN_GROUP_OWNER (putBits (s.rd Reg.SYN_GROUP_OWNER (g / 8)) (g % 8 * 4) 4 p) (g / 8)

/-- GRANT sets the owner of a group (R369, R376). -/
def execSyncGrant (job : Nat) (s : State) : Res :=
  match s.startedOp job 2 3 with
  | none => .next s
  | some j =>
    let g := j.arg 34 1
    .next (s.runOr j (refuseIf (s.groupWaited g) (wrongState 7 1)) (fun s => (s.setOwner g (j.arg 33 1)).finishOk j))

end Sys2Proof.Machine
end

