-- ==== Sys2Proof/Machine/Ruling.lean ====
section
/-! DEFINITION. The ruling table, its trigger times, and the pairing of sensor frames with triggers (R47, R50 to R63). -/

namespace Sys2Proof.Machine

/-! ### The ruling table (Table TIM-3) -/

/-- The address of entry `e` of ruling bank `b`. -/
def rulAddr (b e : Nat) : Nat := winAddr (0x61000 + b * 0x2000 + 32 * e)

/-- The `n`-byte field at offset `o` of entry `e` of ruling bank `b`. -/
def State.rulIn (s : State) (b e o n : Nat) : Nat := s.num (rulAddr b e + o) n

/-- The active ruling bank. -/
def State.rulBank (s : State) : Nat := s.rd Reg.RUL_STAT_BANK

/-- A field of an entry of the active bank. -/
def State.rul (s : State) (e o n : Nat) : Nat := s.rulIn s.rulBank e o n

def rkUnused : Nat := 0
def rkLine : Nat := 1
def rkBack : Nat := 2
def rkPhase : Nat := 3
def rkGolden : Nat := 4

/-- Kind, template and index of an entry of the active bank. -/
def State.rulKind (s : State) (e : Nat) : Nat := s.rul e 0 2 / 4096
def State.rulTemplate (s : State) (e : Nat) : Nat := bits (s.rul e 0 2) 8 4
def State.rulIndex (s : State) (e : Nat) : Nat := bits (s.rul e 0 2) 0 8
def State.rulPeriod (s : State) (e : Nat) : Nat := s.rul e 4 4
/-- TRACK and RESYNC of an entry of the active bank. -/
def State.rulTrack (s : State) (e : Nat) : Bool := bit (s.rul e 3 1) 0
def State.rulResync (s : State) (e : Nat) : Bool := bit (s.rul e 3 1) 2

/-! ### Entry checks at swap (Table TIM-4, R51) -/

/-- An entry given as bytes: fields of Table TIM-3. -/
def reKind (l : List Byte) : Nat := fld l 0 2 / 4096
def reIndex (l : List Byte) : Nat := bits (fld l 0 2) 0 8
def rePeriod (l : List Byte) : Nat := fld l 4 4
def rePhase (l : List Byte) : Nat := fld l 8 4
def reWidth (l : List Byte) : Nat := fld l 12 4
def reDivider (l : List Byte) : Nat := fld l 16 1
def reDivPhase (l : List Byte) : Nat := fld l 17 1

/-- The offset of the first failing field of one entry taken alone; the epoch is `len` ns long. -/
def rulEntryBad (len : Nat) (l : List Byte) : Option Nat :=
  let k := reKind l
  let used := k != 0
  firstBad [
    (0, decide (4 < k) || (k == 1 && decide (16 ≤ reIndex l)) || (k == 2 && decide (12 ≤ reIndex l)) ||
        (k == 3 && decide (6 ≤ reIndex l))),
    (3, decide (8 ≤ fld l 3 1)),
    (4, used && (decide (rePeriod l < 100000) || decide (len % rePeriod l ≠ 0))),
    (8, used && decide (rePeriod l ≤ rePhase l)),
    (12, (k == 1 || k == 2) && (decide (reWidth l < 8) || decide (rePeriod l ≤ reWidth l))),
    (16, used && reDivider l == 0),
    (17, used && decide (reDivider l ≤ reDivPhase l)),
    (18, !zeroAt l 18 2),
    (24, bit (fld l 3 1) 0 && decide (rePeriod l ≤ 2 * fld l 24 4))]

/-- The checks of one entry alone. -/
def rulEntryOk (len : Nat) (l : List Byte) : Bool := (rulEntryBad len l).isNone

/-- Some pulse of entry `a` in an epoch overlaps one of entry `b` in the epoch that begins `shift` ns later. -/
def pulsesMeet (len shift : Nat) (a b : List Byte) : Bool :=
  (List.range (len / max 1 (rePeriod a))).any (fun k =>
    let t := rePhase a + k * rePeriod a
    let near := ((t : Int) - shift - rePhase b) / (max 1 (rePeriod b) : Nat)
    let last := len / max 1 (rePeriod b) - 1
    [near, near + 1].any (fun m =>
      let u := shift + rePhase b + min last m.toNat * rePeriod b
      decide (t < u + reWidth b ∧ u < t + reWidth a)))

/-- Some epoch selects entry `a` while the epoch `d` later selects entry `b`. -/
def bothSelected (d : Nat) (a b : List Byte) : Bool :=
  let g := Nat.gcd (reDivider a) (reDivider b)
  decide (((reDivPhase a + d : Int) - reDivPhase b) % max 1 g = 0)

/-- Two entries of kinds 1 and 2 on one output overlap in some epoch. -/
def entriesOverlap (len : Nat) (a b : List Byte) : Bool :=
  (reKind a == 1 || reKind a == 2) && reKind a == reKind b && reIndex a == reIndex b &&
  ((bothSelected 0 a b && pulsesMeet len 0 a b) || (bothSelected 1 a b && pulsesMeet len len a b) ||
   (bothSelected 1 b a && pulsesMeet len len b a))

/-- The first entry of a bank that fails the check of R51. -/
def rulBankError (len : Nat) (bank : List (List Byte)) : Option Nat :=
  (List.range bank.length).find? (fun i =>
    let l := bank.getD i []
    !rulEntryOk len l ||
    (bank.take i).any (fun a => (reKind a == 4 && reKind l == 4) ||
      (rulEntryOk len a && entriesOverlap len a l)))

/-- The entries of a ruling bank. -/
def State.rulEntries (s : State) (b : Nat) : List (List Byte) := (List.range 256).map (fun e => s.bytes (rulAddr b e) 32)

/-! ### Trigger times (R47, R53) -/

/-- The start of the epoch with (unreduced) index `i`. -/
def State.epochAt (s : State) (i : Int) : Int := i * s.epochLen + s.rd Reg.RUL_EPOCH_OFS_OFS_NS

/-- The entry fires in the epoch of index `i`. -/
def State.selected (s : State) (e : Nat) (i : Int) : Bool :=
  let d := s.rul e 16 1
  d != 0 && toU 32 i % d == s.rul e 17 1

/-- Triggers of an entry in an epoch that selects it: every k whose time comes before the next boundary (R53). -/
def State.perEpoch (s : State) (e : Nat) : Nat :=
  let p := max 1 (s.rulPeriod e)
  (s.epochLen - s.rul e 8 4 + (p - 1)) / p

/-- The next epoch after index `i` that selects the entry. -/
def State.nextSelected (s : State) (e : Nat) (i : Int) : Option Int :=
  ((List.range 256).map (fun n => i + 1 + n)).find? (s.selected e)

/-- The latest epoch before index `i` that selects the entry. -/
def State.prevSelected (s : State) (e : Nat) (i : Int) : Option Int :=
  ((List.range 256).map (fun n => i - 1 - n)).find? (s.selected e)

/-- Trigger `k` of the entry in the epoch of index `i`. -/
def State.trigAt (s : State) (e : Nat) (i : Int) (k : Nat) : Nat :=
  (s.epochAt i + s.rul e 8 4 + k * s.rulPeriod e).toNat

/-- The entry's first trigger time at or after instant `t` (R53). -/
def State.trigFrom (s : State) (e t : Nat) : Option Nat :=
  let i := s.epochIndex t
  let p := max 1 (s.rulPeriod e)
  let k := (((t : Int) - s.epochAt i - s.rul e 8 4).toNat + (p - 1)) / p
  if s.perEpoch e = 0 then none
  else if s.selected e i && decide (k < s.perEpoch e) then some (s.trigAt e i k)
  else (s.nextSelected e i).map (fun j => s.trigAt e j 0)

/-- The entry's first trigger time after instant `t`. -/
def State.nextTrig (s : State) (e t : Nat) : Option Nat := s.trigFrom e (t + 1)

/-- The entry's latest trigger time at or before instant `t`. -/
def State.lastTrig (s : State) (e t : Nat) : Option Nat :=
  let i := s.epochIndex t
  let since := (t : Int) - s.epochAt i - s.rul e 8 4
  if s.perEpoch e = 0 then none
  else if s.selected e i && decide (0 ≤ since) then some (s.trigAt e i (min (s.perEpoch e - 1) (since.toNat / max 1 (s.rulPeriod e))))
  else (s.prevSelected e i).map (fun j => s.trigAt e j (s.perEpoch e - 1))

/-- The trigger nearest to instant `t` (R60); midway between two it is the earlier one (DESIGN CHOICE, log entry 96). -/
def State.nearTrig (s : State) (e t : Nat) : Nat :=
  match s.lastTrig e t, s.nextTrig e t with
  | some a, some b => if t - a ≤ b - t then a else b
  | some a, none => a
  | none, some b => b
  | none, none => t

/-- The trigger `n` places after the one at `t`. -/
def State.trigAfter (s : State) (e : Nat) : Nat → Nat → Nat
  | 0, t => t
  | n + 1, t => match s.nextTrig e t with
    | some u => s.trigAfter e n u
    | none => t

/-- The instant from which triggers fire: the start of the epoch in progress, or of the next one when none is (R41, R53). -/
def State.trigBase (s : State) : Nat := s.tm.epochStart.getD s.tm.nextEpoch

/-- The entry's trigger that is due now, `lead` ns ahead of its time: the first one after the latest served and not before
the epoch in progress, or the next one when none is, which a lead may let leave before that epoch begins (R53, R55, R56). -/
def State.dueTrig (s : State) (e lead : Nat) : Option Nat :=
  let t := match s.tm.fired.find e with
    | some f => if s.trigBase ≤ f then s.nextTrig e f else s.trigFrom e s.trigBase
    | none => s.trigFrom e s.trigBase
  match t with
  | some t => if t ≤ s.dt64 + lead ∧ s.flag Reg.RUL_CTRL_RUN then some t else none
  | none => none

/-- A trigger of entry `e` has been served. -/
def State.served (s : State) (e t : Nat) : State := { s with tm := { s.tm with fired := s.tm.fired.set e t } }

/-! ### Drift, UNLOCKED and re-admission (R58 to R63) -/

/-- The ruling entry of a sensor, if it names one in use. -/
def State.sensorRul (s : State) (i : Nat) : Option Nat :=
  let e := s.sensor i 4 2
  if e < 256 ∧ s.rulKind e ≠ 0 then some e else none

/-- The sensor is UNLOCKED: its entry has TRACK and it is not locked. -/
def State.unlocked (s : State) (i : Nat) : Bool :=
  match s.sensorRul i with
  | some e => s.rulTrack e && !(s.trackOf i).locked
  | none => false

/-- RUL_LOCK as the sensors' lock states give it. -/
def State.showLock (s : State) : State :=
  s.wr Reg.RUL_LOCK_LOCKED ((List.range 256).foldl (fun v e =>
    let i := s.rul e 2 1
    if s.rulKind e ≠ 0 ∧ s.rulTrack e ∧ i < 64 ∧ (s.trackOf i).locked then v + 2 ^ e else v) 0)

/-- The trigger that a frame of sensor `i` reported at `cap` with frame counter `ctr` is paired with under entry `e`: by the
counter, or by arrival order, while it is locked (R58); the nearest one otherwise (R60). -/
def State.pairTrig (s : State) (i e cap : Nat) (ctr : Option Nat) : Nat :=
  let x := s.trackOf i
  let near := s.nearTrig e (cap - s.rul e 20 4)
  if s.rulTrack e && x.locked then
    match x.base, ctr with
    | some (c, t), some d => s.trigAfter e (((d + 65536 - c) % 65536) / max 1 (s.sensor i 14 2)) t
    | some (_, t), none => s.trigAfter e 1 t
    | none, _ => near
  else near

/-- A frame of sensor `i` begins, reported at `cap`: it is paired with its trigger and its drift computed; a drift beyond the
period unlocks the sensor (R58 to R60). -/
def State.pairFrame (s : State) (i cap : Nat) (ctr : Option Nat) : State :=
  match s.sensorRul i with
  | none => s.setSens i (fun x => { x with trig := cap, drift := 0, outside := false, paired := ((cap, cap) :: x.paired).take 16 })
  | some e =>
    let x := s.trackOf i
    let t := s.pairTrig i e cap ctr
    let d : Int := (cap : Int) - (t + s.rul e 20 4 : Nat)
    let out := s.rulTrack e && decide ((s.rul e 24 4 : Int) < |d|)
    let s := s.setSens i (fun y => { y with trig := t, drift := d, outside := out, paired := ((cap, t) :: y.paired).take 16 })
    if !s.rulTrack e then s
    else if x.locked then
      let s := s.setTrack i { x with base := some (ctr.getD 0, t), lastTrig := t }
      if (s.rulPeriod e : Int) < |d| then
        (s.setTrack i ⟨false, 0, none, t⟩).raise 0x0201 0 (le 2 e ++ le 1 i ++ le 1 0 ++ le 8 (toU 64 d))
      else s
    else
      let missed := x.lastTrig != 0 && (match s.nextTrig e x.lastTrig with | some u => decide (u < t) | none => false)
      s.setTrack i { x with base := some (ctr.getD 0, t), lastTrig := t, good := if missed then 0 else x.good }

/-- A frame of sensor `i` ends: while the sensor is UNLOCKED, a good frame is counted and any other resets the count (R60). -/
def State.goodFrame (s : State) (i : Nat) (frozen : Bool) : State :=
  let x := s.trackOf i
  if s.unlocked i then
    s.setTrack i { x with good := if frozen || (s.sensSt i).outside then 0 else min 8 (x.good + 1) }
  else s

/-- At an epoch boundary: missing frames reset the count of an UNLOCKED sensor (R60); after 8 good frames the sensor is
re-admitted (R62). -/
def State.relock (s : State) (i : Nat) : State :=
  match s.sensorRul i with
  | none => s
  | some e =>
    if !s.unlocked i || s.rd Reg.ING_SENS_STATE i ≠ 3 then s
    else
      let x := s.trackOf i
      let missing := match s.nextTrig e x.lastTrig with
        | some u => x.lastTrig != 0 && decide (u + s.rul e 20 4 + s.rul e 24 4 < s.dt64)
        | none => false
      if missing then s.setTrack i { x with good := 0 }
      else if 8 ≤ x.good then (s.setTrack i { x with locked := true }).raise 0x0202 0 (le 2 e ++ le 1 i)
      else s

/-- At an epoch boundary, an UNLOCKED sensor with RESYNC on a trigger line or back channel has its trigger mode re-armed over
the control channel (R61); what the re-arm carries is not stated, and the model sends the number of the ruling entry in 2 bytes
(DESIGN CHOICE, log entry 97). -/
def State.rearm (s : State) (i : Nat) : State :=
  match s.sensorRul i with
  | some e =>
    if s.unlocked i ∧ s.rulResync e ∧ (s.rulKind e = rkLine ∨ s.rulKind e = rkBack) ∧ s.rd Reg.ING_SENS_STATE i = 3 then
      s.emit .control (s.sensor i 1 1) (le 2 e)
    else s
  | none => s

end Sys2Proof.Machine
end

