-- ==== Sys2Proof/Machine/HatchFrames.lean ====
section
/-! DEFINITION. The epochs that Hatch holds and the schedule of frames in each (R90, R95 to R98, R124). -/

namespace Sys2Proof.Machine

/-- Entry size of a Hatch table (Table HAT-2). -/
def hatSize (id : Nat) : Nat := [0, 64, 1028, 514, 133128, 1024, 16, 96, 16, 16].getD id 0

/-- The address of entry `i` of table `id` in Hatch bank `b` (log entry 8). -/
def hatAddr (b id i : Nat) : Nat := gaddr spHatTab (b * 2 ^ 32 + id * 2 ^ 24 + i * hatSize id)

/-- The `n`-byte field at offset `o` of entry `i` of table `id` in bank `b`. -/
def State.hat1 (s : State) (b id i o n : Nat) : Nat := s.num (hatAddr b id i + o) n

def htXform : Nat := 7

/-- capture_ns of sensor `i` in a bank (Table HAT-10). -/
def State.captureNs (s : State) (b i : Nat) : Nat := s.hat1 b htXform i 56 4

/-- The active Hatch bank. -/
def State.hatBank (s : State) : Nat := s.rd Reg.HAT_CTRL_BANK

/-- HAT_CTRL.OLD_BUSY: the inactive bank is still used by an epoch (R98). An epoch uses its banks until its record is enqueued: the spec
says "until the last frame of the epoch is closed", and the model takes the end of the epoch's processing for it (DESIGN CHOICE, log
entry 105). -/
def State.oldBusy (s : State) : Bool := s.hat.epochs.any (fun e => e.bank != s.hatBank)

def State.showHat (s : State) : State := s.wr Reg.HAT_CTRL_OLD_BUSY s.oldBusy.toNat

def State.setEpochs (s : State) (l : List HEpoch) : State := ({ s with hat := { s.hat with epochs := l } } : State).showHat

/-- The epoch with number `n` replaced. -/
def State.modEpoch (s : State) (n : Nat) (f : HEpoch → HEpoch) : State :=
  s.setEpochs (s.hat.epochs.map (fun e => if e.no = n then f e else e))

/-- The oldest epoch at a stage. -/
def State.epochAtStage (s : State) (g : HStage) : Option HEpoch := s.hat.epochs.find? (fun e => e.stage == g)

/-- The epoch that contains instant `t`. -/
def State.epochWith (s : State) (t : Nat) : Option HEpoch :=
  s.hat.epochs.find? (fun e => decide (e.start ≤ t ∧ t < e.start + e.lenNs))

/-- The sensor is EXCLUDED (R118, R119). -/
def State.excluded (s : State) (i : Nat) : Bool := s.rd Reg.HAT_VSTATE_STATE i == 1 || s.rd Reg.HAT_VSTATE_STATE i == 3

/-- What becomes of a frame of sensor `i` that ends now: the first that applies of ABSENT, EXCLUDED, UNLOCKED, FROZEN and
MISSED, or it is fused (R96, R124). -/
def State.verdict (s : State) (i : Nat) (frozen damaged : Bool) : FrameEnd :=
  if s.rd Reg.ING_SENS_STATE i ≠ 3 then .absent
  else if s.excluded i then .excluded
  else if s.unlocked i then .unlocked
  else if frozen then .frozen
  else if damaged then .missed
  else .fused

/-- A frame of an EXCLUDED sensor that nothing but its exclusion keeps from being fused: it is voted in shadow (R119). -/
def State.inShadow (s : State) (i : Nat) (frozen damaged : Bool) : Bool :=
  s.verdict i frozen damaged == .excluded && !s.unlocked i && !frozen && !damaged

/-- The frame of sensor `i` with trigger `t` takes its end in the schedule of epoch `n`. Of the frames that were not scheduled, the
latest of each end is kept. -/
def State.endFrame (s : State) (n i t : Nat) (st : FrameEnd) : State :=
  s.modEpoch n (fun e =>
    if e.frames.any (fun f => f.sensor == i && f.trig == t && f.sched) then
      { e with frames := e.frames.map (fun f => if f.sensor = i ∧ f.trig = t ∧ f.sched then { f with state := st } else f) }
    else { e with frames := e.frames.filter (fun f => f.sched || f.sensor != i || f.state != st) ++ [⟨i, t, 0, st, false⟩] })

/-- The deadline of a frame of sensor `i` scheduled at trigger time `t` (R95). -/
def State.frameDue (s : State) (b e i t : Nat) : Nat := t + s.rul e 20 4 + s.captureNs b i + s.rul e 24 4

/-- The frames scheduled in the epoch that starts at `start` (R49, R53, R95): the triggers that fire in it for a ruling entry that a
sensor names. -/
def State.schedule (s : State) (start : Nat) : List HFrame :=
  (List.range 64).flatMap (fun i =>
    match s.sensorRul i with
    | none => []
    | some e =>
      if s.sensor i 0 1 ≠ 0 ∧ s.selected e (s.epochIndex start) then
        (List.range (s.perEpoch e)).map (fun k =>
          let t := s.trigAt e (s.epochIndex start) k
          ⟨i, t, s.frameDue s.hatBank e i t, .expected, true⟩)
      else [])

/-- A frame of sensor `i` paired with trigger `t` ends at `at0` after its deadline; when Hatch no longer holds the epoch, the deadline
is taken from the tables in use now (R95; log entry 106). -/
def State.frameLate (s : State) (i t at0 : Nat) : Bool :=
  match s.epochWith t with
  | some e => e.frames.any (fun f => f.sensor == i && f.trig == t && f.sched && decide (f.due < at0))
  | none => match s.sensorRul i with
    | some e => decide (s.frameDue s.hatBank e i t < at0)
    | none => false

/-- The frame of sensor `i`, one packet stamped `at0`, ends: it is marked in the schedule of its epoch, FROZEN included; one that ends
after its deadline is counted (R90, R95, R96). -/
def State.markFrame (s : State) (i at0 : Nat) (frozen : Bool) : State :=
  let t := (s.sensSt i).trig
  let late := s.flag Reg.HAT_CTRL_RUN && s.frameLate i t at0
  let s := if late then s.bump Reg.HAT_CNT_LATE_FRAMES else s
  match s.epochWith t with
  | none => s
  | some e => if e.stage = .input then s.endFrame e.no i t (s.verdict i frozen late) else s

/-! ### Evidence planes (R115, R116, R119) -/

/-- Bytes of a slot that a plane occupies. -/
def State.evidBytes (s : State) : Nat := 16 + (s.rd Reg.HAT_GRID_NX * s.rd Reg.HAT_GRID_NY + 3) / 4

/-- The byte of Hatch memory behind slot `n`'s byte `o`; where the evidence area lies the spec does not say (log entry 8). -/
def evidAddr (n o : Nat) : Nat := gaddr spHatch (0x300000 + n * 0x11000 + o)

/-- The cameras fused in an epoch (R96). -/
def State.fusedCams (s : State) (e : HEpoch) : List Nat :=
  (List.range 64).filter (fun i => s.sensor i 0 1 == 1 && e.frames.any (fun f => f.sensor == i && f.state == .fused))

/-- The planes that the evidence slots hold for an epoch and the sensors given: the lowest slot of a sensor counts (R115). -/
def State.slotsOf (s : State) (no : Nat) (l : List Nat) : List (Nat × Nat) :=
  l.filterMap (fun i =>
    ((List.range 12).find? (fun n => s.num (evidAddr n 0) 4 == no && s.num (evidAddr n 4) 1 == i)).map (fun n => (i, n)))

/-- Planes of an epoch are still accepted: its input is open, or EVID_WAIT has not passed since it closed, and H5 does not vote it yet
(R116). -/
def State.planeTime (s : State) (e : HEpoch) : Bool :=
  match e.stage with
  | .input => true
  | .waited => false
  | .voted => false
  | _ => !s.passed e.closeTick (usTicks (s.rd Reg.HAT_VOTE_EVID_WAIT))

/-- The planes present now are accepted for the epochs that still accept planes: those of fused cameras, and in shadow those of
cameras that only their exclusion keeps from being fused, with the image behind them VALID (R101, R116, R119). -/
def State.acceptPlanes (s : State) : State :=
  s.setEpochs (s.hat.epochs.map (fun e =>
    if s.planeTime e then
      { e with planes := s.slotsOf e.no ((s.fusedCams e).filter (fun i => s.hat.valid.contains (i, e.no))),
               shadowPlanes := s.slotsOf e.no ((List.range 64).filter (fun i =>
                 s.sensor i 0 1 == 1 && s.hat.shadowValid.contains (i, e.no))) }
    else e))

/-- Bytes written to the evidence window at window offset `ofs`: what falls outside the occupied part of its slot is not
written and is counted (R115). -/
def State.evidenceWrite (s : State) (ofs : Nat) (l : List Byte) : State :=
  let keep := l.zipIdx.filter (fun e => decide ((ofs + e.2) % 0x11000 < s.evidBytes ∧ ofs + e.2 < 0xCC000))
  let t := keep.foldl (fun s e => s.store (evidAddr 0 (ofs + e.2)) [e.1]) s
  (if keep.length < l.length then t.bump Reg.HAT_CNT_EVID_BAD else t).acceptPlanes

/-! ### The stages at work (R128, Table HAT-17) -/

/-- A stage starts on epoch `no`. -/
def State.startStage (s : State) (k no : Nat) : State :=
  { s with hat := { s.hat with running := s.hat.running.set k s.ticks, stageEpoch := s.hat.stageEpoch.set k no,
                               lateHit := s.hat.lateHit.filter (· != k) } }

/-- A stage completes; an end before its early limit is remembered for its watchdog when it had input (R128). -/
def State.stageDone (s : State) (k : Nat) (input : Bool) : State :=
  match s.hat.running.find k with
  | none => s
  | some t =>
    let early := input && !s.passed t (usTicks (s.rd Reg.HAT_WD_EARLY_US (k - 1)))
    { s with hat := { s.hat with running := s.hat.running.erase k, early := if early then s.hat.early ++ [k] else s.hat.early } }

/-- Camera queue `q` holds the Frame End of a frame for H1. -/
def State.frameWaits (s : State) (q : Nat) : Bool :=
  !s.flag Reg.SPQ_CTRL_CONS q && (s.queue q).stream.any (fun i => i.tag == 2 && bits (fld i.data 10 1) 0 6 == 1)

/-- H1, when it is idle, dequeues the next Frame End that waits (Table HAT-17). -/
def State.startH1 (s : State) : State :=
  if s.flag Reg.HAT_CTRL_RUN ∧ (s.hat.running.find 1).isNone then
    match (List.range 12).find? s.frameWaits with
    | some q =>
      let i := ((s.queue q).stream.find? (fun i => i.tag == 2 && bits (fld i.data 10 1) 0 6 == 1)).elim 0 (fun i => fld i.data 9 1)
      s.startStage 1 (s.epochOf (s.sensSt i).trig)
    | none => s
  else s

end Sys2Proof.Machine
end

