-- ==== Sys2Proof/Machine/Ingest.lean ====
section
/-! DEFINITION. Sensor ports, discovery and spill queues (R64 to R94). -/

namespace Sys2Proof.Machine

/-! ### The sensor table (Table ING-4, R66, R67) -/

/-- The address of entry `i` of sensor-table bank `b`. -/
def sensAddr (b i : Nat) : Nat := winAddr (0x71000 + b * 0x1000 + 64 * i)

/-- The entries of a sensor-table bank. -/
def State.sensEntries (s : State) (b : Nat) : List (List Byte) := (List.range 64).map (fun i => s.bytes (sensAddr b i) 64)

def seKind (l : List Byte) : Nat := fld l 0 1
def sePort (l : List Byte) : Nat := fld l 1 1
def sePoints (l : List Byte) : Bool := bit (fld l 3 1) 2

/-- Ports of a kind: cameras 12, lidars 4, auxiliary 2, CAN FD 6, SPI 2, the on-module IMU 1. -/
def portsOfKind (k : Nat) : Nat := [0, 12, 4, 2, 6, 2, 1].getD k 0

/-- The offset of the first failing field of an entry taken alone; an unused entry is only held to its reserved fields (R67). -/
def sensEntryBad (l : List Byte) : Option Nat :=
  let k := seKind l
  let used := k != 0
  firstBad [
    (0, decide (6 < k)),
    (1, used && decide (portsOfKind k ≤ sePort l)),
    (2, used && (if k = 1 then decide (4 ≤ fld l 2 1) else fld l 2 1 != 0)),
    (3, decide (8 ≤ fld l 3 1)),
    (4, used && decide (256 ≤ fld l 4 2) && fld l 4 2 != 0xFFFF),
    (6, used && decide (8 ≤ fld l 6 1) && fld l 6 1 != 0xFF),
    (7, used && !decide (2 ≤ fld l 7 1 ∧ fld l 7 1 ≤ 8)),
    (14, used && !decide (1 ≤ fld l 14 2 ∧ fld l 14 2 ≤ 255)),
    (16, used && !decide (10 ≤ fld l 16 2 ∧ fld l 16 2 ≤ 10000)),
    (18, used && (if k = 1 then decide (128 ≤ fld l 18 2) else k != 5 && fld l 18 2 != 0)),
    (22, !zeroAt l 22 2),
    (40, k == 4 && bits (fld l 40 4) 29 2 != 0),
    (48, !zeroAt l 48 16)]

/-- One entry keeps its ranges. -/
def sensEntryOk (l : List Byte) : Bool := (sensEntryBad l).isNone

/-- The first entry of a bank that fails the check of R67. -/
def sensBankError (bank : List (List Byte)) : Option Nat :=
  (List.range bank.length).find? (fun i =>
    let l := bank.getD i []
    !sensEntryOk l ||
    (bank.take i).any (fun a => seKind a == seKind l &&
      ((seKind l == 1 && sePort a == sePort l && fld a 2 1 == fld l 2 1) || (seKind l == 2 && sePort a == sePort l))) ||
    (seKind l != 0 && sePoints l &&
      decide (1048576 < (((bank.take (i + 1)).filter (fun a => seKind a != 0 && sePoints a)).map (fun a => fld a 8 4)).sum)))

/-! ### Discovery (R69 to R73) -/

/-- The spill queue of an Ethernet port: lidar 0-3, auxiliary 4-5 (Table ING-6). -/
def ethQueue (p : Nat) : Nat := 0x10 + p

/-- The time-stamping port of an Ethernet port. -/
def ethStamp (p : Nat) : Nat := p + 2

/-- Entry `i`'s flag bit. -/
def State.sensFlag (s : State) (i b : Nat) : Bool := bit (s.sensor i 3 1) b

/-- The value read matches the entry's identity under its mask (R69 to R71). -/
def State.idMatches (s : State) (i v : Nat) : Bool := (v ^^^ s.sensor i 24 8) &&& s.sensor i 32 8 == 0

/-- An ABSENT camera entry whose port is checked goes to PROBING, and without ID_CHECK on to PRESENT (R69). R69 names the moment the
link comes up; an entry made ABSENT by its timeout while the link stays up is probed again at the next discovery of any entry (DESIGN
CHOICE, log entry 100). -/
def State.discoverCam (s : State) (i : Nat) : State :=
  if s.sensor i 0 1 = 1 ∧ s.rd Reg.ING_SENS_STATE i = 1 ∧ s.flag Reg.ING_PORT_STAT_LINK (s.sensor i 1 1) then
    let s := (s.setIngest i 2).setSens i (fun x => { x with idTries := 0, idTryAt := s.ticks })
    if s.sensFlag i 0 then s else s.setIngest i 3
  else s

/-- The Ethernet port of a lidar or auxiliary entry. -/
def State.ethOf (s : State) (i : Nat) : Nat := s.sensor i 1 1 + (if s.sensor i 0 1 = 3 then 4 else 0)

/-- An ABSENT lidar or auxiliary entry becomes PRESENT when its port has link, its partner's chassis ID matches or need not,
and the partner has answered peer delay within 3 s, unless no ruling entry is named (R70). -/
def State.discoverEth (s : State) (i : Nat) : State :=
  let p := s.ethOf i
  let idOk := !s.sensFlag i 0 || (match s.ing.chassis.find p with | some c => s.idMatches i c | none => false)
  let gptp := s.sensor i 4 2 == 0xFFFF ||
    (match s.tm.pdelayAt.find (ethStamp p) with | some t => !s.passed t (msTicks 3000) | none => false)
  if (s.sensor i 0 1 = 2 ∨ s.sensor i 0 1 = 3) ∧ s.rd Reg.ING_SENS_STATE i = 1 ∧ s.flag Reg.ING_PORT_STAT_LINK (ethQueue p) ∧
      idOk ∧ gptp then s.setIngest i 3
  else s

/-- Discovery of an entry whose conditions already hold. The result of the on-module IMU's self-check is kept: its entry, ABSENT after
a timeout, becomes PRESENT again at the next discovery without another check (R71; DESIGN CHOICE, log entry 101). -/
def State.discover (s : State) (i : Nat) : State :=
  match s.sensor i 0 1 with
  | 1 => s.discoverCam i
  | 2 => s.discoverEth i
  | 3 => s.discoverEth i
  | 6 => if s.ing.imuOk ∧ s.rd Reg.ING_SENS_STATE i = 1 then s.setIngest i 3 else s
  | _ => s

def State.discoverAll (s : State) : State := (List.range 64).foldl State.discover s

/-- A camera or SPI identity read ends: a match makes the entry PRESENT, a mismatch MISMATCH; a read that fails is tried
again, up to 3 times in all, 10 ms apart, and then counts as a mismatch (R69, R71). -/
def State.identityRead (s : State) (i : Nat) (v : Option Nat) : State :=
  match v with
  | some v => s.setIngest i (if s.idMatches i v then 3 else 4)
  | none =>
    let n := (s.sensSt i).idTries + 1
    let s := s.setSens i (fun x => { x with idTries := n, idTryAt := s.ticks })
    if 3 ≤ n then s.setIngest i 4 else s

/-- An identity read of a PROBING camera entry, or of an SPI entry that is ABSENT (R69, R71). -/
def execIdReadAttempt (sensor : Fin 64) (read : Option (BitVec 64)) (s : State) : Res :=
  let i := sensor.val
  let st := s.rd Reg.ING_SENS_STATE i
  let waited := (s.sensSt i).idTries == 0 || s.passed (s.sensSt i).idTryAt (msTicks 10)
  if s.sensFlag i 0 ∧ waited ∧ ((s.sensor i 0 1 = 1 ∧ st = 2) ∨ (s.sensor i 0 1 = 5 ∧ st = 1)) then
    .next (s.identityRead i (read.map (·.toNat)))
  else .next s

/-- A received LLDP frame: its chassis ID is kept and the port's entries are matched against it (R70). -/
def execLldpRx (port : Fin 6) (chassis : BitVec 64) (s : State) : Res :=
  if s.unitUp (unitId 0x0B port.val) then
    let s := { s with ing := { s.ing with chassis := s.ing.chassis.set port.val chassis.toNat } }
    .next s.discoverAll
  else .next s

/-- The on-module IMU's self-check ends: its entry becomes PRESENT (R71). -/
def execImuSelfCheckDone (pass : Bool) (s : State) : Res :=
  let s := { s with ing := { s.ing with imuOk := pass } }
  .next s.discoverAll

/-- An entry that has sent no accepted data for timeout_ms, or a camera entry without Frame Start for that time, becomes
ABSENT (R72). -/
def execSensorTimeout (sensor : Fin 64) (s : State) : Res :=
  let i := sensor.val
  let x := s.sensSt i
  let d := msTicks (s.sensor i 16 2)
  if s.rd Reg.ING_SENS_STATE i = 3 ∧ (s.passed x.lastAt d ∨ (s.sensor i 0 1 = 1 ∧ s.passed x.lastFsAt d)) then
    .next (s.setIngest i 1)
  else .next s

/-! ### Open packets (R74, R79) -/

/-- A packet begins and stays open after `n` bytes of its payload: its LENGTH slot is reserved and whole words are stored. One that has
filled the queue by then is closed (R79, R82). -/
def State.openPacket (s : State) (q : Nat) (h : LenHead) (l : List Byte) (n : Nat) : State :=
  if s.queueShut q then s.bump Reg.SPQ_EVENTS_DROPPED q
  else
    let s := s.access q
    let x := s.queue q
    let room := s.queueCap q - x.items.length
    if room = 0 then (s.bump Reg.SPQ_EVENTS_DROPPED q).wr Reg.SPQ_COUNT_OVERRUN 1 q
    else if room < 1 + n / 32 then (s.enqueue q h l).1
    else
      let k := n / 32
      let ws := words32 k (l.take (32 * k))
      (s.setQueue q { x with opened := some ⟨lengthWord 0 0 h (s.epochOf h.stamp), ws, 32 * ws.length⟩ }).showQueue q

/-- A packet open in queue `q` is closed TRUNCATED and DATA_ERROR with the words stored (R74). -/
def State.closeOpen (s : State) (q : Nat) : State :=
  let s := s.access q
  let x := s.queue q
  match x.opened with
  | none => s
  | some o =>
    let head := le 4 o.words.length ++ le 4 o.bytes ++ le 1 (fld o.head 8 1 ||| stDataError ||| stTruncated) ++ o.head.drop 9
    (s.setQueue q { x with opened := none }).closePacket q ((⟨2, head⟩ : QItem) :: o.words.map (fun w => ⟨1, w⟩))

/-- A received packet enters its queue whole, or stays open when its end has not arrived. -/
def State.receivePacket (s : State) (q : Nat) (h : LenHead) (l : List Byte) (cutAt : Option Nat) : State :=
  let s := s.closeOpen q
  match cutAt with
  | some n => s.openPacket q h l n
  | none => (s.enqueue q h l).1

/-! ### Quotas (R92, R93) -/

/-- The quota counter of a sensor for the epoch of a stamp: -1 for the epoch before the one in progress, 1 for the next one, 0 for
the one in progress (R92). -/
def State.quotaEpoch (s : State) (stamp : Nat) : Int :=
  match s.tm.epochStart with
  | none => 0
  | some t => if stamp < t then -1 else if s.tm.nextEpoch ≤ stamp then 1 else 0

/-- What a sensor's packets have been charged in one of those epochs. -/
def SensSt.charged (x : SensSt) (e : Int) : Nat := if e < 0 then x.past else if 0 < e then x.ahead else x.used

def SensSt.addCharge (x : SensSt) (e : Int) (c : Nat) : SensSt :=
  if e < 0 then { x with past := x.past + c } else if 0 < e then { x with ahead := x.ahead + c } else { x with used := x.used + c }

/-- A packet of sensor `i` with `n` payload bytes and its stamp meets the quota of the epoch that contains the stamp: it is charged, or
dropped and counted (R92, R93). -/
def State.charge (s : State) (i n stamp : Nat) : State × Bool :=
  let c := if s.sensFlag i 2 then s.sensor i 12 2 else n
  let e := s.quotaEpoch stamp
  if (s.sensSt i).charged e + c ≤ s.sensor i 8 4 then
    (s.setSens i (fun x => { x.addCharge e c with lastAt := s.ticks }), true)
  else (s.bump Reg.ING_SENS_QUOTA_DROPS i, false)

/-! ### Cameras (R64, R65, R88, R89, R91, R94) -/

/-- A data type of Table ING-2. -/
def dataTypeKnown (t : Nat) : Bool :=
  decide (t ≤ 3) || t == 0x12 || t == 0x1E || t == 0x24 || decide (0x2A ≤ t ∧ t ≤ 0x2F) || decide (0x30 ≤ t ∧ t ≤ 0x37)

/-- An image data type of Table ING-2. -/
def dataTypeImage (t : Nat) : Bool := t == 0x1E || t == 0x24 || decide (0x2A ≤ t ∧ t ≤ 0x2F)

/-- The signature of a frame: CRC-64 of 16 image lines, then of the embedded lines (text before R88). -/
def frameSignature (lines embedded : List (List Byte)) : Nat :=
  let h := lines.length
  let picked := (List.range 16).flatMap (fun i => lines.getD (h * (2 * i + 1) / 32) [])
  crc64 (picked ++ embedded.flatMap id)

/-- Whether a frame that ends is FROZEN (R88): its signature repeats, its counter fails, or its drift leaves the window. -/
def State.frameFrozen (s : State) (i sig : Nat) : Bool :=
  let x := s.sensSt i
  let n := s.sensor i 7 1 - 1
  let repeats := decide (n ≤ x.sigs.length) && (x.sigs.take n).all (· == sig)
  let counter := s.sensFlag i 1 && (match x.prevFrame with
    | some f => (x.frameNo + 65536 - f) % 65536 != s.sensor i 14 2
    | none => false)
  x.outside || (!x.first && (repeats || counter))

/-- The stamp of a CSI-2 packet: the arrival of its header, less the port's fixed receive latency (R65, Table ING-3; log entry 93). -/
def State.cameraStamp (s : State) (port : Nat) : Nat := s.dt64 - Config.cameraLatency port

/-- The Frame Start of a camera frame: the frame is paired with its trigger by its frame number. -/
def State.frameStart (s : State) (i no stamp : Nat) : State :=
  let s := s.setSens i (fun x => { x with frameNo := no, frameStamp := stamp, inFrame := true, cut := false, lines := [],
                                          embedded := [], lastAt := s.ticks, lastFsAt := s.ticks })
  s.pairFrame i stamp (some no)

/-- The Frame End of a camera frame: its status bits, FROZEN and QUOTA_CUT (R89, R91, R94). -/
def State.frameEnd (s : State) (i : Nat) : State × Nat :=
  let x := s.sensSt i
  let sig := frameSignature x.lines x.embedded
  let frozen := s.frameFrozen i sig
  let status := (if frozen then stFrozen else 0) ||| (if x.cut then stQuotaCut else 0)
  let s := if frozen then s.bump Reg.ING_SENS_FROZEN i else s
  let s := s.goodFrame i frozen
  (s.setSens i (fun y => { y with first := false, inFrame := false, sigs := (sig :: y.sigs).take 8, prevFrame := some x.frameNo,
                                  lines := [], embedded := [], lastAt := s.ticks }), status)

/-- The PRESENT entry of a camera port and virtual channel. -/
def State.cameraEntry (s : State) (port vc : Nat) : Option Nat :=
  (s.sensorsOn 1 port).find? (fun i => s.sensor i 2 1 == vc && s.rd Reg.ING_SENS_STATE i == 3)

/-- A CSI-2 packet arrives at a camera port (R64, R65, R80, R88, R93, R94). -/
def execCsi2PacketRx (port : Fin 12) (p : Csi2Packet) (s : State) : Res :=
  let q := port.val
  let t := p.dataType.toNat
  if !s.unitUp (unitId 0x0A q) || s.power == .off || s.power == .held then .next s
  else if !dataTypeKnown t || p.headerBad then .next (s.bump Reg.ING_PORT_STAT_BAD q)
  else match s.cameraEntry q p.vc.val with
    | none => .next s
    | some i =>
      let src := p.vc.val * 64 + t
      let crc := if p.crcBad then stDataError else 0
      let stamp := s.cameraStamp q
      let head := fun (s : State) (status : Nat) => (⟨status, i, src, (s.sensSt i).frameNo, stamp⟩ : LenHead)
      if t = 0 then
        let s := s.frameStart i (fld p.payload 1 2) stamp
        .next (s.receivePacket q (head s 0) (p.payload.take 4) none)
      else if t = 1 then
        let (s, status) := s.frameEnd i
        .next (s.receivePacket q (head s status) (p.payload.take 4) none).startH1
      else match s.charge i p.payload.length stamp with
        | (s, false) => .next (s.setSens i (fun x => { x with cut := true }))
        | (s, true) =>
          let s := if dataTypeImage t then s.setSens i (fun x => { x with lines := x.lines ++ [p.payload] })
            else if t = 0x12 then s.setSens i (fun x => { x with embedded := x.embedded ++ [p.payload] }) else s
          .next (s.receivePacket q (head s crc) p.payload p.cutAt)

/-! ### Ethernet, CAN FD, SPI and the IMU -/

/-- The frame counter that a packet of sensor `i` carries, where its entry says that one counts (COUNTER, R58, R90; log entry 94). -/
def State.counterOf (s : State) (i : Nat) (payload : List Byte) : Option Nat :=
  if s.sensFlag i 1 then some (Config.frameCounter payload % 65536) else none

/-- The counter test of R88 on a frame with counter `ctr` of a sensor: its step is not counter_step. The first frame after the entry
becomes PRESENT has no predecessor. -/
def State.counterFails (s : State) (i : Nat) (ctr : Option Nat) : Bool :=
  let x := s.sensSt i
  match ctr, x.prevFrame with
  | some n, some f => !x.first && (n + 65536 - f) % 65536 != s.sensor i 14 2
  | _, _ => false

/-- A frame of a sensor that is one packet (auxiliary, CAN FD, SPI, IMU): it is paired with its trigger, FROZEN under the counter and
window tests is counted, and the frame is marked in the schedule that Hatch holds (R58 to R60, R90, R91). The tests are applied to
on-module IMU entries too, which R90 does not list (DESIGN CHOICE, log entry 99). -/
def State.packetFrame (s : State) (i stamp : Nat) (payload : List Byte) : State :=
  let ctr := s.counterOf i payload
  let s := s.pairFrame i stamp ctr
  let frozen := (s.sensSt i).outside || s.counterFails i ctr
  let s := if frozen then s.bump Reg.ING_SENS_FROZEN i else s
  ((s.goodFrame i frozen).setSens i (fun x => { x with first := false, prevFrame := ctr.orElse (fun _ => x.prevFrame) })).markFrame
    i stamp frozen

/-- The EtherType of a frame. -/
def etherType (l : List Byte) : Nat := beNat (slice l 12 2)

/-- The PRESENT auxiliary entry whose partner sent the frame: ID_CHECK clear, or a source address that matches id_value. -/
def State.auxEntry (s : State) (port : Nat) (l : List Byte) : Option Nat :=
  (s.sensorsOn 3 port).find? (fun i => s.rd Reg.ING_SENS_STATE i == 3 && (!s.sensFlag i 0 || s.idMatches i (fld l 6 6)))

/-- The stamp of a frame at an Ethernet port: its start-of-frame delimiter, corrected by the port's receive latency as in R43 (R65). -/
def State.etherStamp (s : State) (port : Nat) : Nat := (s.tm.dt96 / 2 ^ 29 - s.rd Reg.RUL_PLAT_RX_LAT (ethStamp port)) / 8

/-- A received Ethernet frame of sensor `i`, or of none, enters its queue. -/
def State.ethPacket (s : State) (port : Nat) (f : EthFrame) (i : Option Nat) : State :=
  let h : LenHead := ⟨if f.fcsBad then stDataError else 0, i.getD 0xFF, 0, 0, s.etherStamp port⟩
  s.receivePacket (ethQueue port) h f.bytes f.cutAt

/-- An Ethernet frame arrives at a lidar or auxiliary port; gPTP and LLDP frames never enter a queue (text after Table ING-3,
R70, R75, R93). -/
def execEthFrameRx (port : Fin 6) (f : EthFrame) (s : State) : Res :=
  let p := port.val
  if !s.unitUp (unitId 0x0B p) || s.power == .off || s.power == .held || etherType f.bytes == 0x88F7 || etherType f.bytes == 0x88CC
  then .next s
  else if p < 4 then
    match (s.sensorsOn 2 p).find? (fun i => s.rd Reg.ING_SENS_STATE i == 3) with
    | none => .next s
    | some i =>
      match s.charge i f.bytes.length (s.etherStamp p) with
      | (s, false) => .next s
      | (s, true) => .next (s.ethPacket p f (some i))
  else
    match s.auxEntry (p - 4) f.bytes with
    | none => .next (s.ethPacket p f none)
    | some i =>
      match s.charge i f.bytes.length (s.etherStamp p) with
      | (s, false) => .next s
      | (s, true) => .next ((s.packetFrame i (s.etherStamp p) f.bytes).ethPacket p f (some i))

/-- A CAN FD entry's identifier matches a frame (R71, R75): bits 28:0 under can_mask; the IDE bit is always compared, which the spec does
not say either way (DESIGN CHOICE, log entry 102). -/
def State.canMatches (s : State) (i : Nat) (f : CanFrame) : Bool :=
  (f.ident.toNat ^^^ bits (s.sensor i 40 4) 0 29) &&& bits (s.sensor i 44 4) 0 29 == 0 && bit (s.sensor i 40 4) 31 == f.ide

/-- A CAN FD frame arrives: ABSENT entries that match become PRESENT, the lowest-numbered match takes the frame (R71, R75). -/
def execCanFrameRx (chan : Fin 6) (f : CanFrame) (s : State) : Res :=
  let c := chan.val
  if s.power == .off || s.power == .held || (f.fdf && s.rd Reg.ING_CAN_BIT_MODE c == 1) then .next s
  else
    let mine := (s.sensorsOn 4 c).filter (fun i => s.canMatches i f)
    let s := mine.foldl (fun s i => if s.rd Reg.ING_SENS_STATE i = 1 then s.setIngest i 3 else s) s
    match mine.find? (fun i => s.rd Reg.ING_SENS_STATE i == 3) with
    | none => .next (s.bump Reg.ING_PORT_STAT_UNMATCHED (0x18 + c))
    | some i =>
      match s.charge i f.bytes.length s.dt64 with
      | (s, false) => .next s
      | (s, true) =>
        let src := f.fdf.toNat + 2 * f.brs.toNat + 4 * f.ide.toNat + 8 * f.esi.toNat
        let h : LenHead := ⟨if f.crcBad then stDataError else 0, i, src, f.ident.toNat, s.dt64⟩
        .next ((s.packetFrame i s.dt64 f.bytes).receivePacket (0x18 + c) h f.bytes none)

/-- A data-ready edge of an SPI port (0, 1) or of the on-module IMU (2): an SPI identity read comes first; a PRESENT entry's
sample of up to 64 bytes enters the queue (R71, R93, Table ING-1). An SPI entry without ID_CHECK becomes PRESENT at its first data-ready
edge, a moment the spec does not name (DESIGN CHOICE, log entry 103). -/
def execDataReadyEdge (port : Fin 3) (d : Burst) (s : State) : Res :=
  let p := port.val
  if s.power == .off || s.power == .held then .next s
  else
    let mine := if p < 2 then s.sensorsOn 5 p else s.sensorsOn 6 0
    let s := if p < 2 then
        mine.foldl (fun s i =>
          if s.rd Reg.ING_SENS_STATE i = 1 then
            if s.sensFlag i 0 then (match d.identity with | some v => s.identityRead i (some v.toNat) | none => s)
            else s.setIngest i 3
          else s) s
      else s
    match mine.find? (fun i => s.rd Reg.ING_SENS_STATE i == 3), d.identity with
    | some i, none =>
      let l := d.bytes.take 64
      match s.charge i l.length s.dt64 with
      | (s, false) => .next s
      | (s, true) => .next ((s.packetFrame i s.dt64 l).receivePacket (0x20 + p) ⟨0, i, 0, 0, s.dt64⟩ l none)
    | _, _ => .next s

/-! ### Links going down (R72, R74) -/

/-- The spill queue of a sensor link: camera ports 0-11, Ethernet ports 12-17. -/
def linkQueue (k : Nat) : Nat := if k < 12 then k else ethQueue (k - 12)

/-- The entries behind a sensor link. -/
def State.linkSensors (s : State) (k : Nat) : List Nat :=
  if k < 12 then s.sensorsOn 1 k else if k < 16 then s.sensorsOn 2 (k - 12) else s.sensorsOn 3 (k - 16)

/-- The function of a sensor link (Table BUP-9). -/
def linkFn (k : Nat) : Nat := if k < 12 then 0x400 + k else 0x500 + (k - 12)

/-- A sensor link goes down: an open packet is closed, the port's entries become ABSENT, and its readiness entry returns to
WAITING without an event (R72, R74, R550). The latest chassis ID and peer-delay answer of the port are kept, and can serve the next
discovery as soon as the link is up again (R70; DESIGN CHOICE, log entry 104). -/
def State.sensorLinkDown (s : State) (k : Nat) : State :=
  let q := linkQueue k
  let s := (((s.closeOpen q).wr Reg.ING_PORT_STAT_LINK 0 q).wr Reg.ING_PORT_STAT_QUALITY 0 q).wr Reg.ING_PORT_STAT_GEAR 0 q
  let s := if s.fnState (linkFn k) = rdReady then s.setFnQuiet (linkFn k) rdWaiting 0 else s
  s.sensorsAbsent (s.linkSensors k)

/-- The link of a sensor port goes down (R72). -/
def execIngestLinkDown (link : Fin 18) (s : State) : Res := .next (s.sensorLinkDown link.val)

/-! ### Swaps (R50, R67, R591) -/

/-- ING_ST_CTRL.SWAP: a swap of the sensor-table banks at the next epoch boundary is requested; refused while one is pending
and after SETUP_DONE (R67, R591). -/
def execIngSwap (s : State) : Res :=
  if s.flag Reg.ING_ST_CTRL_SWAP_PENDING ∨ s.flag Reg.HTP_CTRL_SETUP_DONE then .next s
  else .next (s.wr Reg.ING_ST_CTRL_SWAP_PENDING 1)

/-- The banks of the sensor table change places: an entry that stays the same keeps its ingest state; any other starts as
EMPTY or ABSENT and is discovered anew. -/
def State.swapSensors (s : State) : State :=
  let old := s.rd Reg.ING_ST_CTRL_BANK
  let s := s.wr Reg.ING_ST_CTRL_BANK (1 - old)
  let s := (List.range 64).foldl (fun s i =>
    if s.bytes (sensAddr old i) 64 = s.bytes (sensAddr (1 - old) i) 64 then s
    else s.setIngest i (if s.sensor i 0 1 = 0 then 0 else 1)) s
  s.discoverAll

/-! ### Registers and consumers of the queues (R78, R83 to R87, R534) -/

/-- A write of SPQ_CTRL or SPQ_MID_BASE is refused: BAD_FIELD for a size outside 16 to 26 or a middle outside the spill area,
WRONG_STATE while EN is 1 (R78, R534, R590). -/
def State.spqWriteError (s : State) (q word value : Nat) : Option Nat :=
  let size := if word = 0 then bits value 8 5 else s.rd Reg.SPQ_CTRL_LOG2_SIZE q
  let base := if word = 1 then bits value 0 20 else s.rd Reg.SPQ_MID_BASE_BASE q
  if size < 16 ∨ 26 < size ∨ 0x10000000 < base * 65536 + 2 ^ size + 2 ^ size / 16 then some stBadField
  else if s.flag Reg.SPQ_CTRL_EN q ∧ (word = 1 ∨ size ≠ s.rd Reg.SPQ_CTRL_LOG2_SIZE q) then some stWrongState
  else none

/-- The registers of a queue are written; clearing EN discards its contents (R78). -/
def State.spqWrite (s : State) (q word value : Nat) : State :=
  if word = 0 then
    let s := ((s.wr Reg.SPQ_CTRL_EN (bits value 0 1) q).wr Reg.SPQ_CTRL_CONS (bits value 1 1) q).wr Reg.SPQ_CTRL_LOG2_SIZE
      (bits value 8 5) q
    if bit value 0 then s else s.emptyQueue q
  else s.wr Reg.SPQ_MID_BASE_BASE (bits value 0 20) q

/-- A write of SPQ_CTRL (word 0) or SPQ_MID_BASE (word 1) of a queue (R78, R534). -/
def execSpqCtrlWrite (queue : Fin 51) (word : Fin 2) (value : BitVec 32) (s : State) : Res :=
  let q := queue.val
  if queueBuilt q ∧ (s.spqWriteError q word.val value.toNat).isNone then .next (s.spqWrite q word.val value.toNat) else .next s

/-- One of the two copies of a queue's head pointer is upset (R86). -/
def State.upsetPointer (s : State) (q : Nat) : State :=
  let x := s.queue q
  s.setQueue q { x with headCopy := x.head + 1 }

/-- The head word of a queue is read; a word that has lain in the middle and whose code fails comes as POISON and is counted (R80, R84,
R86). -/
def State.popWord (s : State) (q : Nat) (codeBad : Bool) : Option QItem × State :=
  let s := s.access q
  let x := s.queue q
  match x.items with
  | [] => (none, s)
  | i :: _ =>
    let bad := codeBad && x.middle.contains x.head
    let s := if bad then s.bump Reg.SPQ_EVENTS_POISONED q else s
    (some (if bad then { i with tag := 3 } else i), (s.setQueue q (x.popped 1)).showQueue q)

/-- A queue that a hardware consumer reads (Table ING-6, CONS). -/
def State.hardwareRead (s : State) (q : Nat) : Bool :=
  queueBuilt q && !s.flag Reg.SPQ_CTRL_CONS q && q != 0x14 && q != 0x15

/-- A hardware consumer reads one word of its queue: IDLE when COUNT is 0 (R83). `upset` says that a pointer of the queue has been upset
before; the next access, this one or another, finds the mismatch and resets the queue (R86). -/
def execQueueRead (queue : Fin 51) (codeBad upset : Bool) (s : State) : Res :=
  let q := queue.val
  let s := if upset && queueBuilt q then s.upsetPointer q else s
  if !s.hardwareRead q then .next s
  else match s.popWord q codeBad with
    | (none, s) => .next s
    | (some i, s) => .next (s.setQueue q { s.queue q with inbox := (s.queue q).inbox ++ [i] })

/-- SPQ_WORD0 to SPQ_WORD7 and SPQ_POP.TAG of a queue show a word. -/
def State.showWord (s : State) (q : Nat) (i : QItem) : State :=
  let s := s.wr Reg.SPQ_POP_TAG i.tag q
  [Reg.SPQ_WORD0_DATA, Reg.SPQ_WORD1_DATA, Reg.SPQ_WORD2_DATA, Reg.SPQ_WORD3_DATA, Reg.SPQ_WORD4_DATA, Reg.SPQ_WORD5_DATA,
   Reg.SPQ_WORD6_DATA, Reg.SPQ_WORD7_DATA].zipIdx.foldl (fun s e => s.wr e.1 (fld i.data (4 * e.2) 4) q) s

/-- A read of SPQ_POP pops the head word of a queue with CONS 1 and latches it; otherwise it returns IDLE and pops nothing
(R83, R86, R87). -/
def State.spqPop (s : State) (q : Nat) (codeBad upset : Bool) : State :=
  let s := if upset then s.upsetPointer q else s
  if !s.flag Reg.SPQ_CTRL_CONS q then s.wr Reg.SPQ_POP_TAG 0 q
  else match s.popWord q codeBad with
    | (none, s) => s.wr Reg.SPQ_POP_TAG 0 q
    | (some i, s) => s.showWord q i

def execSpqPop (queue : Fin 51) (codeBad upset : Bool) (s : State) : Res :=
  if !queueBuilt queue.val then .next s else .next (s.spqPop queue.val codeBad upset)

end Sys2Proof.Machine
end

