-- ==== Sys2Proof/Machine/HatchCore.lean ====
section
/-! DEFINITION. Hatch: its tables and their checks, the epochs it processes, the input close and the stage watchdogs (R95 to
R99, R111, R126, R128, Tables HAT-2 to HAT-17). -/

namespace Sys2Proof.Machine

/-! ### Tables (Table HAT-2) -/

/-- Number of entries of a Hatch table. -/
def hatEntries (id : Nat) : Nat := [0, 64, 64, 64, 64, 8, 8, 64, 8, 64].getD id 0

/-- A signed 32-bit field. -/
def State.hatI (s : State) (b id i o : Nat) : Int := sext 32 (s.hat1 b id i o 4)

def htCamera : Nat := 1
def htDecomp : Nat := 2
def htTone : Nat := 3
def htRemap : Nat := 4
def htLidar : Nat := 5
def htOdo : Nat := 6
def htPolicy : Nat := 8
def htVote : Nat := 9

/-- The checks of a field descriptor in use of a lidar format table (Table HAT-5). -/
def lidarFieldBad (l : List Byte) (n : Nat) : List (Nat × Bool) :=
  let o := 64 + 12 * n
  [(o + 2, !decide (1 ≤ fld l (o + 2) 1 ∧ fld l (o + 2) 1 ≤ 32)),
   (o + 3, decide (16 ≤ fld l (o + 3) 1) || decide (2 < bits (fld l (o + 3) 1) 0 2)),
   (o + 4, !decide (1 ≤ fld l (o + 4) 1 ∧ fld l (o + 4) 1 ≤ 14)), (o + 5, decide (31 < fld l (o + 5) 1)),
   (o + 6, !zeroAt l (o + 6) 2)]

/-- The checks of a state entry in use (Table HAT-6). -/
def lidarStateBad (l : List Byte) (n : Nat) : List (Nat × Bool) :=
  let o := 256 + 16 * n
  [(o + 2, decide (4 < fld l (o + 2) 1)), (o + 3, decide (7 < fld l (o + 3) 1)), (o + 4, decide (7 < fld l (o + 4) 1)),
   (o + 5, !zeroAt l (o + 5) 3)]

/-- The checks of a lidar format table (Tables HAT-4 to HAT-6). -/
def lidarBad (l : List Byte) : List (Nat × Bool) :=
  [(8, !decide (1 ≤ fld l 8 2 ∧ fld l 8 2 ≤ 64)), (14, !decide (1 ≤ fld l 14 2 ∧ fld l 14 2 ≤ 512)), (20, decide (2 < fld l 20 1)),
   (21, decide (1 < fld l 21 1)), (22, decide (4 ≤ fld l 22 1)), (23, !decide (1 ≤ fld l 23 1 ∧ fld l 23 1 ≤ 16)),
   (32, decide (7 < fld l 32 1)), (33, !decide (1 ≤ fld l 33 1 ∧ fld l 33 1 ≤ 8)), (34, !zeroAt l 34 2), (40, !zeroAt l 40 24)] ++
  (List.range (min 16 (fld l 23 1))).flatMap (lidarFieldBad l) ++ (List.range (min 8 (fld l 33 1))).flatMap (lidarStateBad l) ++
  [(896, !zeroAt l 896 128)]

/-- An output size of a camera entry. -/
def outSizeOk (v : Nat) : Bool := decide (64 ≤ v ∧ v ≤ 4096 ∧ v % 4 = 0)

/-- The offset of the first field of an entry of table `id` that breaks its range or is reserved and not zero; an entry of zeros
is unused (R99). -/
def hatEntryBad (id : Nat) (l : List Byte) : Option Nat :=
  if l.all (· == 0#8) then none
  else firstBad (match id with
  | 1 => [(0, !decide (8 ≤ fld l 0 1 ∧ fld l 0 1 ≤ 20)), (1, decide (3 < fld l 1 1)), (2, decide (1 < fld l 2 1)),
      (3, decide (32 ≤ fld l 3 1)), (8, !outSizeOk (fld l 8 2)), (10, !outSizeOk (fld l 10 2)), (34, !zeroAt l 34 2),
      (40, !zeroAt l 40 24)]
  | 2 => (List.range 257).map (fun i => (4 * i, decide (0xFFFFFF < fld l (4 * i) 4)))
  | 5 => lidarBad l
  | 6 => [(6, fld l 8 1 != 0 && !decide (1 ≤ fld l 6 1 ∧ fld l 6 1 ≤ 32)), (7, decide (4 ≤ fld l 7 1)), (8, decide (6 < fld l 8 1)),
      (9, decide (31 < fld l 9 1)), (10, !zeroAt l 10 2)]
  | 7 => [(4, decide (4 ≤ fld l 4 2)), (6, decide (2 < fld l 6 1)),
      (7, if fld l 6 1 = 1 then !decide (8 ≤ fld l 7 1 ∧ fld l 7 1 ≤ 64) else fld l 7 1 != 0), (80, !zeroAt l 80 16)]
  | 8 => [(4, fld l 4 1 == 0), (5, fld l 5 1 == 0), (6, !decide (1 ≤ fld l 6 1 ∧ fld l 6 1 ≤ 3)), (7, !zeroAt l 7 1),
      (12, !zeroAt l 12 4)]
  | 9 => [(4, !decide (1 ≤ fld l 4 2 ∧ fld l 4 2 ≤ 1000)), (14, fld l 14 1 == 0), (15, !zeroAt l 15 1)]
  | _ => [])

/-- An entry of table `id` keeps its ranges and reserved fields (R99). -/
def hatEntryOk (id : Nat) (l : List Byte) : Bool := (hatEntryBad id l).isNone

/-- The versions of the VALID entries of a transform bank are one (R111). -/
def xformVersionsOk (bank : List (List Byte)) : Bool :=
  match bank.filter (fun l => bit (fld l 4 2) 0) with
  | [] => true
  | l :: r => r.all (fun m => fld m 0 4 == fld l 0 4)

/-- Entry `i` of the table as bytes. -/
def State.hatBytes (s : State) (b id i : Nat) : List Byte := s.bytes (hatAddr b id i) (hatSize id)

/-! ### Transform entries (Table HAT-10) -/

def State.xfValid (s : State) (b i : Nat) : Bool := bit (s.hat1 b htXform i 4 2) 0
def State.xfMatch (s : State) (b i : Nat) : Bool := bit (s.hat1 b htXform i 4 2) 1

/-! ### Epochs -/

/-- A Hatch stage serves: its unit is built and not offline, and PD_HAT is on (R19, R468). -/
def State.stageUp (s : State) (k : Nat) : Bool := s.unitUp (unitId 9 k)

/-- Hatch executes: its domain is on and its island runs (R17, R19). -/
def State.hatchRuns (s : State) : Bool := s.domainOn (unitId 9 1) && !s.gated islHat

/-- The ruling entry of sensor `i` in the banks of an epoch (R97): its `n`-byte field at offset `o`. -/
def State.epochRul (s : State) (e : HEpoch) (i o n : Nat) : Option Nat :=
  let r := s.num (sensAddr e.sensBank i + 4) 2
  if r < 256 ∧ s.rulIn e.rulBank r 0 2 / 4096 ≠ 0 then some (s.rulIn e.rulBank r o n) else none

/-- Hatch opens an epoch with the banks that are active, once the boot region is released (R97, R539, Table ARC-9). -/
def State.openEpoch (s : State) (no start : Nat) : State :=
  if !s.flag Reg.HAT_CTRL_RUN || s.power ≠ .up || !s.flag Reg.MEM_RELEASE_BOOT then s
  else
    let e : HEpoch :=
      { no := no, start := start, lenNs := s.epochLen, bank := s.hatBank, rulBank := s.rulBank,
        sensBank := s.rd Reg.ING_ST_CTRL_BANK, frames := s.schedule start, stage := .input, closeNs := 0,
        closeTick := 0, stepped := false, watchdog := false, noGrid := false, uncal := false, egoDegraded := false,
        egoLost := false, pointDrops := false, sweeps := [], shadow := [], pointsIn := 0, dropped := 0, poses := [],
        points := [], shadowPoints := [], fusedCount := 0, planes := [], shadowPlanes := [], grid := [], disputed := 0, occupied := 0 }
    s.setEpochs (s.hat.epochs ++ [e])

/-! ### Stage watchdogs (R128, Table HAT-17) -/

/-- The epoch had input for the stages after the input close. -/
def hadInput (e : HEpoch) : Bool := !e.sweeps.isEmpty || e.frames.any (fun f => f.state == .fused)

/-- What a KILL of a stage's watchdog abandons: frames not yet ended for H1 and H2, the rest of the epoch's stages otherwise;
the record is still written, without a grid (R127, R364). -/
def killStage (k : Nat) (sensors : List Nat) (e : HEpoch) : HEpoch :=
  if k ≤ 2 then
    { e with frames := e.frames.map (fun f => if f.state = .expected ∧ sensors.contains f.sensor then { f with state := .missed } else f) }
  else { e with stage := .voted, noGrid := true }

/-- A stage's watchdog fails on the epoch it works on: its event, WATCHDOG in the epoch record when one is still to be written, and
its reaction entry (R128, R362 to R366). -/
def State.watchdogFail (s : State) (k : Nat) (late : Bool) : State :=
  let no := s.hat.stageEpoch.get s.tm.epochNo k
  let entry := 2 * (k - 1) + late.toNat
  let action := (s.countReaction entry).2
  let us := match s.hat.running.find k with | some t => (s.ticks - t) / 250 | none => 0
  let s := s.modEpoch no (fun e => { e with watchdog := true })
  let s := s.raise 0x0403 (unitId 9 k) (le 1 k ++ le 1 late.toNat ++ le 4 no)
  let s := s.violate 2 k (unitId 9 k) (if late then 2 else 1) entry no us [] []
  if action = 1 then s.modEpoch no (killStage k ((List.range 64).filter (fun i => s.sensor i 0 1 == k))) else s

/-- A Hatch stage watchdog fails: late, when the stage still runs at its late limit; early, when it completed before its early limit
with input (R128). -/
def execHatchWatchdog (stage : Fin 6) (late : Bool) (s : State) : Res :=
  let k := stage.val + 1
  if late then
    match s.hat.running.find k with
    | some t =>
      if s.passed t (usTicks (s.rd Reg.HAT_WD_LATE_US (k - 1))) ∧ !s.hat.lateHit.contains k then
        .next (({ s with hat := { s.hat with lateHit := s.hat.lateHit ++ [k] } } : State).watchdogFail k true)
      else .next s
    | none => .next s
  else if s.hat.early.contains k then
    .next (({ s with hat := { s.hat with early := s.hat.early.filter (· != k) } } : State).watchdogFail k false)
  else .next s

/-! ### Input close (R95, R126) -/

/-- The input of an epoch closes: frames not yet ended take the code of R124. -/
def State.closeInput (s : State) (n : Nat) : State :=
  let ends := fun (f : HFrame) => if f.state = .expected then { f with state := s.verdict f.sensor false true } else f
  let s := s.modEpoch n (fun e => { e with frames := e.frames.map ends, stage := .closed, closeNs := s.dt64, closeTick := s.ticks })
  (s.stageDone 2 (s.hat.epochs.any (fun e => e.no == n && e.pointsIn != 0))).startStage 3 n

/-- Hatch closes the input of its oldest open epoch once every scheduled frame has ended or passed its deadline (R95). -/
def execHatchInputClose (s : State) : Res :=
  match s.epochAtStage .input with
  | none => .next s
  | some e =>
    if s.hatchRuns ∧ e.frames.all (fun f => f.state != .expected || decide (f.due < s.dt64)) then .next (s.closeInput e.no)
    else .next s

/-- A step of device time closes the input of the epoch in progress; its frames not yet ended are MISSED (R41, R126). -/
def State.stepEpoch (s : State) : State :=
  match s.hat.epochs.getLast? with
  | none => s
  | some e =>
    let s := s.modEpoch e.no (fun e => { e with stepped := true })
    if e.stage = .input then
      let s := s.modEpoch e.no (fun e => { e with frames := e.frames.map (fun f =>
        if f.state = .expected then { f with state := .missed } else f) })
      s.closeInput e.no
    else s

end Sys2Proof.Machine
end

