-- ==== Sys2Proof/Machine/HatchCamera.lean ====
section
/-! DEFINITION. H1, the camera pipe: unpacking, demosaic, curves, colour, remap, output format and the frame trailer (R96,
R100, R101, R535, Table HAT-3). -/

namespace Sys2Proof.Machine

/-! ### Pixels of a CSI-2 line (MIPI CSI-2; log entry 50) -/

/-- Samples of 5 bytes that carry 4 values of 10 bits. -/
def unpack10 : Nat → List Byte → List Nat
  | n + 1, a :: b :: c :: d :: e :: r =>
    [a, b, c, d].zipIdx.map (fun p => p.1.toNat * 4 + bits e.toNat (2 * p.2) 2) ++ unpack10 n r
  | _, _ => []

/-- Samples of 3 bytes that carry 2 values of 12 bits. -/
def unpack12 : Nat → List Byte → List Nat
  | n + 1, a :: b :: c :: r => (a.toNat * 16 + c.toNat % 16) :: (b.toNat * 16 + c.toNat / 16) :: unpack12 n r
  | _, _ => []

/-- Samples of 7 bytes that carry 4 values of 14 bits. -/
def unpack14 : Nat → List Byte → List Nat
  | n + 1, a :: b :: c :: d :: e :: f :: g :: r =>
    let low := leNat [e, f, g]
    [a, b, c, d].zipIdx.map (fun p => p.1.toNat * 64 + bits low (6 * p.2) 6) ++ unpack14 n r
  | _, _ => []

/-- Samples of 2 bytes, the most significant first. -/
def unpack16 : Nat → List Byte → List Nat
  | n + 1, a :: b :: r => (a.toNat * 256 + b.toNat) :: unpack16 n r
  | _, _ => []

/-- Pairs of 10-bit values joined to 20-bit values. -/
def join20 : List Nat → List Nat
  | a :: b :: r => (a * 1024 + b) :: join20 r
  | _ => []

/-- The raw samples of a line of a RAW data type. -/
def unpackRaw (t : Nat) (l : List Byte) : List Nat :=
  match t with
  | 0x2A => l.map (·.toNat)
  | 0x2B => unpack10 l.length l
  | 0x2C => unpack12 l.length l
  | 0x2D => unpack14 l.length l
  | 0x2E => unpack16 l.length l
  | _ => join20 (unpack10 l.length l)

/-- The pixels of an RGB888 line, blue first: (R, G, B). -/
def unpackRgb : Nat → List Byte → List (Nat × Nat × Nat)
  | n + 1, b :: g :: r :: rest => (r.toNat, g.toNat, b.toNat) :: unpackRgb n rest
  | _, _ => []

/-- The pixels of a YUV422 8-bit line, U Y V Y: (Y, U, V). -/
def unpackYuv : Nat → List Byte → List (Nat × Nat × Nat)
  | n + 1, u :: y :: v :: z :: rest => (y.toNat, u.toNat, v.toNat) :: (z.toNat, u.toNat, v.toNat) :: unpackYuv n rest
  | _, _ => []

/-! ### Curves (text after Table HAT-3) -/

/-- A curve `c` of 257 points over an input of `n` bits. -/
def curveAt (c : Nat → Int) (n x : Nat) : Int :=
  let k := x >>> (n - 8)
  let f := x % 2 ^ (n - 8)
  c k + rnd ((c (k + 1) - c k) * f) (n - 8)

/-! ### Images -/

/-- An image: width, height, and the pixel at (x, y) of each of three channels. -/
structure Img where
  w : Nat
  h : Nat
  px : List (List (Int × Int × Int))

/-- The pixel at a column and row within the image, edges replicated. -/
def Img.get (m : Img) (x y : Int) : Int × Int × Int :=
  let row := m.px.getD (clampI 0 (m.h - 1) y).toNat []
  row.getD (clampI 0 (m.w - 1) x).toNat (0, 0, 0)

/-- The image whose pixel at (x, y) is `f x y`. -/
def Img.make (w h : Nat) (f : Nat → Nat → Int × Int × Int) : Img :=
  ⟨w, h, (List.range h).map (fun y => (List.range w).map (fun x => f x y))⟩

/-- A linear sample plane with edge samples replicated. -/
def rawAt (rows : List (List Int)) (w h : Nat) (x y : Int) : Int :=
  (rows.getD (clampI 0 (h - 1) y).toNat []).getD (clampI 0 (w - 1) x).toNat 0

/-- Bilinear demosaic over 3 x 3: red at even columns of even rows, blue at odd columns of odd rows, green or clear elsewhere. -/
def demosaic (rows : List (List Int)) (w h : Nat) : Img :=
  Img.make w h (fun x y =>
    let p := fun (dx dy : Int) => rawAt rows w h (x + dx) (y + dy)
    let hor := rnd (p (-1) 0 + p 1 0) 1
    let ver := rnd (p 0 (-1) + p 0 1) 1
    let cross := rnd (p (-1) 0 + p 1 0 + p 0 (-1) + p 0 1) 2
    let diag := rnd (p (-1) (-1) + p 1 (-1) + p (-1) 1 + p 1 1) 2
    match x % 2, y % 2 with
    | 0, 0 => (p 0 0, cross, diag)
    | 1, 0 => (hor, p 0 0, ver)
    | 0, _ => (ver, p 0 0, hor)
    | _, _ => (diag, cross, p 0 0))

/-- The colour matrix (int16 Q3.12, row-major) applied to a pixel, clamped to 24 bits. -/
def colour (m : List Byte) (p : Int × Int × Int) : Int × Int × Int :=
  let c := fun (i : Nat) => sext 16 (fld m (2 * i) 2)
  let row := fun (i : Nat) => clampI 0 0xFFFFFF (rnd (c i * p.1 + c (i + 1) * p.2.1 + c (i + 2) * p.2.2) 12)
  (row 0, row 3, row 6)

/-- A function applied to each channel. -/
def each (f : Int → Int) (p : Int × Int × Int) : Int × Int × Int := (f p.1, f p.2.1, f p.2.2)

/-- Resampling through a source position in 1/256 pixel: bilinear with 8-bit weights; positions outside the image give zero
in every channel (R100). -/
def Img.sample (m : Img) (sx sy : Int) : Int × Int × Int :=
  if sx < 0 ∨ sy < 0 ∨ ((m.w : Int) - 1) * 256 < sx ∨ ((m.h : Int) - 1) * 256 < sy then (0, 0, 0)
  else
    let x := sx / 256
    let y := sy / 256
    let fx := sx % 256
    let fy := sy % 256
    let mix := fun (g : Int × Int × Int → Int) =>
      rnd (g (m.get x y) * (256 - fx) * (256 - fy) + g (m.get (x + 1) y) * fx * (256 - fy) +
           g (m.get x (y + 1)) * (256 - fx) * fy + g (m.get (x + 1) (y + 1)) * fx * fy) 16
    (mix (·.1), mix (·.2.1), mix (·.2.2))

/-- The blend of four values with weights (X and 31), (Y and 31), rounded by rnd(., 10). -/
def blend32 (a b c d : Int) (wx wy : Nat) : Int :=
  rnd (a * (32 - wx) * (32 - wy) + b * wx * (32 - wy) + c * (32 - wx) * wy + d * wx * wy) 10

/-- The remap grid of sensor `i` in a bank: the source position of output pixel (X, Y), or the pixel itself without REMAP. -/
def State.sourceOf (s : State) (b i outW : Nat) (remap : Bool) (x y : Nat) : Int × Int :=
  if !remap then ((x * 256 : Nat), (y * 256 : Nat))
  else
    let across := (outW + 31) / 32 + 1
    let node := fun (a c : Nat) (o : Nat) => s.hatI b htRemap i (8 * (c * across + a) + o)
    let at4 := fun (o : Nat) => blend32 (node (x / 32) (y / 32) o) (node (x / 32 + 1) (y / 32) o) (node (x / 32) (y / 32 + 1) o)
      (node (x / 32 + 1) (y / 32 + 1) o) (x % 32) (y % 32)
    (at4 0, at4 4)

/-! ### Output format -/

/-- BT.709 in full range: (y, u, v) of an 8-bit RGB pixel. -/
def toYuv (p : Int × Int × Int) : Int × Int × Int :=
  (rnd (54 * p.1 + 183 * p.2.1 + 19 * p.2.2) 8, rnd (-29 * p.1 - 99 * p.2.1 + 128 * p.2.2) 8 + 128,
   rnd (128 * p.1 - 116 * p.2.1 - 12 * p.2.2) 8 + 128)

/-- An output byte; a value that does not fit one is the `n`th free value (log entry 51). -/
def pixByte (n : Nat) (v : Int) : Byte :=
  if 0 ≤ v ∧ v ≤ 255 then BitVec.ofNat 8 v.toNat else BitVec.ofNat 8 (Config.free n)

/-- The planes of an output image: width, height, and rows of interleaved values. -/
structure Plane where
  w : Nat
  h : Nat
  comps : Nat
  rows : List (List Int)

/-- The planes of an image: packed RGB, or the Y plane and the plane of interleaved U and V. -/
def planesOf (rgb : Bool) (m : Img) : List Plane :=
  if rgb then [⟨m.w, m.h, 3, m.px.map (fun r => r.flatMap (fun p => [p.1, p.2.1, p.2.2]))⟩]
  else
    let sum := fun (g : Int × Int × Int → Int) (x y : Nat) =>
      (g (m.get (2 * x : Nat) (2 * y : Nat)) + g (m.get (2 * x + 1 : Nat) (2 * y : Nat)) + g (m.get (2 * x : Nat) (2 * y + 1 : Nat)) +
       g (m.get (2 * x + 1 : Nat) (2 * y + 1 : Nat)) + 2) / 4
    [⟨m.w, m.h, 1, m.px.map (fun r => r.map (·.1))⟩,
     ⟨m.w / 2, m.h / 2, 2, (List.range (m.h / 2)).map (fun y => (List.range (m.w / 2)).flatMap (fun x =>
        [sum (·.2.1) x y, sum (·.2.2) x y]))⟩]

/-- Box-filter decimation of a plane by `k` = 2 or 4 (log entry 52). -/
def Plane.decimate (k : Nat) (p : Plane) : Plane :=
  let n := if k = 2 then 2 else 4
  ⟨p.w / k, p.h / k, p.comps, (List.range (p.h / k)).map (fun y => (List.range (p.w / k)).flatMap (fun x =>
    (List.range p.comps).map (fun c =>
      rnd ((List.range k).flatMap (fun dy => (List.range k).map (fun dx =>
        (p.rows.getD (y * k + dy) []).getD ((x * k + dx) * p.comps + c) 0))).sum n)))⟩

/-- The bytes of a list of planes; free values count from `n`. -/
def planeBytes (n : Nat) (l : List Plane) : List Byte :=
  (l.flatMap (fun p => p.rows.flatMap id)).zipIdx.map (fun e => pixByte (n + e.2) e.1)

/-! ### The pipe (text after Table HAT-3) -/

/-- A pixel whose value the spec does not state: out of range, so that its bytes are free values (log entry 51). -/
def unstated (_ : Int × Int × Int) : Int × Int × Int := (-2 ^ 40, -2 ^ 40, -2 ^ 40)

/-- The 8-bit image of a frame: `lines` are the payloads of its image lines of data type `t`. -/
def State.pipe (s : State) (b i t : Nat) (lines : List (List Byte)) : Img :=
  let cam := s.hatBytes b htCamera i
  let n := fld cam 0 1
  let flags := fld cam 3 1
  let black := fld cam 4 4
  let tone := fun (x : Int) =>
    if bit flags 1 then min 255 (rnd (curveAt (fun k => s.hat1 b htTone i (2 * k) 2) 24 x.toNat) 8) else x / 65536
  let full : Img :=
    if fld cam 1 1 = 3 then
      let rows := lines.map (fun l => if t = 0x24 then unpackRgb l.length l else unpackYuv l.length l)
      let m : Img := ⟨(rows.headD []).length, rows.length, rows.map (fun r => r.map (fun p => ((p.1 : Int), (p.2.1 : Int), (p.2.2 : Int))))⟩
      ⟨m.w, m.h, m.px.map (fun r => r.map (if t = 0x1E ∧ fld cam 2 1 = 1 then unstated else each (fun v => tone (v * 65536))))⟩
    else
      let raw := lines.map (unpackRaw t)
      let linear := fun (x : Nat) =>
        let x := x - black
        if bit flags 0 then curveAt (fun k => s.hat1 b htDecomp i (4 * k) 4) n x else (x : Int) * 2 ^ (24 - n)
      let m := demosaic (raw.map (fun r => r.map linear)) (raw.headD []).length raw.length
      ⟨m.w, m.h, m.px.map (fun r => r.map (fun p => each tone (colour (cam.drop 16) p)))⟩
  let ow := fld cam 8 2
  Img.make ow (fld cam 10 2) (fun x y => let p := s.sourceOf b i ow (bit flags 2) x y; full.sample p.1 p.2)

/-- The output planes of a frame. A YUV422 input keeps its components in a YUV output; their RGB values are free values, zero outside
the image (R100; log entry 51). -/
def State.output (s : State) (b i t : Nat) (m : Img) : List Plane :=
  let cam := s.hatBytes b htCamera i
  let rgb := fld cam 2 1 == 1
  let yuvIn := fld cam 1 1 == 3 && t == 0x1E
  if rgb then planesOf true m
  else planesOf false (if yuvIn then m else ⟨m.w, m.h, m.px.map (fun r => r.map toYuv)⟩)

/-- The 32-byte frame trailer: sensor index, VALID, frame number, epoch number (R101; log entry 53). -/
def trailer (i : Nat) (valid : Bool) (frame epoch : Nat) : List Byte :=
  padTo 32 (le 1 i ++ le 1 valid.toNat ++ le 2 0 ++ le 4 frame ++ le 4 epoch)

/-- An output image with its trailer goes to `dst` (Table HAT-3): plate memory of an online plate, or a DDR4 image ring, back
to back; what cannot be placed is discarded and counted (R535). -/
def State.placeImage (s : State) (dst : Nat) (l : List Byte) : State :=
  if bit dst 31 then
    let r := bits dst 0 4
    let n := l.length
    if 0x1000000 < n then s.bump Reg.HAT_CNT_DST_DROPS
    else
      let pos := s.hat.ringPos.get 0 r
      let pos := if 0x1000000 < pos + n then 0 else pos
      let s := { s with hat := { s.hat with ringPos := s.hat.ringPos.set r (pos + n) } }
      if s.flag Reg.MEM_RELEASE_BOOT then s.bootWrite (unitId 9 1) (0x19400000 + r * 0x1000000 + pos) l else s
  else
    match s.platesOn[bits dst 24 5]? with
    | some p =>
      if s.plateOnline p ∧ bits dst 0 22 + l.length ≤ 2 ^ 22 then s.store (plateAddr p (bits dst 0 22)) l
      else s.bump Reg.HAT_CNT_DST_DROPS
    | none => s.bump Reg.HAT_CNT_DST_DROPS

/-! ### Frames of a camera queue -/

/-- A packet taken: its LENGTH word, payload, and whether it is damaged. -/
abbrev CamPkt := List Byte × List Byte × Bool

def pktType (p : CamPkt) : Nat := bits (fld p.1 10 1) 0 6
def pktVc (p : CamPkt) : Nat := bits (fld p.1 10 1) 6 2

/-- Packets are taken from queue `q` up to a Frame End; `n` bounds their number. -/
def State.takeFrame (q : Nat) : Nat → List CamPkt → State → Option (List CamPkt × State)
  | 0, _, _ => none
  | n + 1, acc, s =>
    match s.dequeue q with
    | none => none
    | some (h, ws, s) =>
      let p : CamPkt := (h.data, packetBytes h ws, packetBad h ws)
      if pktType p = 1 then some (acc ++ [p], s) else State.takeFrame q n (acc ++ [p]) s

/-- The packets from the last Frame Start on. -/
def sinceStart (l : List CamPkt) : List CamPkt :=
  l.foldl (fun a p => if pktType p = 0 then [p] else a ++ [p]) []

/-- The trigger time that a frame of sensor `i` starting at `stamp` was paired with. -/
def State.pairedTrig (s : State) (i stamp : Nat) : Nat :=
  match (s.sensSt i).paired.find? (fun e => e.1 == stamp) with
  | some e => e.2
  | none => stamp

/-- A frame's output is written: the image, its decimated copy, each with its trailer. -/
def State.writeImage (s : State) (b i t frame epoch : Nat) (valid : Bool) (lines : List (List Byte)) : State :=
  let cam := s.hatBytes b htCamera i
  let planes := s.output b i t (s.pipe b i t lines)
  let flags := fld cam 3 1
  let tail := trailer i valid frame epoch
  let img := planeBytes s.free planes
  let s := ({ s with free := s.free + img.length } : State).placeImage (fld cam 12 4) (img ++ tail)
  if bit flags 3 || bit flags 4 then
    let small := planeBytes s.free (planes.map (Plane.decimate (if bit flags 4 then 4 else 2)))
    ({ s with free := s.free + small.length } : State).placeImage (fld cam 36 4) (small ++ tail)
  else s

/-- A camera frame of sensor `i` that ended is processed with the banks of its epoch (R96, R97, R101); a frame of an epoch
that Hatch no longer holds is not VALID. -/
def State.cameraFrame (s : State) (i : Nat) (l : List CamPkt) : State :=
  let first := l.headD ([], [], false)
  let last := l.getLastD first
  let t := s.pairedTrig i (fld first.1 16 8)
  let e := s.epochWith t
  let no := match e with | some e => e.no | none => s.epochOf t
  let bank := match e with | some e => e.bank | none => s.hatBank
  let wasOpen := match e with | some e => e.stage == .input | none => false
  let status := fld last.1 8 1
  let late := s.frameLate i t (fld last.1 16 8)
  let damaged := l.any (fun p => p.2.2) || bit status 3 || late || pktType first != 0 || !s.stageUp 1
  let s := if late then s.bump Reg.HAT_CNT_LATE_FRAMES else s
  let v := s.verdict i (bit status 2) damaged
  let valid := wasOpen && v == .fused
  let s := if wasOpen then s.endFrame no i t v else s
  let shadow := wasOpen && s.inShadow i (bit status 2) damaged
  let s := { s with hat := { s.hat with
    valid := if valid then (i, no) :: s.hat.valid.take 255 else s.hat.valid,
    shadowValid := if shadow then (i, no) :: s.hat.shadowValid.take 255 else s.hat.shadowValid } }
  let s := s.acceptPlanes
  let lines := l.filter (fun p => dataTypeImage (pktType p))
  match lines.head? with
  | some p =>
    if (s.hatBytes bank htCamera i).all (· == 0#8) ∨ !s.stageUp 1 then s
    else s.writeImage bank i (pktType p) (fld first.1 12 4) no valid (lines.map (·.2.1))
  | none => s

/-- H1 finishes the next camera frame of a port: its output image and trailer are written (R101). Packets of other virtual
channels stay until their own frame ends. -/
def execH1FrameDone (port : Fin 12) (s : State) : Res :=
  let q := port.val
  match if s.hatchRuns then s.takeFrame q ((s.queue q).stream.length + 1) (s.hat.camBuf.get [] q) else none with
  | none => .next s
  | some (l, t) =>
    let last := l.getLastD ([], [], false)
    let mine := l.filter (fun p => pktVc p == pktVc last)
    let rest := l.filter (fun p => pktVc p != pktVc last)
    let t := { t with hat := { t.hat with camBuf := t.hat.camBuf.set q rest } }
    if s.flag Reg.HAT_CTRL_RUN ∧ !s.flag Reg.SPQ_CTRL_CONS q then
      .next ((t.cameraFrame (fld last.1 9 1) (sinceStart mine)).stageDone 1 true).startH1
    else .next s

end Sys2Proof.Machine
end

