-- ==== Sys2Proof/Machine/HatchLidar.lean ====
section
/-! DEFINITION. H2, lidar decode: the packet state machine, fields, polar conversion and sweeps (R96, R102 to R106, Tables
HAT-4 to HAT-7). -/

namespace Sys2Proof.Machine

/-! ### The quarter-wave sine table (text after Table HAT-5) -/

/-- pi in units of 2^-96. -/
def pi96 : Nat := 248902613312231085230521944622

/-- The Taylor sum of the sine of `x` (units of 2^-96) from term `t` of degree `d` on; `n` bounds the terms. -/
def sinSum (x : Nat) : Nat → Nat → Int → Int → Int
  | 0, _, _, acc => acc
  | n + 1, d, t, acc =>
    let u := -(t * x / 2 ^ 96 * x / 2 ^ 96) / (((d + 1) * (d + 2) : Nat) : Int)
    sinSum x n (d + 2) u (acc + u)

/-- s[k] = round(sin(pi k / 2048) x 2^29). -/
def sineTab (k : Nat) : Int :=
  let x := pi96 * k / 2048
  (sinSum x 30 1 x x + 2 ^ 66) / 2 ^ 67

/-- The sine within the first quadrant: `a` counts 2^-24 turn, 0 to 2^22. -/
def quarterSin (a : Nat) : Int :=
  let k := a / 4096
  if 1024 ≤ k then sineTab 1024 else sineTab k + rnd ((sineTab (k + 1) - sineTab k) * (a % 4096 : Nat)) 12

/-- The sine of an angle in 2^-24 turn, Q29. -/
def sinTurn (a : Int) : Int :=
  let u := toU 24 a
  let q := u / 2 ^ 22
  let f := u % 2 ^ 22
  match q with
  | 0 => quarterSin f
  | 1 => quarterSin (2 ^ 22 - f)
  | 2 => -quarterSin f
  | _ => -quarterSin (2 ^ 22 - f)

def cosTurn (a : Int) : Int := sinTurn (a + 2 ^ 22)

/-- Range, azimuth and elevation to x, y, z (text after Table HAT-5). -/
def polar (r az el : Int) : Int × Int × Int :=
  let flat := rnd (r * cosTurn el) 29
  (rnd (flat * cosTurn az) 29, rnd (flat * sinTurn az) 29, rnd (r * sinTurn el) 29)

/-! ### Fields (Table HAT-5) -/

def lcX : Nat := 1
def lcY : Nat := 2
def lcZ : Nat := 3
def lcRange : Nat := 4
def lcAzimuth : Nat := 5
def lcElevation : Nat := 6
def lcIntensity : Nat := 7
def lcRing : Nat := 8
def lcTime : Nat := 9
def lcTimeS : Nat := 10
def lcTimeNs : Nat := 11
def lcSeq : Nat := 12
def lcReturn : Nat := 13
def lcValid : Nat := 14

/-- The raw bits of a field `ofs` bits from byte `base`: counted from the least significant bit of the first byte, or from its
most significant bit when big-endian (log entry 54). -/
def rawBits (l : List Byte) (base ofs width : Nat) (big : Bool) : Nat :=
  let n := (ofs % 8 + width + 7) / 8
  let b := slice l (base + ofs / 8) n
  if big then bits (beNat b) (8 * n - ofs % 8 - width) width else bits (leNat b) (ofs % 8) width

/-- One field descriptor of a format table. -/
structure LidarField where
  ofs : Nat
  width : Nat
  level : Nat
  signed : Bool
  big : Bool
  code : Nat
  shift : Nat
  mul : Int

/-- The field descriptors of a format table in use. -/
def lidarFields (t : List Byte) : List LidarField :=
  (List.range (fld t 23 1)).map (fun n =>
    let o := 64 + 12 * n
    let ty := fld t (o + 3) 1
    ⟨fld t o 2, fld t (o + 2) 1, bits ty 0 2, bit ty 2, bit ty 3, fld t (o + 4) 1, fld t (o + 5) 1, sext 32 (fld t (o + 8) 4)⟩)

/-- Where a packet, a block and a point begin. -/
structure Place where
  payload : List Byte
  block : Nat
  point : Nat

/-- The raw value of a field at a place. -/
def LidarField.raw (f : LidarField) (p : Place) : Nat :=
  rawBits p.payload (if f.level = 0 then 0 else if f.level = 1 then p.block else p.point) f.ofs f.width f.big

/-- A field's value: rnd(raw x mul, shift). -/
def LidarField.value (f : LidarField) (p : Place) : Int :=
  rnd ((if f.signed then sext f.width (f.raw p) else (f.raw p : Int)) * f.mul) f.shift

/-- The first field with a code. -/
def fieldOf (fs : List LidarField) (c : Nat) : Option LidarField := fs.find? (fun f => f.code == c)

/-- The value of the field with a code, or zero. -/
def valueOf (fs : List LidarField) (c : Nat) (p : Place) : Int := match fieldOf fs c with | some f => f.value p | none => 0

/-- The seconds nearest the ingest stamp whose low 32 bits are `low`. -/
def nearSeconds (low : Nat) (stamp : Nat) : Nat :=
  let now := stamp / 1000000000
  let base := now / 2 ^ 32 * 2 ^ 32 + low
  if base + 2 ^ 31 ≤ now then base + 2 ^ 32 else if now + 2 ^ 31 < base ∧ 2 ^ 32 ≤ base then base - 2 ^ 32 else base

/-- A decoded point before its sweep is known: its place in the packet, capture time in ns and azimuth. -/
structure RawPoint where
  pos : Nat
  pt : HPoint
  time : Int
  az : Option Int

/-- A 32-bit coordinate; one that does not fit is the `n`th free value (Table HAT-7; log entry 51). -/
def coord32 (n : Nat) (v : Int) : Int := if fitsS 32 v then v else sext 32 (Config.free n)

/-- The time of a packet: its fields TIME_S and TIME_NS, or the ingest stamp less lat_ns (Table HAT-4). -/
def packetTime (t : List Byte) (fs : List LidarField) (p : Place) (stamp : Nat) : Int :=
  if fld t 21 1 = 0 then (nearSeconds (toU 32 (valueOf fs lcTimeS p)) stamp : Int) * 1000000000 + valueOf fs lcTimeNs p
  else (stamp : Int) - fld t 36 4

/-- The point at a place; none when its VALID field is zero. `n` numbers the free values. -/
def decodePoint (t : List Byte) (fs : List LidarField) (p : Place) (b k stamp n : Nat) : Option RawPoint :=
  if (fieldOf fs lcValid).isSome && valueOf fs lcValid p == 0 then none
  else
    let ring := toU 8 (valueOf fs lcRing p)
    let elev := if fld t 20 1 = 1 then valueOf fs lcElevation p
      else if ring < 128 then sext 32 (fld t (384 + 4 * ring) 4) else sext 24 (Config.free n)
    let c := if fld t 20 1 = 0 then (valueOf fs lcX p, valueOf fs lcY p, valueOf fs lcZ p)
      else polar (valueOf fs lcRange p) (valueOf fs lcAzimuth p) elev
    let times := fs.filter (fun f => f.code == lcTime)
    let time := packetTime t fs p stamp + (if times.isEmpty then ((k * fld t 24 4 + b * fld t 28 4 : Nat) : Int) else (times.map (fun f => f.value p)).sum)
    some ⟨512 * b + k, ⟨coord32 (n + 1) c.1, coord32 (n + 2) c.2.1, coord32 (n + 3) c.2.2, 0,
           (clampI 0 0xFFFF (valueOf fs lcIntensity p)).toNat, ring, toU 2 (valueOf fs lcReturn p)⟩, time,
          (fieldOf fs lcAzimuth).map (fun f => f.value p)⟩

/-- The points of a packet in block and point order. -/
def decodePacket (t : List Byte) (payload : List Byte) (stamp n : Nat) : List RawPoint :=
  let fs := lidarFields t
  (List.range (fld t 8 2)).flatMap (fun b => (List.range (fld t 14 2)).filterMap (fun k =>
    let block := fld t 10 2 + b * fld t 12 2
    decodePoint t fs ⟨payload, block, block + fld t 16 2 + k * fld t 18 2⟩ b k stamp (n + 4 * (b * fld t 14 2 + k))))

/-! ### The packet state machine (Table HAT-6, R102) -/

/-- The first hit from state `st` on, at most `n` tests: its action and its next state. -/
def packetTest (t payload : List Byte) : Nat → Nat → Option (Nat × Nat)
  | 0, _ => none
  | n + 1, st =>
    let o := 256 + 16 * (st % 8)
    let at0 := fld t o 2
    let word := fld payload at0 4
    if at0 + 4 ≤ payload.length ∧ word &&& fld t (o + 8) 4 = fld t (o + 12) 4 then some (fld t (o + 2) 1, fld t (o + 3) 1)
    else packetTest t payload n (fld t (o + 4) 1)

/-! ### Sweeps (R103, R106) -/

def State.sweepOf (s : State) (p : Nat) : SweepSt := s.hat.sweep.get .reset p
def State.setSweep (s : State) (p : Nat) (x : SweepSt) : State := { s with hat := { s.hat with sweep := s.hat.sweep.set p x } }

/-- The start of the epoch to which a trigger time belongs. -/
def State.epochStartOf (s : State) (t : Nat) : Int := s.epochAt (s.epochIndex t)

/-- The number of the epoch to which a trigger time belongs. -/
def State.epochNoAt (s : State) (t : Nat) : Nat := match s.epochWith t with | some e => e.no | none => s.epochOf t

/-- The sweep in progress of lidar port `p`, sensor `i`, closes: it is the frame paired with its trigger (R90, R91, R95, R96,
R103). -/
def State.closeSweep (s : State) (p i : Nat) : State :=
  let x := s.sweepOf p
  match x.opened with
  | none => s
  | some (t, _, frozen) =>
    let s := (s.setSweep p { x with opened := none, points := [], lastAz := none }).startStage 2 (s.epochNoAt t)
    let s := if frozen then s.bump Reg.ING_SENS_FROZEN i else s
    let s := s.goodFrame i frozen
    let late := s.frameLate i t s.dt64
    let s := if late then s.bump Reg.HAT_CNT_LATE_FRAMES else s
    match s.epochWith t with
    | none => s
    | some e =>
      if e.stage ≠ .input then s
      else
        let damaged := late || !s.stageUp 2
        let v := s.verdict i frozen damaged
        let shadow := s.inShadow i frozen damaged
        let s := s.endFrame e.no i t v
        s.modEpoch e.no (fun e =>
          if v = .fused then { e with sweeps := e.sweeps ++ [⟨i, t, x.points⟩] }
          else if shadow then { e with shadow := e.shadow ++ [⟨i, t, x.points⟩] }
          else e)

/-- A sweep of port `p` opens with capture time `cap`, if none is open: it is paired with its trigger, by its counter where it has one,
and meets the counter and window tests (R58, R90, R103). -/
def State.openSweep (s : State) (p i cap : Nat) (payload : List Byte) : State :=
  if (s.sweepOf p).opened.isSome then s
  else
    let ctr := s.counterOf i payload
    let s := s.pairFrame i cap ctr
    let y := s.sensSt i
    let frozen := y.outside || s.counterFails i ctr
    let s := s.setSens i (fun x => { x with first := false, prevFrame := ctr.orElse (fun _ => x.prevFrame) })
    s.setSweep p { s.sweepOf p with opened := some (y.trig, y.drift, frozen) }

/-- The format table by which the packets of the sweep in progress of port `p` are decoded: that of the bank of its epoch, or of the
active bank while no sweep is open (R97). -/
def State.sweepTable (s : State) (p f : Nat) : List Byte :=
  let e := match (s.sweepOf p).opened with | some o => s.epochWith o.1 | none => none
  s.hatBytes (match e with | some e => e.bank | none => s.hatBank) htLidar f

/-- A decoded point closes the sweep in progress before it: WRAP_END, and the azimuth decreases (R103). -/
def State.wraps (s : State) (p : Nat) (t : List Byte) (q : RawPoint) : Bool :=
  bit (fld t 22 1) 0 && (match (s.sweepOf p).lastAz, q.az with | some a, some b => decide (b < a) | _, _ => false)

/-- A decoded point joins the sweep in progress of port `p`, unless its capture time lies outside its epoch's span (R106). -/
def State.addPoint (s : State) (p : Nat) (q : RawPoint) : State :=
  let x := s.sweepOf p
  let t := match x.opened with | some o => o.1 | none => 0
  let n := s.epochNoAt t
  let ofs := q.time - s.epochStartOf t
  let keep := decide (0 ≤ ofs ∧ ofs < 2 * s.epochLen)
  let s := s.modEpoch n (fun e => { e with pointsIn := e.pointsIn + 1, dropped := if keep then e.dropped else e.dropped + 1 })
  let s := if keep then s else s.bump Reg.HAT_CNT_TIME_DROPS
  s.setSweep p { x with lastAz := (match q.az with | some a => some a | none => x.lastAz),
                        points := if keep then x.points ++ [{ q.pt with tOfs := ofs.toNat }] else x.points }

/-- The lidar payload of a queued frame: an IPv4/UDP frame with the required destination port, within the length bounds. Any other frame
is dropped without a count: the spec gives none (DESIGN CHOICE, log entry 107). -/
def lidarPayload (t l : List Byte) : Option (List Byte) :=
  let ihl := 4 * (fld l 14 1 % 16)
  let port := beNat (slice l (14 + ihl + 2) 2)
  let payload := l.drop (fld t 2 2)
  if etherType l = 0x0800 ∧ fld l 14 1 / 16 = 4 ∧ fld l 23 1 = 17 ∧ (fld t 0 2 = 0 ∨ port = fld t 0 2) ∧
      fld t 4 2 ≤ payload.length ∧ payload.length ≤ fld t 6 2 then some payload
  else none

/-- Gaps in the packet-level SEQ field are counted under SEQ_CHECK (R104). -/
def State.seqCheck (s : State) (p : Nat) (t payload : List Byte) : State :=
  match (lidarFields t).find? (fun f => f.code == lcSeq && f.level == 0) with
  | some f =>
    if !bit (fld t 22 1) 1 then s
    else
      let v := f.raw ⟨payload, 0, 0⟩
      let x := s.sweepOf p
      let gap := match x.lastSeq with | some a => decide (v ≠ (a + 1) % 2 ^ f.width) | none => false
      (if gap then s.bump Reg.HAT_CNT_SEQ_GAPS else s).setSweep p { x with lastSeq := some v }
  | none => s

/-- The points `l` of a packet join the sweep in progress, in order; where an azimuth decrease closes it, the rest of the packet belongs
to the sweep that opens there, and is decoded by the table of that sweep's epoch (R97, R103). `f` is the format, `n` the first free
value of the packet. -/
def State.addPoints (p i f : Nat) (payload : List Byte) (stamp n : Nat) : Nat → List Byte → List RawPoint → State → State
  | 0, _, _, s => s
  | _, _, [], s => s
  | k + 1, t, q :: r, s =>
    if s.wraps p t q then
      let s := (s.closeSweep p i).openSweep p i q.time.toNat payload
      let u := s.sweepTable p f
      if u = t then State.addPoints p i f payload stamp n k t r (s.addPoint p q)
      else State.addPoints p i f payload stamp n k u
        ((decodePacket u payload stamp n).filter (fun x => decide (q.pos ≤ x.pos))) s
    else State.addPoints p i f payload stamp n k t r (s.addPoint p q)

/-- The points of a packet are decoded by the table of its sweep's epoch, at most pkt_points of them under POINTS (R97, R105). A packet
that finds no sweep open opens one, with the time of its first point, or of the packet when it has none. -/
def State.decodeInto (s : State) (p i f : Nat) (t payload : List Byte) (stamp : Nat) : State :=
  let first := (decodePacket t payload stamp s.free).head?.map (·.time)
  let s := s.openSweep p i (first.getD (packetTime t (lidarFields t) ⟨payload, 0, 0⟩ stamp)).toNat payload
  let t := s.sweepTable p f
  let l := decodePacket t payload stamp s.free
  let n := s.free
  let s := { s with free := s.free + 4 * 64 * 512 }
  let most := if s.sensFlag i 2 then s.sensor i 12 2 else l.length
  let beyond := l.length - most
  let s := s.bump Reg.HAT_CNT_POINT_DROPS 0 beyond
  let s := s.addPoints p i f payload stamp n (2 * l.length + 2) t (l.take most)
  match (s.sweepOf p).opened with
  | some o => (match s.epochWith o.1 with
    | some e => s.modEpoch e.no (fun e => { e with dropped := e.dropped + beyond })
    | none => s)
  | none => s

/-- A lidar packet of sensor `i` at port `p` meets the state machine of its format table, in the bank of the sweep in progress
or else the active one (R97, R102, R103). DECODE, DECODE_END and END open a sweep when none is open, so that the closing sweep is a frame
even with no point kept. -/
def State.lidarPacket (s : State) (p i : Nat) (l : List Byte) (stamp : Nat) : State :=
  let f := s.sensor i 6 1
  if 8 ≤ f then s
  else
    let x := s.sweepOf p
    let t := s.sweepTable p f
    match lidarPayload t l with
    | none => s
    | some payload =>
      match packetTest t payload 8 (x.state.getD (fld t 32 1)) with
      | none => s.bump Reg.HAT_CNT_FORMAT_ERR
      | some (action, next) =>
        let s := s.setSweep p { x with state := some next }
        match action with
        | 0 => s
        | 1 => (s.seqCheck p t payload).decodeInto p i f t payload stamp
        | 2 => ((s.seqCheck p t payload).decodeInto p i f t payload stamp).closeSweep p i
        | 3 => (s.openSweep p i (packetTime t (lidarFields t) ⟨payload, 0, 0⟩ stamp).toNat payload).closeSweep p i
        | _ => s.bump Reg.HAT_CNT_FORMAT_ERR

/-- H2 takes the next packet of a lidar queue: a damaged one is skipped (R96), any other meets the state machine (R102). -/
def execH2PacketDecode (port : Fin 4) (s : State) : Res :=
  let q := 0x10 + port.val
  if s.flag Reg.SPQ_CTRL_CONS q ∨ !s.flag Reg.HAT_CTRL_RUN ∨ !s.hatchRuns then .next s
  else match s.dequeue q with
    | none => .next s
    | some (h, ws, s) =>
      let s := s.stageDone 2 (s.hat.epochs.any (fun e => e.no == s.hat.stageEpoch.get 0 2 && e.pointsIn != 0))
      if packetBad h ws ∨ 64 ≤ fld h.data 9 1 then .next s
      else .next (s.lidarPacket port.val (fld h.data 9 1) (packetBytes h ws) (fld h.data 16 8))

end Sys2Proof.Machine
end

