-- ==== Sys2Proof/Machine/Float.lean ====
section
/-! DEFINITION. Floating-point values as exact dyadic numbers with one rounding to nearest even: FP32, BF16, FP8, E2M1, the
curve lookup and xexp (R167 to R169, R180 to R183, R222 to R227). -/

namespace Sys2Proof.Machine

/-- A floating-point datum: a NaN, an infinity, or the finite number (-1)^neg * m * 2^e. -/
inductive FVal
  | nan
  | inf (neg : Bool)
  | fin (neg : Bool) (m : Nat) (e : Int)
  deriving DecidableEq, Repr

/-- The sign factor. -/
def sgn (neg : Bool) (i : Int) : Int := if neg then -i else i

/-- How a format treats its largest exponent. -/
inductive TopCode
  /-- Infinities and NaNs as IEEE 754. -/
  | ieee
  /-- No infinity; only the all-ones code is NaN (E4M3). -/
  | nanOnly
  /-- Neither (E2M1). -/
  | none
  deriving DecidableEq, Repr

/-- A binary format: exponent bits, fraction bits, bias. -/
structure FFmt where
  eb : Nat
  fb : Nat
  bias : Nat
  top : TopCode
  deriving DecidableEq, Repr

def fp32 : FFmt := ⟨8, 23, 127, .ieee⟩
def bf16 : FFmt := ⟨8, 7, 127, .ieee⟩
def e4m3 : FFmt := ⟨4, 3, 7, .nanOnly⟩
def e5m2 : FFmt := ⟨5, 2, 15, .ieee⟩
def e2m1 : FFmt := ⟨2, 1, 1, .none⟩

/-- The value of an encoding; subnormals are values (text after Table PLT-1). -/
def FFmt.decode (f : FFmt) (b : Nat) : FVal :=
  let neg := bit b (f.eb + f.fb)
  let x := bits b f.fb f.eb
  let m := bits b 0 f.fb
  if f.top = .ieee ∧ x = 2 ^ f.eb - 1 then (if m = 0 then .inf neg else .nan)
  else if f.top = .nanOnly ∧ x = 2 ^ f.eb - 1 ∧ m = 2 ^ f.fb - 1 then .nan
  else if x = 0 then .fin neg m (1 - (f.bias : Int) - f.fb)
  else .fin neg (2 ^ f.fb + m) ((x : Int) - f.bias - f.fb)

/-- m / 2^n to the nearest integer, ties to even. -/
def rneShift (m n : Nat) : Nat :=
  let q := m >>> n
  let r := m % 2 ^ n
  if n = 0 then m else if 2 ^ (n - 1) < r ∨ (r = 2 ^ (n - 1) ∧ q % 2 = 1) then q + 1 else q

/-- m * 2^e in units of 2^q, ties to even. -/
def rneTo (m : Nat) (e q : Int) : Nat := if q ≤ e then m <<< (e - q).toNat else rneShift m (q - e).toNat

/-- The canonical NaN of a format: 0x7FC0_0000, 0x7FC0, 0x7F. -/
def FFmt.nanCode (f : FFmt) : Nat :=
  match f.top with
  | .ieee => if f.fb = 2 then 0x7F else ((2 ^ f.eb - 1) * 2 + 1) <<< (f.fb - 1)
  | .nanOnly => 0x7F
  | .none => 0

/-- The code of the largest finite magnitude. -/
def FFmt.maxCode (f : FFmt) : Nat :=
  match f.top with
  | .ieee => ((2 ^ f.eb - 1) <<< f.fb) - 1
  | .nanOnly => (2 ^ (f.eb + f.fb)) - 2
  | .none => 2 ^ (f.eb + f.fb) - 1

/-- The code of a value rounded once to nearest even. An overflow gives infinity in a format that has one, otherwise the
largest magnitude; so does an infinity (Table PLT-4). -/
def FFmt.encode (f : FFmt) (v : FVal) : Nat :=
  let sign := fun (neg : Bool) => neg.toNat <<< (f.eb + f.fb)
  let high := match f.top with | .ieee => (2 ^ f.eb - 1) <<< f.fb | _ => f.maxCode
  match v with
  | .nan => f.nanCode
  | .inf neg => sign neg + high
  | .fin neg m e =>
    if m = 0 then sign neg
    else
      let q : Int := max (1 - (f.bias : Int) - f.fb) ((Nat.log2 m : Int) + e - f.fb)
      let k := rneTo m e q
      -- k counts units of 2^q; with k = 2^fb + fraction the code is linear in k
      let code : Int := (k : Int) + (q - (1 - (f.bias : Int) - f.fb)) * 2 ^ f.fb
      sign neg + (if (f.maxCode : Int) < code then high else code.toNat)

/-- The FP32 datum of a 32-bit pattern. -/
def f32 (b : Nat) : FVal := fp32.decode b

/-- A value rounded once to FP32 (rne32). -/
def rne32 (v : FVal) : Nat := fp32.encode v

/-- The exact product. -/
def FVal.mul : FVal → FVal → FVal
  | .nan, _ => .nan
  | _, .nan => .nan
  | .inf a, .inf b => .inf (a != b)
  | .inf a, .fin b m _ => if m = 0 then .nan else .inf (a != b)
  | .fin a m _, .inf b => if m = 0 then .nan else .inf (a != b)
  | .fin a m e, .fin b n d => .fin (a != b) (m * n) (e + d)

/-- The exact sum of two finite numbers as a signed mantissa and an exponent. -/
def addDy (i : Int) (e : Int) (j : Int) (d : Int) : Int × Int :=
  if e ≤ d then (i + j * 2 ^ (d - e).toNat, e) else (i * 2 ^ (e - d).toNat + j, d)

/-- The exact sum; an exact zero is +0 unless both are -0 (round to nearest even). -/
def FVal.add : FVal → FVal → FVal
  | .nan, _ => .nan
  | _, .nan => .nan
  | .inf a, .inf b => if a = b then .inf a else .nan
  | .inf a, .fin _ _ _ => .inf a
  | .fin _ _ _, .inf b => .inf b
  | .fin a m e, .fin b n d =>
    let (k, x) := addDy (sgn a m) e (sgn b n) d
    if k = 0 then .fin (a && b && m == 0 && n == 0) 0 x else .fin (decide (k < 0)) k.natAbs x

/-- The opposite. -/
def FVal.neg : FVal → FVal
  | .nan => .nan
  | .inf a => .inf (!a)
  | .fin a m e => .fin (!a) m e

/-- Scaling by a power of two. -/
def FVal.scale (n : Int) : FVal → FVal
  | .fin a m e => .fin a m (e + n)
  | v => v

/-- FP32 operations on patterns, one rounding each. -/
def add32 (a b : Nat) : Nat := rne32 ((f32 a).add (f32 b))
def sub32 (a b : Nat) : Nat := rne32 ((f32 a).add (f32 b).neg)
def mul32 (a b : Nat) : Nat := rne32 ((f32 a).mul (f32 b))
def fma32 (a b c : Nat) : Nat := rne32 (((f32 a).mul (f32 b)).add (f32 c))

/-- An integer as an exact value. -/
def ofInt (i : Int) : FVal := .fin (decide (i < 0)) i.natAbs 0

/-- A finite value to the nearest integer, ties to even. -/
def FVal.roundInt : FVal → Option Int
  | .fin a m e => some (sgn a (rneTo m e 0))
  | _ => none

/-- The floor of a finite value divided by 2^n. -/
def FVal.floorDiv (n : Int) : FVal → Option Int
  | .fin a m e =>
    let x := e - n
    some (if 0 ≤ x then sgn a m * 2 ^ x.toNat else sgn a m / 2 ^ (-x).toNat)
  | _ => none

/-- Order of two finite or infinite values: a < b. -/
def FVal.lt : FVal → FVal → Bool
  | .nan, _ => false
  | _, .nan => false
  | .inf a, .inf b => a && !b
  | .inf a, .fin _ _ _ => a
  | .fin _ _ _, .inf b => !b
  | .fin a m e, .fin b n d => decide ((addDy (sgn a m) e (-(sgn b n)) d).1 < 0)

/-- curve(x) of R183 over a 2,064-byte table (Table PLT-5). -/
def curve (table : List Byte) (x : Nat) : Nat :=
  let d := f32 (sub32 x (fld table 0 4))
  match d.floorDiv (sext 8 (fld table 4 1)) with
  | none => match d with
    | .inf neg =>
      let i := if neg then 0 else 255
      rne32 (((f32 (fld table (16 + 8 * i) 4)).mul (f32 x)).add (f32 (fld table (20 + 8 * i) 4)))
    | _ => 0x7FC00000
  | some k =>
    let i := (clampI 0 255 k).toNat
    rne32 (((f32 (fld table (16 + 8 * i) 4)).mul (f32 x)).add (f32 (fld table (20 + 8 * i) 4)))

/-- c[k], the FP32 values nearest to (ln 2)^k / k! (text after R222). -/
def xexpC : List Nat := [0x3F800000, 0x3F317218, 0x3E75FDF0, 0x3D635847, 0x3C1D955B, 0x3AAEC3FF, 0x39218489]

/-- xexp (text after R222). -/
def xexp (d : Nat) : Nat :=
  match f32 d with
  | .nan => 0x7FC00000
  | v =>
    if v.lt (.fin true 88 0) then 0
    else if (FVal.fin false 128 0).lt v then 0x7F800000
    else
      let t := mul32 d 0x3FB8AA3B
      let n := ((f32 t).roundInt).getD 0
      let f := rne32 ((f32 t).add (ofInt (-n)))
      let p := (xexpC.reverse.drop 1).foldl (fun p c => fma32 p f c) (xexpC.getD 6 0)
      rne32 ((f32 p).scale n)

/-- The drain and narrowing conversion of an FP32 pattern to the formats of Table PLT-4 codes 0x1 to 0x3. -/
def narrow (f : FFmt) (v : Nat) : Nat := f.encode (f32 v)

end Sys2Proof.Machine
end

