-- ==== Sys2Proof/Machine/Array.lean ====
section
/-! DEFINITION. Needle-core registers and plate memory, and the burin array: issue, execution, drain stage, tiles and their
recomputation (R165 to R184, R198, R199, R206 to R213, R449 to R451). -/

namespace Sys2Proof.Machine

/-! ### Plate memory and core registers -/

/-- The unit identifier of a logical core. -/
def State.coreUnit (s : State) (p c : Nat) : Nat := unitId 4 (p * 256 + s.physCore p c)

/-- x[r]; x[0] reads as zero. -/
def CoreSt.xr (k : CoreSt) (r : Nat) : Nat := if r = 0 then 0 else k.x.get 0 r
/-- x[r] := v; a write to x[0] is discarded. -/
def CoreSt.setX (k : CoreSt) (r v : Nat) : CoreSt := if r = 0 then k else { k with x := k.x.set r (v % 2 ^ 64) }
def CoreSt.fr (k : CoreSt) (r : Nat) : Nat := k.f.get 0 r
def CoreSt.setF (k : CoreSt) (r v : Nat) : CoreSt := { k with f := k.f.set r (v % 2 ^ 32) }
/-- The 64 bytes of v[r]. -/
def CoreSt.vr (k : CoreSt) (r : Nat) : List Byte := padTo 64 (k.v.get [] r)
def CoreSt.setV (k : CoreSt) (r : Nat) (l : List Byte) : CoreSt := { k with v := k.v.set r (padTo 64 l) }
def CoreSt.csrVal (k : CoreSt) (n : Nat) : Nat := k.csr.get 0 n
def CoreSt.setCsr (k : CoreSt) (n v : Nat) : CoreSt := { k with csr := k.csr.set n v }

/-- NDL_CORE_STAT of a core follows its state. -/
def State.showCore (s : State) (p c : Nat) : State :=
  let k := s.core p c
  let i := s.ndl p c
  let st := if k.running then (if k.hold.isSome then 3 else 2) else 1
  ((s.wr Reg.NDL_CORE_STAT_STATE st i).wr Reg.NDL_CORE_STAT_PRIV k.machine.toNat i).wr Reg.NDL_CORE_STAT_LOGICAL c i

/-- A core executes instructions: its plate runs a launch and the core is started and has not exited. -/
def State.coreRuns (s : State) (p c : Nat) : Bool :=
  s.rd Reg.PLT_STAT_STATE p == 2 && (s.core p c).running && (s.plate p).run.isSome

/-- The launch that runs on a plate, and its job. -/
def State.runningOn (s : State) (p : Nat) : Option (Job × Launch) :=
  match (s.plate p).run with
  | none => none
  | some id => match s.job id, s.launches.find id with
    | some j, some l => some (j, l)
    | _, _ => none

/-- The plate offset of share offset `o` of the array buffer. -/
def State.abufOfs (s : State) (p o : Nat) : Nat := s.rd Reg.PLT_SHARE_ABUF_BASE p + o
def State.abufLimit (s : State) (p : Nat) : Nat := s.rd Reg.PLT_SHARE_ABUF_LIMIT p
/-- The plate offset of share offset `o` of logical core `c`'s local memory (Table PLT-6). -/
def State.lmOfs (s : State) (p c o : Nat) : Nat := 0x280000 + c * 0x6000 + s.rd Reg.PLT_SHARE_LM_BASE p + o
def State.lmLimit (s : State) (p : Nat) : Nat := s.rd Reg.PLT_SHARE_LM_LIMIT p

/-- `n` bytes of plate memory. -/
def State.plateRead (s : State) (p ofs n : Nat) : List Byte := s.bytes (plateAddr p ofs) n

/-- Reservations that a store to plate memory breaks: those of the aligned 8 bytes it touches, except the storing core's (R209). -/
def State.breakResv (s : State) (p ofs n : Nat) (keep : Option Nat) : State :=
  { s with cores := ⟨s.cores.rows.map (fun r =>
      if r.1 / 128 = p ∧ keep ≠ some (r.1 % 128) then
        match r.2.resv with
        | some a => if a < ofs + n ∧ ofs < a + 8 then (r.1, { r.2 with resv := none }) else r
        | none => r
      else r)⟩ }

/-- Bytes stored to plate memory by the array, the DMA engine or a core (R209). -/
def State.plateStore (s : State) (p ofs : Nat) (l : List Byte) (keep : Option Nat := none) : State :=
  (s.store (plateAddr p ofs) l).breakResv p ofs l.length keep

/-- The array of a plate. -/
def State.arr (s : State) (p : Nat) : ArrSt := (s.plate p).arr
def State.setArr (s : State) (p : Nat) (x : ArrSt) : State := s.setPlate p { s.plate p with arr := x }

/-! ### Machine mode (Table NDL-1, Table NDL-3, R213; log entries 37, 112) -/

/-- An M-mode CSR of a core as it was last written; the runtime has interrupts 16 and 17 enabled in mie from the start
(log entry 112). -/
def State.mval (s : State) (p c n : Nat) : Nat := s.mcsr.get (if n = 0x304 then 3 * 2 ^ 16 else 0) (s.ndl p c * 4096 + n)
/-- An M-mode CSR of a core takes a value. -/
def State.setM (s : State) (p c n v : Nat) : State := { s with mcsr := s.mcsr.set (s.ndl p c * 4096 + n) v }

/-- A trap enters machine mode: pc, cause and value are saved, the reservation is lost, an instruction that held the core ends
without effect, and the pc is at the runtime's trap address (R209, R213, Table NDL-2). -/
def State.enterM (s : State) (p c cause tval : Nat) : State :=
  let k := s.core p c
  let st := s.mval p c 0x300
  let s := (((s.setM p c 0x341 k.pc).setM p c 0x342 cause).setM p c 0x343 tval).setM p c 0x300
    (putBits (putBit (putBit st 7 (bit st 3)) 3 false) 11 2 (if k.machine then 3 else 0))
  (s.setCore p c { k with machine := true, resv := none, hold := none, pc := s.mval p c 0x305 / 4 * 4 }).showCore p c

/-- MRET: the core goes on at mepc in the mode that mstatus.MPP names. -/
def State.leaveM (s : State) (p c : Nat) : State :=
  let st := s.mval p c 0x300
  let s := s.setM p c 0x300 (putBits (putBit (putBit st 3 (bit st 7)) 7 true) 11 2 0)
  (s.setCore p c { s.core p c with machine := decide (bits st 11 2 = 3), pc := s.mval p c 0x341 }).showCore p c

/-- A trap. One that a plate program raises is not handled by the plate runtime: every core of the launch stops, the array and
DMA queues are discarded, and the launch completes ABORTED with the core and the cause (R195, R211, R213, Table PLT-10). One
that the runtime itself raises goes to its own trap address (log entry 112). -/
def State.trap (s : State) (p c cause : Nat) (tval : Nat := 0) : State :=
  match s.runningOn p with
  | none => s
  | some (j, _) =>
    let i := s.ndl p c
    if (s.core p c).machine then s.enterM p c cause tval
    else
    let s := ((s.setM p c 0x341 (s.core p c).pc).setM p c 0x342 cause).setM p c 0x343 tval
    let s := (s.wr Reg.NDL_CORE_STAT_LAST_CAUSE cause i).wr Reg.NDL_CORE_PC_PC (s.core p c).pc i
    let unit := s.coreUnit p c
    (s.stopLaunch j.id).finishQuiet j stAborted 0 (unit + cause * 2 ^ 32)

/-- A core retires an instruction of `len` bytes: pc advances, instret counts. NDL_CORE_CNT.HELD stands above zero once a core
has been held; how many cycles it was is no part of the model (log entry 39). -/
def State.retire (s : State) (p c : Nat) (k : CoreSt) (len : Nat) : State :=
  let k := { k with
    pc := (k.pc + len) % 2 ^ 64
    hold := none
    csr := k.csr.modify 0 0xC02 (fun n => (n + 1) % 2 ^ 64)
    waitTill := if k.machine then k.waitTill else none }
  let s := if (s.core p c).hold.isSome then s.bump Reg.NDL_CORE_CNT_HELD (s.ndl p c) else s
  ((s.setCore p c k).bump Reg.NDL_CORE_CNT_RETIRED (s.ndl p c)).showCore p c

/-- A core is held on an instruction; pc stays on it (R173, R187, R214, R219). -/
def State.holdCore (s : State) (p c : Nat) (h : Hold) : State :=
  ((s.setCore p c { s.core p c with hold := some h }).bump Reg.NDL_CORE_CNT_HELD (s.ndl p c)).showCore p c

/-- The instruction fetch of a core at its pc, `len` bytes, through its plate's fetch path: the core runs, is not held on
another instruction, and no byte lies in a page whose fetch has faulted. A fault that the translation meets is the fetch
channel's and holds the core (text before R211, R323). The word itself is what the command names (log entry 38). A core with
interrupt 16 pending takes it in place of the instruction, and the runtime's own code is fetched from the needle firmware
(R213, log entry 112). -/
def State.issue (s : State) (p c len : Nat) (held : Hold → Bool) : State × Bool :=
  let k := s.core p c
  let calm := match k.hold with | none => true | some h => held h
  match s.runningOn p with
  | none => (s, false)
  | some (j, _) =>
    if !s.coreRuns p c || s.gated p then (s, false)
    else if bit (k.irq &&& s.mval p c 0x304) 16 && !k.machine then (s.enterM p c (2 ^ 63 + 16) 0, false)
    else if !calm then (s, false)
    else if k.machine then (s, true)
    else
      let ch := 0x40 + p
      let last := (k.pc + len - 1) % 2 ^ 64
      let at' := if k.pc / 65536 = last / 65536 then [k.pc] else [k.pc, last / 65536 * 65536]
      at'.foldl (fun (a : State × Bool) va =>
        if !a.2 then a
        else if a.1.chan ch = chFaulted ∧ a.1.rd Reg.MEM_CH_FAULT_VA ch / 65536 = va / 65536 then (a.1, false)
        else match a.1.translateOn ch j.context va .exec with
          | (s, .ok _) => (s, true)
          | (s, .error kind) =>
            if s.chan ch = chFaulted then (s, false)
            else (((s.wr Reg.MEM_CH_CONTEXT j.context ch).wr Reg.MEM_CH_TAG j.tag ch).chanFault ch kind 0 va, false)) (s, true)

/-! ### Kinds (Table PLT-1) and command fields (Table PLT-2) -/

def kindK (k : Nat) : Nat := if k = 1 ∨ k = 4 then 128 else 64
def kindN (k : Nat) : Nat := if k = 6 then 16 else 64
/-- Accumulator type of a kind: 1 INT32, 2 FP32, 3 MXINT8 (PLT_ARR_STAT.ACC_TYPE). -/
def kindAcc (k : Nat) : Nat := if k ≤ 1 then 1 else if k = 5 then 3 else 2
def kindTile (k : Nat) : Nat := if k = 6 then 2048 else 4096
def kindWScale (k : Nat) : Nat := if k = 3 ∨ k = 5 then 128 else if k = 4 then 256 else 0
def kindRow (k : Nat) : Nat := if k = 1 ∨ k = 6 then 128 else 64
def kindAScale (k : Nat) : Nat := if k = 3 ∨ k = 5 then 2 else if k = 4 then 4 else 0

def bcOp (c : List Byte) : Nat := fld c 0 1
def bcFmt (c : List Byte) : Nat := fld c 1 1
def bcKind (c : List Byte) : Nat := bits (bcFmt c) 0 4
def bcFlags (c : List Byte) : Nat := fld c 2 1
def bcZero (c : List Byte) : Bool := bit (bcFlags c) 0
def bcGather (c : List Byte) : Bool := bit (bcFlags c) 1
def bcScatter (c : List Byte) : Bool := bit (bcFlags c) 2
def bcNosb (c : List Byte) : Bool := bit (bcFlags c) 3
def bcCrc (c : List Byte) : Bool := bit (bcFlags c) 4
def bcSig (c : List Byte) : Bool := bit (bcFlags c) 5
def bcCurve (c : List Byte) : Bool := bit (bcFlags c) 6
def bcRows (c : List Byte) : Nat := fld c 3 1
def bcA (c : List Byte) : Nat := fld c 4 4
def bcB (c : List Byte) : Nat := fld c 8 4
def bcIdx (c : List Byte) : Nat := fld c 12 4
def bcStride (c : List Byte) : Nat := fld c 16 4
def bcOut (c : List Byte) : Nat := bits (fld c 20 1) 0 4
def bcSlot (c : List Byte) : Nat := bits (fld c 20 1) 4 2
def bcZp (c : List Byte) : Nat := fld c 21 1
def bcExp (c : List Byte) : Nat := fld c 22 2
def bcTile (c : List Byte) : Nat := fld c 24 4
def bcSync (c : List Byte) : Nat := fld c 28 2

/-- Bytes of one output element (Table PLT-4). -/
def outBytes (o : Nat) : Nat := [4, 1 + 1, 1, 1, 1, 4].getD o 0

/-! ### Issue (R172, R173, Table PLT-3) -/

/-- Row 1: op known, and fields that are zero for the op, and reserved ones, zero. -/
def burinRow1 (c : List Byte) (x : ArrSt) : Bool :=
  let op := bcOp c
  let mx := kindWScale (bcKind c) != 0
  decide (op ≤ 4) && zeroAt c 30 2 && !bit (bcFlags c) 7 && !bit (bcFmt c) 7 &&
  (op == 1 || op == 2 || bcFmt c == 0) &&
  (op == 2 || !bcZero c) && (op == 3 || (!bcNosb c && !bcCrc c && !bcCurve c)) &&
  (op == 2 || op == 3 || bcRows c == 0) && (op != 0 || bcA c == 0) &&
  ((op == 1 && mx) || (op == 2 && mx) || (op == 3 && !bcNosb c) || bcB c == 0) &&
  (bcGather c || bcScatter c || bcIdx c == 0) && (op == 2 || op == 3 || bcStride c == 0) &&
  (if op = 3 then decide (bcOut c ≤ 5) && fld c 20 1 / 64 == 0 else if op = 4 then fld c 20 1 &&& 0xCF == 0 else fld c 20 1 == 0) &&
  (op == 3 && bcOut c == 4 || bcZp c == 0) &&
  (op == 2 && bcKind c == 5 || op == 3 && x.tailType == 3 || bcExp c == 0)

/-- Row 6: every byte read or written at a, b and idx lies within the share of `lim` bytes. -/
def burinExtents (c : List Byte) (x : ArrSt) (lim : Nat) : Bool :=
  let k := bcKind c
  let rows := bcRows c
  let strided := fun (n : Nat) => rows == 0 || decide (bcA c + (rows - 1) * bcStride c + n ≤ lim)
  match bcOp c with
  | 1 => decide (bcA c + kindTile k ≤ lim) && (kindWScale k == 0 || decide (bcB c + kindWScale k ≤ lim))
  | 2 => (bcGather c || strided (kindRow k)) && (rows == 0 || kindAScale k == 0 || decide (bcB c + rows * kindAScale k ≤ lim)) &&
         (!bcGather c || rows == 0 || decide (bcIdx c + 8 * rows ≤ lim))
  | 3 => (bcScatter c || strided (x.tailN * outBytes (bcOut c))) &&
         (bcNosb c || rows == 0 || decide (bcB c + 8 * x.tailN ≤ lim)) &&
         (!bcScatter c || rows == 0 || decide (bcIdx c + 8 * rows ≤ lim))
  | 4 => decide (bcA c + 2064 ≤ lim)
  | _ => true

/-- The first row of Table PLT-3 that a command breaks, 1 to 10; 0 when it passes. -/
def burinError (c : List Byte) (x : ArrSt) (lim : Nat) : Nat :=
  let op := bcOp c
  let k := bcKind c
  let load := x.tailLoad.getD 0xFF
  if !burinRow1 c x then 1
  else if (op = 2 ∨ op = 3) ∧ 64 < bcRows c then 2
  else if (op = 1 ∨ op = 2) ∧ (6 < k ∨ ((bit (bcFmt c) 4 ∨ bit (bcFmt c) 5) ∧ k ≠ 2 ∧ k ≠ 3) ∨ (bit (bcFmt c) 6 ∧ 1 < k)) then 3
  else if op = 2 ∧ (x.tailLoad = none ∨ bits load 0 4 ≠ k ∨ bit load 5 ≠ bit (bcFmt c) 5) then 4
  else if op = 2 ∧ !bcZero c ∧ (x.tailType ≠ kindAcc k ∨ (k = 5 ∧ x.tailExp ≠ bcExp c)) then 5
  else if !burinExtents c x lim then 6
  else if (bcGather c ∧ op ≠ 2) ∨ (bcScatter c ∧ op ≠ 3) then 7
  else if op = 3 ∧ x.tailType = 0 then 8
  else if op = 3 ∧ ((bcOut c = 5 ∧ ((x.tailType ≠ 1 ∧ x.tailType ≠ 3) ∨ !bcNosb c ∨ bcCurve c)) ∨
      (bcScatter c ∧ ((bcOut c ≠ 0 ∧ bcOut c ≠ 5) ∨ bcCurve c))) then 9
  else if op = 3 ∧ bcCurve c ∧ !bit x.tailCurves (bcSlot c) then 10
  else 0

/-- The tail state after a command is queued (text before R172). -/
def burinTail (c : List Byte) (x : ArrSt) : ArrSt :=
  match bcOp c with
  | 1 => { x with tailLoad := some (bcFmt c) }
  | 2 => if bcRows c = 0 then x
         else { x with tailType := kindAcc (bcKind c), tailN := kindN (bcKind c), tailExp := bcExp c }
  | 4 => { x with tailCurves := x.tailCurves ||| 2 ^ bcSlot c }
  | _ => x

/-- The local-memory share offset of a 32-byte aligned address in the issuing core's own share, if it is one (R218). -/
def State.ownLm (s : State) (p c a align n : Nat) : Option Nat :=
  if a / 2 ^ 30 = 1 ∧ bits a 24 6 = c ∧ bits a 15 9 = 0 ∧ a % align = 0 ∧ bits a 0 15 + n ≤ s.lmLimit p ∧ a < 2 ^ 32 then
    some (bits a 0 15)
  else none

/-- xn.burin: the command at x[rs1] is checked and queued, x[rd] the number of entries queued (R172, R173, R218). -/
def execXnBurin (plate : Fin 34) (core : Fin 64) (rd rs1 : Fin 32) (s : State) : Res :=
  let p := plate.val
  let c := core.val
  match s.issue p c 4 (fun h => h == .burin) with
  | (s, false) => .next s
  | (s, true) =>
    let k := s.core p c
    match s.ownLm p c (k.xr rs1) 32 32 with
    | none => .next (s.trap p c 5 (k.xr rs1))
    | some o =>
      let cmd := s.plateRead p (s.lmOfs p c o) 32
      let x := (s.plate p).arr
      if 32 ≤ x.entries then .next (s.holdCore p c .burin)
      else
        let e := burinError cmd x (s.abufLimit p)
        if e ≠ 0 then .next ((s.bump Reg.PLT_CNT_CMD_REFUSED p).trap p c 24 e)
        else
          let x := { burinTail cmd x with queue := x.queue ++ [⟨cmd, c⟩] }
          let s := (s.setPlate p { s.plate p with arr := x }).showPlate p
          .next (s.retire p c { k.setX rd x.entries with lastTile := bcTile cmd } 4)

/-! ### Execution (R174, R176 to R179) -/

/-- PLT_PRE.TB_NS has passed since the pre-emption request of a launch (R201). -/
def State.tbOver (s : State) (p : Nat) (l : Launch) : Bool :=
  match l.preempt with
  | some t => decide (t * 4 + s.rd Reg.PLT_PRE_TB_NS p < s.ticks * 4)
  | none => false

/-- The command at the head of a plate's array queue with the op named, while the array executes: its launch runs, or is
being stopped and neither a tile boundary nor the end of the boundary wait has been reached (R174, R201). -/
def State.arrayHead (s : State) (p op : Nat) : Option (Queued × Job) :=
  match (s.plate p).arr.queue, s.runningOn p with
  | q :: _, some (j, l) =>
    if bcOp q.bytes = op ∧ !s.gated p ∧ (s.rd Reg.PLT_STAT_STATE p = 2 ∨
        (s.rd Reg.PLT_STAT_STATE p = 3 ∧ !s.flag Reg.PLT_ARR_STAT_AT_TB p ∧ !s.tbOver p l))
    then some (q, j) else none
  | _, _ => none

/-- The unit that an array error cause names (Table PLT-11). -/
def causeUnit (p cause stripe : Nat) : Nat :=
  if cause = 2 then unitId 3 (p * 16 + stripe) else if cause = 3 ∨ cause = 5 then unitId 2 p else unitId 1 p

/-- The physical stripe that a logical one lies on: the n-th stripe in use (PLT_SPARE.STRIPE_MAP). -/
def State.physStripe (s : State) (p i : Nat) : Nat :=
  ((List.range 9).filter (bit (s.rd Reg.PLT_SPARE_STRIPE_MAP p))).getD i i

/-- PLT_ARR_ERR records a failure, interrupt 16 is raised on a core, and the failure waits for the plate runtime (R178, R198,
R447). -/
def State.arrFault (s : State) (p core : Nat) (x : ArrFail) : State :=
  let s := (((s.wr Reg.PLT_ARR_ERR_TILE x.tile p).wr Reg.PLT_ARR_ERR_CAUSE x.cause p).wr Reg.PLT_ARR_ERR_CORE core p).wr
    Reg.PLT_ARR_ERR_STRIPE x.stripe p
  let s := s.setCore p core { s.core p core with irq := (s.core p core).irq ||| 2 ^ 16 }
  s.setArr p { s.arr p with fails := (s.arr p).fails ++ [x] }

/-- The number of the log that the command at the head of the queue belongs to (R199). -/
def ArrSt.logNow (x : ArrSt) : Option Nat := x.replay.head?.or (x.tiles.getLast?.map (·.id))

/-- The latest log that holds a tile tag. -/
def ArrSt.logOf (x : ArrSt) (tag : Nat) : Option Nat :=
  (x.tiles.reverse.find? (fun t => t.cmds.any (fun q => bcTile q.bytes == tag))).map (·.id)

/-- A failure of the command that executes (R178, R198). -/
def State.arrErr (s : State) (p cause stripe : Nat) (q : Queued) : State :=
  let load := if cause = 2 then (s.arr p).lastLoad else if cause = 1 ∧ bcOp q.bytes = 1 then some q else none
  s.arrFault p q.core ⟨(s.arr p).logNow, bcTile q.bytes, cause, stripe, load⟩

/-- A parity error of the array's reads: the command has completed with the data as read; it is recorded, counted and
enters the unit's history (R198, R440). `bad`: a word that the command read is stored with inverted parity (R446). -/
def State.arrParity (s : State) (p : Nat) (upset : ArrUpset) (bad : Bool) (q : Queued) (ofs : Nat) : State :=
  let u : ArrUpset := if upset.kind = 0 ∧ bad then ⟨1, 0⟩ else upset
  if u.kind = 0 then s
  else
    let stripe := if u.kind.val = 2 then s.physStripe p u.stripe else 0
    ((s.arrErr p u.kind stripe q).bump Reg.PLT_CNT_PARITY p).sramDetect (causeUnit p u.kind stripe) 1 ofs (upset.kind == 0)

/-- `n` bytes of the array-buffer share from `o` on, as the array reads them. -/
def State.abuf (s : State) (p o n : Nat) : List Byte := s.plateRead p (s.abufOfs p o) n

/-- A read of `n` bytes of the array-buffer share meets a word that fails. -/
def State.abufBad (s : State) (p o n : Nat) : Bool := s.badRead (plateAddr p (s.abufOfs p o)) n

/-- A command has executed: it leaves the queue, and with SIG adds 1 to its sync object (R179). -/
def State.burinDone (s : State) (p : Nat) (q : Queued) (j : Job) : State :=
  let x := s.arr p
  let s := (s.setArr p { x with queue := x.queue.drop 1, replay := x.replay.drop 1 }).showPlate p
  if bcSig q.bytes then s.signal (bcSync q.bytes) 1 j.taint else s

/-! #### What a recomputation repeats (R199) -/

/-- A command without its SIG, as a recomputation repeats it (R199). -/
def unsig (q : Queued) : Queued :=
  { q with bytes := q.bytes.take 2 ++ [BitVec.ofNat 8 (bcFlags q.bytes &&& 0xDF)] ++ q.bytes.drop 3 }

/-- A command opens a new log: a LOADW or LOADC after a tile has closed, and a tile's first MATMUL. -/
def ArrSt.opensLog (x : ArrSt) (c : List Byte) : Bool :=
  match x.tiles.getLast? with
  | none => true
  | some t => match bcOp c with
    | 2 => bcZero c && !x.inTile && t.cmds.any (fun q => bcOp q.bytes == 2 || bcOp q.bytes == 3)
    | 3 => false
    | _ => t.closed

/-- A command that executes for the first time joins the log of its tile, after the LOADW of its weights. Logs of earlier tiles
are kept while a failure waits. -/
def ArrSt.logged (x : ArrSt) (q : Queued) : ArrSt :=
  if !x.replay.isEmpty then x
  else
    let x := if x.opensLog q.bytes then
        { x with tiles := (if x.fails.isEmpty then [] else x.tiles) ++ [⟨x.nextTile, [], x.acc, [], false, 0⟩], nextTile := x.nextTile + 1 }
      else x
    { x with tiles := x.tiles.modify (x.tiles.length - 1) (fun t =>
        let load := if bcOp q.bytes = 2 ∧ !t.cmds.any (fun r => bcOp r.bytes == 1) then x.lastLoad.toList else []
        { t with cmds := t.cmds ++ load ++ [unsig q] }) }

/-- The log that the executing command belongs to changes. -/
def ArrSt.inLog (x : ArrSt) (f : TileLog → TileLog) : ArrSt :=
  { x with tiles := x.tiles.map (fun t => if some t.id = x.logNow then f t else t) }

/-! #### Proof sampling (R449 to R451) -/

/-- One step of the proof LFSR (R450). -/
def lfsrStep (v : Nat) : Nat := if v % 2 = 1 then (v / 2) ^^^ 0x80200003 else v / 2

/-- The seed at an epoch boundary (R450). -/
def proofSeed (e p c : Nat) : Nat :=
  let v := (e * 0x9E3779B9 + p * 0x00010001 + c) % 2 ^ 32
  if v = 0 then 1 else v

/-- log2 of the sampling window of a launch; none when its tiles are not sampled (R449). -/
def proofN (code : Nat) : Option Nat := if code = 0 then some 6 else if code = 1 then none else some code

/-- The window state of a context on a plate when its next tile begins, and whether that tile is sampled (R449, R450); a sample that
passed from the last tile of a window falls to the first of the next (R451). -/
def State.proofNext (s : State) (p ctx n : Nat) : ProofWin × Bool :=
  let w := (s.plate p).wins.get ⟨0, none, n, 0, 0⟩ ctx
  if w.tile = 0 ∨ 2 ^ w.n ≤ w.tile then
    let v := lfsrStep (if w.epoch = some s.tm.epochNo then w.lfsr else proofSeed s.tm.epochNo p ctx)
    (⟨v, some s.tm.epochNo, n, 1, v % 2 ^ n⟩, v % 2 ^ n == 0 || (w.tile != 0 && w.offset == w.tile))
  else ({ w with tile := w.tile + 1 }, w.offset == w.tile)

/-- Bytes of a record for one command with its operands: the pairs of a gathered or scattered command among them (R451). -/
def recordSize (c ops : List Byte) : Nat := 32 + ops.length + (if bcGather c || bcScatter c then 8 * bcRows c else 0)

/-- The proof-unit slice records a command of a sampled tile and the operand bytes read for it; a record beyond 256 KiB is
dropped, counted, and the sample passes to the next tile of the context (R451). -/
def State.proofRecord (s : State) (p : Nat) (c ops : List Byte) : State :=
  let x := s.plate p
  match x.recording with
  | none => s
  | some r =>
    let size := r.size + recordSize c ops
    if some r.log ≠ x.arr.logNow then s
    else if 262144 < size then
      let w := x.wins.get ⟨0, none, 6, 0, 0⟩ r.context
      (s.setPlate p { x with recording := none, wins := x.wins.set r.context { w with offset := w.tile } }).bump
        Reg.PRF_CNT_UNCHECKABLE
    else s.setPlate p { x with recording := some { r with cmds := r.cmds ++ [(c, ops)], size := size } }

/-- The record of a tile at its first MATMUL: the weights that are loaded for it, the accumulators and the curve slots (R451). -/
def ArrSt.startRecord (x : ArrSt) (r : ProofRec) : ProofRec :=
  let w := x.shadow.getD x.active
  let first := x.lastLoad.toList.map (fun q => (q.bytes, w))
  { r with cmds := first, size := (first.map (fun e => recordSize e.1 e.2)).sum, acc := x.acc, curves := x.curves }

/-- A tile begins with a MATMUL with ZERO. A sampled one starts a record; a repeated one is not counted again, and a record of
it starts over (R449, R451, R199). -/
def State.tileBegin (s : State) (p : Nat) (q : Queued) (j : Job) : State :=
  let s := s.setArr p { s.arr p with inTile := true }
  let y := s.plate p
  if !y.arr.replay.isEmpty then
    s.setPlate p { y with recording := y.recording.map (fun r => if some r.log = y.arr.logNow then y.arr.startRecord r else r) }
  else match proofN (j.arg 57 1) with
    | none => s
    | some n =>
      let (w, hit) := s.proofNext p j.context n
      let rec' : ProofRec := y.arr.startRecord ⟨j.id, j.context, bcTile q.bytes, y.arr.logNow.getD 0, [], 0, .empty, [], none, none⟩
      s.setPlate p { y with wins := y.wins.set j.context w, recording := if hit then some rec' else y.recording }

/-- A sampled tile's first MATMUL is held while both proof slots hold records not yet compared (R451). -/
def State.proofHeld (s : State) (p : Nat) (q : Queued) (j : Job) : Bool :=
  bcZero q.bytes && !(s.arr p).inTile && (s.arr p).replay.isEmpty && decide (2 ≤ (s.plate p).slots.length) &&
  match proofN (j.arg 57 1) with
  | none => false
  | some n => (s.proofNext p j.context n).2

/-! #### LOADW and LOADC -/

/-- The weight tile of a LOADW and, for the MX kinds, its scales (R176). -/
def State.loadOps (s : State) (p : Nat) (c : List Byte) : List Byte :=
  s.abuf p (bcA c) (kindTile (bcKind c)) ++ s.abuf p (bcB c) (kindWScale (bcKind c))

/-- LOADW: the weights lie in the shadow registers. -/
def ArrSt.loadWeights (x : ArrSt) (ops : List Byte) : ArrSt := { x with shadow := some ops }

/-- LOADC: the table lies in its curve slot. -/
def ArrSt.loadCurve (x : ArrSt) (c ops : List Byte) : ArrSt := { x with curves := x.curves.set (bcSlot c) ops }

/-- LOADW loads the weight tile and its scales into the shadow weight registers (R176). -/
def execLoadw (plate : Fin 34) (upset : ArrUpset) (s : State) : Res :=
  let p := plate.val
  match s.arrayHead p 1 with
  | none => .next s
  | some (q, j) =>
    let c := q.bytes
    let ops := s.loadOps p c
    let bad := s.abufBad p (bcA c) (kindTile (bcKind c)) || s.abufBad p (bcB c) (kindWScale (bcKind c))
    let x := (s.arr p).logged q
    let s := (s.setArr p { x.loadWeights ops with lastLoad := some (unsig q) }).proofRecord p c ops
    .next ((s.arrParity p upset bad q (bcA c)).burinDone p q j)

/-- LOADC copies a curve table into a curve slot (text after R182). -/
def execLoadc (plate : Fin 34) (upset : ArrUpset) (s : State) : Res :=
  let p := plate.val
  match s.arrayHead p 4 with
  | none => .next s
  | some (q, j) =>
    let c := q.bytes
    let ops := s.abuf p (bcA c) 2064
    let s := (s.setArr p (((s.arr p).logged q).loadCurve c ops)).proofRecord p c ops
    .next ((s.arrParity p upset (s.abufBad p (bcA c) 2064) q (bcA c)).burinDone p q j)

/-- NOP does nothing but its SIG (R179). -/
def execBurinNop (plate : Fin 34) (s : State) : Res :=
  match s.arrayHead plate.val 0 with
  | none => .next s
  | some (q, j) => .next (s.burinDone plate.val q j)

/-! #### Column steps (R166 to R171) -/

/-- Element `i` of a packed 4-bit row, low nibble first. -/
def nibble (a : Array Byte) (i : Nat) : Nat := bits (a.getD (i / 2) 0#8).toNat (i % 2 * 4) 4

def byteAt (a : Array Byte) (i : Nat) : Nat := (a.getD i 0#8).toNat

/-- The integer activation at k. -/
def actInt (fmt : Nat) (row : Array Byte) (k : Nat) : Int :=
  if bit fmt 6 then byteAt row k else sext 8 (byteAt row k)

/-- The integer weight at (k, n). -/
def wgtInt (kind : Nat) (tile : Array Byte) (k n : Nat) : Int :=
  if kind = 1 then sext 4 (bits (byteAt tile (k / 2 * 64 + n)) (k % 2 * 4) 4) else sext 8 (byteAt tile (k * 64 + n))

/-- The floating activation at k. -/
def actFp (kind fmt : Nat) (row : Array Byte) (k : Nat) : FVal :=
  if kind = 6 then bf16.decode (byteAt row (2 * k) + 256 * byteAt row (2 * k + 1))
  else if kind = 4 then e2m1.decode (nibble row k)
  else if bit fmt 4 then e5m2.decode (byteAt row k) else e4m3.decode (byteAt row k)

/-- The floating weight at (k, n). -/
def wgtFp (kind fmt : Nat) (tile : Array Byte) (k n : Nat) : FVal :=
  if kind = 6 then bf16.decode (byteAt tile (32 * k + 2 * n) + 256 * byteAt tile (32 * k + 2 * n + 1))
  else if kind = 4 then e2m1.decode (bits (byteAt tile (k / 2 * 64 + n)) (k % 2 * 4) 4)
  else if bit fmt 5 then e5m2.decode (byteAt tile (k * 64 + n)) else e4m3.decode (byteAt tile (k * 64 + n))

/-- The exact sum of the column's products (R167, R169); `scales` are the activation scales of the row. -/
def columnSum (kind fmt : Nat) (row tile scales : Array Byte) (n : Nat) : FVal :=
  let mx := kindAScale kind != 0
  let sum := (List.range (kindK kind)).foldl (fun (a : FVal) k =>
    let sa := if mx then byteAt scales (k / 32) else 127
    let sw := if mx then byteAt tile (4096 + k / 32 * 64 + n) else 127
    let prod := if sa = 255 ∨ sw = 255 then FVal.nan
                else ((actFp kind fmt row k).mul (wgtFp kind fmt tile k n)).scale ((sa : Int) + sw - 254)
    a.add prod) (.fin false 0 0)
  match sum with
  | .fin _ 0 _ => .fin false 0 0
  | v => v

/-- The least and largest value of an INT32 accumulator (R170). -/
def accMax : Int := 2147483647

/-- An INT32 accumulator after an addition, and whether it saturated (R170). -/
def accAdd (a : Nat) (d : Int) : Nat × Bool :=
  let v := sext 32 a + d
  (toU 32 (clampI (-accMax) accMax v), decide (v < -accMax ∨ accMax < v))

/-- One block's contribution c_b (R171), saturated as R170. -/
def blockPart (kind fmt : Nat) (row tile scales : Array Byte) (n b : Nat) (e : Int) : Option (Int × Bool) :=
  let sa := byteAt scales b
  let sw := byteAt tile (4096 + b * 64 + n)
  if sa = 255 ∨ sw = 255 then none
  else
    let d := (List.range 32).foldl (fun (a : Int) i =>
      a + actInt fmt row (b * 32 + i) * wgtInt kind tile (b * 32 + i) n) 0
    let x : Int := (sa : Int) + sw - 266 - e
    if x < 0 then some (sgn (decide (d < 0)) (rneShift d.natAbs (-x).toNat), false)
    else
      let v := if 64 ≤ x then (if d = 0 then 0 else sgn (decide (d < 0)) (2 ^ 62)) else d * 2 ^ x.toNat
      some (clampI (-accMax) accMax v, decide (v < -accMax ∨ accMax < v))

/-- The MXINT8 NaN marker (R171). -/
def mxMarker : Nat := 0x80000000

/-- One column step: the accumulator after it and how many additions saturated (R167 to R171). -/
def columnStep (kind fmt : Nat) (e : Int) (row tile scales : Array Byte) (n a : Nat) : Nat × Nat :=
  if kind ≤ 1 then
    let d := (List.range (kindK kind)).foldl (fun (t : Int) k => t + actInt fmt row k * wgtInt kind tile k n) 0
    let (v, b) := accAdd a d
    (v, b.toNat)
  else if kind = 5 then
    if a = mxMarker then (a, 0)
    else match blockPart kind 0 row tile scales n 0 e, blockPart kind 0 row tile scales n 1 e with
      | some (c0, b0), some (c1, b1) => let (v, b) := accAdd a (c0 + c1); (v, b.toNat + b0.toNat + b1.toNat)
      | _, _ => (mxMarker, 0)
  else (add32 a (rne32 (columnSum kind fmt row tile scales n)), 0)

/-- One activation row added into accumulator row `m`. -/
def addRow (c : List Byte) (tile row scales : Array Byte) (m : Nat) (x : Tbl Nat × Nat) : Tbl Nat × Nat :=
  (List.range (kindN (bcKind c))).foldl (fun (y : Tbl Nat × Nat) n =>
    let (v, sat) := columnStep (bcKind c) (bcFmt c) (sext 16 (bcExp c)) row tile scales n (y.1.get 0 (64 * m + n))
    (y.1.set (64 * m + n) v, y.2 + sat)) x

/-- The share offset of an index-addressed row: the first word of the pair for GATHER, the second for SCATTER (R177). -/
def State.pairWord (s : State) (p idx m : Nat) (second : Bool) : Nat :=
  s.num (plateAddr p (s.abufOfs p (idx + 8 * m + if second then 4 else 0))) 4

/-- Where activation row `m` lies; none when a gathered row lies beyond the share (R177, R178). -/
def State.rowAt (s : State) (p : Nat) (c : List Byte) (m len : Nat) (second : Bool) : Option Nat :=
  if bcGather c ∨ bcScatter c then
    let o := bcA c + s.pairWord p (bcIdx c) m second * bcStride c
    if o + len ≤ s.abufLimit p then some o else none
  else some (bcA c + m * bcStride c)

/-- Activation row `m` of a MATMUL; a gathered row beyond the share is read as zero (R177, R178). -/
def State.matRow (s : State) (p : Nat) (c : List Byte) (m : Nat) : List Byte :=
  match s.rowAt p c m (kindRow (bcKind c)) false with
  | some o => s.abuf p o (kindRow (bcKind c))
  | none => zeros (kindRow (bcKind c))

/-- The operands of a MATMUL: its activation rows, gathered rows as gathered, then their scales. -/
def State.matOps (s : State) (p : Nat) (c : List Byte) : List Byte :=
  (List.range (bcRows c)).flatMap (s.matRow p c) ++ s.abuf p (bcB c) (bcRows c * kindAScale (bcKind c))

/-- A word that a MATMUL reads fails: of its rows, their scales or its pair list (R198). -/
def State.matBad (s : State) (p : Nat) (c : List Byte) : Bool :=
  let row := fun m => match s.rowAt p c m (kindRow (bcKind c)) false with
    | some o => s.abufBad p o (kindRow (bcKind c))
    | none => false
  (List.range (bcRows c)).any row || s.abufBad p (bcB c) (bcRows c * kindAScale (bcKind c)) ||
  bcGather c && s.abufBad p (bcIdx c) (8 * bcRows c)

/-- MATMUL on given operands: the array after it, and how many additions saturated (R167 to R171, R177). -/
def ArrSt.multiply (x : ArrSt) (c ops : List Byte) : ArrSt × Nat :=
  let k := bcKind c
  let x := { x with active := x.shadow.getD x.active, shadow := none }
  let tile := x.active.toArray
  let acc := if bcZero c then (⟨x.acc.rows.filter (fun r => decide (64 * bcRows c ≤ r.1))⟩ : Tbl Nat) else x.acc
  let scales := ops.drop (bcRows c * kindRow k)
  let (acc, sat) := (List.range (bcRows c)).foldl (fun (y : Tbl Nat × Nat) m =>
    addRow c tile ((ops.drop (m * kindRow k)).take (kindRow k)).toArray ((scales.drop (m * kindAScale k)).take (kindAScale k)).toArray
      m y) (acc, 0)
  ({ x with acc := acc, accType := kindAcc k, accExp := bcExp c, accN := kindN k }, sat)

/-- Gathered or scattered rows of a command that lie beyond the share: cause 4 once, each counted (R178). -/
def State.idxErrors (s : State) (p n : Nat) (q : Queued) : State :=
  if n = 0 then s else (s.arrErr p 4 0 q).bump Reg.PLT_CNT_IDX_ERR p n

/-- Saturating additions of a command (R170, R182). -/
def State.saturated (s : State) (p n : Nat) (j : Job) : State :=
  let s := s.bump Reg.PLT_CNT_ACC_SAT p n
  if n = 0 then s else s.addFlag j.id cfSaturated

/-- MATMUL adds the dot products of the activation rows into the accumulator rows (R177). -/
def execMatmul (plate : Fin 34) (upset : ArrUpset) (s : State) : Res :=
  let p := plate.val
  match s.arrayHead p 2 with
  | none => .next s
  | some (q, j) =>
    let c := q.bytes
    if s.proofHeld p q j then .next (s.bump Reg.PRF_CNT_PROOF_STALLS)
    else if bcRows c = 0 then .next (s.burinDone p q j)
    else
      let ops := s.matOps p c
      let bad := s.matBad p c
      let lost := ((List.range (bcRows c)).filter (fun m => (s.rowAt p c m (kindRow (bcKind c)) false).isNone)).length
      let s := s.setArr p ((s.arr p).logged q)
      let s := if bcZero c && !(s.arr p).inTile then s.tileBegin p q j else s
      let s := s.proofRecord p c ops
      let (x, sat) := (s.arr p).multiply c ops
      let s := ((s.setArr p x).bump Reg.PLT_CNT_MATMUL_ROWS p (bcRows c)).saturated p sat j
      .next (((s.idxErrors p lost q).arrParity p upset bad q (bcA c)).burinDone p q j)

/-! ### Drain stage (R180 to R184) -/

/-- The accumulator as FP32 (R180 step 1). -/
def accFp (ty : Nat) (e : Int) (a : Nat) : Nat :=
  if ty = 2 then a
  else if ty = 3 then (if a = mxMarker then 0x7FC00000 else rne32 ((ofInt (sext 32 a)).scale e))
  else rne32 (ofInt (sext 32 a))

/-- The output conversion of Table PLT-4. -/
def drainOut (o : Nat) (zp : Int) (v acc : Nat) : Nat :=
  match o with
  | 0 => if f32 v = .nan then 0x7FC00000 else v
  | 1 => narrow bf16 v
  | 2 => narrow e4m3 v
  | 3 => narrow e5m2 v
  | 4 => match f32 v with
    | .nan => toU 8 zp
    | .inf neg => if neg then 0x80 else 0x7F
    | w => toU 8 (satS 8 ((w.roundInt).getD 0 + zp))
  | _ => acc

/-- One element through the drain stage; `sc` and `bi` are the scale and bias patterns, `tbl` the curve. -/
def drainElem (c : List Byte) (ty a sc bi : Nat) (tbl : List Byte) : Nat :=
  let v := accFp ty (sext 16 (bcExp c)) a
  let v := if bcNosb c then v else add32 (mul32 v sc) bi
  let v := if bcCurve c then curve tbl v else v
  drainOut (bcOut c) (sext 8 (bcZp c)) v a

/-- An element added to the output element it is scattered to, and whether the addition saturated (R182). -/
def scatterAdd (o old v : Nat) : Nat × Nat :=
  if o = 0 then (add32 old v, 0) else let (x, b) := accAdd old (sext 32 v); (x, b.toNat)

/-- One output row written; the bytes for the CRC, and saturating additions. -/
def State.drainRow (s : State) (p : Nat) (c : List Byte) (vals : List Nat) (o : Nat) : State × Nat :=
  let w := outBytes (bcOut c)
  if bcScatter c then
    (vals.zipIdx).foldl (fun (y : State × Nat) e =>
      let at' := y.1.abufOfs p (o + e.2 * w)
      let (v, n) := scatterAdd (bcOut c) (leNat (y.1.plateRead p at' w)) e.1
      (y.1.plateStore p at' (le w v), y.2 + n)) (s, 0)
  else (s.plateStore p (s.abufOfs p o) (vals.flatMap (le w)), 0)

/-- The sampled tile's DRAIN with CRC delivers its tile tag and the CRC: the record is closed and takes a slot (R184, R451). -/
def State.proofClose (s : State) (p tag crc : Nat) : State :=
  let x := s.plate p
  match x.recording with
  | none => s
  | some r =>
    if some r.log ≠ x.arr.logNow then s
    else s.setPlate p { x with recording := none, slots := x.slots ++ [{ r with tile := tag, crc := some crc }] }

/-- The scale and bias vectors that a DRAIN reads (R180). -/
def State.drainOps (s : State) (p : Nat) (c : List Byte) : List Byte :=
  if bcNosb c then [] else s.abuf p (bcB c) (8 * (s.arr p).accN)

/-- The output patterns of accumulator row `m`, with the vectors `sb` (R180, R181). -/
def ArrSt.drained (x : ArrSt) (c sb : List Byte) (m : Nat) : List Nat :=
  let tbl := x.curves.getD (bcSlot c) []
  (List.range x.accN).map (fun i =>
    drainElem c x.accType (x.acc.get 0 (64 * m + i)) (fld sb (4 * i) 4) (fld sb (4 * x.accN + 4 * i) 4) tbl)

/-- The bytes whose CRC a DRAIN forms: those it writes, or under SCATTER the converted values (R184). -/
def ArrSt.drainBytes (x : ArrSt) (c sb : List Byte) : List Byte :=
  (List.range (bcRows c)).flatMap (fun m => (x.drained c sb m).flatMap (le (outBytes (bcOut c))))

/-- What the rows of a DRAIN have met so far: saturating additions, rows beyond the share, and words read that fail. -/
structure Drain where
  sat : Nat
  lost : Nat
  bad : Bool
  deriving DecidableEq, Repr

/-- Accumulator row `m` leaves the drain stage; what it writes over is kept for a recomputation (R180 to R182, R178, R199). -/
def State.drainOne (s : State) (p : Nat) (c sb : List Byte) (d : Drain) (m : Nat) : State × Drain :=
  let x := s.arr p
  let n := x.accN * outBytes (bcOut c)
  match s.rowAt p c m n true with
  | none => (s, { d with lost := d.lost + 1 })
  | some o =>
    let old := s.abuf p o n
    let bad := s.abufBad p o n
    let s := s.setArr p (x.inLog (fun t => { t with undo := (s.abufOfs p o, old, bad) :: t.undo }))
    let (s, k) := s.drainRow p c (x.drained c sb m) o
    (s, { d with sat := d.sat + k, bad := d.bad || (bcScatter c && bad) })

/-- DRAIN sends accumulator rows through the drain stage to the array buffer (R180 to R184); with rows zero it reads and writes
nothing (R179). -/
def execDrain (plate : Fin 34) (upset : ArrUpset) (s : State) : Res :=
  let p := plate.val
  match s.arrayHead p 3 with
  | none => .next s
  | some (q, j) =>
    let c := q.bytes
    let sb := if bcRows c = 0 then [] else s.drainOps p c
    let bad := bcRows c != 0 && (!bcNosb c && s.abufBad p (bcB c) (8 * (s.arr p).accN) ||
      bcScatter c && s.abufBad p (bcIdx c) (8 * bcRows c))
    let s := (s.setArr p ((s.arr p).logged q)).proofRecord p c sb
    let all := (s.arr p).drainBytes c sb
    let (s, d) := (List.range (bcRows c)).foldl (fun (y : State × Drain) m => y.1.drainOne p c sb y.2 m) (s, ⟨0, 0, bad⟩)
    let s := ((s.bump Reg.PLT_CNT_DRAINS p).saturated p d.sat j).idxErrors p d.lost q
    let s := s.arrParity p upset d.bad q (bcB c)
    let s := if bcCrc c then
        let s := s.proofClose p (bcTile c) (crc64 all)
        let x := s.arr p
        s.setArr p { x.inLog (fun t => { t with closed := true }) with inTile := false }
      else s
    .next (s.burinDone p q j)

/-- The array of a checker after a command of a record, and the bytes that its DRAIN would write (R453). -/
def ArrSt.check (x : ArrSt) (c ops : List Byte) : ArrSt × List Byte :=
  match bcOp c with
  | 1 => (x.loadWeights ops, [])
  | 2 => ((x.multiply c ops).1, [])
  | 3 => (x, x.drainBytes c ops)
  | 4 => (x.loadCurve c ops, [])
  | _ => (x, [])

/-- The CRC that an array in good order forms of a record: over the bytes of its last DRAIN (R184, R453, R456). -/
def ProofRec.result (r : ProofRec) : Nat :=
  let y := r.cmds.foldl (fun (y : ArrSt × List Byte) e => y.1.check e.1 e.2) ({ ArrSt.reset with acc := r.acc, curves := r.curves }, [])
  crc64 y.2

end Sys2Proof.Machine
end

