-- ==== Sys2Proof/Machine/Cache.lean ====
section
/-! DEFINITION. The paged key-value cache: tracers, look-aside buffers, windows and the CACHE descriptor (R228 to R264). -/

namespace Sys2Proof.Machine

/-! ### Geometry (Tables ATT-1, ATT-3, ATT-4) -/

/-- The least k with n ≤ 2^k. -/
def clog2 (n : Nat) : Nat := ((List.range 65).find? (fun k => decide (n ≤ 2 ^ k))).getD 65

def KvCache.b (c : KvCache) (o n : Nat) : Nat := fld c.block o n
def KvCache.elem (c : KvCache) : Nat := if c.b 0 1 = 2 then 2 else 1
/-- Panel width W. -/
def KvCache.panel (c : KvCache) : Nat := if c.b 0 1 = 2 then 16 else 64
def KvCache.heads (c : KvCache) : Nat := c.b 1 1
def KvCache.dim (c : KvCache) : Nat := c.b 2 2
def KvCache.layers (c : KvCache) : Nat := c.b 4 2
def KvCache.maxPages (c : KvCache) : Nat := c.b 6 2
def KvCache.maxSeqs (c : KvCache) : Nat := c.b 8 4
def KvCache.recent (c : KvCache) : Nat := c.b 12 1
def KvCache.stageDdr (c : KvCache) : Bool := bit (c.b 13 1) 0
def KvCache.ctx (c : KvCache) : Nat := c.b 14 1
def KvCache.decay (c : KvCache) : Nat := c.b 16 4
def KvCache.slots (c : KvCache) : Nat := c.b 20 4
def KvCache.pool (c : KvCache) : Nat := c.b 24 8
def KvCache.tables (c : KvCache) : Nat := c.b 32 8
def KvCache.window (c : KvCache) : Nat := c.b 48 8
def KvCache.stage (c : KvCache) (t : Nat) : Nat := c.b (56 + 8 * t) 8
def KvCache.stageLen (c : KvCache) (t : Nat) : Nat := c.b (72 + 4 * t) 4
def KvCache.hotLen (c : KvCache) (t : Nat) : Nat := c.b (80 + 4 * t) 4
def KvCache.scales (c : KvCache) : Nat := c.b 88 8
/-- Bytes of a page (R229) and of a slot. -/
def KvCache.pageBytes (c : KvCache) : Nat := 2 * 64 * c.dim * c.elem
def KvCache.slotBytes (c : KvCache) : Nat := c.heads * c.pageBytes
/-- Bytes of a staging buffer: header and H pages. -/
def KvCache.bufBytes (c : KvCache) : Nat := 64 + c.slotBytes
def KvCache.sb (c : KvCache) : Nat := clog2 c.slotBytes
def KvCache.pb (c : KvCache) : Nat := clog2 c.maxPages
def KvCache.lb (c : KvCache) : Nat := max 1 (clog2 c.layers)
def KvCache.qb (c : KvCache) : Nat := clog2 c.maxSeqs
def KvCache.winBytes (c : KvCache) : Nat := 2 ^ (c.sb + c.pb + c.lb + c.qb)
/-- Page entries of the table area. -/
def KvCache.entries (c : KvCache) : Nat := c.maxSeqs * c.layers * c.maxPages

def kvEmpty : KvCache := ⟨[], .empty, [], [], .empty⟩
def State.kv (s : State) (ci : Nat) : KvCache := s.caches.get kvEmpty ci
def State.setKv (s : State) (ci : Nat) (c : KvCache) : State := { s with caches := s.caches.set ci c }

/-- The position in a page that byte `i` of it holds (R229). -/
def KvCache.posOf (c : KvCache) (i : Nat) : Nat :=
  let half := 64 * c.dim * c.elem
  if i < half then i / (c.dim * c.panel * c.elem) * c.panel + i / c.elem % c.panel
  else (i - half) % (64 * c.panel * c.elem) / (c.panel * c.elem)

/-! ### Accesses to the pinned memory: none = the access faults (R330) or reads failed control state (R264) -/

def State.kvBytes (s : State) (ci va n : Nat) : Option (List Byte) :=
  match s.acceptRead (s.kv ci).ctx va n with
  | .ok l => some l
  | .error _ => none

def State.kvPut (s : State) (ci t va : Nat) (l : List Byte) : Option State :=
  match s.vcheck (s.kv ci).ctx .write (l.length / 4096 + 2) va l.length with
  | some _ => none
  | none => some (s.vwrite (0x28 + 4 * t) (s.kv ci).ctx va l).1

/-- A number in the table area. -/
def State.tab (s : State) (ci ofs n : Nat) : Option Nat := (s.kvBytes ci ((s.kv ci).tables + ofs) n).map leNat
def State.setTab (s : State) (ci t ofs n v : Nat) : Option State := s.kvPut ci t ((s.kv ci).tables + ofs) (le n v)

def dirOfs (q : Nat) : Nat := 8 * q
def KvCache.pteOfs (c : KvCache) (q l p : Nat) : Nat := 8 * c.maxSeqs + 8 * ((q * c.layers + l) * c.maxPages + p)
def KvCache.scoreOfs (c : KvCache) (q l p : Nat) : Nat := c.pteOfs q l p + 8 * c.entries
def KvCache.slotOfs (c : KvCache) (n : Nat) : Nat := 8 * c.maxSeqs + 16 * c.entries + 64 * n

/-- Sequence states (Table ATT-5) and slot states (Table ATT-7). -/
def sqFree : Nat := 0
def sqActive : Nat := 1
def sqInvalid : Nat := 2
def slFree : Nat := 0
def slLive : Nat := 1
def slQuarantine : Nat := 2
def slPoisoned : Nat := 3

def State.seqState (s : State) (ci q : Nat) : Option Nat := s.tab ci (dirOfs q) 1

/-- The TRC_CACHE field of cache `ci` that corresponds to cache 0's field `f`. -/
def trcField (f : RegField) (ci : Nat) : RegField := { f with addr := f.addr + 0x10 * ci }

/-- A TRC_CACHE count of tracer `t` changed: `a` removed, `b` added. -/
def State.trcCount (s : State) (f : RegField) (ci t a b : Nat) : State :=
  s.wr (trcField f ci) (s.rd (trcField f ci) t + b - a) t

def State.setSeq (s : State) (ci q st : Nat) : Option State := do
  let old ← s.seqState ci q
  let s ← s.setTab ci (q % 2) (dirOfs q) 1 st
  pure (s.trcCount Reg.TRC_CACHE_ACTIVE_SEQS0 ci (q % 2) (old == sqActive).toNat (st == sqActive).toNat)

/-- A page entry (Table ATT-6). -/
def State.pageEntry (s : State) (ci q l p : Nat) : Option Nat := s.tab ci ((s.kv ci).pteOfs q l p) 8
def State.setPageEntry (s : State) (ci q l p v : Nat) : Option State := s.setTab ci (q % 2) ((s.kv ci).pteOfs q l p) 8 v
def peValid (e : Nat) : Bool := bit e 0
def peRemote (e : Nat) : Bool := bit e 1
def peEvicted (e : Nat) : Bool := bit e 2
def peSlot (e : Nat) : Nat := bits e 32 24
def peModule (e : Nat) : Nat := bits e 8 3

/-- A slot's references and state (Table ATT-7). -/
def State.slotCount (s : State) (ci n : Nat) : Option Nat := (s.tab ci ((s.kv ci).slotOfs n) 4).map (· % 2 ^ 24)
def State.slotState (s : State) (ci n : Nat) : Option Nat := (s.tab ci ((s.kv ci).slotOfs n) 4).map (bits · 24 2)

def State.setSlot (s : State) (ci n count st : Nat) : Option State := do
  let old ← s.slotState ci n
  let s ← s.setTab ci (n % 2) ((s.kv ci).slotOfs n) 4 (count % 2 ^ 24 + st * 2 ^ 24)
  let s := s.trcCount Reg.TRC_CACHE_FREE_SLOTS0 ci (n % 2) (old == slFree).toNat (st == slFree).toNat
  pure (s.trcCount Reg.TRC_CACHE_QUAR_SLOTS0 ci (n % 2) (old == slQuarantine).toNat (st == slQuarantine).toNat)

/-- A free slot of a tracer; which one the spec leaves open (log entry 4). -/
def State.freeSlotOf (s : State) (ci t : Nat) : Option (Option Nat) := do
  let l ← ((List.range ((s.kv ci).slots / 2)).map (fun i => 2 * i + t)).filterM (fun n => do
    let st ← s.slotState ci n
    pure (st == slFree))
  pure (if l.isEmpty then none else some (l.getD (Config.free s.free % l.length) 0))

/-! #### Staging buffers -/

/-- The buffer of a sequence and layer. -/
def State.bufOf (s : State) (ci q l : Nat) : Nat := (((s.kv ci).bufs.get [] q)).getD l 0

/-- Bytes at a virtual address of the cache as they are read, failing or not; none = the access faults (R330). -/
def State.kvRaw (s : State) (ci va n : Nat) : Option (List Byte) :=
  match s.vread 0x28 (s.kv ci).ctx va n with
  | (_, l, none) => some l
  | _ => none

/-- `n` bytes at offset `o` of a buffer. -/
def State.stGet (s : State) (ci q l o n : Nat) : Option (List Byte) :=
  let c := s.kv ci
  let a := c.stage (q % 2) + s.bufOf ci q l * c.bufBytes + o
  if c.stageDdr then s.kvRaw ci a n else some (s.bytes (gaddr spCommons (q % 2 * 0xA00000 + a)) n)

def State.stPut (s : State) (ci q l o : Nat) (x : List Byte) : Option State :=
  let c := s.kv ci
  let a := c.stage (q % 2) + s.bufOf ci q l * c.bufBytes + o
  if c.stageDdr then s.kvPut ci (q % 2) a x else some (s.store (gaddr spCommons (q % 2 * 0xA00000 + a)) x)

def State.flushed (s : State) (ci q l : Nat) : Option Nat := (s.stGet ci q l 0 4).map leNat
def State.fill (s : State) (ci q l : Nat) : Option Nat := (s.stGet ci q l 4 1).map leNat
/-- The length of a layer. -/
def State.layerLen (s : State) (ci q l : Nat) : Option Nat := do
  let f ← s.flushed ci q l
  let n ← s.fill ci q l
  pure (64 * f + n)

/-- A buffer's header: flushed pages, fill, scales. -/
def State.putHeader (s : State) (ci q l flushed fill : Nat) (scales : List Byte) : Option State :=
  s.stPut ci q l 0 (padTo 64 (le 4 flushed ++ le 1 fill ++ zeros 3 ++ scales))

/-- The 2 H scale bytes of a layer in the scale table. -/
def State.tableScales (s : State) (ci l : Nat) : Option (List Byte) :=
  let c := s.kv ci
  s.kvBytes ci (c.scales + 2 * l * c.heads) (2 * c.heads)

/-- A buffer opens with `flushed` pages and the scale table's scales (R241). -/
def State.openBuffer (s : State) (ci q l flushed : Nat) : Option State := do
  let sc ← s.tableScales ci l
  s.putHeader ci q l flushed 0 sc

/-! ### Invalidation, pins and quarantine (R252 to R257) -/

/-- The entries of a sequence's pages from `lo` on in one layer are invalidated. -/
def State.dropPages (s : State) (ci q l lo : Nat) : State :=
  s.dropLabs (fun e => e.cache == ci && e.seq == q && e.layer == l && decide (lo ≤ e.page))

def State.dropSeqLabs (s : State) (ci q : Nat) : State := s.dropLabs (fun e => e.cache == ci && e.seq == q)

/-- A slot with no reference left enters QUARANTINE under the current epoch, which advances unless its oldest pin count is
held (R256). -/
def State.quarantine (s : State) (ci n : Nat) : Option State := do
  let t := n % 2
  let s ← s.setSlot ci n 0 slQuarantine
  let x := s.tracer t
  let c := s.kv ci
  let s := s.setKv ci { c with quar := c.quar ++ [(n, x.epoch)] }
  let heldUp := x.pins.get 0 ((x.epoch + 2 ^ 32 - 63) % 2 ^ 32) != 0
  pure (s.setTracer t { x with epoch := if heldUp then x.epoch else (x.epoch + 1) % 2 ^ 32 })

/-- One reference to a local slot less (R256). -/
def State.dropRef (s : State) (ci n : Nat) : Option State := do
  let k ← s.slotCount ci n
  let st ← s.slotState ci n
  if k ≤ 1 then s.quarantine ci n else s.setSlot ci n (k - 1) st

/-- A reference of a page entry is dropped: locally, or by a message to the holding module (R256, R262). -/
def State.dropEntry (s : State) (ci e : Nat) : Option State :=
  if !peValid e then some s
  else if peRemote e then some (s.kvSend (peModule e) kvDrop ci 0 (peSlot e) 0 [])
  else s.dropRef ci (peSlot e)

/-- The bytes and scales of a page that another module holds (R251, R261). -/
def KvCache.remotePage (c : KvCache) (m n : Nat) : List Byte × List Byte := c.remote.get (zeros c.slotBytes, zeros 32) (m * 2 ^ 24 + n)

/-- A sequence becomes INVALID and its look-aside entries are dropped (R263, R264). -/
def State.invalidate (s : State) (ci q : Nat) : Option State := do
  let st ← s.seqState ci q
  if st = sqActive then
    let s ← s.setSeq ci q sqInvalid
    pure (s.dropSeqLabs ci q)
  else pure s

/-- A slot becomes POISONED (R264). -/
def State.poisonSlot (s : State) (ci n : Nat) : Option State := do
  let k ← s.slotCount ci n
  let st ← s.slotState ci n
  if st = slPoisoned then pure s
  else
    let s ← s.setSlot ci n k slPoisoned
    pure (s.bump Reg.TRC_CNT_POISONED (n % 2))

/-- Bytes of a staging buffer fail as they are read (R264). -/
def State.stBad (s : State) (ci q l o n : Nat) : Bool :=
  let c := s.kv ci
  let a := c.stage (q % 2) + s.bufOf ci q l * c.bufBytes + o
  if c.stageDdr then s.vbad c.ctx (n / 4096 + 2) a n else s.badRead (gaddr spCommons (q % 2 * 0xA00000 + a)) n

/-- Bytes of a pool slot fail as they are read (R264). -/
def State.slotBad (s : State) (ci n o len : Nat) : Bool :=
  let c := s.kv ci
  s.vbad c.ctx (len / 4096 + 2) (c.pool + n * c.slotBytes + o) len

/-- A detection in a read of a page or staging buffer: the sequence becomes INVALID, and a slot POISONED (R264). -/
def State.pageDetected (s : State) (ci q : Nat) (slot : Option Nat) : Option State := do
  let s ← s.invalidate ci q
  match slot with
  | some n => s.poisonSlot ci n
  | none => pure s

/-! ### Flush and eviction (R246 to R249) -/

/-- The pages that may be evicted: VALID, not page 0, not among the W_r below `flushed` (R248). -/
def State.evictable (s : State) (ci q l flushed : Nat) : Option (List (Nat × Nat)) :=
  ((List.range flushed).filter (fun p => decide (0 < p ∧ p + (s.kv ci).recent < flushed))).filterMapM (fun p => do
    let e ← s.pageEntry ci q l p
    if peValid e then
      let sc ← s.tab ci ((s.kv ci).scoreOfs q l p) 4
      pure (some (p, sc))
    else pure none)

def State.validPages (s : State) (ci q l flushed : Nat) : Option Nat :=
  ((List.range flushed).filterM (fun p => do
    let e ← s.pageEntry ci q l p
    pure (peValid e))).map List.length

/-- The lowest score, the lowest page among equals. -/
def lowestScore : List (Nat × Nat) → Option Nat
  | [] => none
  | x :: r => some (r.foldl (fun b y => if y.2 < b.2 then y else b) x).1

/-- One page is evicted when the VALID pages exceed the budget (R248). -/
def State.evict (s : State) (ci q l flushed : Nat) : Option State := do
  let budget ← s.tab ci (dirOfs q + 2) 2
  let n ← s.validPages ci q l flushed
  if budget = 0 ∨ n ≤ budget then pure s
  else
    let cand ← s.evictable ci q l flushed
    match lowestScore cand with
    | none => pure s
    | some p =>
      let e ← s.pageEntry ci q l p
      let s := s.dropLabs (fun x => x.cache == ci && x.seq == q && x.layer == l && x.page == p)
      let s ← s.setPageEntry ci q l p 4
      let s ← s.dropEntry ci e
      pure (s.bump Reg.TRC_CNT_EVICTIONS (q % 2))

/-- A full buffer is flushed to a free slot and reopened; false when no slot is free (R246, R247). -/
def State.flush (s : State) (ci q l : Nat) : Option (State × Bool) := do
  let t := q % 2
  let p ← s.flushed ci q l
  let slot ← s.freeSlotOf ci t
  match slot with
  | none =>
    let c := s.kv ci
    pure (s.setKv ci { c with held := if c.held.contains (q, l) then c.held else c.held ++ [(q, l)] }, false)
  | some n =>
    let c := s.kv ci
    if c.maxPages ≤ p then pure (s, false)
    else
      let s := s.usedFree
      let page ← s.stGet ci q l 64 c.slotBytes
      let head ← s.stGet ci q l 0 64
      let s := s.dropPages ci q l p
      let s ← s.kvPut ci t (c.pool + n * c.slotBytes) page
      let s ← s.setSlot ci n 1 slLive
      let s ← s.kvPut ci t (c.tables + c.slotOfs n + 8) (slice head 8 32)
      let s ← s.setPageEntry ci q l p (1 + n * 2 ^ 32)
      let s ← s.setTab ci t (c.scoreOfs q l p) 8 0
      let s ← s.openBuffer ci q l (p + 1)
      let s := s.setKv ci { s.kv ci with held := (s.kv ci).held.filter (· != (q, l)) }
      let s ← (s.bump Reg.TRC_CNT_FLUSHES t).evict ci q l (p + 1)
      pure (s, true)

/-! ### Tracer commands (R243 to R251) -/

/-- What a tracer access that fails does: containment (R330, R264). -/
def State.kvResult (s : State) (t : Nat) (r : Option State) : State :=
  match r with
  | some x => x
  | none => s.contain 0x02 (unitId 6 t)

/-- The result word is written to commons and the sync object signalled by 1 (R243). -/
def State.trcDone (s : State) (cmd : List Byte) (status value : Nat) : State :=
  let at' := fld cmd 16 4
  let s := if at' % 4 = 0 ∧ at' + 4 ≤ 0x1400000 then s.storeNum (gaddr spCommons at') 4 (status + value % 2 ^ 24 * 256) else s
  s.signal (fld cmd 2 2) 1 []

/-- The fields of a command break Table ATT-8, or its sequence is not on this tracer (R244). -/
def tracerBadField (c : KvCache) (t : Nat) (cmd : List Byte) : Bool :=
  let op := fld cmd 0 1
  let q := fld cmd 4 4
  let n := fld cmd 10 2
  decide (op = 0 ∨ 3 < op ∨ c.maxSeqs ≤ q ∨ q % 2 ≠ t ∨ c.layers ≤ fld cmd 8 2 ∨ fld cmd 16 4 % 4 ≠ 0 ∨
    0x1400000 < fld cmd 16 4 + 4) ||
  (op == 1 && (fld cmd 12 4 != 0 || fld cmd 20 4 != 0)) || (op == 2 && decide (n = 0 ∨ 4 < n)) ||
  (op == 3 && decide (n = 0 ∨ 256 < n ∨ fld cmd 20 4 % 4 ≠ 0 ∨ 0x1400000 < fld cmd 20 4 + 36 * n)) ||
  (op != 2 && !zeroAt cmd 24 8)

/-- A launch that read failed data of a cache completes DATA_ERROR (R264). -/
def State.launchFailed (s : State) (plate q : Nat) : State :=
  match s.runningOn plate with
  | none => s
  | some (j, l) =>
    let bad : Launch := { l with dataErr := some (l.dataErr.getD (0, unitId 6 (q % 2), 0)) }
    { s with launches := s.launches.set j.id bad }

/-- A tracer serves: its commons half and its own unit are up. -/
def State.tracerUp (s : State) (t : Nat) : Bool := s.unitUp (unitId 5 t) && s.unitUp (unitId 6 t) && s.flag Reg.TRC_STAT_RUN t && !s.gated (islCm t)

/-- The command at the head of a tracer's queue, with its effect `run` when its fields and its sequence allow it. -/
def State.tracerRun (s : State) (t : Nat) (mine : Nat → Bool)
    (run : State → List Byte → Nat → Nat → Nat → Option (State × Nat × Nat)) : Res :=
  match (s.tracer t).queue with
  | [] => .next s
  | (cmd, chan) :: r =>
    if !mine (fld cmd 0 1) || !s.tracerUp t then .next s
    else
      let s := s.setTracer t { s.tracer t with queue := r }
      let ci := fld cmd 1 1
      match s.caches.find ci with
      | none => .next (s.bump Reg.TRC_CNT_BAD_CMD t)
      | some c =>
        if tracerBadField c t cmd then .next (s.trcDone cmd stBadField 0)
        else
          let q := fld cmd 4 4
          match s.seqState ci q with
          | none => .next (s.contain 0x02 (unitId 6 t))
          | some st =>
            if st ≠ sqActive then .next (s.trcDone cmd stWrongState st)
            else if s.stBad ci q (fld cmd 8 2) 0 64 then
              .next (s.kvResult t ((s.pageDetected ci q none).map (fun s => (s.launchFailed chan q).trcDone cmd stDataErr 0)))
            else match run s cmd ci q (fld cmd 8 2) with
              | none => .next (s.contain 0x02 (unitId 6 t))
              | some (s, status, v) => .next ((if status = stDataErr then s.launchFailed chan q else s).trcDone cmd status v)

/-- COMMIT: the fill rises by count; a full buffer is flushed (R245 to R248). -/
def commitRun (s : State) (cmd : List Byte) (ci q l : Nat) : Option (State × Nat × Nat) := do
  let n := fld cmd 10 2
  let len ← s.layerLen ci q l
  let fill ← s.fill ci q l
  if n = 0 then pure (s, stOk, len)
  else if (s.kv ci).held.contains (q, l) then pure (s, stNoResource, len)
  else if 64 - fill < n then pure (s, stBadLength, len)
  else
    let s ← s.stPut ci q l 4 (le 1 (fill + n))
    if fill + n = 64 then
      if s.stBad ci q l 0 (s.kv ci).bufBytes then
        let s ← s.pageDetected ci q none
        pure (s, stDataErr, len + n)
      else
        let (s, ok) ← s.flush ci q l
        pure (s, if ok then stOk else stNoResource, len + n)
    else pure (s, stOk, len + n)

/-- A tracer COMMIT; a command with an operation outside Table ATT-8 is answered here too (R244, R245). -/
def execTrcCommit (tracer : Fin 2) (s : State) : Res := s.tracerRun tracer (fun op => op != 2 && op != 3) commitRun

/-- One score after decay and the addition of a mass (R250). -/
def scoreAfter (decay score stamp step mass : Nat) : Nat × Nat :=
  let k := if stamp < step then min (step - stamp) 32 else 0
  let v := (List.range k).foldl (fun v _ => (v * decay) >>> 16) score
  (satU 32 (v + mass), if stamp < step then step else stamp)

/-- SCORE (R250). -/
def scoreRun (s : State) (cmd : List Byte) (ci q l : Nat) : Option (State × Nat × Nat) := do
  let c := s.kv ci
  let p0 := fld cmd 12 4
  let s ← (List.range (fld cmd 10 2)).foldlM (fun (s : State) i => do
    let p := p0 + i
    if c.maxPages ≤ p then pure s
    else
      let e ← s.pageEntry ci q l p
      if !peValid e then pure s
      else
        let score ← s.tab ci (c.scoreOfs q l p) 4
        let stamp ← s.tab ci (c.scoreOfs q l p + 4) 4
        let (v, st) := scoreAfter c.decay score stamp (fld cmd 20 4) (fld cmd (24 + 2 * i) 2)
        s.setTab ci (q % 2) (c.scoreOfs q l p) 8 (v + st * 2 ^ 32)) s
  pure (s, stOk, 0)

/-- A tracer SCORE (R250). -/
def execTrcScore (tracer : Fin 2) (s : State) : Res := s.tracerRun tracer (· == 2) scoreRun

/-- One 36-byte record of MAP; the scales of a REMOTE page come from the module that holds it (R251). -/
def State.mapRecord (s : State) (ci q l p : Nat) : Option (List Byte) := do
  let c := s.kv ci
  let f ← s.flushed ci q l
  let fill ← s.fill ci q l
  if p = f then
    let h ← s.stGet ci q l 8 32
    pure (le 1 2 ++ le 1 fill ++ zeros 2 ++ h)
  else if f < p ∨ c.maxPages ≤ p then pure (le 1 3 ++ zeros 35)
  else
    let e ← s.pageEntry ci q l p
    if peEvicted e then pure (le 1 1 ++ zeros 35)
    else if peRemote e then pure (le 1 4 ++ zeros 3 ++ padTo 32 (c.remotePage (peModule e) (peSlot e)).2)
    else if peValid e then
      let h ← s.kvBytes ci (c.tables + c.slotOfs (peSlot e) + 8) 32
      pure (le 1 0 ++ zeros 3 ++ h)
    else pure (le 1 3 ++ zeros 35)

/-- MAP (R251). -/
def mapRun (s : State) (cmd : List Byte) (ci q l : Nat) : Option (State × Nat × Nat) := do
  let n := fld cmd 10 2
  let s ← (List.range n).foldlM (fun (s : State) i => do
    let r ← s.mapRecord ci q l (fld cmd 12 4 + i)
    pure (s.store (gaddr spCommons (fld cmd 20 4 + 36 * i)) r)) s
  pure (s, stOk, n)

/-- A tracer MAP (R251). -/
def execTrcMap (tracer : Fin 2) (s : State) : Res := s.tracerRun tracer (· == 3) mapRun

/-- A buffer held full is flushed once a slot of its tracer is free (R247). -/
def execDeferredFlush (tracer : Fin 2) (cache : Fin 4) (seq layer : Nat) (s : State) : Res :=
  if (s.kv cache).held.contains (seq, layer) ∧ seq % 2 = tracer.val then
    .next (s.kvResult tracer ((s.flush cache seq layer).map (·.1)))
  else .next s

/-- A 32-byte write to a tracer's command port: refused ones are counted, others queued (R243, R244). -/
def State.portWrite (s : State) (t chan ofs : Nat) (l : List Byte) : State :=
  if l.length ≠ 32 ∨ ofs % 32 ≠ 0 ∨ (s.caches.find (fld l 1 1)).isNone then s.bump Reg.TRC_CNT_BAD_CMD t
  else s.setTracer t { s.tracer t with queue := (s.tracer t).queue ++ [(l, chan)] }

/-! ### Walks and windows (R239 to R242, R252 to R254, R263, R264) -/

/-- What a walk of a sequence's page finds (R252, R263, R264). -/
def State.walkPage (s : State) (ci q l p : Nat) : Option (State × LabMap) := do
  let c := s.kv ci
  let st ← s.seqState ci q
  if st ≠ sqActive then pure (s, .nothing)
  else if s.stBad ci q l 0 64 then
    let s ← s.pageDetected ci q none
    pure (s, .nothing)
  else
    let f ← s.flushed ci q l
    if p = f then pure (s, .staging)
    else if f < p then pure (s, .nothing)
    else
      let e ← s.pageEntry ci q l p
      if !peValid e ∨ c.maxPages ≤ p then pure (s, .nothing)
      else if peRemote e then
        if (s.moduleIn (peModule e)).isSome then pure (s, .remote (peModule e) (peSlot e))
        else
          let s ← s.invalidate ci q
          pure (s, .nothing)
      else
        let sl ← s.slotState ci (peSlot e)
        if sl = slPoisoned then
          let s ← s.invalidate ci q
          pure (s, .nothing)
        else pure (s, .slot (peSlot e))

/-- A look-aside miss: the tracer walks and pins the current epoch, the module that holds a remote slot pins its own, and the
plate's buffer takes the entry in place of its least recently used one (R252, R253, R262). -/
def State.labWalk (s : State) (plate ci q l p : Nat) : Option (State × LabMap) := do
  let t := q % 2
  let s := s.bump Reg.TRC_CNT_WALKS t
  let s := if (s.kv ci).hotLen t = 0 ∨ Config.free s.free % 2 = 1 then s.bump Reg.TRC_CNT_WALKS_DDR t else s
  let st ← s.seqState ci q
  let s := if st = sqActive ∧ s.stBad ci q l 0 64 then s.launchFailed plate q else s
  let (s, m) ← s.usedFree.walkPage ci q l p
  let e := (s.tracer t).epoch
  let s := s.pin t e true
  let old := s.labs.get [] plate
  let out := if 64 ≤ old.length then old.drop 63 else []
  let s := { s with labs := s.labs.set plate ((⟨ci, q, l, p, m, e⟩ : LabEntry) :: old.take 63) }
  let s := match m with | .remote peer n => s.kvSend peer kvPin ci 0 n 0 [] | _ => s
  pure (out.foldl State.releaseLab s, m)

/-- The mapping of a page in a plate: a hit makes the entry the most recently used, a miss walks. -/
def State.labFind (s : State) (plate ci q l p : Nat) : Option (State × LabMap) :=
  let mine := fun (e : LabEntry) => e.cache == ci && e.seq == q && e.layer == l && e.page == p
  match (s.labs.get [] plate).find? mine with
  | some e => some ({ s with labs := s.labs.set plate (e :: (s.labs.get [] plate).filter (fun x => !mine x)) }, e.map)
  | none => s.labWalk plate ci q l p

/-- A detection in a page or staging buffer read for a plate: the sequence becomes INVALID and the slot POISONED, and the
launch completes DATA_ERROR (R264). -/
def State.kvDetected (s : State) (plate ci q : Nat) (m : LabMap) : Option State := do
  let s ← s.pageDetected ci q (match m with | .slot n => some n | _ => none)
  pure (s.launchFailed plate q)

/-- A look-aside miss that a plate's DMA engine reports: the tracer walks; `det` = the page read met a detection (R252, R264). -/
def execLabMissWalk (plate : Fin 34) (cache : Fin 4) (seq layer page : Nat) (det : Bool) (s : State) : Res :=
  let c := s.kv cache
  let old := s.labs.get [] plate.val
  if (s.caches.find cache).isNone ∨ c.maxSeqs ≤ seq ∨ c.layers ≤ layer ∨ !s.tracerUp (seq % 2) ∨
     old.any (fun e => e.cache == cache.val && e.seq == seq && e.layer == layer && e.page == page) then .next s
  else .next (s.kvResult (seq % 2) (do
    let (s, m) ← s.labWalk plate cache seq layer page
    if det then s.kvDetected plate cache seq m else pure s))

/-- The registered cache of a context whose window holds a virtual address (R239). -/
def State.windowOf (s : State) (ctx va : Nat) : Option Nat :=
  (s.caches.rows.find? (fun r => r.2.ctx == ctx && decide (r.2.window ≤ va) && decide (va < r.2.window + r.2.winBytes))).map (·.1)

/-- A window offset's byte in slot, page, layer and sequence (Table ATT-4). -/
def KvCache.split (c : KvCache) (o : Nat) : Nat × Nat × Nat × Nat :=
  (o % 2 ^ c.sb, o >>> c.sb % 2 ^ c.pb, o >>> (c.sb + c.pb) % 2 ^ c.lb, o >>> (c.sb + c.pb + c.lb) % 2 ^ c.qb)

/-- A launch has used data of module `m` that came over the ring: it carries the check epoch in which the data left (text after
R263, R432, R433). -/
def State.usedRemote (s : State) (plate m : Nat) : State :=
  match s.runningOn plate with
  | none => s
  | some (j, _) =>
    let k := s.checkEpoch
    { s with jobs := s.jobs.map (fun x => if x.id = j.id then { x with taint := s.merge x.taint [⟨m, k, k⟩] } else x) }

/-- Bytes `b` to `b + n` of the page that a look-aside entry maps; a detection reads as zero (R239, R242, R264). -/
def State.labRead (s : State) (plate ci q l : Nat) (m : LabMap) (b n : Nat) : Option (State × List Byte) := do
  let c := s.kv ci
  match m with
  | .nothing => pure (s, zeros n)
  | .remote peer sl => pure (s.usedRemote plate peer, slice (c.remotePage peer sl).1 b n)
  | .staging =>
    if s.stBad ci q l (64 + b) n then
      let s ← s.kvDetected plate ci q m
      pure (s, zeros n)
    else
      let x ← s.stGet ci q l (64 + b) n
      pure (s, x)
  | .slot sl =>
    if s.slotBad ci sl b n then
      let s ← s.kvDetected plate ci q m
      pure (s, zeros n)
    else
      let x ← s.kvBytes ci (c.pool + sl * c.slotBytes + b) n
      pure (s, x)

/-- Up to `n` bytes read through a window for a plate (R239, R242); `fuel` bounds the slots touched. -/
def State.winReadLoop (plate ci : Nat) : Nat → State → Nat → Nat → List Byte → Option (State × List Byte)
  | 0, s, _, _, a => some (s, a)
  | fuel + 1, s, o, n, a =>
    if n = 0 then some (s, a)
    else do
      let c := s.kv ci
      let (b, p, l, q) := c.split o
      let k := min n (2 ^ c.sb - b)
      let live := min k (c.slotBytes - b)
      if c.layers ≤ l ∨ c.maxSeqs ≤ q ∨ c.maxPages ≤ p ∨ live = 0 then
        State.winReadLoop plate ci fuel s (o + k) (n - k) (a ++ zeros k)
      else
        let (s, m) ← s.labFind plate ci q l p
        let (s, x) ← s.labRead plate ci q l m b live
        State.winReadLoop plate ci fuel s (o + k) (n - k) (a ++ x ++ zeros (k - live))

/-- How far a transfer at a virtual address of a window goes before the window ends; beyond it the page tables translate (R239). -/
def State.winLeft (s : State) (ci va n : Nat) : Nat := min n ((s.kv ci).window + (s.kv ci).winBytes - va)

/-- `n` bytes at virtual address `va` of a window, all within it. -/
def State.winRead (s : State) (plate ci va n : Nat) : Option (State × List Byte) :=
  State.winReadLoop plate ci (n + 1) s (va - (s.kv ci).window) n []

/-- Bytes of a window write that are accepted, from its first one on, in byte `b` of a page and a layer of that fill: those within
the slot of positions at or above the fill (R240). -/
def KvCache.accepted (c : KvCache) (b fill n : Nat) : Nat :=
  ((List.range n).find? (fun i => decide (c.slotBytes ≤ b + i ∨ c.posOf ((b + i) % c.pageBytes) < fill))).getD n

/-- A window write within one slot, for a plate: through its look-aside entry it goes to the staging page, in bytes of positions at
or above the fill, up to the first byte that is not accepted. The answer is how many bytes were written; fewer than all is a KV_RANGE
fault (R239, R240, R322). -/
def State.winWrite (s : State) (plate ci va : Nat) (l : List Byte) : Option (State × Nat) := do
  let c := s.kv ci
  let (b, p, ly, q) := c.split (va - c.window)
  if c.layers ≤ ly ∨ c.maxSeqs ≤ q ∨ c.maxPages ≤ p then pure (s, 0)
  else
    let (s, m) ← s.labFind plate ci q ly p
    match m with
    | .staging =>
      let fill ← s.fill ci q ly
      let n := c.accepted b fill l.length
      let s ← s.stPut ci q ly (64 + b) (l.take n)
      pure (s, n)
    | _ => pure (s, 0)

/-- A quarantined slot goes to the free list once its count and the pins of every epoch through its tag are zero (R257). -/
def execSlotRelease (tracer : Fin 2) (cache : Fin 4) (slot : Nat) (s : State) : Res :=
  let c := s.kv cache
  match c.quar.find? (fun x => x.1 == slot) with
  | none => .next s
  | some (n, tag) =>
    let x := s.tracer tracer
    let age := fun (e : Nat) => (x.epoch + 2 ^ 32 - e) % 2 ^ 32
    if n % 2 ≠ tracer.val ∨ x.pins.rows.any (fun r => r.2 != 0 && decide (age tag ≤ age r.1)) then .next s
    else .next (s.kvResult tracer (do
      let k ← s.slotCount cache n
      if k ≠ 0 then pure s
      else
        let s ← s.setSlot cache n 0 slFree
        let s := s.setKv cache { s.kv cache with quar := c.quar.filter (fun y => y.1 != n) }
        pure (s.bump Reg.TRC_CNT_RELEASES tracer)))

/-! ### The CACHE descriptor (R258, R259, R261, Table ATT-9) -/

/-- The check of a registration block (R238, Table ATT-3): the refusal. -/
def kvBlockError (l : List Byte) : Option Refuse :=
  let c : KvCache := ⟨l, .empty, [], [], .empty⟩
  firstOf [
    refuseIf (decide (2 < c.b 0 1)) (badParam 0), refuseIf (decide (c.heads = 0 ∨ 16 < c.heads)) (badParam 1),
    refuseIf (!([64, 128, 192, 256].contains c.dim)) (badParam 2), refuseIf (decide (c.layers = 0 ∨ 128 < c.layers)) (badParam 4),
    refuseIf (decide (c.maxPages = 0)) (badParam 6), refuseIf (decide (c.maxSeqs < 2 ∨ 65536 < c.maxSeqs)) (badParam 8),
    refuseIf (decide (16 < c.recent)) (badParam 12), refuseIf (decide (1 < c.b 13 1)) (badParam 13),
    refuseIf (!zeroAt l 15 1) (badParam 15), refuseIf (decide (c.decay = 0 ∨ 65536 < c.decay)) (badParam 16),
    refuseIf (decide (c.slots < 2 ∨ 16777214 < c.slots ∨ c.slots % 2 = 1)) (badParam 20),
    refuseIf (decide (c.pool % 65536 ≠ 0)) (badParam 24),
    refuseIf (decide (44 < c.sb + c.pb + c.lb + c.qb)) (badParam 48), refuseIf (decide (c.window % c.winBytes ≠ 0)) (badParam 48),
    refuseIf (decide (c.b 40 8 < 8 * c.maxSeqs + 16 * c.entries + 64 * c.slots)) (some ⟨stBadLength, 0x8000 + 40⟩)]

/-- A range of a context whose every page is mapped with WRITE and PIN. -/
def State.pinned (s : State) (ctx va n : Nat) : Bool :=
  (List.range (n / 65536 + 2)).all (fun i =>
    let a := va / 65536 * 65536 + i * 65536
    if a < va + n ∧ 0 < n then
      match s.walkCtx ctx a with
      | .ok (e, _) => bit e 2 && bit e 4
      | .error _ => false
    else true)

/-- Staging and hot areas fit what backs them (R238). -/
def State.kvFits (s : State) (c : KvCache) : Bool :=
  (List.range 2).all (fun t =>
    decide (c.hotLen t ≤ 0xA00000) &&
    if c.stageDdr then s.pinned c.ctx (c.stage t) (c.stageLen t)
    else decide (c.stage t + c.stageLen t ≤ 0xA00000) && decide (c.stageLen t + c.hotLen t ≤ 0xA00000))

/-- The checks of a CACHE descriptor at acceptance; a registration block is kept (Table ATT-9, R238, R400). Whether the areas fit
is checked at the start, as it rests on the page tables (R399). -/
def State.kvAccept (s : State) (j : Job) : Except Refuse (List Byte) :=
  let op := j.arg 32 1
  let len := j.arg 56 4
  match firstOf [
    refuseIf (op == 0 || decide (7 < op)) (badField 32),
    refuseIf (if op = 1 then len != 0 && len != 96 else len != 0) (badLength 56),
    refuseIf (decide (3 < j.arg 33 1)) (badField 33),
    refuseIf (op != 3 && op != 4 && op != 7 && !zeroAt j.desc 40 4) (badField 40),
    refuseIf (op != 4 && op != 5 && op != 7 && !zeroAt j.desc 44 4) (badField 44),
    refuseIf (op != 1 && !zeroAt j.desc 48 8) (badField 48)] with
  | some e => .error e
  | none =>
    if op ≠ 1 ∨ len = 0 then .ok []
    else match s.acceptRead j.context (j.arg 48 8) 96 with
      | .error e => .error ⟨e.1, e.2⟩
      | .ok l => match kvBlockError l with
        | some e => .error e
        | none => .ok l

/-- The number of a TRC_CACHE field is set for both tracers. -/
def State.trcSet (s : State) (f : RegField) (ci v : Nat) : State :=
  (s.wr (trcField f ci) v 0).wr (trcField f ci) v 1

/-- `n` zero bytes written from a virtual address: the area that a registration takes starts empty. -/
def State.kvClear (s : State) (ci : Nat) : Nat → Nat → Nat → Option State
  | 0, _, _ => some s
  | fuel + 1, va, n =>
    if n = 0 then some s
    else do
      let k := chunk va n
      let s ← s.kvPut ci 0 va (zeros k)
      State.kvClear s ci fuel (va + k) (n - k)

/-- A started CACHE job of one operation, its cache registered; it waits while a slice tests a commons half (R513). -/
def State.cacheOp (s : State) (job op : Nat) (run : State → Job → Nat → Res) : Res :=
  match s.startedOp job 0x13 op with
  | none => .next s
  | some j =>
    let ci := j.arg 33 1
    if (s.caches.find ci).isNone then .next (s.refuse j ⟨stWrongState, 0x800⟩)
    else if op ≠ 2 ∧ (s.kv ci).maxSeqs ≤ j.arg 36 4 then .next (s.refuse j ⟨stBadField, 36⟩)
    else if op ≠ 2 ∧ !s.tracerUp (j.arg 36 4 % 2) then .next (s.refuse j ⟨stUnitOffline, 0⟩)
    else if s.sliced (unitId 5 0) ∨ s.sliced (unitId 5 1) then .next s
    else run s j ci

/-- An operation's outcome: refused, done with a number of slot references changed, or failed by a tracer fault. -/
def State.cacheDone (s : State) (j : Job) (t : Nat) (r : Option (State × Nat)) : Res :=
  match r with
  | none => .next (s.contain 0x02 (unitId 6 t))
  | some (s, n) => .next (s.finish j stOk n 0)

/-- REGISTER (R238). -/
def execCacheRegister (job : Nat) (s : State) : Res :=
  match s.startedOp job 0x13 1 with
  | none => .next s
  | some j =>
    let ci := j.arg 33 1
    if j.param.isEmpty then .next (s.finishOk j)
    else if !s.kvFits ⟨j.param, .empty, [], [], .empty⟩ then .next (s.refuse j ⟨stNoResource, 0⟩)
    else if (s.caches.find ci).isSome then .next (s.refuse j ⟨stWrongState, 0x801⟩)
    else
      let c : KvCache := ⟨j.param, .empty, [], [], .empty⟩
      let u := s.setKv ci c
      match u.kvClear ci (c.b 40 8 / 4096 + 2) c.tables (8 * c.maxSeqs + 16 * c.entries + 64 * c.slots) with
      | none => .next (s.contain 0x02 (unitId 6 0))
      | some u =>
        let u := (u.trcSet Reg.TRC_CACHE_REGISTERED0 ci 1).trcSet Reg.TRC_CACHE_FREE_SLOTS0 ci (c.slots / 2)
        .next (((u.trcSet Reg.TRC_CACHE_QUAR_SLOTS0 ci 0).trcSet Reg.TRC_CACHE_ACTIVE_SEQS0 ci 0).finishOk j)

/-- UNREGISTER removes a cache with no ACTIVE or INVALID sequence and no quarantined slot (R258, R259). -/
def execCacheUnregister (job : Nat) (s : State) : Res :=
  s.cacheOp job 2 (fun s j ci =>
    let c := s.kv ci
    match (List.range c.maxSeqs).filterMapM (fun q => do
      let st ← s.seqState ci q
      pure (if st = sqFree then none else some st)) with
    | none => .next (s.contain 0x02 (unitId 6 0))
    | some (st :: _) => .next (s.refuse j ⟨stWrongState, 0x300 + st⟩)
    | some [] =>
      if !c.quar.isEmpty then .next (s.refuse j ⟨stWrongState, 0x801⟩)
      else
        let s := ({ s with caches := s.caches.erase ci } : State).dropLabs (fun e => e.cache == ci)
        let s := (s.trcSet Reg.TRC_CACHE_REGISTERED0 ci 0).trcSet Reg.TRC_CACHE_FREE_SLOTS0 ci 0
        .next (s.finishOk j))

/-- The numbers of `n` free staging buffers of a tracer, if there are so many. -/
def State.freeBufs (s : State) (ci t n : Nat) : Option (List Nat) :=
  let c := s.kv ci
  let used := (c.bufs.rows.filter (fun r => r.1 % 2 == t)).flatMap (·.2)
  let l := ((List.range (c.stageLen t / c.bufBytes)).filter (fun b => !used.contains b)).take n
  if l.length = n then some l else none

/-- CREATE makes a FREE sequence ACTIVE, every layer empty (R249, R258, R259). -/
def execCacheCreate (job : Nat) (s : State) : Res :=
  s.cacheOp job 3 (fun s j ci =>
    let c := s.kv ci
    let q := j.arg 36 4
    let budget := j.arg 40 4
    if 65535 < budget ∨ (budget ≠ 0 ∧ budget < c.recent + 2) then .next (s.refuse j ⟨stBadField, 40⟩)
    else match s.seqState ci q with
      | none => .next (s.contain 0x02 (unitId 6 (q % 2)))
      | some st =>
        if st ≠ sqFree then .next (s.refuse j ⟨stWrongState, 0x300 + st⟩)
        else match s.freeBufs ci (q % 2) c.layers with
          | none => .next (s.refuse j ⟨stNoResource, 0⟩)
          | some l =>
            let u := (s.dropSeqLabs ci q).setKv ci { c with bufs := c.bufs.set q l }
            s.cacheDone j (q % 2) (do
              let u ← u.setSeq ci q sqActive
              let u ← u.setTab ci (q % 2) (dirOfs q + 2) 2 budget
              let u ← (List.range c.layers).foldlM (fun (u : State) ly => u.openBuffer ci q ly 0) u
              pure (u, 0)))

/-- The bytes of page `p` of a sequence and layer, and its scales: from its slot, its staging buffer, or the module that holds it; an
EVICTED page has none. -/
def State.pageOf (s : State) (ci q l p : Nat) : Option (List Byte × List Byte) := do
  let c := s.kv ci
  let f ← s.flushed ci q l
  if f ≤ p then
    let x ← s.stGet ci q l 64 c.slotBytes
    let h ← s.stGet ci q l 8 32
    pure (x, h)
  else
    let e ← s.pageEntry ci q l p
    if !peValid e then pure (zeros c.slotBytes, zeros 32)
    else if peRemote e then pure (c.remotePage (peModule e) (peSlot e))
    else
      let x ← s.kvRaw ci (c.pool + peSlot e * c.slotBytes) c.slotBytes
      let h ← s.kvBytes ci (c.tables + c.slotOfs (peSlot e) + 8) 32
      pure (x, h)

/-- A read of page `p` of a sequence and layer, or of its buffer's header, meets a detection: the slot that it poisons, if it is one
(R264). -/
def State.pageFails (s : State) (ci q l p : Nat) : Option (Option (Option Nat)) := do
  if s.stBad ci q l 0 64 then pure (some none)
  else
    let f ← s.flushed ci q l
    if f ≤ p then pure (if s.stBad ci q l 64 (s.kv ci).slotBytes then some none else none)
    else
      let e ← s.pageEntry ci q l p
      pure (if peValid e && !peRemote e && s.slotBad ci (peSlot e) 0 (s.kv ci).slotBytes then some (some (peSlot e)) else none)

/-- An operation that reads pages, given by layer and page, of a sequence: the first that fails makes the sequence INVALID and the job
complete DATA_ERROR in place of it (R264). -/
def State.readingPages (s : State) (j : Job) (ci q : Nat) (pages : List (Nat × Nat)) (run : Res) : Res :=
  match pages.mapM (fun p => s.pageFails ci q p.1 p.2) with
  | none => .next (s.contain 0x02 (unitId 6 (q % 2)))
  | some l => match l.findSome? id with
    | none => run
    | some slot => match s.pageDetected ci q slot with
      | none => .next (s.contain 0x02 (unitId 6 (q % 2)))
      | some s => .next (s.finish j stDataErr 0 0)

/-- A staging buffer is filled with the first `r` positions of a page (R241, R258). -/
def State.fillFrom (s : State) (ci q l flushed r : Nat) (page scales : List Byte) : Option State := do
  let c := s.kv ci
  let old ← s.stGet ci q l 64 c.slotBytes
  let x := ((page.zip old).zipIdx).map (fun e => if c.posOf (e.2 % c.pageBytes) < r then e.1.1 else e.1.2)
  let s ← s.putHeader ci q l flushed r (scales.take (2 * c.heads))
  let s ← s.stPut ci q l 64 x
  pure (s.bump Reg.TRC_CNT_COPIES (q % 2) c.heads)

/-- One layer of a FORK: the child takes the parent's entries of whole pages, each slot counted once more, and a copy of the tokens
beyond them in a buffer of its own; the pages shared are counted (R258, R259). -/
def State.forkLayer (ci q par len : Nat) (x : State × Nat) (l : Nat) : Option (State × Nat) := do
  let (u, n) ← (List.range (len / 64)).foldlM (fun (x : State × Nat) p => do
    let e ← x.1.pageEntry ci par l p
    let sc ← x.1.tab ci ((x.1.kv ci).scoreOfs par l p) 8
    let u ← x.1.setPageEntry ci q l p e
    let u ← u.setTab ci (q % 2) ((x.1.kv ci).scoreOfs q l p) 8 sc
    if !peValid e then pure (u, x.2)
    else if peRemote e then pure (u.kvSend (peModule e) kvRaise ci 0 (peSlot e) 0 [], x.2 + 1)
    else
      let k ← u.slotCount ci (peSlot e)
      let st ← u.slotState ci (peSlot e)
      let u ← u.setSlot ci (peSlot e) (k + 1) st
      pure (u, x.2 + 1)) x
  if len % 64 = 0 then
    let u ← u.openBuffer ci q l (len / 64)
    pure (u, n)
  else
    let (page, sc) ← u.pageOf ci par l (len / 64)
    let u ← u.fillFrom ci q l (len / 64) (len % 64) page sc
    pure (u, n)

/-- FORK shares a parent's pages with a child (R258, R259). -/
def execCacheFork (job : Nat) (s : State) : Res :=
  s.cacheOp job 4 (fun s j ci =>
    let c := s.kv ci
    let q := j.arg 36 4
    let par := j.arg 40 4
    let len := j.arg 44 4
    if c.maxSeqs ≤ par ∨ par % 2 ≠ q % 2 then .next (s.refuse j ⟨stBadField, 40⟩)
    else if len = 0 then .next (s.finishOk j)
    else match s.seqState ci q, s.seqState ci par, (List.range c.layers).mapM (fun l => s.layerLen ci par l) with
      | some child, some parent, some lens =>
        let top := lens.getD 0 0
        if parent = sqActive ∧ top < len then .next (s.refuse j ⟨stBadLength, 44⟩)
        else if child ≠ sqFree then .next (s.refuse j ⟨stWrongState, 0x300 + child⟩)
        else if parent ≠ sqActive ∨ lens.any (· != top) then .next (s.refuse j ⟨stWrongState, 0x300 + parent⟩)
        else match s.freeBufs ci (q % 2) c.layers with
          | none => .next (s.refuse j ⟨stNoResource, 0⟩)
          | some bufs =>
            let u := (s.dropSeqLabs ci q).setKv ci { c with bufs := c.bufs.set q bufs }
            let cut := if len % 64 = 0 then [] else (List.range c.layers).map (fun l => (l, len / 64))
            s.readingPages j ci par cut (s.cacheDone j (q % 2) (do
              let u ← u.setSeq ci q sqActive
              let budget ← u.tab ci (dirOfs par + 2) 2
              let u ← u.setTab ci (q % 2) (dirOfs q + 2) 2 budget
              (List.range c.layers).foldlM (State.forkLayer ci q par len) (u, 0)))
      | _, _, _ => .next (s.contain 0x02 (unitId 6 (q % 2))))

/-- Whether a layer is shorter than `len` tokens, and whether the page that a truncation cuts is an evicted one (R258). -/
def State.truncCheck (s : State) (ci q len l : Nat) : Option (Bool × Bool) := do
  let n ← s.layerLen ci q l
  let f ← s.flushed ci q l
  let p := (n - len) / 64
  let e ← if p < f then s.pageEntry ci q l p else some 0
  pure (decide (n < len), peEvicted e && (n - len) % 64 != 0)

/-- The flushed page of a layer that a truncation copies back, if any: layer and page. -/
def State.truncReads (s : State) (ci q len l : Nat) : Option (List (Nat × Nat)) := do
  let n ← s.layerLen ci q l
  let f ← s.flushed ci q l
  pure (if (n - len) / 64 < f ∧ (n - len) % 64 ≠ 0 then [(l, (n - len) / 64)] else [])

/-- A layer is cut by `len` tokens: entries of pages beyond the new length are cleared and their references dropped; a flushed page
that the new length cuts is copied back into the staging buffer. The number of references dropped is answered (R241, R258). -/
def State.truncateLayer (s : State) (ci q l len : Nat) : Option (State × Nat) := do
  let old ← s.layerLen ci q l
  let f ← s.flushed ci q l
  let n := old - len
  let keep := n / 64
  let s := s.dropPages ci q l keep
  let s := s.setKv ci { s.kv ci with held := (s.kv ci).held.filter (fun x => x != (q, l)) }
  if f ≤ keep then
    let s ← s.stPut ci q l 4 (le 1 (n - 64 * f))
    pure (s, 0)
  else
    let s ← if n % 64 = 0 then s.openBuffer ci q l keep
      else do
        let (page, sc) ← s.pageOf ci q l keep
        s.fillFrom ci q l keep (n % 64) page sc
    (List.range (f - keep)).foldlM (fun (x : State × Nat) i => do
      let e ← x.1.pageEntry ci q l (keep + i)
      let u ← x.1.setPageEntry ci q l (keep + i) 0
      let u ← u.dropEntry ci e
      pure (u, x.2 + (peValid e).toNat)) (s, 0)

/-- One layer of a TRUNCATE, the pages it drops counted (R258, R259). -/
def State.truncStep (ci q len : Nat) (x : State × Nat) (l : Nat) : Option (State × Nat) := do
  let (u, n) ← x.1.truncateLayer ci q l len
  pure (u, x.2 + n)

/-- TRUNCATE removes tokens from the end of every layer (R258, R259). -/
def execCacheTruncate (job : Nat) (s : State) : Res :=
  s.cacheOp job 5 (fun s j ci =>
    let c := s.kv ci
    let q := j.arg 36 4
    let len := j.arg 44 4
    if len = 0 then .next (s.finishOk j)
    else match s.seqState ci q with
      | none => .next (s.contain 0x02 (unitId 6 (q % 2)))
      | some st =>
        if st ≠ sqActive then .next (s.refuse j ⟨stWrongState, 0x300 + st⟩)
        else match (List.range c.layers).mapM (s.truncCheck ci q len) with
          | none => .next (s.contain 0x02 (unitId 6 (q % 2)))
          | some l =>
            if l.any (·.1) then .next (s.refuse j ⟨stBadLength, 44⟩)
            else if l.any (·.2) then .next (s.refuse j ⟨stWrongState, 0x300 + st⟩)
            else match (List.range c.layers).mapM (s.truncReads ci q len) with
              | none => .next (s.contain 0x02 (unitId 6 (q % 2)))
              | some cut =>
                s.readingPages j ci q (cut.flatMap id) (s.cacheDone j (q % 2) ((List.range c.layers).foldlM (State.truncStep ci q len) (s, 0))))

/-- One page of a FREE: its entry is cleared and its reference dropped; pages of the sequence are counted (R258, R259). -/
def State.freePage (ci q : Nat) (x : State × Nat) (lp : Nat × Nat) : Option (State × Nat) := do
  let e ← x.1.pageEntry ci q lp.1 lp.2
  if e = 0 then pure x
  else
    let u ← x.1.setPageEntry ci q lp.1 lp.2 0
    let u ← u.dropEntry ci e
    pure (u, x.2 + (peValid e).toNat)

/-- FREE drops the sequence's slot references, releases its buffers and makes it FREE (R258, R259). -/
def execCacheFree (job : Nat) (s : State) : Res :=
  s.cacheOp job 6 (fun s j ci =>
    let c := s.kv ci
    let q := j.arg 36 4
    match s.seqState ci q with
    | none => .next (s.contain 0x02 (unitId 6 (q % 2)))
    | some st =>
      if st = sqFree then .next (s.refuse j ⟨stWrongState, 0x300⟩)
      else s.cacheDone j (q % 2) (do
        let u := s.dropSeqLabs ci q
        let (u, n) ← ((List.range c.layers).flatMap (fun l => (List.range c.maxPages).map (fun p => (l, p)))).foldlM (State.freePage ci q) (u, 0)
        let u ← u.setSeq ci q sqFree
        let k := u.kv ci
        pure (u.setKv ci { k with bufs := k.bufs.erase q, held := k.held.filter (fun h => h.1 != q) }, n)))

/-- The pages that PLACE moves: local, VALID, wholly below `len`, of a slot with one reference (R261). -/
def State.placeable (s : State) (ci q len : Nat) : Option (List (Nat × Nat × Nat)) :=
  ((List.range (s.kv ci).layers).flatMap (fun l => (List.range (len / 64)).map (fun p => (l, p)))).filterMapM (fun lp => do
    let e ← s.pageEntry ci q lp.1 lp.2
    if peValid e && !peRemote e then
      let k ← s.slotCount ci (peSlot e)
      pure (if k = 1 then some (lp.1, lp.2, peSlot e) else none)
    else pure none)

/-- One page of a PLACE: it is sent with its scales to the slot that the other module took, and its entry names that slot (R261). -/
def State.placePage (ci q m : Nat) (y : State × Nat) (e : (Nat × Nat × Nat) × Nat) : Option (State × Nat) := do
  let (l, p, n) := e.1
  let c := y.1.kv ci
  let page ← y.1.kvRaw ci (c.pool + n * c.slotBytes) c.slotBytes
  let sc ← y.1.kvBytes ci (c.tables + c.slotOfs n + 8) 32
  let u := y.1.dropLabs (fun x => x.cache == ci && x.seq == q && x.layer == l && x.page == p)
  let slot := e.2 % 2 ^ 24
  let u := u.kvSend m kvPlace ci c.ctx slot (q % 2) (page ++ sc)
  let u := u.setKv ci { u.kv ci with remote := (u.kv ci).remote.set (m * 2 ^ 24 + slot) (page, sc) }
  let u ← u.setPageEntry ci q l p (3 + m * 256 + slot * 2 ^ 32)
  let u ← u.dropRef ci n
  pure (u, y.2 + 1)

/-- PLACE of the pages that a sequence may move, to a module of role CACHE or ALL; it answers with the slots it took (R261). -/
def State.placePages (s : State) (j : Job) (ci q m len : Nat) (remoteSlots : List Nat) : Res :=
  match s.placeable ci q len with
  | none => .next (s.contain 0x02 (unitId 6 (q % 2)))
  | some pages => match s.moduleIn m with
    | none => .next (s.refuse j ⟨stNoResource, 0⟩)
    | some x =>
      if x.role < 3 ∨ m = s.rd Reg.RNG_STAT_MODULE ∨ remoteSlots.length < pages.length then .next (s.refuse j ⟨stNoResource, 0⟩)
      else s.readingPages j ci q (pages.map (fun e => (e.1, e.2.1)))
        (s.cacheDone j (q % 2) ((pages.zip remoteSlots).foldlM (State.placePage ci q m) (s, 0)))

/-- PLACE moves pages to another module, or is refused whole (R259, R261). -/
def execCachePlace (job : Nat) (remoteSlots : List Nat) (s : State) : Res :=
  s.cacheOp job 7 (fun s j ci =>
    let q := j.arg 36 4
    let len := j.arg 44 4
    if len = 0 then .next (s.finishOk j)
    else match s.seqState ci q with
      | none => .next (s.contain 0x02 (unitId 6 (q % 2)))
      | some st =>
        if st ≠ sqActive then .next (s.refuse j ⟨stWrongState, 0x300 + st⟩)
        else match s.layerLen ci q 0 with
          | none => .next (s.contain 0x02 (unitId 6 (q % 2)))
          | some top =>
            if top < len then .next (s.refuse j ⟨stBadLength, 44⟩)
            else s.placePages j ci q (j.arg 40 4) len remoteSlots)

/-! ### Slots held for other modules (R261 to R263) -/

/-- A page that another module places here takes a slot of a tracer, with count 1, if this module accepts pages and one is free (R261). -/
def State.acceptPlaced (s : State) (ci from' t : Nat) (data : List Byte) : Option State := do
  let c := s.kv ci
  if s.rd Reg.RNG_STAT_ROLE < 3 ∨ (s.caches.find ci).isNone ∨ data.length ≠ c.slotBytes + 32 ∨ !s.tracerUp t then pure s
  else
    let slot ← s.freeSlotOf ci t
    match slot with
    | none => pure s
    | some n =>
      let s ← s.usedFree.kvPut ci t (c.pool + n * c.slotBytes) (data.take c.slotBytes)
      let s ← s.setSlot ci n 1 slLive
      let s ← s.kvPut ci t (c.tables + c.slotOfs n + 8) (data.drop c.slotBytes)
      pure { s with ring := { s.ring with placed := s.ring.placed ++ [(from', ci, n)] } }

/-- A slot placed here has no reference left: it is held for its module no longer. -/
def State.unplaced (s : State) (ci n : Nat) : State :=
  { s with ring := { s.ring with placed := s.ring.placed.filter (fun e => !(e.2.1 == ci && e.2.2 == n)) } }

/-- A reference less to a slot placed here (R256, R262). -/
def State.dropPlaced (s : State) (ci n : Nat) : Option State := do
  let k ← s.slotCount ci n
  let s := if k ≤ 1 then s.unplaced ci n else s
  s.dropRef ci n

/-- One pin of a remote look-aside entry of module `m` on a slot is released. -/
def State.unpinRemote (s : State) (m ci n : Nat) : State :=
  match s.ring.remotePins.find? (fun e => e.1 == m && e.2.1 == ci && e.2.2.1 == n) with
  | none => s
  | some e =>
    ({ s with ring := { s.ring with remotePins := s.ring.remotePins.erase e } } : State).pin (n % 2) e.2.2.2 false

/-- A message of another module's tracer about a slot placed here (R261, R262). -/
def State.kvMessage (s : State) (x : Xfer) : Option State :=
  let ci := x.step
  let n := x.coll
  let mine := s.ring.placed.any (fun e => e.1 == x.sender && e.2.1 == ci && e.2.2 == n)
  if x.op = kvPlace then s.acceptPlaced ci x.sender (x.ofs % 2) x.got
  else if !mine then some s
  else if x.op = kvPin then
    let e := (s.tracer (n % 2)).epoch
    some (({ s with ring := { s.ring with remotePins := s.ring.remotePins ++ [(x.sender, ci, n, e)] } } : State).pin (n % 2) e true)
  else if x.op = kvUnpin then some (s.unpinRemote x.sender ci n)
  else if x.op = kvDrop then s.dropPlaced ci n
  else if x.op = kvRaise then do
    let k ← s.slotCount ci n
    let st ← s.slotState ci n
    s.setSlot ci n (k + 1) st
  else some s

/-- A message between tracers arrives; a fault of the tracer's accesses leads to containment (R330). -/
def State.kvIn (s : State) (x : Xfer) : State := s.kvResult (x.coll % 2) (s.kvMessage x)

/-- The ring has reformed without module `m`: its pins here are released, and the slots it placed lose every reference (R263). -/
def State.kvGone (s : State) (m : Nat) : State :=
  let s := (s.ring.remotePins.filter (fun e => e.1 == m)).foldl (fun s e => s.unpinRemote m e.2.1 e.2.2.1) s
  (s.ring.placed.filter (fun e => e.1 == m)).foldl (fun s e =>
    s.kvResult (e.2.2 % 2) ((s.unplaced e.2.1 e.2.2).quarantine e.2.1 e.2.2)) s

end Sys2Proof.Machine
end

