-- ==== Sys2Proof/Machine/PlateDma.lean ====
section
/-! DEFINITION. Reads and writes of the DMA channels with their detections, and the plate DMA engine (R185 to R189, R319 to
R323, R444 to R448, Table PLT-7). -/

namespace Sys2Proof.Machine

/-! ### Reads with detection codes (R444 to R448) -/

/-- The weight region with a mirror that holds a virtual address of a context: its base and its mirror's. -/
def State.mirrorOf (s : State) (ctx va : Nat) : Option (Nat × Nat) :=
  (s.prf.regions.rows.find? (fun r => s.rd Reg.PRF_REGION_CONTEXT r.1 == ctx && bit (fld r.2.block 1 1) 0 &&
    decide (fld r.2.block 8 8 ≤ va) && decide (va < fld r.2.block 8 8 + fld r.2.block 16 8))).map
    (fun r => (fld r.2.block 8 8, fld r.2.block 24 8))

/-- A read of `n` bytes with `fails` failing reads in a row is served from the boot region's mirror (R303). -/
def State.fromMirrorRead (s : State) (pa n fails : Nat) : Bool :=
  s.mirrorServes pa n || (inBoot pa && decide (2 ≤ fails) && s.chanOnline (mirrorAddr pa))

/-- `n` bytes of DDR4 at physical address `pa`, within one 4 KiB granule, read for a channel: `fails` failing reads in a row
(0 none, 1 the second read passes, 2 both fail). The answer says whether the data is failed (R444, R446, R448). -/
def State.ddrGet (s : State) (ch : Nat) (job : Option Nat) (ctx va pa n fails : Nat) : State × List Byte × Bool :=
  let plain := s.physRead pa n
  let off := !s.chanOnline pa
  let bad := s.badRead (gaddr spDdr (if off then mirrorAddr pa else pa)) n
  let used := fun (s : State) =>
    let s := s.bump Reg.MEM_DDR_STAT_MIRROR_READS (s.chanOf pa)
    match job with | some id => s.addFlag id cfDegraded | none => s
  let s := if inBoot pa && off then used s else s
  if fails = 0 ∧ !bad then (s, plain, false)
  else if fails = 1 ∧ !bad then (s.ddrDetect 1 pa true false, plain, false)
  else
    let s := s.ddrDetect 1 pa false bad
    if inBoot pa && !off && s.chanOnline (mirrorAddr pa) then
      ((used s).bump Reg.PRF_CNT_REFETCHES, s.bytes (gaddr spDdr (mirrorAddr pa)) n, s.badRead (gaddr spDdr (mirrorAddr pa)) n)
    else match s.mirrorOf ctx va with
      | some (base, mirror) =>
        let (s, l, f) := s.vread ch ctx (mirror + (va - base)) n
        let s := match job with | some id => s.addFlag id cfRecomputed | none => s
        if f.isNone then (s.bump Reg.PRF_CNT_REFETCHES, l, false) else (s.bump Reg.PRF_CNT_POISONED, plain, true)
      | none => (s.bump Reg.PRF_CNT_POISONED, plain, true)

/-- How far a read from a virtual address goes at most: to the end of the 4 KiB piece, or of the burst when a detection
falls into the piece. -/
def State.readSpan (s : State) (pa va n : Nat) (det : Bool) : Nat :=
  let c := chunk va n
  if det || s.badRead (gaddr spDdr pa) c then min c (64 - pa % 64) else c

/-! ### Addresses of a descriptor (Tables PLT-6, PLT-7) -/

/-- Where one side of a transfer lies. -/
inductive Side
  | plate (p ofs : Nat)
  | virt (va : Nat)
  | commons (o : Nat)
  | port (t ofs : Nat)
  | evidence (ofs : Nat)
  /-- Beyond a share or outside every area: nothing there. -/
  | nowhere
  deriving DecidableEq, Repr

/-- A plate address of plate `p` with an extent of `n` bytes within the shares: the offset in plate memory (R185). -/
def State.plateSide (s : State) (p a n : Nat) : Option Nat :=
  if a / 2 ^ 32 ≠ 0 then none
  else if a / 2 ^ 30 = 0 then
    (if a / 2 ^ 22 = 0 ∧ a + n ≤ s.abufLimit p then some (s.abufOfs p a) else none)
  else if a / 2 ^ 30 = 1 then
    (if bits a 15 9 = 0 ∧ bits a 0 15 + n ≤ s.lmLimit p then some (s.lmOfs p (bits a 24 6) (bits a 0 15)) else none)
  else none

/-- A commons byte offset with an extent (R186). -/
def commonsSide (a n : Nat) : Side :=
  if a + n ≤ 0x1400000 then .commons a
  else if 0x1400000 ≤ a ∧ a + n ≤ 0x1401000 then .port 0 (a - 0x1400000)
  else if 0x1401000 ≤ a ∧ a + n ≤ 0x1402000 then .port 1 (a - 0x1401000)
  else if 0x1600000 ≤ a ∧ a + n ≤ 0x16CC000 then .evidence (a - 0x1600000)
  else .nowhere

/-- The physical plate that an other-plate address names, if it belongs to the launch (R189). -/
def State.otherPlate (s : State) (l : Launch) (a : Nat) : Option Nat :=
  match s.platesOn[bits a 32 6]? with
  | some q => if l.plates.contains q ∧ a / 2 ^ 38 = 0 then some q else none
  | none => none

/-- One side of a transfer of `n` bytes. -/
def State.side (s : State) (p : Nat) (l : Launch) (space a n : Nat) : Side :=
  match space with
  | 0 => match s.plateSide p a n with | some o => .plate p o | none => .nowhere
  | 1 => .virt a
  | 2 => match s.otherPlate l a with
    | some q => (match s.plateSide q (a % 2 ^ 32) n with | some o => .plate q o | none => .nowhere)
    | none => .nowhere
  | _ => commonsSide a n

/-! ### Descriptors (Table PLT-7) -/

def dmMode (d : List Byte) : Nat := fld d 0 1
def dmSrcSpace (d : List Byte) : Nat := bits (fld d 1 1) 0 2
def dmDstSpace (d : List Byte) : Nat := bits (fld d 1 1) 2 2
def dmSig (d : List Byte) : Bool := bit (fld d 2 1) 0
def dmIdxHi (d : List Byte) : Bool := bit (fld d 2 1) 1
def dmDstStrided (d : List Byte) : Bool := bit (fld d 2 1) 2
def dmRowBytes (d : List Byte) : Nat := fld d 4 4
def dmSrc (d : List Byte) : Nat := fld d 8 8
def dmDst (d : List Byte) : Nat := fld d 16 8
def dmRows (d : List Byte) : Nat := fld d 24 2
def dmSync (d : List Byte) : Nat := fld d 26 2
def dmAux (d : List Byte) : Nat := fld d 28 4

/-- The extent of a side that is not index-addressed: strided or packed. -/
def dmExtent (d : List Byte) (strided : Bool) : Nat :=
  if dmRows d = 0 ∨ dmRowBytes d = 0 then 0
  else if strided then (dmRows d - 1) * dmAux d + dmRowBytes d else dmRows d * dmRowBytes d

/-- Whether an extent at an address passes the check made at the enqueue: 0, or the mtval that refuses it (R186, Table NDL-2;
a commons extent that fails counts as a space, log entry 14). -/
def State.sideError (s : State) (p : Nat) (l : Launch) (space a n : Nat) : Nat :=
  match space with
  | 1 => 0
  | 3 => if n = 0 then 0 else (match commonsSide a n with | .nowhere => 2 | _ => 0)
  | _ => match s.side p l space a n with | .nowhere => 3 | _ => 0

/-- The first failing check of a descriptor, as mtval 1 to 4; 0 when it passes (R186, R189). -/
def State.dmaError (s : State) (p : Nat) (l : Launch) (d : List Byte) : Nat :=
  if fld d 1 1 / 16 ≠ 0 ∨ fld d 2 1 / 8 ≠ 0 ∨ fld d 3 1 ≠ 0 ∨ 4194304 < dmRowBytes d then 1
  else if 2 < dmMode d then 2
  else
    let src := if dmMode d = 1 then 0 else s.sideError p l (dmSrcSpace d) (dmSrc d) (dmExtent d (dmMode d == 0 && !dmDstStrided d))
    let dst := if dmMode d = 2 then 0 else s.sideError p l (dmDstSpace d) (dmDst d) (dmExtent d (dmMode d == 0 && dmDstStrided d))
    if src = 2 ∨ dst = 2 then 2
    else if src = 3 ∨ dst = 3 then 3
    else if dmMode d ≠ 0 ∧ s.plateSide p (dmAux d) (8 * dmRows d) = none then 4
    else 0

/-- xn.dmaq: the descriptor at x[rs1] is checked and queued, x[rd] the number of entries queued (R186, R187, R218). -/
def execXnDmaq (plate : Fin 34) (core : Fin 64) (rd rs1 : Fin 32) (s : State) : Res :=
  let p := plate.val
  let c := core.val
  match s.issue p c 4 (fun h => h == .dmaq), s.runningOn p with
  | (s, true), some (_, l) =>
      let k := s.core p c
      match s.ownLm p c (k.xr rs1) 32 32 with
      | none => .next (s.trap p c 5 (k.xr rs1))
      | some o =>
        let d := s.plateRead p (s.lmOfs p c o) 32
        let x := s.plate p
        if 64 ≤ x.dma.length then .next (s.holdCore p c .dmaq)
        else if s.dmaError p l d ≠ 0 then .next (s.trap p c 25 (s.dmaError p l d))
        else
          let q := x.dma ++ [⟨d, c⟩]
          let s := (s.setPlate p { x with dma := q }).showPlate p
          .next (s.retire p c (k.setX rd q.length) 4)
  | (s, _), _ => .next s

/-! ### Execution (R188, R319, R322) -/

/-- What moving a piece answers: how far it went, or the fault with its address. -/
inductive Moved
  | did (n : Nat)
  | fault (kind va : Nat)
  /-- A fault after so many bytes of the piece have been written (R322). -/
  | stopped (n kind va : Nat)
  /-- The work is addressed to a unit that is offline or whose domain is off (R20). -/
  | offline
  | failed
  deriving DecidableEq, Repr

/-- Bytes written to a side, poisoned when the data is failed (R446). -/
def State.putSide (s : State) (p ctx : Nat) (dst : Side) (l : List Byte) (failed : Bool) : State × Moved :=
  match dst with
  | .plate q o => (if failed then (s.storeBad (plateAddr q o) l).breakResv q o l.length none else s.plateStore q o l, .did l.length)
  | .commons o => (if failed then s.storeBad (gaddr spCommons o) l else s.store (gaddr spCommons o) l, .did l.length)
  | .port t o => (s.portWrite t p o l, .did l.length)
  | .evidence o => (s.evidenceWrite o l, .did l.length)
  | .nowhere => (s, .did l.length)
  | .virt va =>
    match s.windowOf ctx va with
    | some ci => match s.winWrite p ci va l with
      | some (s, n) => if n < l.length then (s, .stopped n fkKvRange (va + n)) else (s, .did n)
      | none => (s.contain 0x02 (unitId 6 0), .failed)
    | none =>
      match s.translateOn p ctx va .write with
      | (s, .error k) => (s, .fault k va)
      | (s, .ok pa) =>
        (if failed then s.storeBad (gaddr spDdr pa) l else s.store (gaddr spDdr pa) l, .did l.length)

/-- How many bytes a write to a side can take in one piece. -/
def sideSpan (dst : Side) (n : Nat) : Nat := match dst with | .virt va => chunk va n | _ => n

/-- A side `k` bytes further on. -/
def Side.plus (x : Side) (k : Nat) : Side :=
  match x with
  | .plate p o => .plate p (o + k)
  | .virt va => .virt (va + k)
  | .commons o => .commons (o + k)
  | .port t o => .port t (o + k)
  | .evidence o => .evidence (o + k)
  | .nowhere => .nowhere

/-- The half of commons and the tracer that a side lies on serve, and Hatch behind the evidence window (R20). -/
def State.sideUp (s : State) (ctx : Nat) (x : Side) : Bool :=
  let half := fun (h : Nat) => s.unitUp (unitId 5 h)
  match x with
  | .commons o => half (o / 0xA00000)
  | .port t _ => half t && s.unitUp (unitId 6 t)
  | .evidence _ => s.domainOn (unitId 9 1)
  | .virt va => match s.windowOf ctx va with
    | some ci =>
      let q := ((s.kv ci).split (va - (s.kv ci).window)).2.2.2
      half (q % 2) && s.unitUp (unitId 6 (q % 2))
    | none => true
  | _ => true

/-- One piece of a row moved, at most `n` bytes; `det` is the number of failing reads met in it, if any. -/
def State.movePiece (s : State) (p ctx : Nat) (job : Nat) (src dst : Side) (n det : Nat) : State × Moved :=
  let n := sideSpan dst n
  match src with
  | .nowhere => s.putSide p ctx dst (zeros n) false
  | .plate q o =>
    let bad := s.badRead (plateAddr q o) n
    let s := if bad then s.sramDetect (unitId 1 q) 1 o true else s
    s.putSide p ctx dst (s.plateRead q o n) bad
  | .commons o =>
    let bad := s.badRead (gaddr spCommons o) n
    let s := if bad then s.sramDetect (unitId 5 (o / 0xA00000)) 1 o true else s
    s.putSide p ctx dst (s.bytes (gaddr spCommons o) n) bad
  | .port _ _ => s.usedFree.putSide p ctx dst (le n (Config.free s.free)) false
  | .evidence o => s.putSide p ctx dst (s.bytes (evidAddr 0 o) n) false
  | .virt va =>
    match s.windowOf ctx va with
    | some ci =>
      match s.winRead p ci va (s.winLeft ci va n) with
      | some (s, l) => s.putSide p ctx dst l false
      | none => (s.contain 0x02 (unitId 6 0), .failed)
    | none =>
      match s.translateOn p ctx va .read with
      | (s, .error k) => (s, .fault k va)
      | (s, .ok pa) =>
        let m := s.readSpan pa va n (det != 0)
        let (s, l, failed) := s.ddrGet p (some job) ctx va pa m det
        s.putSide p ctx dst l failed

/-- A row from byte `k` on: pieces until its end or a fault; `fuel` bounds them. `base` is the row's first byte in the
descriptor's byte order. -/
def State.moveRow (p ctx job : Nat) (src dst : Side) (len base : Nat) (det : ReadFault) : Nat → State → Nat → State × Nat × Moved
  | 0, s, k => (s, k, .did 0)
  | fuel + 1, s, k =>
    if len ≤ k then (s, k, .did 0)
    else
      let here := decide (base + k ≤ det.ofs ∧ det.ofs < base + len)
      let n := if here ∧ det.ofs / 64 * 64 > base + k then det.ofs / 64 * 64 - (base + k) else len - k
      let fails := if here ∧ ¬(det.ofs / 64 * 64 > base + k) ∧ det.ofs < base + k + 64 then det.fails else 0
      if !s.sideUp ctx (src.plus k) || !s.sideUp ctx (dst.plus k) then (s, k, .offline)
      else match s.movePiece p ctx job (src.plus k) (dst.plus k) n fails with
      | (s, .did m) => if m = 0 then (s, len, .did 0) else State.moveRow p ctx job src dst len base det fuel s (k + m)
      | (s, .stopped m kind va) => (s, k + m, .fault kind va)
      | (s, x) => (s, k, x)

/-- The index of row `i`: a word of its pair (Table PLT-7). -/
def State.dmIndex (s : State) (p : Nat) (d : List Byte) (i : Nat) : Nat :=
  match s.plateSide p (dmAux d + 8 * i) 8 with
  | some o => s.num (plateAddr p (o + if dmIdxHi d then 4 else 0)) 4
  | none => 0

/-- The sides of row `i` (text after Table PLT-7). -/
def State.dmRow (s : State) (p : Nat) (l : Launch) (d : List Byte) (i : Nat) : Side × Side :=
  let n := dmRowBytes d
  let srcOfs := match dmMode d with
    | 0 => if dmDstStrided d then i * n else i * dmAux d
    | 1 => s.dmIndex p d i * n
    | _ => i * n
  let dstOfs := match dmMode d with
    | 0 => if dmDstStrided d then i * dmAux d else i * n
    | 1 => i * n
    | _ => s.dmIndex p d i * n
  (s.side p l (dmSrcSpace d) (dmSrc d + srcOfs) n, s.side p l (dmDstSpace d) (dmDst d + dstOfs) n)

/-- The DMA engine meets an index-addressed row beyond a share: cause 4, with the DMA engine as issuer (R178, R186). -/
def State.dmaIdxErr (s : State) (p : Nat) (q : Queued) : State :=
  let tag := (s.core p q.core).lastTile
  (s.arrFault p q.core ⟨(s.arr p).logOf tag, tag, 4, 0, none⟩).bump Reg.PLT_CNT_IDX_ERR p

/-- Rows of a descriptor from byte `k` of row `i` on, up to byte `stop` of the descriptor: the bytes done, and the fault that
stops it. -/
def State.moveRows (p ctx job : Nat) (l : Launch) (q : Queued) (det : ReadFault) (stop : Nat) :
    Nat → State → Nat → Nat → State × Nat × Moved
  | 0, s, i, k => (s, i * dmRowBytes q.bytes + k, .did 0)
  | fuel + 1, s, i, k =>
    let d := q.bytes
    let n := dmRowBytes d
    if dmRows d ≤ i ∨ stop ≤ i * n + k then (s, i * n + k, .did 0)
    else
      let (src, dst) := s.dmRow p l d i
      let s := if (src = .nowhere ∨ dst = .nowhere) ∧ k = 0 then s.dmaIdxErr p q else s
      let e := min n (stop - i * n)
      match State.moveRow p ctx job src dst e (i * n) det (n + 1) s k with
      | (s, _, .did _) => if e < n then (s, i * n + e, .did 0) else State.moveRows p ctx job l q det stop fuel s (i + 1) 0
      | (s, k, x) => (s, i * n + k, x)

/-- The descriptor at the head of a plate's DMA queue, of the mode named, when the channel may execute (R188, R319, R322): the
channel is neither faulted nor saved nor offline, and its launch runs, or is being stopped and bytes_done has not reached a
multiple of 4,096 (R331). -/
def State.dmaHead (s : State) (p mode : Nat) : Option (Queued × Job × Launch) :=
  match (s.plate p).dma, s.runningOn p with
  | q :: _, some (j, l) =>
    if dmMode q.bytes = mode ∧ !s.gated p ∧ s.chan p ≤ chRunning ∧ (s.rd Reg.PLT_STAT_STATE p = 2 ∨
        (s.rd Reg.PLT_STAT_STATE p = 3 ∧ s.rd Reg.MEM_CH_BYTES_DONE p % 4096 ≠ 0)) then some (q, j, l) else none
  | _, _ => none

/-- A full tracer queue holds a write to its command port (text after R242). -/
def State.portFull (s : State) (d : List Byte) : Bool :=
  dmDstSpace d == 3 &&
  match commonsSide (dmDst d) (dmRowBytes d) with
  | .port t _ => decide (256 ≤ (s.tracer t).queue.length)
  | _ => false

/-- A descriptor that fills the array buffer is where its bytes can be fetched from again; one to the same place replaces an
earlier one (R199; log entry 111). -/
def State.fetchedFrom (s : State) (p : Nat) (q : Queued) : State :=
  if dmDstSpace q.bytes ≠ 0 then s
  else
    let same := fun (r : Queued) => r.bytes.take 1 == q.bytes.take 1 && dmDst r.bytes == dmDst q.bytes &&
      dmRows r.bytes == dmRows q.bytes && dmRowBytes r.bytes == dmRowBytes q.bytes && (dmMode q.bytes == 1 || dmAux r.bytes == dmAux q.bytes)
    let x := s.plate p
    s.setPlate p { x with fetched := x.fetched.filter (fun r => !same r) ++ [q] }

/-- How far a descriptor goes in one command: `upTo` bytes further, or to its end, and no further than the next multiple of
4,096 while its launch is being stopped (R331; log entry 113). -/
def State.dmaStop (s : State) (p : Nat) (d : List Byte) (upTo : Option Nat) : Nat :=
  let done := s.rd Reg.MEM_CH_BYTES_DONE p
  let all := dmRows d * dmRowBytes d
  let stop := match upTo with | none => all | some b => min all (done + b)
  if s.rd Reg.PLT_STAT_STATE p = 3 then min stop ((done + 4095) / 4096 * 4096) else stop

/-- A descriptor has completed: it leaves the queue and signals, once its writes are visible (R187, R188). -/
def State.dmaDone (s : State) (p : Nat) (q : Queued) (j : Job) : State :=
  let d := q.bytes
  let x := s.plate p
  let s := s.setPlate p { x with dma := x.dma.drop 1, dmaDone := x.dmaDone + 1 }
  let s := ((s.wr Reg.MEM_CH_STATE chIdle p).wr Reg.MEM_CH_BYTES_DONE 0 p).wr Reg.MEM_CH_DESC_POS (x.dmaDone + 1) p
  let s := (s.fetchedFrom p q).showPlate p
  let s := if dmDstSpace d = 1 ∨ dmDstSpace d = 3 then s.wroteOut j.id else s
  if dmSig d then s.signal (dmSync d) 1 j.taint else s

/-- A DMA descriptor executes from its channel's progress on: it completes, or stops on the way, or its channel faults (R187,
R188, R322). -/
def State.runDma (s : State) (p mode : Nat) (det : ReadFault) (upTo : Option Nat) : Res :=
  match s.dmaHead p mode with
  | none => .next s
  | some (q, j, l) =>
    let d := q.bytes
    if s.portFull d then .next s
    else
      let done := s.rd Reg.MEM_CH_BYTES_DONE p
      let n := dmRowBytes d
      let stop := s.dmaStop p d upTo
      let s := s.chanStart p j.context (s.plate p).dmaDone done j.tag false
      let r := if n = 0 then (s, 0, Moved.did 0) else State.moveRows p j.context j.id l q det stop (dmRows d + 1) s (done / n) (done % n)
      match r with
      | (s, k, .did _) =>
        if k < dmRows d * n then .next ((s.wr Reg.MEM_CH_BYTES_DONE k p).showPlate p) else .next (s.dmaDone p q j)
      | (s, k, .fault kind va) => .next ((s.chanFault p kind k va).showPlate p)
      | (s, _, .offline) => .next ((s.stopLaunch j.id).finishNow j.id stUnitOffline 0 0)
      | (s, _, _) => .next s

/-- ROWS (R187, R188). -/
def execDmaRows (plate : Fin 34) (go : Stretch) (s : State) : Res := s.runDma plate.val 0 go.det go.upTo
/-- GATHER (R187, R188). -/
def execDmaGather (plate : Fin 34) (go : Stretch) (s : State) : Res := s.runDma plate.val 1 go.det go.upTo
/-- SCATTER (R187, R188). -/
def execDmaScatter (plate : Fin 34) (go : Stretch) (s : State) : Res := s.runDma plate.val 2 go.det go.upTo

/-! ### Recomputation of a tile (R199, R213, R448) -/

/-- WEIGHT_LOST names a region (R448, R458, R462). -/
def State.weightLost (s : State) (i pa : Nat) : State := s.raise 0x0904 0 (le 1 i ++ zeros 7 ++ le 8 pa)

/-- Where `n` bytes of plate memory from `o` on came from: rows of the descriptors that filled them, each as its source, its
destination, and the first and last byte of it that counts. -/
def State.sourcesOf (s : State) (p : Nat) (l : Launch) (o n : Nat) : List (Side × Side × Nat × Nat) :=
  (s.plate p).fetched.flatMap (fun q => (List.range (dmRows q.bytes)).filterMap (fun i =>
    match s.dmRow p l q.bytes i with
    | (src, .plate r a) =>
      if r = p ∧ a < o + n ∧ o < a + dmRowBytes q.bytes then some (src, .plate r a, o - a, min (dmRowBytes q.bytes) (o + n - a))
      else none
    | _ => none))

/-- The weight tile of a LOADW and its scales: plate offset and length. -/
def State.weightRanges (s : State) (p : Nat) (c : List Byte) : List (Nat × Nat) :=
  [(s.abufOfs p (bcA c), kindTile (bcKind c)), (s.abufOfs p (bcB c), kindWScale (bcKind c))]

/-- The weight tile of a LOADW is fetched again from its source (R199). -/
def State.refetch (s : State) (p : Nat) (j : Job) (l : Launch) (c : List Byte) : State :=
  let rows := (s.weightRanges p c).flatMap (fun r => s.sourcesOf p l r.1 r.2)
  let s := rows.foldl (fun s r => (State.moveRow p j.context j.id r.1 r.2.1 r.2.2.2 0 ⟨0, 0⟩ (r.2.2.2 + 1) s r.2.2.1).1) s
  s.bump Reg.PRF_CNT_REFETCHES

/-- The registered weight region that a weight tile came from, with the physical address of its first byte there. -/
def State.regionSource (s : State) (p : Nat) (j : Job) (l : Launch) (c : List Byte) : Option (Nat × Nat) :=
  ((s.weightRanges p c).flatMap (fun r => s.sourcesOf p l r.1 r.2)).findSome? (fun r =>
    match r.1 with
    | .virt va =>
      let a := va + r.2.2.1
      match s.prf.regions.rows.find? (fun g => s.rd Reg.PRF_REGION_CONTEXT g.1 == j.context &&
          decide (fld g.2.block 8 8 ≤ a ∧ a < fld g.2.block 8 8 + fld g.2.block 16 8)), s.walkCtx j.context a with
      | some g, .ok (e, size) => some (g.1, pteAddr e + a % size)
      | _, _ => none
    | _ => none)

/-- A tile has failed for the third time: the launch completes DATA_ERROR, and weights fetched twice in vain are lost (R199,
R448). -/
def State.tileLost (s : State) (p : Nat) (j : Job) (l : Launch) (x : ArrFail) : State :=
  let bad : Launch := { l with dataErr := some (l.dataErr.getD (x.tile, causeUnit p x.cause x.stripe, x.cause)) }
  let s : State := { s with launches := s.launches.set j.id bad }
  match x.load with
  | none => s
  | some q => match s.regionSource p j l q.bytes with
    | some (i, pa) => s.weightLost i pa
    | none => s

/-- What the DRAINs of a log wrote over is put back: the inputs of its tile, and elements that SCATTER adds to, are as they
were (R199; log entry 111). -/
def State.undoTile (s : State) (p : Nat) (t : TileLog) : State :=
  t.undo.foldl (fun s u =>
    if u.2.2 then (s.storeBad (plateAddr p u.1) u.2.1).breakResv p u.1 u.2.1.length none else s.plateStore p u.1 u.2.1) s

/-- The commands of the logs from number `k` on are queued again, before those that wait. -/
def State.repeatFrom (s : State) (p k : Nat) : State :=
  let x := s.arr p
  let again := x.tiles.filter (fun t => decide (k ≤ t.id))
  let s := again.reverse.foldl (fun s t => s.undoTile p t) s
  let failed := x.fails.filterMap (·.log)
  let tries := fun (t : TileLog) => { t with undo := [], tries := t.tries + (failed.contains t.id).toNat }
  (s.setArr p { x with
    acc := (again.head?.map (·.acc)).getD x.acc, tiles := again.map tries, inTile := false,
    replay := again.flatMap (fun t => t.cmds.map (fun _ => t.id)),
    queue := again.flatMap (·.cmds) ++ x.queue.drop x.replay.length }).showPlate p

/-- The plate runtime has handled interrupt 16 on every core that has it pending: the trap takes their reservations, and they
go on at the instruction they stood at (R209, R213). -/
def State.faultsTaken (s : State) (p : Nat) : State :=
  (List.range 64).foldl (fun s c =>
    let k := s.core p c
    if !bit k.irq 16 then s
    else
      let s := if k.machine then s else s.enterM p c (2 ^ 63 + 16) 0
      (s.setCore p c { s.core p c with irq := putBit (s.core p c).irq 16 false }).leaveM p c) s

/-- The plate runtime handles interrupt 16: it repeats the failed tile's commands from its LOADW, and fetches the weights again
where the failing read was of weights, at most twice per tile; a third failure makes the launch complete DATA_ERROR (R199,
R213). -/
def execTileRecompute (plate : Fin 34) (s : State) : Res :=
  let p := plate.val
  match s.runningOn p with
  | none => .next s
  | some (j, l) =>
    if (List.range 64).any (fun c => bit (s.core p c).irq 16) then
      let x := s.arr p
      let s := s.faultsTaken p
      let spent := fun (f : ArrFail) => x.tiles.any (fun t => some t.id == f.log && decide (2 ≤ t.tries))
      match x.fails.find? spent with
      | some f => .next ((s.tileLost p j l f).setArr p { x with fails := [] })
      | none =>
        let failed := (x.fails.filterMap (·.log)).eraseDups
        match failed.min? with
        | none => .next (s.setArr p { x with fails := [] })
        | some k =>
          let s := (x.fails.filterMap (·.load)).eraseDups.foldl (fun s q => s.refetch p j l q.bytes) s
          let s := s.repeatFrom p (min k (x.replay.headD k))
          let s := s.setArr p { s.arr p with fails := [] }
          let s := { s with launches := s.launches.set j.id { l with tilesRedone := l.tilesRedone + failed.length } }
          .next ((s.addFlag j.id cfRecomputed).bump Reg.PRF_CNT_RECOMPUTES failed.length)
    else .next s

end Sys2Proof.Machine
end

