-- ==== Sys2Proof/Machine/HatchEgo.lean ====
section
/-! DEFINITION. H3, the voted ego-motion track, and H4, the spatial transform (R105 to R114, R141, Tables HAT-8 to HAT-10). -/

namespace Sys2Proof.Machine

/-! ### Counters of disagreement (R107, R118) -/

/-- Sensor `i`'s counter advances by `n` (text after Table HAT-13). -/
def State.disagree (s : State) (i n : Nat) : State := s.bump Reg.HAT_VSTATE_COUNT i n

def State.voteSt (s : State) (i : Nat) : VoteSt := s.hat.votes.get .reset i
def State.setVote (s : State) (i : Nat) (x : VoteSt) : State := { s with hat := { s.hat with votes := s.hat.votes.set i x } }

/-- The shadow counter of an EXCLUDED sensor advances by `n` (R119); HAT_VSTATE.COUNT stays that of its votes (log entry 108). -/
def State.disagreeShadow (s : State) (i n : Nat) : State := s.setVote i { s.voteSt i with shadow := (s.voteSt i).shadow + n }

/-- The vote parameters of a sensor in a bank (Table HAT-13). -/
def State.voteThr (s : State) (b i : Nat) : Nat := s.hat1 b htVote i 0 4
/-- Window length in epochs; the default where none is loaded. -/
def State.voteWin (s : State) (b i : Nat) : Nat := let w := s.hat1 b htVote i 4 2; if w = 0 then 20 else w
def State.voteRequal (s : State) (b i : Nat) : Nat := s.hat1 b htVote i 6 2
def State.voteRequalThr (s : State) (b i : Nat) : Nat := s.hat1 b htVote i 8 4

/-- A sensor's counter restarts when epoch `no` begins a new window of win epochs, counted from epoch number 0. -/
def State.newWindow (s : State) (b no i : Nat) : State :=
  let w := no / s.voteWin b i
  let x := s.voteSt i
  if x.window = w then s else (s.setVote i { x with window := w, shadow := 0 }).wr Reg.HAT_VSTATE_COUNT 0 i

/-! ### Vectors -/

abbrev V3 := Int × Int × Int

def vAdd (a b : V3) : V3 := (a.1 + b.1, a.2.1 + b.2.1, a.2.2 + b.2.2)
def vSub (a b : V3) : V3 := (a.1 - b.1, a.2.1 - b.2.1, a.2.2 - b.2.2)
def vMap (f : Int → Int) (a : V3) : V3 := (f a.1, f a.2.1, f a.2.2)
def vDot (a b : V3) : Int := a.1 * b.1 + a.2.1 * b.2.1 + a.2.2 * b.2.2

/-- A 3 x 3 matrix by rows. -/
abbrev M3 := V3 × V3 × V3

/-- Matrix-vector product in Q2.29: each row summed exactly, then rnd(., 29). -/
def mulV (m : M3) (v : V3) : V3 := (rnd (vDot m.1 v) 29, rnd (vDot m.2.1 v) 29, rnd (vDot m.2.2 v) 29)

def transpose (m : M3) : M3 :=
  ((m.1.1, m.2.1.1, m.2.2.1), (m.1.2.1, m.2.1.2.1, m.2.2.2.1), (m.1.2.2, m.2.1.2.2, m.2.2.2.2))

def mMap2 (f : Int → Int → Int) (a b : M3) : M3 :=
  let g := fun (x y : V3) => ((f x.1 y.1, f x.2.1 y.2.1, f x.2.2 y.2.2) : V3)
  (g a.1 b.1, g a.2.1 b.2.1, g a.2.2 b.2.2)

/-- t2 of a rotation vector (text after R108). -/
def turnSq (r : V3) : Int := rnd (vDot r r) 29

/-- The skew matrix of a rotation vector. -/
def skew (r : V3) : M3 := ((0, -r.2.2, r.2.1), (r.2.2, 0, -r.1), (-r.2.1, r.1, 0))

/-- The third-order rotation matrix of a rotation vector, Q2.29 (text after R108). -/
def rotOf (r : V3) : M3 :=
  let t2 := turnSq r
  let a := 2 ^ 29 - Int.tdiv t2 6
  let b := 2 ^ 28 - Int.tdiv t2 24
  let k1 := skew r
  let c := transpose k1
  let k2 : M3 := ((rnd (vDot k1.1 c.1) 29, rnd (vDot k1.1 c.2.1) 29, rnd (vDot k1.1 c.2.2) 29),
    (rnd (vDot k1.2.1 c.1) 29, rnd (vDot k1.2.1 c.2.1) 29, rnd (vDot k1.2.1 c.2.2) 29),
    (rnd (vDot k1.2.2 c.1) 29, rnd (vDot k1.2.2 c.2.1) 29, rnd (vDot k1.2.2 c.2.2) 29))
  let m := mMap2 (fun x y => rnd (a * x) 29 + rnd (b * y) 29) k1 k2
  let u : Int := 2 ^ 29
  ((m.1.1 + u, m.1.2), (m.2.1.1, m.2.1.2.1 + u, m.2.1.2.2), (m.2.2.1, m.2.2.2.1, m.2.2.2.2 + u))

/-! ### The ego vote (R107, Table HAT-9) -/

/-- One source of a sample: its sensor and six components, v then w. -/
structure EgoSrc where
  sensor : Nat
  c : List (Option Int)

/-- Two sources agree: every component that both give differs by no more than its tolerance (text after Table HAT-8). -/
def State.egoAgree (s : State) (a b : EgoSrc) : Bool :=
  ((a.c.zip b.c).zipIdx).all (fun e => match e.1 with
    | (some x, some y) =>
      if e.2 < 3 then decide (|x - y| ≤ s.rd Reg.HAT_EGO_V_TOL * 65536)
      else decide (|x - y| * 1000000 ≤ s.rd Reg.HAT_EGO_W_TOL * 2 ^ 29)
    | _ => true)

/-- The mean of the values, or the median of three; rounded by rnd(., 1) where it halves. -/
def middle (l : List Int) : Option Int :=
  match l with
  | [a] => some a
  | [a, b] => some (rnd (a + b) 1)
  | [a, b, c] => some (max (min a b) (min (max a b) c))
  | _ => none

/-- The six components voted over a list of sources. -/
def voteComps (l : List EgoSrc) : List (Option Int) :=
  (List.range 6).map (fun i => middle (l.filterMap (fun x => x.c.getD i none)))

/-- The vote of one sample: its components unless it is held, whether it is degraded, and the sensors whose counters advance. -/
def State.egoVote (s : State) (l : List EgoSrc) : Option (List (Option Int)) × Bool × List Nat :=
  match l with
  | [a, b, c] =>
    let ab := s.egoAgree a b
    let ac := s.egoAgree a c
    let bc := s.egoAgree b c
    match ab, ac, bc with
    | true, false, false => (some (voteComps [a, b]), false, [c.sensor])
    | false, true, false => (some (voteComps [a, c]), false, [b.sensor])
    | false, false, true => (some (voteComps [b, c]), false, [a.sensor])
    | false, false, false => (none, false, [a.sensor, b.sensor, c.sensor])
    | _, _, _ => (some (voteComps l), false, [])
  | [a, b] => if s.egoAgree a b then (some (voteComps l), true, []) else (none, false, [a.sensor, b.sensor])
  | [_] => (some (voteComps l), true, [])
  | _ => (none, false, [])

/-- A sample from its voted components; a component that no source gives repeats the last voted one. -/
def egoSample (last : EgoSample) (c : Option (List (Option Int))) : EgoSample :=
  match c with
  | none => { last with held := true }
  | some l =>
    let g := fun (i : Nat) (d : Int) => (l.getD i none).getD d
    ⟨(g 0 last.v.1, g 1 last.v.2.1, g 2 last.v.2.2), (g 3 last.w.1, g 4 last.w.2.1, g 5 last.w.2.2), false⟩

/-! ### Odometry (Table HAT-8) -/

/-- A CAN FD packet is decoded by the odometry table of a bank: each matching entry's value is kept. -/
def State.decodeOdo (s : State) (b : Nat) (h : QItem) (l : List Byte) : State :=
  (List.range 8).foldl (fun s n =>
    let e := s.hatBytes b htOdo n
    let id := fld e 0 4
    if fld e 8 1 = 0 ∨ bits id 0 29 ≠ bits (fld h.data 12 4) 0 29 ∨ bit id 31 ≠ bit (fld h.data 10 1) 2 then s
    else
      let raw := rawBits l 0 (fld e 4 2) (fld e 6 1) (bit (fld e 7 1) 1)
      let v : Int := if bit (fld e 7 1) 0 then sext (fld e 6 1) raw else raw
      { s with hat := { s.hat with odo := s.hat.odo.set (fld e 8 1) (rnd (v * sext 32 (fld e 12 4)) (fld e 9 1)) } }) s

/-- Every packet waiting in queue `q` is taken; undamaged ones are given to `f`. `n` bounds their number. -/
def State.drain (q : Nat) (f : State → QItem → List Byte → State) : Nat → State → State
  | 0, s => s
  | n + 1, s =>
    match s.dequeue q with
    | none => s
    | some (h, ws, s) => State.drain q f n (if packetBad h ws then s else f s h (packetBytes h ws))

/-- H3 takes the packets of its queues: odometry is decoded; inertial samples are integrated (their result is the command's
operand). -/
def State.takeEgoQueues (s : State) (b : Nat) : State :=
  let s := (List.range 6).foldl (fun s c =>
    if s.flag Reg.SPQ_CTRL_CONS (0x18 + c) then s
    else s.drain (0x18 + c) (fun s h l => s.decodeOdo b h l) (s.queue (0x18 + c)).stream.length) s
  (List.range 3).foldl (fun s c =>
    if s.flag Reg.SPQ_CTRL_CONS (0x20 + c) then s
    else s.drain (0x20 + c) (fun s _ _ => s) (s.queue (0x20 + c)).stream.length) s

/-- The forward speed and yaw rate decoded: the mean of the wheel speeds present, or the vehicle speed (log entry 55). -/
def State.odoComps (s : State) : List (Option Int) :=
  let wheels := [1, 2, 3, 4].filterMap s.hat.odo.find
  let v := match wheels.length with
    | 0 => s.hat.odo.find 5
    | 4 => some (rnd wheels.sum 2)
    | 2 => some (rnd wheels.sum 1)
    | n => some (wheels.sum / (n : Int))
  [v, none, none, none, none, s.hat.odo.find 6]

/-- The first entry of the kinds given that is PRESENT and not UNLOCKED (R59, R96). -/
def State.firstPresent (s : State) (kinds : List Nat) : Option Nat :=
  (List.range 64).find? (fun i => kinds.contains (s.sensor i 0 1) && s.rd Reg.ING_SENS_STATE i == 3 && !s.unlocked i)

/-- The lidar that is scan-matched: the lowest-numbered fused one with MATCH. -/
def State.matchLidar (s : State) (e : HEpoch) : Option Nat :=
  (List.range 64).find? (fun i => s.sensor i 0 1 == 2 && s.xfMatch e.bank i &&
    e.frames.any (fun f => f.sensor == i && f.state == .fused))

/-- The components of an integrated or matched millisecond. -/
def vecComps (x : Option EgoVec) : Option (List (Option Int)) :=
  x.map (fun x => [some x.v.1, some x.v.2.1, some x.v.2.2, some x.w.1, some x.w.2.1, some x.w.2.2])

/-- The sources of millisecond `k`, EXCLUDED ones included (text after R106). -/
def State.egoSources (s : State) (e : HEpoch) (env : EgoEnv) (k : Nat) : List EgoSrc :=
  let src := fun (i : Option Nat) (c : Option (List (Option Int))) =>
    match i, c with | some i, some c => [(⟨i, c⟩ : EgoSrc)] | _, _ => []
  src (s.firstPresent [5, 6]) (vecComps (env.imu.getD k none)) ++
  src (s.firstPresent [4]) (if s.odoComps.any Option.isSome then some s.odoComps else none) ++
  src (s.matchLidar e) (vecComps (env.scan.getD k none))

/-- One millisecond of the track: its vote, the counters that advance, and those of EXCLUDED sources in shadow (R119). -/
def State.egoStep (s : State) (e : HEpoch) (env : EgoEnv) (k : Nat) : State × EgoSample × Bool :=
  let all := s.egoSources e env k
  let live := all.filter (fun x => !s.excluded x.sensor)
  let (c, degraded, adv) := s.egoVote live
  let shadow := (all.filter (fun x => s.excluded x.sensor)).filterMap (fun x =>
    if (s.egoVote (live ++ [x])).2.2.contains x.sensor then some x.sensor else none)
  let sample := egoSample s.hat.lastEgo c
  let s := shadow.foldl (fun s i => s.disagreeShadow i 1) (adv.foldl (fun s i => s.disagree i 1) s)
  ({ s with hat := { s.hat with lastEgo := if sample.held then s.hat.lastEgo else sample } }, sample, degraded)

/-- The samples of a track of `n` milliseconds, in order, and whether one was degraded. -/
def State.egoTrack (e : HEpoch) (env : EgoEnv) : Nat → Nat → State → State × List EgoSample × Bool
  | 0, _, s => (s, [], false)
  | n + 1, k, s =>
    let (s, x, d) := s.egoStep e env k
    let (s, l, d2) := State.egoTrack e env n (k + 1) s
    (s, x :: l, d || d2)

/-- The longest run of held samples. -/
def heldRun (l : List EgoSample) : Nat :=
  (l.foldl (fun (a : Nat × Nat) x => if x.held then (a.1 + 1, max a.2 (a.1 + 1)) else (0, a.2)) (0, 0)).2

/-! ### Poses (text after R108) -/

/-- Poses before the reference, from the sample just before it backwards, nearest first. -/
def posesBack : Pose → List EgoSample → List Pose
  | _, [] => []
  | p, x :: r =>
    let q : Pose := ⟨vSub p.r x.w, vSub p.d (mulV (rotOf p.r) x.v)⟩
    q :: posesBack q r

/-- Poses after the reference. -/
def posesOn : Pose → List EgoSample → List Pose
  | _, [] => []
  | p, x :: r =>
    let q : Pose := ⟨vAdd p.r x.w, vAdd p.d (mulV (rotOf p.r) x.v)⟩
    q :: posesOn q r

/-- The poses of milliseconds 0 to the track's length, the reference at `kr`. -/
def trackPoses (l : List EgoSample) (kr : Nat) : List Pose :=
  let zero : Pose := ⟨(0, 0, 0), (0, 0, 0)⟩
  (posesBack zero (l.take kr).reverse).reverse ++ zero :: posesOn zero (l.drop kr)

/-- The pose at time `t` of the epoch (R109). -/
def poseAt (l : List Pose) (t : Nat) : Pose :=
  let k := t / 1000000
  let f : Int := (t % 1000000 * 65536 / 1000000 : Nat)
  let zero : Pose := ⟨(0, 0, 0), (0, 0, 0)⟩
  let a := l.getD k zero
  let b := l.getD (k + 1) a
  let mix := fun (x y : Int) => x + rnd ((y - x) * f) 16
  ⟨(mix a.r.1 b.r.1, mix a.r.2.1 b.r.2.1, mix a.r.2.2 b.r.2.2), (mix a.d.1 b.d.1, mix a.d.2.1 b.d.2.1, mix a.d.2.2 b.d.2.2)⟩

/-- H3 completes the voted track of the oldest epoch whose input has closed (R107, R108). -/
def execH3TrackDone (env : EgoEnv) (s : State) : Res :=
  match if s.hatchRuns then s.epochAtStage .closed else none with
  | none => .next s
  | some e =>
    let s := (List.range 64).foldl (fun s i => s.newWindow e.bank e.no i) s
    let s := s.takeEgoQueues e.bank
    let n := 2 * (e.lenNs / 1000000)
    let (s, l, degraded) := if s.stageUp 3 then s.egoTrack e env n 0 else (s, (List.range n).map (fun _ => { s.hat.lastEgo with held := true }), false)
    let lost := decide (s.rd Reg.HAT_EGO_HOLD_MS < heldRun l)
    let down := !s.stageUp 3
    let s := s.modEpoch e.no (fun e => { e with poses := trackPoses l (s.rd Reg.HAT_EGO_REF_MS), egoDegraded := degraded,
                                                egoLost := lost, stage := .tracked, noGrid := e.noGrid || down })
    .next ((s.stageDone 3 (hadInput e)).startStage 4 e.no)

/-! ### H4 (R109 to R114) -/

/-- The rotation of a transform entry. -/
def State.xfRot (s : State) (b i : Nat) : M3 :=
  let g := fun (k : Nat) => s.hatI b htXform i (8 + 4 * k)
  ((g 0, g 1, g 2), (g 3, g 4, g 5), (g 6, g 7, g 8))

/-- The translation of a transform entry. -/
def State.xfTrans (s : State) (b i : Nat) : V3 := (s.hatI b htXform i 44, s.hatI b htXform i 48, s.hatI b htXform i 52)

/-- The grid cell of a point, if it lies in the grid (text before Table HAT-14). -/
def State.cellOf (s : State) (x y : Int) : Option (Nat × Nat) :=
  let c : Int := max 1 (s.rd Reg.HAT_GRID_CELL)
  let i := (x - sext 32 (s.rd Reg.HAT_GRID_X0)) / c
  let j := (y - sext 32 (s.rd Reg.HAT_GRID_Y0)) / c
  if 0 ≤ i ∧ i < s.rd Reg.HAT_GRID_NX ∧ 0 ≤ j ∧ j < s.rd Reg.HAT_GRID_NY then some (i.toNat, j.toNat) else none

/-- The time used for a point: its own, or the centre of its slice (R110). -/
def sliceTime (slices start period t : Nat) : Nat :=
  let j := min (slices - 1) ((t - start) * slices / max 1 period)
  start + (2 * j + 1) * period / (2 * max 1 slices)

/-- One point through H4: the fused point, or the rule that drops it (109 or 112). -/
def State.transform (s : State) (e : HEpoch) (w : HSweep) (p : HPoint) : Except Nat FPoint :=
  let b := e.bank
  let i := w.sensor
  let valid := s.xfValid b i
  let mode := s.hat1 b htXform i 6 1
  let comp := mode != 2 && !e.egoLost
  let period := (s.epochRul e i 4 4).getD e.lenNs
  let t := if mode = 1 then sliceTime (s.hat1 b htXform i 7 1) (w.trig - e.start) period p.tOfs else p.tOfs
  let pose := poseAt e.poses t
  let ps : V3 := (p.x, p.y, p.z)
  let pv := if valid then vAdd (mulV (s.xfRot b i) ps) (s.xfTrans b i) else ps
  if comp && decide (2 ^ 25 < turnSq pose.r) then .error 109
  else
    let q := if comp then vAdd (mulV (rotOf pose.r) pv) (vMap (fun d => rnd d 16) pose.d) else pv
    if !(fitsS 32 q.1 && fitsS 32 q.2.1 && fitsS 32 q.2.2) then .error 112
    else
      let out := valid && (s.cellOf q.1 q.2.1).isNone
      let flags := p.ret % 4 + 4 * comp.toNat + 8 * (mode == 1).toNat + 16 * valid.toNat + 32 * out.toNat +
        64 * e.egoDegraded.toNat
      .ok ⟨q.1, q.2.1, q.2.2, p.tOfs, p.intensity, p.ring, i, flags⟩

/-- A fused point's record (Table HAT-7). -/
def FPoint.bytes (p : FPoint) : List Byte :=
  le 4 (toU 32 p.x) ++ le 4 (toU 32 p.y) ++ le 4 (toU 32 p.z) ++ le 4 p.tOfs ++ le 2 p.intensity ++ le 1 p.ring ++
  le 1 p.sensor ++ le 2 p.flags ++ le 2 0

/-- The point buffer of an epoch (Table BUP-5). -/
def pointBuffer (no : Nat) : Nat := 0x10000000 + no % 4 * 0x1800000

/-- The points of an epoch are written to its buffer; before the boot region is released nothing is. -/
def State.writePoints (s : State) (no : Nat) (l : List FPoint) : State :=
  if s.flag Reg.MEM_RELEASE_BOOT then s.bootWrite (unitId 9 4) (pointBuffer no) (l.flatMap FPoint.bytes) else s

/-- The sources of a VOXELISE job that read Hatch point buffers: their epochs (Tables STP-4, STP-5). -/
def hatchSources (j : Job) : List Nat :=
  if j.opcode = 0x11 ∧ j.arg 32 1 = 1 then
    ((List.range (fld j.param 0 1)).filter (fun i => fld j.param (64 + 64 * i) 1 == 1)).map (fun i => fld j.param (64 + 64 * i + 8) 4)
  else []

/-- Hatch begins to write the buffer of epoch `no`: Stipple jobs that have not read an earlier epoch out of it complete
DATA_ERROR (R141). -/
def State.stippleStale (s : State) (no : Nat) : State :=
  (s.jobs.filter (fun j => (hatchSources j).any (fun e => e % 4 == no % 4 && e != no && decide ((no + 2 ^ 32 - e) % 2 ^ 32 < 2 ^ 31)) &&
      !(s.stp.run == some j.id && s.stp.readDone))).foldl (fun s j =>
    ((s.stopJob j).finishQuiet j stDataErr 0 0).bump Reg.STP_CNT_STALE) s

/-- The transformed points of a list of sweeps, and how many R109 and R112 drop. -/
def State.transformAll (s : State) (e : HEpoch) (l : List HSweep) : List FPoint × Nat × Nat :=
  let r := l.flatMap (fun w => w.points.map (s.transform e w))
  (r.filterMap (fun x => match x with | .ok p => some p | .error _ => none),
   (r.filter (fun x => match x with | .error n => n == 109 | .ok _ => false)).length,
   (r.filter (fun x => match x with | .error n => n == 112 | .ok _ => false)).length)

/-- The plane wait of an epoch ends: H5 starts with the planes accepted (R116, Table HAT-17). -/
def State.endWait (s : State) (n : Nat) : State := (s.modEpoch n (fun e => { e with stage := .waited })).startStage 5 n

/-- An epoch whose points are written waits no longer than until every fused camera has its plane, or EVID_WAIT has passed since the
input close. -/
def State.waitDone (s : State) : State :=
  match s.epochAtStage .placed with
  | some e => if e.planes.length = (s.fusedCams e).length ∨ !s.planeTime e then s.endWait e.no else s
  | none => s

/-- H4 completes the points of the oldest epoch whose track is complete (R112 to R114). -/
def execH4TransformDone (s : State) : Res :=
  match if s.hatchRuns then s.epochAtStage .tracked else none with
  | none => .next s
  | some e =>
    let (pts, far, off) := if s.stageUp 4 then s.transformAll e e.sweeps else ([], 0, 0)
    let (sh, _, _) := if s.stageUp 4 then s.transformAll e e.shadow else ([], 0, 0)
    let beyond := pts.length - 1048576
    let pts := pts.take 1048576
    let uncal := e.sweeps.any (fun w => !s.xfValid e.bank w.sensor) || !(List.range 64).any (fun i => s.xfValid e.bank i)
    let down := !s.stageUp 4
    let s := s.bump Reg.HAT_CNT_EGO_DROPS 0 far
    let s := s.bump Reg.HAT_CNT_RANGE_DROPS 0 off
    let s := s.bump Reg.HAT_CNT_POINT_DROPS 0 beyond
    let s := (s.stippleStale e.no).writePoints e.no pts
    let s := s.modEpoch e.no (fun e => { e with
      points := pts, shadowPoints := sh, fusedCount := pts.length, dropped := e.dropped + far + off + beyond,
      pointDrops := decide (0 < beyond), uncal := uncal, noGrid := e.noGrid || uncal || down, stage := .placed })
    let s := { s with hat := { s.hat with fused := (e.no, pts.length) :: s.hat.fused.filter (fun f => f.1 % 4 != e.no % 4) } }
    .next (s.stageDone 4 (hadInput e)).waitDone

end Sys2Proof.Machine
end

