-- ==== Sys2Proof/Machine/HatchVote.lean ====
section
/-! DEFINITION. H5, association and voting, and H6, the grid and the epoch record (R115 to R127, Tables HAT-11 to HAT-16). -/

namespace Sys2Proof.Machine

/-! ### Evidence planes (R115, R116) -/

/-- A plate DMA write into the evidence window lands in a slot or is discarded (R115). -/
def execEvidencePlaneWrite (plate : Fin 34) (ofs : Nat) (data : List Byte) (s : State) : Res :=
  if s.plateOnline plate.val ∧ ofs + data.length ≤ 0xCC000 then .next (s.evidenceWrite ofs data).waitDone else .next s

/-- EVID_WAIT has passed since the input close of an epoch whose points are written: planes not accepted report no data (R116). -/
def execEvidenceWaitExpiry (s : State) : Res :=
  match s.epochAtStage .placed with
  | some e => if s.passed e.closeTick (usTicks (s.rd Reg.HAT_VOTE_EVID_WAIT)) then .next (s.endWait e.no) else .next s
  | none => .next s

/-! ### Reports (text before R115, Table HAT-11) -/

/-- The policy of cell row `i`: the first entry whose rows hold it, else policy 0. -/
def State.policyOf (s : State) (b i : Nat) : Nat :=
  ((List.range 8).find? (fun n =>
    let p := s.hatBytes b htPolicy n
    !p.all (· == 0#8) && decide (fld p 0 2 ≤ i ∧ i ≤ fld p 2 2))).getD 0

/-- What a lidar's points in one cell report: 0 no data, 1 FREE, 2 OCCUPIED. -/
def lidarReport (policy : List Byte) (zs : List Int) : Nat :=
  let lo := sext 16 (fld policy 8 2) * 100
  let hi := sext 16 (fld policy 10 2) * 100
  let band := (zs.filter (fun z => decide (lo ≤ z ∧ z < hi))).length
  let below := (zs.filter (fun z => decide (z < lo))).length
  if fld policy 4 1 ≤ band ∧ band ≠ 0 then 2 else if fld policy 5 1 ≤ below ∧ below ≠ 0 ∧ band = 0 then 1 else 0

/-- What a plane reports on cell `k` in grid order. -/
def State.planeReport (s : State) (slot k : Nat) : Nat := bits (s.num (evidAddr slot (16 + k / 4)) 1) (2 * (k % 4)) 2

/-- The z coordinates of a sensor's gridded points in a cell. -/
def State.cellPoints (s : State) (l : List FPoint) (sensor i j : Nat) : List Int :=
  (l.filter (fun p => p.sensor == sensor && bit p.flags 4 && s.cellOf p.x p.y == some (i, j))).map (·.z)

/-- The reports of the lidars of a list of sweeps on a cell. -/
def State.lidarReports (s : State) (e : HEpoch) (sweeps : List HSweep) (l : List FPoint) (policy : List Byte) (i j : Nat) :
    List (Nat × Nat) :=
  if e.egoLost then []
  else ((sweeps.map (·.sensor)).dedup).filterMap (fun n =>
    let r := lidarReport policy (s.cellPoints l n i j)
    if r = 0 then none else some (n, r))

/-- The reports of accepted planes on a cell. -/
def State.planeReports (s : State) (l : List (Nat × Nat)) (i j : Nat) : List (Nat × Nat) :=
  l.filterMap (fun c =>
    let r := s.planeReport c.2 (i * s.rd Reg.HAT_GRID_NY + j)
    if r = 1 ∨ r = 2 then some (c.1, r) else none)

/-- The reports of the fused sources on a cell: sensor and state. -/
def State.cellReports (s : State) (e : HEpoch) (policy : List Byte) (i j : Nat) : List (Nat × Nat) :=
  s.lidarReports e e.sweeps e.points policy i j ++ s.planeReports e.planes i j

/-- The reports of EXCLUDED sources on a cell, lidars and cameras (R119). -/
def State.shadowReports (s : State) (e : HEpoch) (policy : List Byte) (i j : Nat) : List (Nat × Nat) :=
  s.lidarReports e e.shadow e.shadowPoints policy i j ++ s.planeReports e.shadowPlanes i j

/-! ### The cell vote (R117, Table HAT-12) -/

/-- The vote of a cell: its state, whether it is DISPUTED, and the sensors whose counters advance. -/
def cellVote (least : Nat) (l : List (Nat × Nat)) : Nat × Bool × List Nat :=
  let free := (l.filter (fun r => r.2 == 1)).length
  let occ := (l.filter (fun r => r.2 == 2)).length
  let n := l.length
  if n < least ∨ n = 0 then (0, false, [])
  else if occ = 0 then (1, false, [])
  else if free = 0 then (2, false, [])
  else if 3 ≤ n ∧ n < 2 * occ then (2, false, (l.filter (fun r => r.2 == 1)).map (·.1))
  else if 3 ≤ n ∧ n < 2 * free then (1, false, (l.filter (fun r => r.2 == 2)).map (·.1))
  else (0, true, l.map (·.1))

/-- A cell byte (Table HAT-14). -/
def cellByte (st : Nat) (disputed : Bool) (l : List (Nat × Nat)) : Byte :=
  let agree := if st = 0 then 0 else min 15 (l.filter (fun r => r.2 == st)).length
  BitVec.ofNat 8 (st + 4 * disputed.toNat + 8 * (l.length == 1).toNat + 16 * agree)

/-- What the vote of the cells yields. -/
structure VoteSum where
  grid : List Byte
  disputed : Nat
  occupied : Nat
  adv : List Nat
  /-- EXCLUDED sensors whose shadow counters advance. -/
  shadow : List Nat
  /-- Pairs of sensors in dispute, one entry per cell. -/
  pairs : List (Nat × Nat)

/-- The pairs of sensors that contradict each other in a list of reports. -/
def disputePairs (l : List (Nat × Nat)) : List (Nat × Nat) :=
  l.flatMap (fun a => (l.filter (fun b => decide (a.1 < b.1) && a.2 != b.2)).map (fun b => (a.1, b.1)))

/-- The vote of one cell, and the EXCLUDED sensors that would have been in the minority or in dispute had they voted (R119). -/
def State.voteCell (s : State) (e : HEpoch) (i j : Nat) : VoteSum :=
  let policy := s.hatBytes e.bank htPolicy (s.policyOf e.bank i)
  let l := s.cellReports e policy i j
  let least := fld policy 6 1
  let (st, dis, adv) := cellVote least l
  let shadow := (s.shadowReports e policy i j).filter (fun r => (cellVote least (l ++ [r])).2.2.contains r.1)
  ⟨[cellByte st dis l], dis.toNat, (st == 2).toNat, adv, shadow.map (·.1), if dis then disputePairs l else []⟩

/-- The vote of every cell, row-major. -/
def State.voteGrid (s : State) (e : HEpoch) : VoteSum :=
  ((List.range (s.rd Reg.HAT_GRID_NX)).flatMap (fun i => (List.range (s.rd Reg.HAT_GRID_NY)).map (fun j => (i, j)))).foldl
    (fun a c => let v := s.voteCell e c.1 c.2
                ⟨a.grid ++ v.grid, a.disputed + v.disputed, a.occupied + v.occupied, a.adv ++ v.adv, a.shadow ++ v.shadow, a.pairs ++ v.pairs⟩)
    ⟨[], 0, 0, [], [], []⟩

/-! ### Exclusion and dispute (R118 to R120) -/

/-- After a vote, a sensor that passed its threshold within the window is to be EXCLUDED, with its event; an EXCLUDED one
qualifies again while its counter stays within requal_thr (R118, R119). -/
def State.judge (s : State) (b i : Nat) : State :=
  let st := s.rd Reg.HAT_VSTATE_STATE i
  let n := s.rd Reg.HAT_VSTATE_COUNT i
  let x := s.voteSt i
  if st = 1 ∨ st = 3 then
    if s.voteRequal b i = 0 then s
    else
      let good := if x.shadow ≤ s.voteRequalThr b i then x.good + 1 else 0
      s.setVote i { x with good := good, back := x.back || decide (s.voteRequal b i ≤ good) }
  else if s.voteThr b i < n ∧ !x.exclude then
    (s.setVote i { x with exclude := true, good := 0 }).raise 0x0401 0 (le 1 i ++ le 4 n)
  else s

/-- A DEGRADED sensor whose pairs are all below their threshold again is voted normally. -/
def State.undegrade (s : State) (i : Nat) : State :=
  if s.rd Reg.HAT_VSTATE_STATE i = 2 ∧ !s.hat.pairs.any (fun p => p.degraded && (p.a == i || p.b == i)) then
    s.wr Reg.HAT_VSTATE_STATE 0 i
  else s

/-- The dispute of one pair of sensors in `cells` cells of the epoch (R120). -/
def State.judgePair (s : State) (b : Nat) (p : PairSt) (cells : Nat) : State :=
  let need := s.hat1 b htVote p.a 12 2
  let run := s.hat1 b htVote p.a 14 1
  let hit := decide (need ≤ cells ∧ cells ≠ 0)
  let q : PairSt := { p with overRun := if hit then p.overRun + 1 else 0, underRun := if hit then 0 else p.underRun + 1 }
  let starts := hit && run != 0 && !p.degraded && decide (run ≤ q.overRun)
  let stops := p.degraded && decide (run ≤ q.underRun)
  let q := { q with degraded := starts || (p.degraded && !stops) }
  let s := { s with hat := { s.hat with pairs := s.hat.pairs.filter (fun x => !(x.a == p.a && x.b == p.b)) ++ [q] } }
  if starts then
    let s := s.raise 0x0402 0 (le 1 p.a ++ le 1 p.b ++ le 4 cells)
    [p.a, p.b].foldl (fun s i => if s.rd Reg.HAT_VSTATE_STATE i = 0 then s.wr Reg.HAT_VSTATE_STATE 2 i else s) s
  else if stops then (s.undegrade p.a).undegrade p.b
  else s

/-- Every pair seen now or before is judged. -/
def State.judgePairs (s : State) (b : Nat) (l : List (Nat × Nat)) : State :=
  let known := s.hat.pairs.map (fun p => (p.a, p.b))
  let fresh := l.dedup.filter (fun p => !known.contains p)
  let all := s.hat.pairs ++ fresh.map (fun p => (⟨p.1, p.2, 0, 0, false⟩ : PairSt))
  all.foldl (fun s p => s.judgePair b p (l.filter (fun q => q == (p.a, p.b))).length) s

/-! ### Association (text before R115; log entry 56) -/

/-- A point carried into camera `i` at the middle of its capture: u and v in 1/256 pixel and the depth in 0.1 mm, if it lands
in the image. -/
def State.project (s : State) (e : HEpoch) (i trig : Nat) (p : FPoint) : Option (Int × Int × Int) :=
  let b := e.bank
  let lat := (s.epochRul e i 20 4).getD 0
  let pose := poseAt e.poses (trig + lat + s.captureNs b i / 2 - e.start)
  let back := if bit p.flags 2 then mulV (transpose (rotOf pose.r)) (vSub (p.x, p.y, p.z) (vMap (fun d => rnd d 16) pose.d))
    else (p.x, p.y, p.z)
  let q := mulV (transpose (s.xfRot b i)) (vSub back (s.xfTrans b i))
  let z := q.2.2
  if z ≤ 0 then none
  else
    let u := s.hatI b htXform i 60 * q.1 / z + s.hatI b htXform i 68
    let v := s.hatI b htXform i 64 * q.2.1 / z + s.hatI b htXform i 72
    let img := s.hat1 b htXform i 76 4
    if 0 ≤ u ∧ u < bits img 0 16 * 256 ∧ 0 ≤ v ∧ v < bits img 16 16 * 256 then some (u, v, z) else none

/-- The projection records of point number `n`: the two lowest cameras that it hits. -/
def State.hits (s : State) (e : HEpoch) (p : FPoint) : List (Nat × Int × Int × Int) :=
  if !bit p.flags 4 || bit p.flags 5 then []
  else (((s.fusedCams e).filter (s.xfValid e.bank)).filterMap (fun i =>
    match (e.frames.filter (fun f => f.sensor == i && f.state == .fused)).getLast? with
    | some f => (s.project e i f.trig p).map (fun h => (i, h))
    | none => none)).take 2

/-- A projection record; a depth beyond 16 bits is the `n`th free value (log entry 51). -/
def hitBytes (n k : Nat) (h : Nat × Int × Int × Int) : List Byte :=
  let cm := (h.2.2.2 / 100).toNat
  le 4 k ++ le 1 h.1 ++ le 1 0 ++ le 2 (h.2.1 / 32).toNat ++ le 2 (h.2.2.1 / 32).toNat ++
  le 2 (if cm < 65536 then cm else Config.free n)

/-- The projection records of an epoch's points; free values count from `n`. -/
def State.hitRecords (s : State) (e : HEpoch) (n : Nat) : List (List Byte) :=
  (((e.points.map (s.hits e)).zipIdx.flatMap (fun x => x.1.map (fun h => (x.2, h)))).zipIdx).map
    (fun r => hitBytes (n + r.2) r.1.1 r.1.2)

/-- CAMERA_HIT is set on the points that hit, and the projection records are written (text before R115). -/
def State.associate (s : State) (e : HEpoch) : State :=
  let pts := e.points.map (fun p => if (s.hits e p).isEmpty then p else { p with flags := p.flags ||| 128 })
  let recs := s.hitRecords e s.free
  let bytes := recs.flatten
  let s := { s with free := s.free + recs.length }
  let s := (s.modEpoch e.no (fun e => { e with points := pts })).writePoints e.no pts
  if s.flag Reg.MEM_RELEASE_BOOT then s.bootWrite (unitId 9 5) (0x16000000 + e.no % 2 * 0x1800000) bytes else s

/-- H5 completes the cell vote of the oldest epoch whose plane wait has ended (R116 to R120). Nothing is gridded or voted when
the epoch is uncalibrated (R113). -/
def execH5VoteDone (s : State) : Res :=
  let s := s.waitDone
  match if s.hatchRuns then s.epochAtStage .waited else none with
  | none => .next s
  | some e =>
    let s := s.associate e
    let e := (s.hat.epochs.find? (fun x => x.no == e.no)).getD e
    let up := s.stageUp 5
    let v := if e.uncal || !up then (⟨[], 0, 0, [], [], []⟩ : VoteSum) else s.voteGrid e
    let s := v.shadow.foldl (fun s i => s.disagreeShadow i 1) (v.adv.foldl (fun s i => s.disagree i 1) s)
    let s := (List.range 64).foldl (fun s i => s.judge e.bank i) s
    let s := s.judgePairs e.bank v.pairs
    let s := s.modEpoch e.no (fun e => { e with grid := v.grid, disputed := v.disputed, occupied := v.occupied,
                                                stage := .voted, noGrid := e.noGrid || !up })
    .next ((s.stageDone 5 (hadInput e)).startStage 6 e.no)

/-! ### H6 (R122 to R127) -/

/-- The frames of sensor `i` that count for its status: those scheduled in the epoch; of a CAN FD, SPI or on-module IMU entry without a
trigger, the frames that H3 took in the epoch, as the worked example of the chapter shows them FUSED (DEDUCED, log entry 109). -/
def State.statusFrames (s : State) (e : HEpoch) (i : Nat) : List HFrame :=
  e.frames.filter (fun f => f.sensor == i && (f.sched || (decide (4 ≤ s.sensor i 0 1) && (s.sensorRul i).isNone)))

/-- The status nibble of a sensor: that of its last frame scheduled in the epoch (R124, Table HAT-16). -/
def State.statusNibble (s : State) (e : HEpoch) (i : Nat) : Nat :=
  let l := s.statusFrames e i
  match l.getLast? with
  | none => 0
  | some f =>
    let code := match f.state with
      | .fused => if s.rd Reg.HAT_VSTATE_STATE i = 2 then 2 else 1
      | .absent => 3
      | .excluded => 4
      | .unlocked => 5
      | .frozen => 6
      | .missed => 7
      | .expected => 7
    let partial' := l.any (fun f => f.state == .fused) && l.any (fun f => f.state != .fused)
    code + 8 * partial'.toNat

/-- The version of the transform table of a bank. -/
def State.xformVersion (s : State) (b : Nat) : Nat :=
  match (List.range 64).find? (s.xfValid b) with
  | some i => s.hat1 b htXform i 0 4
  | none => 0

/-- The grid of an epoch is not written (R127). -/
def State.gridless (s : State) (e : HEpoch) : Bool := e.noGrid || e.uncal || !s.stageUp 6

/-- The epoch record (Table HAT-15). -/
def State.epochRecord (s : State) (e : HEpoch) : List Byte :=
  let late := decide (8000000 < s.dt64 - e.closeNs)
  let none' := s.gridless e
  let flags := e.stepped.toNat + 2 * e.uncal.toNat + 4 * e.egoDegraded.toNat + 8 * e.egoLost.toNat + 16 * late.toNat +
    32 * e.pointDrops.toNat + 64 * e.watchdog.toNat + 128 * none'.toNat
  let nibbles := (List.range 32).map (fun k => BitVec.ofNat 8 (s.statusNibble e (2 * k) + 16 * s.statusNibble e (2 * k + 1)))
  le 2 1 ++ le 2 128 ++ le 4 e.no ++ le 8 s.dt64 ++ le 4 flags ++ le 4 (s.xformVersion e.bank) ++
  le 4 (crc32 (s.rulEntries e.rulBank).flatten) ++ le 1 (e.no % 4) ++ le 1 (e.rulBank + 2 * e.sensBank + 4 * e.bank) ++ le 2 0 ++
  le 4 (if none' then s.freeVal 32 else crc32 e.grid) ++ le 4 e.pointsIn ++ le 4 e.fusedCount ++ le 4 e.dropped ++
  le 4 e.disputed ++ le 4 e.occupied ++ le 8 0 ++ nibbles ++ zeros 32

/-- H6 writes the grid and enqueues the epoch record of the oldest voted epoch (R122, R123, R127). -/
def execH6EpochRecord (s : State) : Res :=
  match if s.hatchRuns then s.epochAtStage .voted else none with
  | none => .next s
  | some e =>
    let r := s.epochRecord e
    let s := if !s.gridless e ∧ s.flag Reg.MEM_RELEASE_BOOT then s.bootWrite (unitId 9 6) (0x19000000 + e.no % 4 * 0x40000) e.grid else s.usedFree
    let s := if 8000000 < s.dt64 - e.closeNs then s.bump Reg.HAT_CNT_LATE_EPOCHS else s
    let s := (s.enqueue 0x32 ⟨0, 0xFF, 0, 0, s.dt64⟩ r).1
    let s := s.stageDone 6 (hadInput e)
    .next (s.setEpochs (s.hat.epochs.filter (fun x => x.no != e.no)))

end Sys2Proof.Machine
end

