-- ==== Sys2Proof/Machine/Golden.lean ====
section
/-! DEFINITION. Golden frames and the slices of the periodic self-test (R121, R506 to R516, Tables SAF-7, SAF-10). -/

namespace Sys2Proof.Machine

def State.setGold (s : State) (g : GoldSt) : State := { s with gold := g }

/-! ### Golden frames (R506 to R511) -/

/-- The golden slot: the single ruling entry of kind 4. -/
def State.goldenEntry (s : State) : Option Nat := (List.range 256).find? (fun e => s.rulKind e == rkGolden)

/-- Every Hatch stage serves. -/
def State.stagesUp (s : State) : Bool := (List.range 6).all (fun k => s.stageUp (k + 1))

/-- A spill queue of a camera or lidar that is fused holds a closed packet (R509). -/
def State.goldenQueues (s : State) : Bool :=
  (List.range 64).any (fun i =>
    let k := s.sensor i 0 1
    (k == 1 || k == 2) && s.rd Reg.ING_SENS_STATE i == 3 &&
    !(s.queue (if k = 1 then s.sensor i 1 1 else ethQueue (s.sensor i 1 1))).stream.isEmpty)

/-- A stage of Hatch is busy with an epoch (R509): a frame is in H1, or an epoch is past its input close. -/
def State.hatchBusy (s : State) : Bool :=
  s.hat.epochs.any (fun e => e.stage != .input) || s.hat.camBuf.rows.any (fun r => !r.2.isEmpty)

/-- A golden run collides with real work (R509). -/
def State.goldenCollides (s : State) : Bool := s.goldenQueues || s.hatchBusy

/-- Hatch begins a golden run. -/
def State.goldenStart (s : State) : State :=
  s.setGold { s.gold with running := true, repeated := false, mismatched := [], forcedAt := none, deferred := none }

/-- A golden run is deferred to the same phase in the epoch after instant `t` (R509, R511). -/
def State.goldenDefer (s : State) (t : Nat) : State :=
  (s.bump Reg.SUP_GOLD_DEFERRED).setGold { s.gold with deferred := some (t + s.epochLen) }

/-- At the fifth attempt every running launch of a partition without SAFETY is pre-empted, and the run starts as soon as Hatch
is idle (R510). -/
def State.goldenForce (s : State) : State :=
  let s := (s.jobs.filter (fun j => j.opcode == 0x10 && j.phase == .running && !s.partSafety j.part)).foldl
    (fun s j => s.requestPreempt j.id) s
  if s.goldenCollides then s.setGold { s.gold with forcedAt := some s.ticks, deferred := none } else s.goldenStart

/-- An attempt at the golden instant `t` (R509, R510). -/
def State.goldenAttempt (s : State) (t : Nat) : State :=
  if s.rd Reg.SUP_GOLD_DEFERRED = 4 then s.goldenForce
  else if s.goldenCollides then s.goldenDefer t
  else s.goldenStart

/-- The golden instant that has come: the one deferred to, else the slot's next one. -/
def State.goldenDue (s : State) : Option Nat :=
  match s.goldenEntry with
  | none => none
  | some e => match s.gold.deferred with
    | some t => if t ≤ s.dt64 ∧ s.flag Reg.RUL_CTRL_RUN then some t else none
    | none => s.dueTrig e 0

/-- At a golden instant Hatch injects the golden set into H1 and H2, unless it collides with real work or a stage is offline; a
forced run starts once Hatch is idle (R506, R509 to R511). -/
def execGoldenInstant (s : State) : Res :=
  if s.gold.running ∨ s.power ≠ .up ∨ !s.hatchRuns then .next s
  else match s.gold.forcedAt with
    | some _ => if s.goldenCollides || !s.stagesUp then .next s else .next s.goldenStart
    | none => match s.goldenDue, s.goldenEntry with
      | some t, some e =>
        let s := (s.served e t).setGold { s.gold with deferred := none }
        if s.stagesUp then .next (s.goldenAttempt t) else .next s
      | _, _ => .next s

/-- Hatch does not become idle within FORCE_US: the run is abandoned, TEST_STARVED is raised and SELF_TEST requested (R510). -/
def execTestStarved (s : State) : Res :=
  match s.gold.forcedAt with
  | some t =>
    if s.passed t (usTicks (s.rd Reg.SUP_GOLD_FORCE_US)) ∧ s.goldenCollides then
      let s := ((s.setGold { s.gold with forcedAt := none }).wr Reg.SUP_GOLD_DEFERRED 0).bump Reg.SUP_GOLD_CNT_STARVED
      .next ((s.raise 0x0A04 0 (le 4 s.tm.epochNo)).requestOnce srcSelfTest)
    else .next s
  | none => .next s

/-- Physical address of the golden result area. -/
def goldenArea : Nat := 0x2C400000

/-- The reference CRC of stage `k` (R507). -/
def State.goldenRef (s : State) (k : Nat) : Nat := s.num (gaddr spDdr (goldenArea + 8 * (k - 1))) 8

/-- A stage whose CRC differs from the reference: the mismatch is confirmed when the run before it differed in that stage (R508). -/
def State.goldenMismatch (s : State) (k : Nat) (confirmed : Bool) : State :=
  let s := if confirmed then
      let s := { s with sup := { s.sup with goldenStages := if s.sup.goldenStages.contains k then s.sup.goldenStages
                                                            else s.sup.goldenStages ++ [k] } }
      s.requestHeld srcSelfTest
    else s
  let s := (s.bump Reg.SUP_GOLD_CNT_MISMATCHES).raise 0x0A03 (unitId 9 k) (le 1 k ++ le 1 confirmed.toNat ++ le 2 0 ++ le 4 s.tm.epochNo)
  if confirmed then s.histFailed (unitId 9 k) else s

/-- A golden run passes in stages that kept the cause of SELF_TEST (R508, Table SAF-3). -/
def State.goldenPassed (s : State) (bad : List Nat) : State :=
  let left := s.sup.goldenStages.filter bad.contains
  let t := { s with sup := { s.sup with goldenStages := left } }
  if left.isEmpty ∧ !s.sup.goldenStages.isEmpty then t.clearCause srcSelfTest else t

/-! ### The golden set through the stages (R121, R506) -/

/-- The bytes of the golden area of the boot region. -/
def State.goldenSet (s : State) : List Byte := s.bytes (gaddr spDdr 0x2B400000) 0x1000000

/-- H1's output over the golden camera frame, with the tables of SUP_GOLD.CAMERA in the active bank. -/
def State.goldenImage (s : State) : List Byte :=
  let i := s.rd Reg.SUP_GOLD_CAMERA
  let f := Config.goldenFrame s.goldenSet
  planeBytes 0 (s.output s.hatBank i f.1 (s.pipe s.hatBank i f.1 f.2))

/-- The points of golden packets from format state `st` on. -/
def State.goldenPackets (s : State) (i : Nat) (t : List Byte) : Nat → List (List Byte × Nat) → List RawPoint
  | _, [] => []
  | st, (l, stamp) :: r =>
    match (lidarPayload t l).map (fun p => (p, packetTest t p 8 st)) with
    | some (p, some (action, next)) =>
      let pts := decodePacket t p stamp 0
      let most := if s.sensFlag i 2 then s.sensor i 12 2 else pts.length
      (if action = 1 ∨ action = 2 then pts.take most else []) ++ s.goldenPackets i t next r
    | _ => s.goldenPackets i t st r

/-- H2's points of the golden set, with the tables of SUP_GOLD.LIDAR; their epoch starts with the first of them (log entry 15). -/
def State.goldenPoints (s : State) : List HPoint :=
  let i := s.rd Reg.SUP_GOLD_LIDAR
  let f := s.sensor i 6 1
  if 8 ≤ f then []
  else
    let t := s.hatBytes s.hatBank htLidar f
    let l := s.goldenPackets i t (fld t 32 1) (Config.goldenPackets s.goldenSet)
    let start : Int := (l.head?.map RawPoint.time).getD 0
    (l.filter (fun q => decide (0 ≤ q.time - start ∧ q.time - start < 2 * s.epochLen))).map
      (fun q => { q.pt with tOfs := (q.time - start).toNat })

/-- The track of a golden run: no source is injected, so that every sample is held. -/
def State.goldenPoses (s : State) : List Pose :=
  trackPoses (List.replicate (2 * (s.epochLen / 1000000)) ⟨(0, 0, 0), (0, 0, 0), true⟩) (s.rd Reg.HAT_EGO_REF_MS)

/-- The epoch that H3 to H6 make of the golden set. -/
def State.goldenEpoch (s : State) : HEpoch :=
  let i := s.rd Reg.SUP_GOLD_LIDAR
  let e : HEpoch :=
    { no := 0, start := 0, lenNs := s.epochLen, bank := s.hatBank, rulBank := s.rulBank, sensBank := s.rd Reg.ING_ST_CTRL_BANK,
      frames := [⟨s.rd Reg.SUP_GOLD_CAMERA, 0, 0, .fused, true⟩, ⟨i, 0, 0, .fused, true⟩], stage := .tracked, closeNs := 0, closeTick := 0,
      stepped := false, watchdog := false, noGrid := false, uncal := !s.xfValid s.hatBank i, egoDegraded := false,
      egoLost := decide (s.rd Reg.HAT_EGO_HOLD_MS < 2 * (s.epochLen / 1000000)), pointDrops := false,
      sweeps := [⟨i, 0, s.goldenPoints⟩], shadow := [], pointsIn := 0, dropped := 0, poses := s.goldenPoses, points := [],
      shadowPoints := [], fusedCount := 0, planes := [], shadowPlanes := [], grid := [], disputed := 0, occupied := 0 }
  { e with points := (s.transformAll e e.sweeps).1 }

/-- The bytes that stage `k` makes of the golden set with the active tables: the image, the decoded points, the track, the transformed
points, the projection records with the voted cells, and the grid (R121, R506). Nothing of it is kept but its CRC-64. -/
def State.goldenOutput (s : State) (k : Nat) : List Byte :=
  let e := s.goldenEpoch
  let v := if e.uncal then [] else (s.voteGrid e).grid
  match k with
  | 1 => s.goldenImage
  | 2 => s.goldenPoints.flatMap (fun p =>
      (⟨p.x, p.y, p.z, p.tOfs, p.intensity, p.ring, s.rd Reg.SUP_GOLD_LIDAR, p.ret % 4⟩ : FPoint).bytes)
  | 3 => s.goldenPoses.flatMap (fun p => [p.r.1, p.r.2.1, p.r.2.2].flatMap (fun x => le 4 (toU 32 x)) ++
      [p.d.1, p.d.2.1, p.d.2.2].flatMap (fun x => le 8 (toU 64 x)))
  | 4 => e.points.flatMap FPoint.bytes
  | 5 => (s.hitRecords e 0).flatten ++ v
  | _ => v

/-- A golden run ends. Each stage's CRC-64 is that of its output over the golden set, changed by `upsets`, what a fault of the stage made
of it (zero for a sound stage). The first run's CRCs become the reference; a later run's are compared, and the run is repeated once, at
once, on a mismatch (R121, R506 to R508). -/
def execGoldenRunDone (upsets : List (BitVec 64)) (s : State) : Res :=
  if !s.gold.running ∨ !s.hatchRuns then .next s
  else
    let crc := fun (k : Nat) => crc64 (s.goldenOutput k) ^^^ (upsets.getD (k - 1) 0).toNat
    let s := (s.bump Reg.SUP_GOLD_CNT_RUNS).wr Reg.SUP_GOLD_DEFERRED 0
    let stages := (List.range 6).map (· + 1)
    if !s.flag Reg.SUP_GOLD_REF_VALID then
      let s := s.bootWrite (unitId 9 6) goldenArea (stages.flatMap (fun k => le 8 (crc k)))
      .next ((s.wr Reg.SUP_GOLD_REF_VALID 1).setGold { s.gold with running := false })
    else
      let bad := stages.filter (fun k => crc k != s.goldenRef k)
      let s := s.goldenPassed bad
      if bad.isEmpty then .next (s.setGold { s.gold with running := false })
      else if s.gold.repeated then
        let before := s.gold.mismatched
        let s := bad.foldl (fun s k => s.goldenMismatch k (before.contains k)) s
        .next (s.setGold { s.gold with running := false, repeated := false, mismatched := [] })
      else
        let s := bad.foldl (fun s k => s.goldenMismatch k false) s
        .next (s.setGold { s.gold with repeated := true, mismatched := bad })

/-- A step of device time from `old` to `new` that skips a golden instant counts as one deferral (R511). -/
def State.goldenSkip (s : State) (old : Nat) : State :=
  let due := match s.gold.deferred with
    | some t => if old < t ∧ t ≤ s.dt64 then some t else none
    | none => match s.goldenEntry with
      | some e => (s.nextTrig e old).bind (fun t => if t ≤ s.dt64 then some t else none)
      | none => none
  match due, s.goldenEntry with
  | some _, some e =>
    if s.gold.running ∨ s.gold.forcedAt.isSome ∨ s.rd Reg.SUP_GOLD_DEFERRED = 4 then s
    else s.goldenDefer ((s.lastTrig e s.dt64).getD s.dt64)
  | _, _ => s

/-! ### Periodic self-test (R512 to R516) -/

/-- Slices of a unit's pass (Table SAF-7); 0 = the unit has none. -/
def sliceCount (u : Nat) : Nat :=
  match u / 2 ^ 24 with
  | 1 => 240
  | 5 => 160
  | 0x0C => 40
  | 0x0D => 40
  | 0x13 => 5
  | _ => 0

/-- A window assigns a plate, or grants the burnisher, to a partition with SAFETY (R353). -/
def State.windowSafety (s : State) (l : List Byte) (w : Nat) : Bool := (winParts l w).any s.partSafety

/-- The start of the next safety-relevant window of the active bank, now when one is in progress; none if there is none. -/
def State.nextSafety (s : State) : Option Nat :=
  let l := s.activeSched
  let start := fun (f w : Nat) => f + winStartUs l w * 1000
  if s.windowSafety l s.window then some s.dt64
  else
    let next := s.par.frameStart + schedFrameUs l * 1000
    match (schedIdx l).find? (fun w => decide (s.window < w) && !s.par.hold && s.windowSafety l w) with
    | some w => some (start s.par.frameStart w)
    | none => ((schedIdx l).find? (s.windowSafety l)).map (start next)

/-- Jobs that a unit runs. -/
def State.unitJob (s : State) (u : Nat) (j : Job) : Bool :=
  match u / 2 ^ 24, j.opcode with
  | 1, 0x10 => (s.launchPlates j).contains (bits u 0 24)
  | 5, 0x13 => true
  | 5, 1 => j.arg 32 1 == 6
  | 0x0C, 0x11 => true
  | 0x0D, 0x12 => true
  | _, _ => false

/-- A unit has a launch, job or run executing or with its wait met (R512). -/
def State.unitBusy (s : State) (u : Nat) : Bool :=
  s.jobs.any (fun j => s.unitJob u j && (j.phase != .waiting || s.waitMet j)) ||
  (u == unitId 0x0D 0 && s.brn.probs.rows.any (fun r => r.2.trigRun.isSome))

/-- A slice of `d` ns of unit `u` may start now (R512). -/
def State.sliceOk (s : State) (u d : Nat) : Bool :=
  let free := match s.nextSafety with
    | some t => decide (s.dt64 + d ≤ t) && !s.windowSafety s.activeSched s.window
    | none => true
  let swap := s.flag Reg.PAR_STAT_SWAP_PENDING &&
    decide (s.par.frameStart + schedFrameUs s.activeSched * 1000 < s.dt64 + d)
  free && !swap && !s.unitBusy u

/-- The next slice of a unit starts, or is skipped and counted (R512). -/
def execSelftestSlice (unit : BitVec 32) (durNs : Nat) (s : State) : Res :=
  let u := unit.toNat
  if sliceCount u = 0 ∨ !unitBuilt u ∨ !s.unitUp u ∨ s.power ≠ .up ∨ s.sliced u ∨ 200000 < durNs then .next s
  else if s.sliceOk u durNs then .next (s.setGold { s.gold with slices := s.gold.slices ++ [(u, s.ticks, durNs)] })
  else .next (s.bump Reg.SUP_BIST_CNT_SKIPPED)

/-- A failed slice: its unit becomes PERMANENT, a record of op 0x07 is made and SELF_TEST requested (R516). -/
def State.sliceFailed (s : State) (u durNs : Nat) : State :=
  let s := s.histFailed u
  let s := (s.record u 7 s.dt64 0 1 [(1, 1), (2, s.freeVal 32), (3, durNs / 1000)]).usedFree
  s.requestOnce srcSelfTest

/-- A slice ends; the last one of a pass completes it (R515, R516, Table SAF-7). -/
def execSliceDone (unit : BitVec 32) (pass : Bool) (s : State) : Res :=
  let u := unit.toNat
  match s.gold.slices.find? (fun x => x.1 == u) with
  | none => .next s
  | some x =>
    let n := s.gold.passed.get 0 u + 1
    let full := decide (sliceCount u ≤ n)
    let g := { s.gold with slices := s.gold.slices.filter (fun y => y.1 != u) }
    let g := if !pass then g
      else { g with passed := g.passed.set u (if full then 0 else n), since := if full then g.since.set u s.ticks else g.since }
    let s := (s.setGold g).bump Reg.SUP_BIST_CNT_SLICES
    .next (if pass then s else s.sliceFailed u x.2.2)

/-- A step of device time aborts every running slice, each counted as skipped (R514). -/
def State.abortSlices (s : State) : State :=
  (s.bump Reg.SUP_BIST_CNT_SKIPPED 0 s.gold.slices.length).setGold { s.gold with slices := [] }

/-- INTERVAL_S passes for a unit without a complete pass: SELFTEST_LAPSED names it and a new pass begins (R515). -/
def execSelftestLapsed (unit : BitVec 32) (s : State) : Res :=
  let u := unit.toNat
  if sliceCount u ≠ 0 ∧ unitBuilt u ∧ s.power = .up ∧ s.unitUp u ∧
      s.passed (s.gold.since.get s.gold.begun u) (s.rd Reg.SUP_BIST_INTERVAL_S * 250000000) then
    .next ((s.setGold { s.gold with passed := s.gold.passed.set u 0, since := s.gold.since.set u s.ticks }).raise 0x0A05 u (le 4 u))
  else .next s

end Sys2Proof.Machine
end

