-- ==== Sys2Proof/Machine/Time.lean ====
section
/-! DEFINITION. The ruling engine: device time, the servo, gPTP, steps, epochs and triggers (R32 to R63, R92, R97, R118 to R120,
R402 to R406, R503). -/

namespace Sys2Proof.Machine

def State.setTm (s : State) (x : TimeSt) : State := { s with tm := x }

/-- The module has supply and Birril is not held in reset. -/
def State.alive (s : State) : Bool := s.power == .starting || s.power == .up

/-! ### The counter (R32 to R34) -/

def incNominal : Nat := 0x0400000000
def incLow : Nat := 0x03FFBE76C9
def incHigh : Nat := 0x0400418937

/-- RUL_INC in 2^-32 ns. -/
def State.inc (s : State) : Nat := s.rd Reg.RUL_INC_FRAC + s.rd Reg.RUL_INC_INT * 2 ^ 32

def State.setInc (s : State) (v : Nat) : State := (s.wr Reg.RUL_INC_FRAC (v % 2 ^ 32)).wr Reg.RUL_INC_INT (v / 2 ^ 32)

/-- One tick of the time clock: DT96 advances by RUL_INC (R32); every second of ticks is an operating second; error records
whose gathering is over are made (R464). -/
def execTimeTick (s : State) : Res :=
  if s.power == .off then .next s
  else
    let n := s.ticks + 1
    let s := (s.setTm { s.tm with dt96 := (s.tm.dt96 + s.inc) % 2 ^ 96 })
    let secs := s.nv.seconds + (if n % 250000000 = 0 then 1 else 0)
    let s := { s with ticks := n, nv := { s.nv with seconds := secs } }
    .next s.flushGathers

/-! ### Reference and lock (R36 to R38, Table TIM-1) -/

def tsFree : Nat := 0
def tsAcquiring : Nat := 1
def tsLocked : Nat := 2
def tsHoldover : Nat := 3

/-- RUL_STAT.STATE. -/
def State.timeState (s : State) : Nat := s.rd Reg.RUL_STAT_STATE

/-- While LOCKED, time is traceable under gPTP, and under 1PPS once the seconds have been set (text after R38). -/
def State.showTraceable (s : State) : State :=
  if s.timeState = tsLocked then s.wr Reg.RUL_STAT_TRACEABLE (s.tm.ref == .gptp || s.tm.secondsSet).toNat else s

/-- LOCKED is entered, and function TIME is READY. -/
def State.enterLocked (s : State) : State := (s.wr Reg.RUL_STAT_STATE tsLocked).showTraceable.fnReady 2

/-- FREE_RUN: RUL_INC at the saved or nominal value. -/
def State.enterFree (s : State) : State :=
  ((s.wr Reg.RUL_STAT_STATE tsFree).wr Reg.RUL_STAT_TRACEABLE 0).setInc (s.nv.inc.getD incNominal)

/-- HOLDOVER: RUL_INC frozen at the mean of the last 16 values (R38); its fraction is dropped, and before there are 16 the mean is that
of the values there are (DESIGN CHOICE, log entry 95). -/
def State.enterHoldover (s : State) : State :=
  let l := s.tm.incHist
  (s.wr Reg.RUL_STAT_STATE tsHoldover).setInc (if l.isEmpty then s.inc else l.sum / l.length)

def State.enterAcquiring (s : State) : State := (s.wr Reg.RUL_STAT_STATE tsAcquiring).wr Reg.RUL_STAT_TRACEABLE 0

/-- The reference that RUL_CTRL.REF_SEL selects of those available (R36). -/
def State.wantedRef (s : State) : RefSrc :=
  let g := s.tm.gptpSlave.isSome
  match s.rd Reg.RUL_CTRL_REF_SEL with
  | 0 => if g then .gptp else if s.tm.ppsOk then .pps else .none
  | 1 => if g then .gptp else .none
  | 2 => if s.tm.ppsOk then .pps else .none
  | _ => .none

/-- The slave port and the reference follow what is available; a reference lost while LOCKED leaves HOLDOVER (R36, R38). -/
def State.reselect (s : State) : State :=
  let s := s.wr Reg.RUL_STAT_SLAVE_VALID s.tm.gptpSlave.isSome.toNat
  let s := match s.tm.gptpSlave with | some p => s.wr Reg.RUL_STAT_SLAVE_PORT p | none => s
  let want := s.wantedRef
  if s.rd Reg.RUL_CTRL_REF_SEL = 3 then
    if s.timeState = tsFree ∧ s.tm.ref = .none then s else (s.setTm { s.tm with ref := .none, good := 0 }).enterFree
  else if want = s.tm.ref then s
  else
    let t := s.setTm { s.tm with ref := want, good := 0, refAt := s.ticks }
    if want ≠ .none then t.enterAcquiring
    else if s.timeState = tsLocked then t.enterHoldover
    else if s.timeState = tsHoldover then t
    else t.enterFree

/-- The reference has gone: 3 Sync intervals without Sync, or 1.5 s without an edge (R38). -/
def execReferenceLost (s : State) : Res :=
  if !s.alive then .next s
  else match s.tm.ref with
  | .gptp =>
    if s.passed s.tm.refAt (3 * s.tm.syncNs / 4) then
      let best := match s.tm.gptpSlave with | some p => s.tm.best.erase p | none => s.tm.best
      .next (s.setTm { s.tm with gptpSlave := none, best := best }).reselect
    else .next s
  | .pps =>
    if s.passed (s.tm.ppsAt.getD 0) 375000000 then .next (s.setTm { s.tm with ppsOk := false }).reselect else .next s
  | .none => .next s

/-- A 1PPS edge: 1PPS is usable once edges arrive at 1 s +- 100 ppm (R36). -/
def execPpsEdge (s : State) : Res :=
  if !s.alive then .next s
  else
    let ok := match s.tm.ppsAt with
      | some t => decide (250000000 - 25000 ≤ s.ticks - t ∧ s.ticks - t ≤ 250000000 + 25000)
      | none => false
    .next (s.setTm { s.tm with ppsAt := some s.ticks, ppsOk := ok }).reselect

/-! ### Steps (R39 to R42, R126, R343, R511, R514) -/

/-- The first epoch boundary at or after instant `t` (R47). -/
def State.boundaryFrom (s : State) (t : Nat) : Nat :=
  if s.epochAt (s.epochIndex t) = t then t else s.nextBoundary t

/-- An instant moved by `d` ns. -/
def movedBy (d : Int) (t : Nat) : Nat := ((t : Int) + d).toNat

/-- DT96 steps by `d` units of 2^-32 ns: the epoch in progress closes, the next one begins at the first boundary of the new
time line, windows, slices and golden frames follow (R41, R126, R343, R511, R514). -/
def State.stepTime (s : State) (d : Int) : State :=
  let old := s.dt64
  let new := ((s.tm.dt96 : Int) + d).toNat % 2 ^ 96
  let s := s.setTm { s.tm with dt96 := new }
  let moved : Int := (s.dt64 : Int) - old
  let s := (s.wr Reg.RUL_STAT_STEPPED 1).stepEpoch
  let lines := s.tm.lines.rows.map (fun r => (r.1, ({ untilNs := movedBy moved r.2.untilNs, lastStart := r.2.lastStart.map (movedBy moved) } : Line)))
  let s := s.setTm { s.tm with nextEpoch := s.boundaryFrom s.dt64, epochStart := none, lines := ⟨lines⟩, fired := .empty }
  let s := if 0 < moved then s.goldenSkip old else s
  s.abortSlices.holdWindow

/-- Why a host step is refused, judged against the value of RUN given (R42). -/
def State.stepGoError (s : State) (run : Bool) : Option Nat :=
  let d := sext 64 (s.rd Reg.RUL_STEP_DELTA_NS)
  let t : Int := s.dt64 + d
  if t < 0 ∨ (2 ^ 64 : Int) ≤ t then some stBadField
  else if d < 0 ∧ run then some stWrongState
  else none

/-- RUL_CTRL.RUN takes a value; when it is set, epochs run again from the next boundary. -/
def State.setRun (s : State) (run : Bool) : State :=
  let was := s.flag Reg.RUL_CTRL_RUN
  let s := s.wr Reg.RUL_CTRL_RUN run.toNat
  if run && !was then s.setTm { s.tm with nextEpoch := s.boundaryFrom s.dt64, epochStart := none } else s

/-- The seconds of DT64 have been set, by a gPTP grandmaster or by the host (text after R38). -/
def State.secondsKnown (s : State) : State := (s.setTm { s.tm with secondsSet := true }).showTraceable

/-- The step of RUL_STEP is applied; a step of zero is none (R42). -/
def State.stepGo (s : State) : State :=
  let d := sext 64 (s.rd Reg.RUL_STEP_DELTA_NS)
  if d = 0 then s
  else
    (s.stepTime (d * 2 ^ 32)).secondsKnown

/-- RUL_CTRL.STEP_GO, together with a new value of RUN if the write gives one (R42). -/
def execStepGo (runNew : Option Bool) (s : State) : Res :=
  let run := runNew.getD (s.flag Reg.RUL_CTRL_RUN)
  if !s.alive ∨ s.flag Reg.HTP_CTRL_SETUP_DONE ∨ (s.stepGoError run).isSome then .next s
  else .next (s.setRun run).stepGo

/-! ### The servo (R33, R35, R37, R39, R40) -/

/-- `n / d` rounded to the nearest integer. -/
def roundDiv (n d : Int) : Int := (2 * n + d) / (2 * d)

/-- The servo law without the clamp, for the offset `oNum / m.oDen` (text after R34). -/
def servoInc (m : ServoMeas) (oNum : Int) : Int :=
  roundDiv (2 ^ 34 * ((m.oDen * m.updNs : Nat) - oNum) * m.rDen) ((m.oDen * m.updNs : Nat) * (m.rDen + m.rNum))

/-- RUL_INC is set, held within the bounds of R33; a clamp is counted. -/
def State.loadInc (s : State) (v : Int) : State :=
  let c := clampI incLow incHigh v
  let s := if c = v then s else s.bump Reg.RUL_SERVO_CLAMPS
  let s := s.setInc c.toNat
  s.setTm { s.tm with incHist := (c.toNat :: s.tm.incHist).take 16 }

/-- While LOCKED the ruling core saves the long-term average rate in the store (text after R34; log entry 92). -/
def State.saveRate (s : State) : State :=
  if s.timeState = tsLocked then
    { s with nv := { s.nv with inc := some (max incLow (min incHigh (Config.longTermRate s.tm.incHist))) } }
  else s

/-- The lock state after an update whose offset is within LOCK_THR or not, or beyond four times it (R37). -/
def State.lockUpdate (s : State) (within far : Bool) : State :=
  let good := if within then min 8 (s.tm.good + 1) else 0
  let s := s.setTm { s.tm with good := good }
  if s.timeState = tsLocked then (if far then (s.setTm { s.tm with good := 0 }).enterAcquiring else s)
  else if 8 ≤ good then s.enterLocked
  else if s.timeState = tsAcquiring then s
  else s.enterAcquiring

/-- An update of the reference in use: the servo steps, slews or sets the rate (R33, R35 to R40). -/
def execServoUpdate (m : ServoMeas) (s : State) : Res :=
  if !s.alive ∨ s.tm.ref ≠ (if m.pps then .pps else .gptp) ∨ m.oDen = 0 ∨ m.updNs = 0 ∨ m.rDen = 0 ∨ (m.rDen : Int) + m.rNum ≤ 0 then
    .next s
  else
    let thr := s.rd Reg.RUL_SERVO_LOCK_THR * m.oDen
    let big := decide (s.rd Reg.RUL_SERVO_STEP_STEP_THR * m.oDen < m.oNum.natAbs)
    let steps := decide (m.oNum < 0) || !s.flag Reg.RUL_CTRL_RUN
    let s := s.wr Reg.RUL_OFFSET_O (toU 32 (clampI (-(2 ^ 31 - 1)) (2 ^ 31 - 1) (roundDiv m.oNum m.oDen)))
    let s := if big && steps then
        (s.stepTime (roundDiv (-m.oNum * 2 ^ 32) m.oDen)).loadInc (servoInc m 0)
      else if big then
        let s := s.setInc incLow
        s.setTm { s.tm with incHist := (incLow :: s.tm.incHist).take 16 }
      else s.loadInc (servoInc m m.oNum)
    let s := if !m.pps && (!big || steps) then s.secondsKnown else s
    .next (s.lockUpdate (decide (m.oNum.natAbs ≤ thr)) (decide (4 * thr < m.oNum.natAbs))).saveRate

/-! ### gPTP (R43 to R46, Table TIM-2) -/

/-- The policer of a time-stamping port. -/
def stampPolicer (p : Nat) : Nat := if p < 2 then 12 + p else p - 2

/-- The unit of a time-stamping port. -/
def stampUnit (p : Nat) : Nat := if p < 2 then unitId 0x0F p else unitId 0x0B (p - 2)

/-- A PTP timestamp: 48-bit seconds and 32-bit nanoseconds, in network order. -/
def ptpTime (ns : Nat) : List Byte := be 6 (ns / 1000000000) ++ be 4 (ns % 1000000000)

/-- Bytes of a gPTP frame, its check sequence included: a one-step Sync with the Follow_Up information TLV has 94, a peer-delay
message 72 (802.1AS; log entry 19). -/
def gptpLength (type : Nat) : Nat := if type = 0 then 94 else 72

/-- A gPTP frame of a port: EtherType 0x88F7, the message type, correctionField, sequence number and timestamp in their places
(IEEE 802.1AS; log entry 19), the rest as the standard has it, and the frame check sequence computed over the whole (R45, R46). -/
def gptpFrame (p type seqId ns : Nat) (corr : Int) : List Byte :=
  let l := padTo (gptpLength type - 4) (Config.gptpTemplate p type)
  let l := patch (patch l 12 (be 2 0x88F7)) 14 (be 1 (16 + type))
  let l := patch (patch (patch l 22 (be 8 (toU 64 corr))) 44 (be 2 seqId)) 48 (ptpTime ns)
  l ++ le 4 (crc32 l)

/-- A gPTP message leaves through its port's policer (R502). -/
def State.sendGptp (s : State) (p type seqId ns : Nat) (corr : Int) : State :=
  s.emitPoliced .gptp p (stampPolicer p) (gptpLength type) (gptpFrame p type seqId ns corr)

/-- The DT96 of a departure now, corrected by the port's transmit latency (R45). -/
def State.departure (s : State) (p : Nat) : Nat := s.tm.dt96 + s.rd Reg.RUL_PLAT_TX_LAT p * 2 ^ 29

/-- A stamp enters a port's store of 16, or is discarded and counted (R44); the answer says whether it was kept. -/
def State.keepStamp (s : State) (tx : Bool) (p : Nat) (x : Stamp) : State × Bool :=
  let t := if tx then s.tm.tx else s.tm.rx
  let l := t.get [] p
  if 16 ≤ l.length then (s.bump Reg.RUL_PLAT_LOST p, false)
  else
    let t := t.set p (l ++ [x])
    (s.setTm (if tx then { s.tm with tx := t } else { s.tm with rx := t }), true)

/-- The stamps of a message leave a port's store. -/
def State.useStamp (s : State) (tx : Bool) (p type seqId : Nat) : State :=
  let gone := fun (l : List Stamp) => l.filter (fun x => !(x.msgType == type && x.seqId == seqId))
  if tx then s.setTm { s.tm with tx := s.tm.tx.set p (gone (s.tm.tx.get [] p)) }
  else s.setTm { s.tm with rx := s.tm.rx.set p (gone (s.tm.rx.get [] p)) }

/-- The stamp of a message that waits in a port's store. -/
def State.hasStamp (s : State) (p type seqId : Nat) : Bool :=
  (s.tm.rx.get [] p).any (fun x => x.msgType == type && x.seqId == seqId)

/-- The Sync interval that a message of the slave port states, from 2^-5 s to 1 s (Table TIM-2). -/
def State.syncInterval (s : State) (p : Nat) (log : Int) : State :=
  if s.tm.gptpSlave = some p ∧ -5 ≤ log ∧ log ≤ 0 then s.setTm { s.tm with syncNs := 1000000000 / 2 ^ log.natAbs } else s

/-- A Sync of the slave port has been used with its precise origin (R46). -/
def State.syncUsed (s : State) (p originNs : Nat) : State :=
  if s.tm.gptpSlave = some p then s.setTm { s.tm with refAt := s.ticks, origin := some originNs } else s

/-- The answer to a peer-delay request: Pdelay_Resp with its receipt time, and Pdelay_Resp_Follow_Up with the departure of the
former (Table TIM-2). -/
def State.answerPdelay (s : State) (p seqId : Nat) (rx8 : Nat) : State :=
  let dep := s.departure p
  let s := s.sendGptp p 3 seqId (rx8 / 8) ((rx8 % 8 * 8192 : Nat))
  match s.keepStamp true p ⟨dep / 2 ^ 29, 3, seqId⟩ with
  | (s, false) => s
  | (s, true) => (s.sendGptp p 10 seqId (dep / 2 ^ 32) (dep / 2 ^ 16 % 2 ^ 16 : Nat)).useStamp true p 3 seqId

/-- A gPTP event message is received: its receive stamp, corrected by the port's latency, is kept until the message is used, or
discarded with the message (R43, R44). A Pdelay_Resp shows that the partner answers (R70). -/
def execGptpEventRx (port : Fin 8) (msg : GptpEvent) (s : State) : Res :=
  let p := port.val
  let seqId := msg.seqId.toNat
  let at8 := s.tm.dt96 / 2 ^ 29 - s.rd Reg.RUL_PLAT_RX_LAT p
  if !s.alive ∨ !s.unitUp (stampUnit p) ∨ msg.msgType.val = 1 then .next s
  else match s.keepStamp false p ⟨at8, msg.msgType.val, seqId⟩ with
  | (s, false) => .next s
  | (s, true) =>
    match msg.msgType.val with
    | 0 =>
      let s := if s.tm.gptpSlave = some p then (s.setTm { s.tm with refAt := s.ticks }).syncInterval p msg.logInterval else s
      if msg.twoStep then .next s else .next ((s.syncUsed p msg.originNs).useStamp false p 0 seqId)
    | 2 => .next ((s.answerPdelay p seqId at8).useStamp false p 2 seqId)
    | _ => .next (s.setTm { s.tm with pdelayAt := s.tm.pdelayAt.set p s.ticks }).discoverAll

/-- The port on which the best grandmaster is announced, if it is better than this module (Table TIM-2). -/
def State.elect (s : State) : State :=
  let best := s.tm.best.rows.foldl (fun (a : Option (Nat × Nat)) r =>
    match a with
    | some (_, v) => if r.2 < v then some r else a
    | none => some r) none
  (s.setTm { s.tm with gptpSlave := best.map (·.1) }).reselect

/-- A gPTP general message is received: Follow_Up and Pdelay_Resp_Follow_Up complete the message whose stamp waits; an Announce
on H0 or H1 feeds the best master clock algorithm (R36, R44, Table TIM-2). -/
def execGptpGeneralRx (port : Fin 8) (msg : GptpGeneral) (s : State) : Res :=
  let p := port.val
  let seqId := msg.seqId.toNat
  if !s.alive ∨ !s.unitUp (stampUnit p) then .next s
  else match msg.msgType.val with
  | 8 => if s.hasStamp p 0 seqId then .next ((s.syncUsed p msg.originNs).useStamp false p 0 seqId) else .next s
  | 10 => .next ((s.useStamp false p 3 seqId).useStamp true p 2 seqId)
  | 11 =>
    if p < 2 then
      let best := if msg.priority < Config.ownPriority then s.tm.best.set p msg.priority else s.tm.best.erase p
      .next (s.setTm { s.tm with best := best }).elect
    else .next s
  | _ => .next s

/-- A Sync is transmitted, as grandmaster or as relay, with the departure time or the correction inserted (R45, R46). -/
def execGptpSyncTx (port : Fin 8) (seqId : BitVec 16) (gm : Bool) (s : State) : Res :=
  let p := port.val
  let dep := s.departure p
  if !s.alive ∨ !s.unitUp (stampUnit p) ∨ s.tm.gptpSlave = some p ∨ gm ≠ s.tm.gptpSlave.isNone then .next s
  else
    let s := (s.keepStamp true p ⟨dep / 2 ^ 29, 0, seqId.toNat⟩).1.useStamp true p 0 seqId.toNat
    if gm then .next (s.sendGptp p 0 seqId.toNat (dep / 2 ^ 32) (dep / 2 ^ 16 % 2 ^ 16 : Nat))
    else match s.tm.origin with
      | some o => .next (s.sendGptp p 0 seqId.toNat o ((dep / 2 ^ 16 : Nat) - (o * 2 ^ 16 : Nat)))
      | none => .next s

/-- A Pdelay_Req is sent; its transmit stamp waits for the answer, or is discarded (R44). -/
def execPdelayReqTx (port : Fin 8) (s : State) : Res :=
  let p := port.val
  if !s.alive ∨ !s.unitUp (stampUnit p) then .next s
  else
    let n := s.tm.txSeq.get 0 p
    let s := s.setTm { s.tm with txSeq := s.tm.txSeq.set p ((n + 1) % 65536) }
    let s := (s.keepStamp true p ⟨s.departure p / 2 ^ 29, 2, n⟩).1
    .next (s.sendGptp p 2 n 0 0)

/-! ### Epochs (R47 to R51, R62, R92, R97, R118, R119, R404 to R406) -/

/-- RUL_CTRL.SWAP: a swap of the ruling banks is requested (R50, R591). -/
def execRulSwap (s : State) : Res :=
  if s.flag Reg.RUL_STAT_SWAP_PENDING ∨ s.flag Reg.HTP_CTRL_SETUP_DONE then .next s
  else .next (s.wr Reg.RUL_STAT_SWAP_PENDING 1)

/-- Why a write that leaves this epoch length and offset is refused (R48). -/
def State.epochWriteError (s : State) (len ofs : Nat) : Option Nat :=
  if len < 10 ∨ 1000 < len ∨ len * 1000000 ≤ ofs then some stBadField
  else if s.flag Reg.RUL_CTRL_RUN then some stWrongState
  else none

/-- Epoch length and offset are written; a change of the offset moves the major-frame boundaries (R48, R343). -/
def State.epochWrite (s : State) (len ofs : Nat) : State :=
  let moved := ofs != s.rd Reg.RUL_EPOCH_OFS_OFS_NS
  let s := (s.wr Reg.RUL_EPOCH_LEN_MS len).wr Reg.RUL_EPOCH_OFS_OFS_NS ofs
  let s := s.setTm { s.tm with nextEpoch := s.boundaryFrom s.dt64, epochStart := none, fired := .empty }
  if moved then s.holdWindow else s

/-- A write of RUL_EPOCH or RUL_EPOCH_OFS, judged as both would stand (R48). -/
def execRulEpochWrite (lenMs : Option (BitVec 10)) (ofsNs : Option (BitVec 32)) (s : State) : Res :=
  let len := (lenMs.map (·.toNat)).getD (s.rd Reg.RUL_EPOCH_LEN_MS)
  let ofs := (ofsNs.map (·.toNat)).getD (s.rd Reg.RUL_EPOCH_OFS_OFS_NS)
  if s.flag Reg.HTP_CTRL_SETUP_DONE ∨ (s.epochWriteError len ofs).isSome then .next s else .next (s.epochWrite len ofs)

/-- The table family of a TABLE_LOAD job: 0 ruling, 1 sensor, 2 Hatch. -/
def loadFamily (j : Job) : Nat := if 0x10 ≤ j.arg 32 1 then 2 else j.arg 32 1

/-- The load descriptors with SWAP of a family complete as their swap takes effect, or BAD_FIELD when its check failed (R51, R404). -/
def State.endLoads (s : State) (family : Nat) (ok : Bool) : State :=
  (s.jobs.filter (fun j => j.opcode == 0x20 && j.phase == .running && loadFamily j == family)).foldl
    (fun s j => if ok then s.finishOk j else s.refuse j ⟨stBadField, 0⟩) s

/-- A pending swap of the ruling banks takes effect, or is refused with the failing entry (R50, R51). -/
def State.swapRuling (s : State) : State :=
  if !s.flag Reg.RUL_STAT_SWAP_PENDING then s
  else
    let old := s.rulBank
    let s := s.wr Reg.RUL_STAT_SWAP_PENDING 0
    match rulBankError s.epochLen (s.rulEntries (1 - old)) with
    | some e => ((s.wr Reg.RUL_STAT_SWAP_ERR 1).wr Reg.RUL_STAT_ERR_ENTRY e).endLoads 0 false
    | none =>
      let same := fun (e : Nat) => s.bytes (rulAddr old e) 32 == s.bytes (rulAddr (1 - old) e) 32
      let s := (s.wr Reg.RUL_STAT_BANK (1 - old)).setTm { s.tm with fired := ⟨s.tm.fired.rows.filter (fun r => same r.1)⟩ }
      s.endLoads 0 true

/-- A pending swap of the sensor-table banks (R67). -/
def State.swapSensing (s : State) : State :=
  if !s.flag Reg.ING_ST_CTRL_SWAP_PENDING then s
  else
    let s := s.wr Reg.ING_ST_CTRL_SWAP_PENDING 0
    match sensBankError (s.sensEntries (1 - s.rd Reg.ING_ST_CTRL_BANK)) with
    | some e => ((s.wr Reg.ING_ST_CTRL_SWAP_ERR 1).wr Reg.ING_ST_CTRL_ERR_ENTRY e).endLoads 1 false
    | none => s.swapSensors.endLoads 1 true

/-- A pending swap of the nine Hatch tables takes effect; the golden reference is made anew (R97, R405, R507). -/
def State.swapHatch (s : State) : State :=
  if !s.flag Reg.HAT_CTRL_SWAP_PENDING then s
  else ((((s.wr Reg.HAT_CTRL_SWAP_PENDING 0).wr Reg.HAT_CTRL_BANK (1 - s.hatBank)).wr Reg.SUP_GOLD_REF_VALID 0).showHat).endLoads 2 true

/-- Sensor `i` returns to voting (R119, R120). -/
def State.readmitSensor (s : State) (i : Nat) : State :=
  let s := (s.wr Reg.HAT_VSTATE_STATE 0 i).setVote i { s.voteSt i with exclude := false, back := false, good := 0, shadow := 0 }
  let free := fun (k : Nat) => decide (s.rd Reg.HAT_VSTATE_STATE k ≠ 2)
  { s with hat := { s.hat with pairs := s.hat.pairs.map (fun p =>
      if (p.a = i ∨ p.b = i) ∧ free p.a ∧ free p.b then { p with degraded := false, overRun := 0 } else p) } }

/-- Exclusions and returns that wait for the boundary take effect (R118, R119). -/
def State.revote (s : State) (i : Nat) : State :=
  let x := s.voteSt i
  if x.exclude then
    (s.wr Reg.HAT_VSTATE_STATE (if s.voteRequal s.hatBank i = 0 then 1 else 3) i).setVote i { x with exclude := false, back := false, good := 0, shadow := 0 }
  else if x.back then s.readmitSensor i
  else s

/-- READMIT descriptors that wait for the boundary take effect and complete (R406). -/
def State.endReadmits (s : State) : State :=
  (s.jobs.filter (fun j => j.opcode == 0x21 && j.phase == .running)).foldl (fun s j =>
    (s.readmitSensor (j.arg 33 1)).finishOk j) s

/-- Quota counters start at zero; what was charged ahead to the epoch that begins counts in it (R92). -/
def State.freshQuotas (s : State) : State :=
  { s with ing := { s.ing with sens := ⟨s.ing.sens.rows.map (fun r =>
      (r.1, { r.2 with past := r.2.used, used := r.2.ahead, ahead := 0 }))⟩ } }

/-- Hatch opens the epoch that begins; function HATCH is READY with its first one (R97, Table BUP-9). -/
def State.beginEpoch (s : State) (no start : Nat) : State :=
  let n := s.hat.epochs.length
  let s := s.openEpoch no start
  if n < s.hat.epochs.length ∧ s.fnState 4 ≠ rdFailed then s.fnReady 4 else s

/-- An epoch boundary: pending swaps take effect, exclusions and returns too, quotas start anew, sensors are re-admitted or
re-armed, Hatch receives the schedule, and the epoch's sync object is signalled by 1 (R47, R49 to R51, R61, R62, R67, R92,
R97, R118, R119, R404 to R406). -/
def execEpochBoundary (s : State) : Res :=
  let b := s.tm.nextEpoch
  if !s.alive ∨ !s.flag Reg.RUL_CTRL_RUN ∨ s.dt64 < b then .next s
  else
    let s := s.swapRuling.swapSensing.swapHatch
    let s := ((List.range 64).foldl State.revote s).endReadmits.freshQuotas
    let no := s.epochOf b
    let s := s.setTm { s.tm with epochStart := some b, epochNo := no, nextEpoch := b + s.epochLen }
    let s := (List.range 64).foldl (fun s i => (s.relock i).rearm i) s
    let s := s.beginEpoch no b
    .next (s.signal (s.rd Reg.RUL_EPOCH_SYNC_OBJ) 1 [])

/-! ### Triggers (R53 to R57, R61, R503) -/

/-- Minimum period in ns and duty limit of a trigger line (R501, R503). -/
def State.lineLimit (s : State) (k : Nat) : Nat × Nat :=
  if s.locked then (fld s.mgd.table (96 + 8 * k) 4, fld s.mgd.table (100 + 8 * k) 1) else (1000000, 64)

/-- A pulse of `w` ns that starts at `t` would break the line's limits (R57, R503). -/
def State.linePast (s : State) (k t w : Nat) : Bool :=
  let (least, duty) := s.lineLimit k
  match (s.tm.lines.get ⟨0, none⟩ k).lastStart with
  | some u => decide (t - u < least) || decide (duty * (t - u) < w * 256)
  | none => false

/-- A trigger-line entry's time arrives: the pulse starts now and lasts width_ns in whole ticks, or is suppressed (R54, R57,
R503, R583). -/
def execTriggerFire (entry : Fin 256) (s : State) : Res :=
  let e := entry.val
  if s.power ≠ .up ∨ s.rulKind e ≠ rkLine then .next s
  else match s.dueTrig e 0 with
  | none => .next s
  | some t =>
    let k := s.rulIndex e
    let w := (s.rul e 12 4 + 3) / 4 * 4
    let now := s.dt64
    let s := s.served e t
    if s.linePast k now w then .next (s.bump Reg.RUL_TRGSUP_SUPPRESSED k)
    else
      let s := s.setTm { s.tm with lines := s.tm.lines.set k ⟨now + w, some now⟩ }
      .next (s.emit .trigger k (le 8 now ++ le 4 w ++ le 1 (bits (s.rul e 3 1) 1 1)))

/-- The inactive level of trigger line `k`, high when an entry of the active bank for it has the LOW policy bit (R583,
Table TIM-3). -/
def State.trigRest (s : State) (k : Nat) : Bool :=
  (List.range 256).any (fun e => s.rulKind e == rkLine && s.rulIndex e == k && bit (s.rul e 3 1) 1)

/-- The level of trigger line `k`: `none` is high-impedance (unpowered, in brown-out, in reset, and until ROM boot is done),
then the inactive level but while a pulse lasts (R54, R583). -/
def State.trigLevel (s : State) (k : Nat) : Option Bool :=
  if s.power ≠ .up then none
  else match (s.tm.lines.find k).bind (·.lastStart) with
    | some t => some (s.trigRest k != decide (t ≤ s.dt64 ∧ s.dt64 < (s.tm.lines.get ⟨0, none⟩ k).untilNs))
    | none => some (s.trigRest k)

/-- A back-channel trigger leaves ahead of the trigger time by the port's latency (R55). -/
def execBackChannelTrigger (entry : Fin 256) (s : State) : Res :=
  let e := entry.val
  let k := s.rulIndex e
  if s.power ≠ .up ∨ s.rulKind e ≠ rkBack ∨ !s.unitUp (unitId 0x0A k) then .next s
  else match s.dueTrig e (s.rd Reg.RUL_BCLAT_LAT_NS k) with
  | none => .next s
  | some t => .next ((s.served e t).emit .backChannel k (le 8 t ++ le 4 (s.rul e 12 4)))

/-- The bytes of `l` with `x` in their place from `o`, the length kept. -/
def putAt (l : List Byte) (o : Nat) (x : List Byte) : List Byte := (l.take o ++ x ++ l.drop (o + x.length)).take l.length

/-- A phase command with the trigger time in its template (R56; log entry 8). -/
def State.phaseFrame (s : State) (template t : Nat) : List Byte :=
  let a := gaddr spTemplate (256 * template)
  let l := s.bytes a (min 128 (s.num (a + 128) 1))
  putAt l (s.num (a + 129) 1) (if s.num (a + 130) 1 = 0 then ptpTime t else le 8 t)

/-- lead_ns before each trigger time, the frame leaves on the entry's port (R56, R61, R502). -/
def execPhaseCommand (entry : Fin 256) (s : State) : Res :=
  let e := entry.val
  let k := s.rulIndex e
  if s.power ≠ .up ∨ s.rulKind e ≠ rkPhase ∨ !s.unitUp (unitId 0x0B k) then .next s
  else match s.dueTrig e (s.rul e 28 4) with
  | none => .next s
  | some t =>
    let l := s.phaseFrame (s.rulTemplate e) t
    .next ((s.served e t).emitPoliced .phaseCommand k k (l.length + 4) l)

end Sys2Proof.Machine
end

