-- ==== Sys2Proof/Machine/Loads.lean ====
section
/-! DEFINITION. NOP, table loads and Hatch control (R402 to R406, Tables HST-14, HST-15). -/

namespace Sys2Proof.Machine

/-! ### Table loads -/

/-- The Hatch table that a TABLE_LOAD job names. -/
def loadHat (j : Job) : Nat := j.arg 32 1 - 0x10

/-- Entry size of the table that a TABLE_LOAD job names (Table HST-14). -/
def loadSize (j : Job) : Nat := if loadFamily j = 0 then 32 else if loadFamily j = 1 then 64 else hatSize (loadHat j)

/-- Entries of the table that a TABLE_LOAD job names. -/
def loadEntries (j : Job) : Nat := if loadFamily j = 0 then 256 else if loadFamily j = 1 then 64 else hatEntries (loadHat j)

def loadSwap (j : Job) : Bool := bit (j.arg 33 1) 0
def loadFirst (j : Job) : Nat := j.arg 34 2
def loadLen (j : Job) : Nat := j.arg 36 4

/-- The job loads the remap grid, one entry of any length (R402). -/
def loadGrid (j : Job) : Bool := j.arg 32 1 == 0x14

/-- Entries that a job writes. -/
def loadCount (j : Job) : Nat := if loadGrid j then 1 else loadLen j / loadSize j

/-- The first field of the entries of a block that breaks a check of one entry alone, as an offset in the block. -/
def blockBad (check : List Byte → Option Nat) (size n : Nat) (l : List Byte) : Option Nat :=
  ((List.range n).filterMap (fun i => (check (slice l (i * size) size)).map (i * size + ·))).head?

/-- The check of one entry alone (R51, R67, R99); `len` is the epoch length that a ruling entry is held against. -/
def loadEntryBad (j : Job) (len : Nat) : List Byte → Option Nat :=
  if loadFamily j = 0 then rulEntryBad len else if loadFamily j = 1 then sensEntryBad else hatEntryBad (loadHat j)

/-- BAD_FIELD at an offset of the parameter block; a detail has 16 bits (R401). -/
def blockField (o : Nat) : Option Refuse := some ⟨stBadField, (0x8000 + o) % 65536⟩

/-- The checks of a TABLE_LOAD at acceptance: those that rest on the descriptor and its block (R399, R402, R404). -/
def State.loadAccept (s : State) (j : Job) : Except Refuse (List Byte) :=
  let t := j.arg 32 1
  let size := loadSize j
  match firstOf [
    refuseIf (!(t == 0 || t == 1 || decide (0x11 ≤ t ∧ t ≤ 0x19))) (badField 32),
    refuseIf (decide (1 < j.arg 33 1)) (badField 33),
    refuseIf (!zeroAt j.desc 48 16) (badField 48),
    refuseIf (if loadGrid j then decide (loadLen j % 8 ≠ 0 ∨ 133128 < loadLen j) else decide (loadLen j % size ≠ 0)) (badLength 36),
    refuseIf (loadLen j != 0 && decide (loadEntries j < loadFirst j + loadCount j)) (badLength (if loadGrid j then 34 else 36))] with
  | some e => .error e
  | none =>
    if loadLen j = 0 then .ok []
    else match s.acceptRead j.context (j.arg 40 8) (loadLen j) with
      | .error e => .error ⟨e.1, e.2⟩
      | .ok l =>
        match (blockBad (loadEntryBad j 0) size (loadCount j) l).bind blockField with
        | some e => .error e
        | none => .ok l

/-- The inactive bank of the job's family. -/
def State.loadBank (s : State) (j : Job) : Nat :=
  1 - (if loadFamily j = 0 then s.rulBank else if loadFamily j = 1 then s.rd Reg.ING_ST_CTRL_BANK else s.hatBank)

/-- The address of entry `i` of the job's table in bank `b`. -/
def loadAddr (j : Job) (b i : Nat) : Nat :=
  if loadFamily j = 0 then rulAddr b i else if loadFamily j = 1 then sensAddr b i else hatAddr b (loadHat j) i

/-- A swap of the job's family is pending (R403). -/
def State.loadPending (s : State) (j : Job) : Bool :=
  if loadFamily j = 0 then s.flag Reg.RUL_STAT_SWAP_PENDING
  else if loadFamily j = 1 then s.flag Reg.ING_ST_CTRL_SWAP_PENDING else s.flag Reg.HAT_CTRL_SWAP_PENDING

/-- A swap of the job's family is requested. -/
def State.loadRequest (s : State) (j : Job) : State :=
  if loadFamily j = 0 then s.wr Reg.RUL_STAT_SWAP_PENDING 1
  else if loadFamily j = 1 then s.wr Reg.ING_ST_CTRL_SWAP_PENDING 1 else s.wr Reg.HAT_CTRL_SWAP_PENDING 1

/-- Some entry of the Hatch tables of bank `b` breaks its rule, or the VALID transforms disagree (R99, R111). -/
def State.hatBankBad (s : State) (b : Nat) : Bool :=
  ([htCamera, htDecomp, htLidar, htOdo, htXform, htPolicy, htVote] : List Nat).any (fun id =>
    (List.range (hatEntries id)).any (fun i => !hatEntryOk id (s.hatBytes b id i))) ||
  !xformVersionsOk ((List.range 64).map (s.hatBytes b htXform))

/-- What the check of the whole bank `b` finds, as it stands in `s`: the failing entry of the ruling or sensor table named by
its place in the job's block, anything else by the SWAP flag (R404; log entry 70). -/
def State.wholeBad (s : State) (j : Job) (b : Nat) : Option Refuse :=
  let at1 := fun (e : Nat) =>
    if loadFirst j ≤ e ∧ e < loadFirst j + loadCount j then blockField ((e - loadFirst j) * loadSize j) else badField 33
  if loadFamily j = 0 then (rulBankError s.epochLen (s.rulEntries b)).bind at1
  else if loadFamily j = 1 then (sensBankError (s.sensEntries b)).bind at1
  else if s.hatBankBad b then badField 33 else none

/-- TABLE_LOAD writes entries into the inactive bank of its family; with SWAP it then waits for the epoch boundary
(R402 to R405). -/
def execTableLoad (job : Nat) (s : State) : Res :=
  match s.startedJob job 0x20 with
  | none => .next s
  | some j =>
    if loadLen j = 0 then .next (s.finishOk j)
    else
      let b := s.loadBank j
      let t := s.store (loadAddr j b (loadFirst j)) j.param
      let bad := if loadSwap j then t.wholeBad j b
                 else (blockBad (loadEntryBad j s.epochLen) (loadSize j) (loadCount j) j.param).bind blockField
      .next (s.runOr j (firstOf [refuseIf (s.loadPending j) (wrongState 5 1),
          refuseIf (loadFamily j == 2 && s.oldBusy) (wrongState 5 2), bad]) (fun _ =>
        let t := t.wroteOut j.id
        if loadSwap j then (t.loadRequest j).setJob { j with phase := .running, outAt := some s.dt64 }
        else t.finishNow j.id 0 0 0))

/-! ### Hatch control -/

/-- The checks of a HATCH_CONTROL descriptor at acceptance (Table HST-15). -/
def readmitAccept (j : Job) : Except Refuse (List Byte) :=
  match firstOf [refuseIf (j.arg 32 1 != 1) (badField 32), refuseIf (!zeroAt j.desc 34 30) (badField 34),
      refuseIf (decide (63 < j.arg 33 1)) (badField 33)] with
  | some e => .error e
  | none => .ok []

/-- READMIT: the sensor returns to voting at the next epoch boundary, and the job completes then (R406). -/
def execReadmit (job : Nat) (s : State) : Res :=
  match s.startedOp job 0x21 1 with
  | none => .next s
  | some j =>
    .next (s.runOr j (refuseIf (s.rd Reg.HAT_VSTATE_STATE (j.arg 33 1) == 0) (wrongState 0x0A 0)) (fun s =>
      s.setJob { j with phase := .running }))

/-! ### NOP -/

/-- The checks of a NOP at acceptance: its payload is reserved. -/
def nopAccept (j : Job) : Except Refuse (List Byte) :=
  if zeroAt j.desc 32 32 then .ok [] else .error ⟨stBadField, 32⟩

/-- NOP completes OK and applies its signal (Table HST-11). -/
def execNop (job : Nat) (s : State) : Res :=
  match s.startedJob job 0 with
  | none => .next s
  | some j => .next (s.finishOk j)

end Sys2Proof.Machine
end

