-- ==== Sys2Proof/Machine/Bulk.lean ====
section
/-! DEFINITION. The host bulk channel: credits, reports, push writes and pull reads (R408 to R411, R542 to R544, Tables HST-18,
HST-19). -/

namespace Sys2Proof.Machine

def bulkChan : Nat := 0x34

/-- A BULK_CREDIT payload (Table HST-19). -/
def creditPayload (credits flags status rflags xfer count : Nat) : List Byte :=
  le 4 credits ++ le 1 flags ++ le 1 status ++ le 1 rflags ++ le 1 0 ++ le 4 xfer ++ le 4 0 ++ le 8 count ++ le 8 0

/-- The device grants 128 credits beyond those used, none before the boot region is released (R408, R542). -/
def State.grantCredits (s : State) : State :=
  if s.inSession && s.flag Reg.MEM_RELEASE_BOOT && s.ht.creditIn != s.ht.usedIn + 128 then
    let s := { s with ht := { s.ht with creditIn := s.ht.usedIn + 128 } }
    s.sendReliable true 0x32 (creditPayload s.ht.creditIn 0 0 0 0 0)
  else s

/-- The report of a transfer (Table HST-19). -/
def State.sendReport (s : State) (xfer status rflags count : Nat) : State :=
  if s.inSession then s.sendReliable true 0x32 (creditPayload s.ht.creditIn 1 status rflags xfer count) else s

/-- Flags that the circumstances give a transfer now: DEGRADED while the streams share a port (text after R384). -/
def State.bulkFlags (s : State) : Nat :=
  if s.rd Reg.HTP_STAT_C_PORT = s.rd Reg.HTP_STAT_B_PORT then 2 ^ cfDegraded else 0

/-- Bytes written and flags of an open push transfer. -/
def State.pushOf (s : State) (xfer : Nat) : Nat × Nat := s.ht.pushed.get (0, 0) xfer

/-- Bytes of an unfinished head item of a push transfer that are written already. -/
def State.headDone (s : State) (xfer : Nat) : Nat :=
  match s.ht.bulk with
  | [] => 0
  | b :: _ => if !b.pull && b.xfer == xfer then b.done else 0

/-- A push transfer ends before its LAST frame: its report goes out, and nothing further of it is written (R409). -/
def State.endPush (s : State) (xfer status : Nat) (last : Bool) : State :=
  let x := s.pushOf xfer
  let n := x.1 + s.headDone xfer
  let left := s.ht.bulk.filter (fun b => b.pull || b.xfer != xfer)
  let sawLast := last || s.ht.bulk.any (fun b => !b.pull && b.xfer == xfer && b.last)
  let s := { s with ht := { s.ht with bulk := left, pushed := s.ht.pushed.erase xfer,
                                      ended := if sawLast then s.ht.ended else xfer :: s.ht.ended } }
  s.sendReport xfer status (x.2 ||| s.bulkFlags) n

/-- A pull ends with its report (R411). -/
def State.endPull (s : State) (b : Bulk) (status : Nat) : State :=
  let s := { s with ht := { s.ht with bulk := s.ht.bulk.drop 1 } }
  s.sendReport b.xfer status (b.flags ||| s.bulkFlags) b.done

/-- The transfer at the head of the channel ends with a status, and the channel is idle. -/
def State.endBulk (s : State) (status : Nat) : State :=
  let s := s.chanClear bulkChan
  match s.ht.bulk with
  | [] => s
  | b :: _ => if b.pull then s.endPull b status else s.endPush b.xfer status false

/-- What a physical access of the bulk channel meets: nothing, a status that ends the transfer, or a fault (R409, R411). -/
inductive PhysCheck
  | ok
  | stop
  | fault (kind : Nat)

def State.physCheck (s : State) (pull : Bool) (pa : Nat) : PhysCheck :=
  if !pull && (inBoot pa || inMirror pa) then .stop
  else if !s.holdsMem pa then .stop
  else if !s.released pa then .fault fkNotReleased
  else if !(if pull then s.readable pa else s.chanOnline pa) then .fault fkOffline
  else .ok

/-- The head item replaced. -/
def State.setHead (s : State) (b : Bulk) : State :=
  { s with ht := { s.ht with bulk := b :: s.ht.bulk.drop 1 } }

/-- The head item used boot-region reads served from the mirror: its report shows DEGRADED (Table HST-12). -/
def State.markHead (s : State) : State :=
  match s.ht.bulk with
  | [] => s
  | b :: _ => s.setHead { b with flags := b.flags ||| 2 ^ cfDegraded }

/-- The flags that the head item carries. -/
def State.headFlags (s : State) : Nat :=
  match s.ht.bulk with
  | [] => 0
  | b :: _ => b.flags

/-- The channel stops at a fault of the head item; bytes_done counts from the transfer's first byte. -/
def State.bulkFault (s : State) (b : Bulk) (kind va : Nat) : State :=
  let before := if b.pull then 0 else (s.pushOf b.xfer).1
  ((s.setHead b).chanStart bulkChan (if b.space = 0 then b.context else 0) 0 0 b.xfer (b.space != 0)).chanFault
    bulkChan kind (before + b.done) va

/-- The data of a push item is written, from its progress on; none when the item no longer heads the queue, with the fault or
the end already recorded. -/
def State.pushLoop : Nat → State → Bulk → State × Bool
  | 0, s, _ => (s, true)
  | fuel + 1, s, b =>
    let left := b.data.drop b.done
    let a := b.addr + b.done
    if left.isEmpty then (s, true)
    else if b.space = 0 then
      match s.translateOn bulkChan b.context a .write with
      | (s, .error k) => (s.bulkFault b k a, false)
      | (s, .ok pa) =>
        let c := chunk a left.length
        State.pushLoop fuel (s.store (gaddr spDdr pa) (left.take c)) { b with done := b.done + c }
    else if b.space = 1 then
      match s.physCheck false a with
      | .stop => (((s.setHead b).chanClear bulkChan).endPush b.xfer stBadField false, false)
      | .fault k => (s.bulkFault b k a, false)
      | .ok =>
        let c := chunk a left.length
        State.pushLoop fuel (s.store (gaddr spDdr a) (left.take c)) { b with done := b.done + c }
    else
      let c := chunk a left.length
      State.pushLoop fuel (s.physWrite (0x30400000 + a) (left.take c)) { b with done := b.done + c }

/-- A push item has been written: with LAST the report goes out, or waits for the verification of a firmware image (R409, R544). -/
def State.pushDone (s : State) (b : Bulk) : State :=
  let x := s.pushOf b.xfer
  let y := (x.1 + b.data.length, x.2 ||| b.flags ||| s.bulkFlags)
  let s := { s with ht := { s.ht with bulk := s.ht.bulk.drop 1, pushed := s.ht.pushed.set b.xfer y } }
  if !b.last then s
  else if b.space = 2 then { s with boot := { s.boot with verify := some b.xfer } }
  else
    let s := s.sendReport b.xfer stOk y.2 y.1
    { s with ht := { s.ht with pushed := s.ht.pushed.erase b.xfer } }

/-- The pull header that a data frame carries (Table HST-18). -/
def pullHeader (b : Bulk) (a : Nat) : List Byte :=
  le 4 b.xfer ++ le 1 b.space ++ le 1 0 ++ le 1 b.context ++ le 1 0 ++ le 8 a ++ le 4 0 ++ zeros 12

/-- Bytes of one pull frame, read piece by piece: the bytes, and what stopped the reading early, if anything did: a fault kind
(0 = data failed, 8 = an address without memory). -/
def State.pullRead (b : Bulk) (det : ReadFault) : Nat → State → Nat → List Byte → State × List Byte × Option Nat
  | 0, s, _, l => (s, l, none)
  | fuel + 1, s, n, l =>
    if n ≤ l.length then (s, l, none)
    else
      let ofs := b.done + l.length
      let a := b.addr + ofs
      let here := decide (ofs ≤ det.ofs ∧ det.ofs < ofs + chunk a (n - l.length))
      let get := fun (s : State) (pa : Nat) =>
        let m := chunk a (n - l.length)
        let s := if s.fromMirrorRead pa m (if here then det.fails else 0) then s.markHead else s
        let (s, x, bad) := s.ddrGet bulkChan none b.context a pa m (if here then det.fails else 0)
        if bad then (s, l, some 0) else State.pullRead b det fuel s n (l ++ x)
      if b.space = 0 then
        match s.translateOn bulkChan b.context a .read with
        | (s, .error k) => (s, l, some k)
        | (s, .ok pa) => get s pa
      else
        match s.physCheck true a with
        | .stop => (s, l, some 8)
        | .fault k => (s, l, some k)
        | .ok => get s a

/-- Frames of a pull are sent while the host's credits allow, up to its end, a fault or a failed read (R408, R411). -/
def State.pullLoop (det : ReadFault) : Nat → State → Bulk → State × Bool
  | 0, s, b => (s.setHead b, false)
  | fuel + 1, s, b =>
    let n := min 8192 (b.total - b.done)
    if n = 0 then (s.endPull b stOk, true)
    else if s.ht.creditOut ≤ s.ht.usedOut then
      (((s.setHead b).chanStart bulkChan (if b.space = 0 then b.context else 0) 0 b.done b.xfer (b.space != 0)), false)
    else
      let (s, l, stop) := State.pullRead b det 5 s n []
      let send := fun (s : State) (l : List Byte) =>
        let s := s.sendReliable true 0x31 (pullHeader b (b.addr + b.done) ++ l)
        { s with ht := { s.ht with usedOut := s.ht.usedOut + 1 } }
      let s := if l.isEmpty then s else send s l
      let b := { b with done := b.done + l.length, flags := b.flags ||| s.bulkFlags ||| s.headFlags }
      match stop with
      | none => State.pullLoop det fuel s b
      | some 0 => (((s.setHead b).chanClear bulkChan).endPull b stDataErr, true)
      | some 8 => (((s.setHead b).chanClear bulkChan).endPull b stBadField, true)
      | some k => (s.bulkFault b k (b.addr + b.done), false)

/-- The bulk channel works through its items in order until it stops at a fault or for want of credits; `n` bounds the items. -/
def State.bulkRun (det : ReadFault) : Nat → State → State
  | 0, s => s
  | n + 1, s =>
    if s.chan bulkChan = chFaulted then s
    else match s.ht.bulk with
    | [] => s.chanClear bulkChan
    | b :: _ =>
      if b.pull then
        match State.pullLoop det (b.total / 8192 + 2) s b with
        | (s, true) => State.bulkRun ⟨0, 0⟩ n s
        | (s, false) => s
      else
        match State.pushLoop (b.data.length / 4096 + 3) s b with
        | (s, true) => State.bulkRun ⟨0, 0⟩ n (s.pushDone b)
        | (s, false) => if s.chan bulkChan = chFaulted then s else State.bulkRun ⟨0, 0⟩ n s

/-- The channel goes on with what is queued. -/
def State.bulkGo (s : State) (det : ReadFault) : State := State.bulkRun det (s.ht.bulk.length + 1) s

end Sys2Proof.Machine
end

