-- ==== Sys2Proof/Machine/Launch.lean ====
section
/-! DEFINITION. Plate launches: acceptance, start, completion, pre-emption and resume (R190 to R197, R200 to R203, R331 to
R339, R346 to R350). -/

namespace Sys2Proof.Machine

/-! ### The program image (Table PLT-9) -/

def imgLen (h : List Byte) : Nat := fld h 8 4
def imgEntry (h : List Byte) : Nat := fld h 12 4
def imgDataOfs (h : List Byte) : Nat := fld h 24 4
def imgDataLen (h : List Byte) : Nat := fld h 28 4
def imgStack (h : List Byte) : Nat := fld h 32 4
def imgAbuf (h : List Byte) : Nat := fld h 36 4

/-- A header breaks Table PLT-9, or entry, text or data lies outside image_len (R191). -/
def imageBad (h : List Byte) : Bool :=
  fld h 0 4 != 0x47525041 || fld h 4 2 != 1 || !zeroAt h 6 2 || !zeroAt h 48 16 || decide (1048576 < fld h 20 4) ||
  decide (imgLen h < 64) || decide (imgLen h ≤ imgEntry h) || decide (imgLen h < fld h 16 4 + fld h 20 4) ||
  decide (imgLen h < imgDataOfs h + imgDataLen h)

/-- The image's CRC with its field taken as zero (Table PLT-9). -/
def imageCrc (l : List Byte) : Nat := crc64 (l.take 40 ++ zeros 8 ++ l.drop 48)

/-! ### Acceptance (R191, R329, R350) -/

/-- The `n`-byte share field at offset `o` of a partition's entry (Table PAR-3). -/
def State.share (s : State) (part o n : Nat) : Nat := s.partRec part o n

/-- A plate can run work: it is enabled, online and its domain is on (R20). -/
def State.plateUsable (s : State) (p : Nat) : Bool := s.unitUp (unitId 1 p) && s.rd Reg.PLT_STAT_STATE p != 0

/-- The checks of a launch in order: what refuses it, or the bytes that it keeps: the image's header, its data section and the
parameter block; none for a launch that does nothing (R191). The image's faults are reported at the program field
(log entry 34). -/
def State.launchAccept (s : State) (j : Job) : Except Refuse (List Byte) :=
  if j.arg 52 4 = 0 ∨ j.arg 56 1 = 0 then .ok []
  else if 4096 < j.arg 48 4 then .error ⟨stBadLength, 48⟩
  else if j.arg 52 4 / 2 ^ s.platesOn.length ≠ 0 then .error ⟨stBadField, 52⟩
  else if 64 < j.arg 56 1 then .error ⟨stBadField, 56⟩
  else if 6 < j.arg 57 1 then .error ⟨stBadField, 57⟩
  else match s.acceptRead j.context (j.arg 32 8) 64 with
  | .error e => .error ⟨e.1, e.2⟩
  | .ok h =>
    if imageBad h then .error ⟨stBadField, 32⟩
    else match s.acceptRead j.context (j.arg 32 8) (imgLen h) with
    | .error e => .error ⟨e.1, e.2⟩
    | .ok img =>
      if imageCrc img ≠ fld h 40 8 then .error ⟨stBadField, 32⟩
      else if (s.launchPlates j).any (fun p => !s.plateUsable p) then .error ⟨stUnitOffline, 0⟩
      else if s.share j.part 8 4 < imgAbuf h ∨ s.share j.part 14 2 < imgDataLen h + imgStack h then .error ⟨stNoResource, 0⟩
      else if !s.someWindow s.activeSched j.part (j.arg 52 4) then .error ⟨stNoResource, 0⟩
      else match s.acceptRead j.context (j.arg 40 8) (j.arg 48 4) with
      | .error e => .error ⟨e.1, e.2⟩
      | .ok l => .ok (h ++ slice img (imgDataOfs h) (imgDataLen h) ++ l)

/-- What an accepted launch keeps of its image and parameters. -/
def Job.image (j : Job) : List Byte := j.param.take 64
def Job.data (j : Job) : List Byte := slice j.param 64 (imgDataLen j.image)
def Job.block (j : Job) : List Byte := j.param.drop (64 + imgDataLen j.image)

/-! ### Order (R192, R346 to R348) -/

/-- A launch that waits for plates: its wait is met and it is not running. -/
def candidate (j : Job) : Bool := j.opcode == 0x10 && (j.phase == .started || j.phase == .saved) && !j.param.isEmpty

/-- Precedence of a launch in the current window: a launch of the assigned partition first, then backfill launches by
priority (R346, R347). -/
def State.launchRank (s : State) (j : Job) : Nat :=
  if s.assignedAll j.part (s.launchPlates j) then 0 else j.priority + 1

/-- No other launch that may run and shares a plate goes before this one (R192, R347). -/
def State.launchFirst (s : State) (j : Job) : Bool :=
  !s.jobs.any (fun k => k.id != j.id && candidate k && s.mayRun k &&
    (s.launchPlates k).any (fun p => (s.launchPlates j).contains p) &&
    (decide (s.launchRank k < s.launchRank j) || (s.launchRank k == s.launchRank j && decide (k.id < j.id))))

/-- A plate is free for a launch: idle or holding a saved launch, and no offline request pends (R192, R197, R333). -/
def State.plateFree (s : State) (p : Nat) : Bool :=
  (s.rd Reg.PLT_STAT_STATE p == 1 || s.rd Reg.PLT_STAT_STATE p == 4) && !(s.unit (unitId 1 p)).offlinePending

/-- A running launch is a backfill launch in the current window: not every plate of its set is assigned to its partition
(R346, R347). -/
def State.backfilling (s : State) (l : Launch) : Bool :=
  match s.job l.job with | some j => !s.assignedAll j.part l.plates | none => false

/-- A launch whose wait is met takes the plates assigned to its partition back from the backfill launches that hold them
(R348). -/
def State.claimPlates (s : State) (j : Job) : State :=
  if j.param.isEmpty then s
  else
    (s.launches.rows.filter (fun r => s.backfilling r.2 && r.2.preempt.isNone && r.2.job != j.id &&
      r.2.plates.any (fun p => (s.launchPlates j).contains p && s.plateOwner p == j.part && (s.plate p).run == some r.1))).foldl
      (fun s r => (s.requestPreempt r.1).bump Reg.PAR_CNT_BACKFILL_PREEMPTS) s

/-! ### Spill and restore (R330, R334, R335) -/

/-- Plate bytes that the shares of a partition and the reserves above them occupy (R344, text before R331). -/
def State.footprint (s : State) (part : Nat) : List (Nat × Nat) :=
  (s.share part 4 4, s.share part 8 4 + 40960) ::
  (List.range 64).map (fun c => (0x280000 + c * 0x6000 + s.share part 12 2, s.share part 14 2 + 2560))

/-- The common part of two ranges, if any. -/
def meet (x y : Nat × Nat) : List (Nat × Nat) :=
  let lo := max x.1 y.1
  let hi := min (x.1 + x.2) (y.1 + y.2)
  if lo < hi then [(lo, hi - lo)] else []

/-- What is left of a range outside another. -/
def without (x y : Nat × Nat) : List (Nat × Nat) :=
  if (meet x y).isEmpty then [x]
  else [(x.1, y.1 - x.1), (y.1 + y.2, x.1 + x.2 - (y.1 + y.2))].filter (fun r => decide (0 < r.2))

/-- The address of the slot of a plate in a context's save area (R334). -/
def State.saveSlot (s : State) (ctx p : Nat) : Nat :=
  (match s.ctxs.find ctx with | some c => c.save | none => 0) + s.logical p * 4456448

/-- A launch that is running or saved ends with a status; its detail names a plate and 0x3F (R327, R335, R338). -/
def State.endLaunch (s : State) (id p status : Nat) : State :=
  match s.job id with
  | none => s
  | some j => (s.stopLaunch id).finishQuiet j status 0 (unitId 1 p + 0x3F * 2 ^ 32)

/-- Ranges of plate `p` written to the save area one after the other; false when a translation fault met there has led to
containment (R330, R334). -/
def State.spillRanges (ctx p : Nat) : List (Nat × Nat) → State → State × Bool
  | [], s => (s, true)
  | (o, n) :: r, s =>
    match s.vwrite p ctx (s.saveSlot ctx p + o) (s.plateRead p o n) with
    | (s, _, none) => State.spillRanges ctx p r s
    | (s, _, some _) => (s.contain 0x01 (unitId 1 p), false)

/-- One saved launch makes room on plate `p` for a launch of partition `part` (R334, R335). -/
def State.spillOne (s : State) (p part id : Nat) (x : SavedPlate) : State × Bool :=
  match s.job id, s.launches.find id with
  | some j, some l =>
    let both := (s.footprint j.part).flatMap (fun a => (s.footprint part).flatMap (meet a))
    let new := x.spill.foldl (fun (rs : List (Nat × Nat)) y => rs.flatMap (fun r => without r y)) both
    if new.isEmpty then (s, true)
    else if (match s.ctxs.find j.context with | some c => c.saveLen | none => 0) = 0 then
      ((s.endLaunch id p stAborted).bump Reg.MEM_CNT_ABORTS, true)
    else match State.spillRanges j.context p new s with
      | (s, false) => (s, false)
      | (s, true) =>
        let l := { l with saved := l.saved.set p { x with spill := x.spill ++ new } }
        (({ s with launches := s.launches.set id l } : State).bump Reg.MEM_CNT_SPILLS, true)
  | _, _ => (s, true)

/-- Every saved launch but `keep` makes room on a plate. -/
def State.spillPlate (s : State) (p part keep : Nat) : State × Bool :=
  (s.savedOn p).foldl (fun (a : State × Bool) r => if a.2 && r.1 != keep then a.1.spillOne p part r.1 r.2 else a) (s, true)

/-- Every plate of a set makes room (R334). -/
def State.makeRoom (s : State) (ps : List Nat) (part keep : Nat) : State × Bool :=
  ps.foldl (fun (a : State × Bool) p => if a.2 then a.1.spillPlate p part keep else a) (s, true)

/-- Spilled ranges are restored from the save area (R330, R334). -/
def State.restoreRanges (ctx p : Nat) : List (Nat × Nat) → State → State × Bool
  | [], s => (s, true)
  | (o, n) :: r, s =>
    match s.vread p ctx (s.saveSlot ctx p + o) n with
    | (s, l, none) => State.restoreRanges ctx p r (s.plateStore p o l)
    | (s, _, some _) => (s.contain 0x01 (unitId 1 p), false)

/-! ### Start (R192, R193) -/

/-- The registers a started core begins with (R193); vtype begins with vill set and every other register at zero
(log entry 35). -/
def coreStart (pc len rank plates core cores lm : Nat) : CoreSt :=
  { CoreSt.reset with
    x := ⟨[(2, 0x40000000 + core * 2 ^ 24 + lm), (11, len), (12, rank), (13, plates), (14, core), (15, cores)]⟩
    pc := pc
    csr := ⟨[(0xC21, 2 ^ 63)]⟩
    running := true }

/-- The shares of a partition are in force on a plate (R185, R344). -/
def State.setShares (s : State) (p part : Nat) : State :=
  (((s.wr Reg.PLT_SHARE_ABUF_BASE (s.share part 4 4) p).wr Reg.PLT_SHARE_ABUF_LIMIT (s.share part 8 4) p).wr
    Reg.PLT_SHARE_LM_BASE (s.share part 12 2) p).wr Reg.PLT_SHARE_LM_LIMIT (s.share part 14 2) p

/-- A plate runs a launch from now on. -/
def State.takePlate (s : State) (p : Nat) (j : Job) : State :=
  let s := (s.setShares p j.part).setPlate p { s.plate p with run := some j.id }
  ((s.wr Reg.PLT_STAT_STATE 2 p).wr Reg.PLT_STAT_CONTEXT j.context p).showPlate p

/-- A launch starts on one plate of its set, `rank` in the set: the parameter block and the data section are copied, and its
cores begin (R192, R193). -/
def State.startPlate (s : State) (j : Job) (plates rank p : Nat) : State :=
  let s := ((s.chanClear p).chanClear (0x40 + p)).takePlate p j
  let s := s.plateStore p (s.abufOfs p 0) j.block
  let n := j.arg 56 1
  let s := (List.range n).foldl (fun s c =>
    let s := s.plateStore p (s.lmOfs p c 0) j.data
    let k := coreStart (j.arg 32 8 + imgEntry j.image) (j.arg 48 4) rank plates c n (s.lmLimit p)
    (s.setCore p c k).showCore p c) s
  s.showCores p

/-- A launch starts on all plates of its set together. -/
def State.startLaunch (s : State) (j : Job) (ps : List Nat) : State :=
  let back := !s.assignedAll j.part ps
  let s := s.beginJob j .running
  let l : Launch := ⟨j.id, ps, j.arg 56 1, 0, none, none, .empty⟩
  let s := { s with launches := s.launches.set j.id l }
  let s := ps.zipIdx.foldl (fun s e => s.startPlate j ps.length e.2 e.1) s
  if back then s.bump Reg.PAR_CNT_BACKFILL_STARTS else s

/-- A launch whose wait is met starts once every plate of its set is free in a window that grants them (R192); a launch that
does nothing completes; one whose plate has gone offline completes UNIT_OFFLINE (R20). -/
def execLaunchStart (job : Nat) (s : State) : Res :=
  match s.startedJob job 0x10 with
  | none => .next s
  | some j =>
    if j.param.isEmpty then .next (s.finishOk (j))
    else
      let ps := s.launchPlates j
      if ps.any (fun p => !s.plateUsable p) then .next (s.finishQuiet j stUnitOffline 0 0)
      else if s.mayRun j && s.launchFirst j && ps.all (fun p => s.plateFree p && !s.sliced (unitId 1 p)) then
        match s.makeRoom ps j.part j.id with
        | (s, true) => .next (s.startLaunch j ps)
        | (s, false) => .next s
      else .next s

/-! ### Completion (R194, R196, R456) -/

/-- The cores of a launch in ascending (plate, core) order. -/
def State.launchCores (s : State) (l : Launch) : List CoreSt :=
  l.plates.flatMap (fun p => (List.range l.cores).map (fun c => s.core p c))

/-- Every started core has exited, and every burin command and DMA transfer has finished (R194), and every tile sampled has
been compared (R456). -/
def State.launchOver (s : State) (l : Launch) : Bool :=
  (s.launchCores l).all (·.exited) &&
  l.plates.all (fun p => (s.plate p).run == some l.job && (s.plate p).arr.queue.isEmpty && (s.plate p).dma.isEmpty &&
    !(List.range 64).any (fun c => bit (s.core p c).irq 16)) &&
  s.plates.rows.all (fun r => r.2.slots.all (fun x => x.job != l.job))

/-- The detail of a launch that completes OK (Table PLT-10). -/
def State.launchDetail (s : State) (j : Job) (l : Launch) : Nat :=
  satU 16 ((s.launchCores l).filter (fun k => k.exitVal != 0)).length + satU 16 l.tilesRedone * 2 ^ 16 +
  satU 32 (s.jobTicks j / 250) * 2 ^ 32

/-- A launch completes (R194, R196, R199, R455). -/
def execLaunchComplete (job : Nat) (s : State) : Res :=
  match s.job job, s.launches.find job with
  | some j, some l =>
    if j.phase = .running ∧ s.launchOver l then
      match l.dataErr with
      | some (tile, unit, cause) => .next ((s.stopLaunch job).finish j stDataErr tile (unit + cause * 2 ^ 32))
      | none =>
        let result := (((s.launchCores l).find? (fun k => k.exitVal != 0)).map (·.exitVal)).getD 0 % 2 ^ 32
        let detail := s.launchDetail j l
        .next ((s.stopLaunch job).finish j stOk result detail)
    else .next s
  | _, _ => .next s

/-! ### Pre-emption and resume (R331 to R339) -/

/-- A core as it is saved: held in xn.burin, xn.dmaq or xn.wait it leaves the instruction without effect, pc stays on it with
the deadline of an xn.wait, and the trap loses its reservation (R209, R214, R219, R332). -/
def savedCore (k : CoreSt) : CoreSt := { k with resv := none, hold := none }

/-- A channel's record as Table MEM-6 lays it out, in the state named. -/
def State.chanBytes (s : State) (c st : Nat) : List Byte :=
  let r := s.chanRec c
  let n := fun i => r.getD i 0
  le 1 st ++ le 1 (n 0) ++ le 1 (n 1) ++ le 1 (n 2 + 2 * n 3) ++ le 4 (n 4) ++ le 8 (n 5) ++ le 8 (n 6) ++ le 8 (n 7) ++ le 8 (n 8) ++
    zeros 24

/-- The array's save record (R202): its state, whose layout the spec does not give (log entry 36), the commands that wait, both
weight register sets, the curve slots, and after a forced save the accumulators. -/
def ArrSt.record (x : ArrSt) (forced : Bool) (free : Nat) : List Byte :=
  let queue := (x.queue.drop x.replay.length).flatMap (fun q => padTo 32 q.bytes)
  le 512 free ++ padTo 1024 queue ++ padTo 4352 x.active ++ padTo 4352 (x.shadow.getD []) ++ x.curves.flatMap (padTo 2064) ++
    (if forced then (List.range 4096).flatMap (fun i => le 4 (x.acc.get 0 i)) else [])

/-- The bytes of a core's save slot, in the order in which R332 names them; the rest of the 2,560 is not laid out. -/
def CoreSt.record (k : CoreSt) (free : Nat) : List Byte :=
  let l := (List.range 31).flatMap (fun i => le 8 (k.xr (i + 1))) ++ (List.range 32).flatMap (fun i => le 4 (k.fr i)) ++
    (List.range 32).flatMap k.vr
  l ++ le (2560 - l.length) free

/-- A plate's state is saved, and its reserves hold the records (R332). -/
def State.savePlate (s : State) (p : Nat) (forced : Bool) : State × SavedPlate :=
  let x := s.plate p
  let cores := (s.cores.rows.filter (fun r => decide (r.1 / 128 = p))).map (fun r => (r.1 % 128, savedCore r.2))
  let saved : SavedPlate :=
    ⟨x.arr, x.dma, x.dmaDone, cores, forced, [], s.chanRec p, s.chanRec (0x40 + p), x.recording, x.fetched⟩
  let reserve := x.arr.record forced (Config.free s.free) ++ s.chanBytes p chSaved ++ padTo 2048 (x.dma.flatMap (fun q => padTo 32 q.bytes))
  let s := (s.plateStore p (s.abufOfs p (s.abufLimit p)) reserve).usedFree
  let s := cores.foldl (fun s r => (s.plateStore p (s.lmOfs p r.1 (s.lmLimit p)) (r.2.record (Config.free s.free))).usedFree) s
  (s, saved)

/-- The DMA channel of a plate stands where a pre-emption lets it stop: on a fault, between descriptors, or at a multiple of
4,096 bytes (R331). -/
def State.dmaStopped (s : State) (p : Nat) : Bool := s.chan p == chFaulted || s.rd Reg.MEM_CH_BYTES_DONE p % 4096 == 0

/-- A requested pre-emption takes effect on a plate once its DMA channel has stopped and its array stands at a tile boundary
reached within PLT_PRE.TB_NS, or that time is over and the array makes a forced save: cores, array and channel records are
saved, and the plate is free (R201, R202, R331 to R333). A boundary that the array reached with the command executing when the time
ended is `late`: the save is a forced one. -/
def execPreemptRequest (plate : Fin 34) (late : Bool) (s : State) : Res :=
  let p := plate.val
  match s.runningOn p with
  | none => .next s
  | some (j, l) =>
    let tb := s.flag Reg.PLT_ARR_STAT_AT_TB p && !(late && s.tbOver p l)
    if s.rd Reg.PLT_STAT_STATE p ≠ 3 ∨ !s.dmaStopped p ∨ !(tb || s.tbOver p l) then .next s
    else
      let (s, x) := s.savePlate p (!tb)
      let l := { l with saved := l.saved.set p x }
      let all := l.plates.all (fun q => (l.saved.find q).isSome)
      let s := { s with launches := s.launches.set j.id { l with preempt := if all then none else l.preempt } }
      let s := (s.clearPlate p).showIdle p
      let s := (s.bump Reg.MEM_CNT_PREEMPTS).bump (if tb then Reg.PLT_CNT_TB_STOPS else Reg.PLT_CNT_FORCED_SAVES) p
      if all then
        .next ((s.setJob { j with phase := .saved, runTicks := s.jobTicks j }).showCtx j.context)
      else .next s

/-- Memory that an access of kind NOT_RELEASED or CHANNEL_OFFLINE needs is released and online (R328). -/
def State.memReady (s : State) (ctx va : Nat) : Bool :=
  match s.walkCtx ctx va with
  | .error k => k != fkNotReleased && k != fkOffline
  | .ok (e, size) => let pa := pteAddr e + va % size; s.released pa && s.chanOnline pa

/-- The state and record that a channel resumes with (R336). -/
def State.resumeRec (s : State) (r : List Nat) : Nat × List Nat :=
  let kind := r.getD 1 0
  let clear := r.set 1 0 |>.set 2 0
  if kind = 0 ∨ r.getD 2 0 = 1 then (chIdle, clear)
  else if (kind = fkNotReleased ∨ kind = fkOffline) ∧ s.memReady (r.getD 0 0) (r.getD 6 0) then (chIdle, clear)
  else (chFaulted, r)

/-- A saved plate is restored (R336). -/
def State.restorePlate (s : State) (p : Nat) (j : Job) (x : SavedPlate) : State × Bool :=
  match State.restoreRanges j.context p x.spill s with
  | (s, false) => (s, false)
  | (s, true) =>
    let s := s.takePlate p j
    let s := s.setPlate p { s.plate p with arr := x.arr, dma := x.dma, dmaDone := x.dmaDone, recording := x.recording, fetched := x.fetched }
    let s := x.cores.foldl (fun s r => (s.setCore p r.1 r.2).showCore p r.1) s
    let d := s.resumeRec x.dmaRec
    let f := s.resumeRec x.fetchRec
    ((((s.setChanRec p d.1 d.2).setChanRec (0x40 + p) f.1 f.2).showCores p).showPlate p, true)

/-- Every plate of a saved launch is restored, in order, while none fails (R336, R337). -/
def State.restoreAll (s : State) (j : Job) (l : Launch) : State × Bool :=
  l.plates.foldl (fun (a : State × Bool) p =>
    if a.2 then (match l.saved.find p with | some x => a.1.restorePlate p j x | none => a) else a) (s, true)

/-- A saved launch resumes on its whole set once the window allows it again (R336, R346, R347, R349). -/
def execLaunchResume (job : Nat) (s : State) : Res :=
  match s.job job, s.launches.find job with
  | some j, some l =>
    let free := l.plates.all (fun p => s.plateUsable p && (s.rd Reg.PLT_STAT_STATE p == 1 || s.rd Reg.PLT_STAT_STATE p == 4))
    if j.phase = .saved ∧ s.mayRun j ∧ s.launchFirst j ∧ free then
      match s.makeRoom l.plates j.part j.id with
      | (s, false) => .next s
      | (s, true) =>
        let back := !s.assignedAll j.part l.plates
        let (s, ok) := s.restoreAll j l
        if ok then
          let s := { s with launches := s.launches.set job { l with saved := .empty, preempt := none } }
          let s := (s.setJob { j with phase := .running, startTick := s.ticks }).showCtx j.context
          .next (if back then s.bump Reg.PAR_CNT_BACKFILL_STARTS else s)
        else .next s
    else .next s
  | _, _ => .next s

end Sys2Proof.Machine
end

