-- ==== Sys2Proof/Machine/Memory.lean ====
section
/-! DEFINITION. The memory descriptor, resumption of DMA channels, refresh and DDR4 channels (R303, R305, R307, R314 to R328,
Tables MEM-4 to MEM-7). -/

namespace Sys2Proof.Machine

/-! ### Acceptance (R314, R315, R320, R399) -/

/-- A channel of Table MEM-5. -/
def chanBuilt (c : Nat) : Bool :=
  decide (c ≤ 0x21) || decide (0x28 ≤ c ∧ c ≤ 0x34) || decide (0x40 ≤ c ∧ c ≤ 0x61)

/-- The save area's pages in 64 KiB steps: what refuses the descriptor (R315, R329). -/
def State.saveWalk (s : State) (root : Nat) : Nat → Nat → Option Refuse
  | 0, _ => none
  | n + 1, va =>
    match s.walk root va with
    | .error k => some ⟨acceptStatus k, va⟩
    | .ok (e, _) => if bit e 2 && bit e 4 then s.saveWalk root n (va / 65536 * 65536 + 65536) else some ⟨stBadField, 48⟩

/-- The checks of CTX_OPEN at acceptance, in order (R315). -/
def State.openError (s : State) (j : Job) : Option Refuse :=
  let root := j.arg 40 8
  let len := j.arg 36 4
  firstOf [
    refuseIf (root % 131072 != 0 || !s.holdsMem root || inBoot root || inMirror root) (badField 40),
    refuseIf (len != 0 && decide (len < s.platesOn.length * 4456448)) (badLength 36),
    s.saveWalk root ((j.arg 48 8 % 65536 + len + 65535) / 65536) (j.arg 48 8)]

/-- Two ranges overlap: neither is empty. -/
def rangesMeet (a n b m : Nat) : Bool := decide (a < b + m ∧ b < a + n ∧ 0 < n ∧ 0 < m)

/-- The checks of a memory descriptor at acceptance. -/
def State.memAccept (s : State) (j : Job) : Except Refuse (List Byte) :=
  let op := j.arg 32 1
  let zero := fun (o n : Nat) => refuseIf (!zeroAt j.desc o n) (badField o)
  let r := match op with
    | 1 => firstOf [zero 33 1, s.openError j]
    | 2 => firstOf [zero 33 1, zero 34 2, zero 36 4, zero 40 8, zero 48 8]
    | 3 =>
      let all := bit (j.arg 34 2) 0
      firstOf [zero 33 1, refuseIf (decide (1 < j.arg 34 2)) (badField 34), zero 36 4,
        refuseIf (if all then j.arg 40 8 != 0 else j.arg 40 8 % 65536 != 0) (badField 40),
        refuseIf (if all then j.arg 48 8 != 0 else j.arg 48 8 % 65536 != 0) (badField 48)]
    | 4 => firstOf [refuseIf (!chanBuilt (j.arg 33 1)) (badField 33), zero 34 2, zero 36 4, zero 40 8, zero 48 8]
    | 5 => firstOf [refuseIf (!chanBuilt (j.arg 33 1)) (badField 33), zero 34 2, zero 36 4, zero 40 8, zero 48 8]
    | 6 => firstOf [zero 33 1, zero 34 2, refuseIf (rangesMeet (j.arg 40 8) (j.arg 36 4) (j.arg 48 8) (j.arg 36 4)) (badField 40)]
    | _ => badField 32
  match r with
  | some e => .error e
  | none => .ok []

/-! ### Contexts (R315 to R318) -/

/-- CTX_OPEN opens a FREE context (R315). -/
def execCtxOpen (job : Nat) (s : State) : Res :=
  match s.startedOp job 1 1 with
  | none => .next s
  | some j =>
    let c := j.context
    .next (s.runOr j (refuseIf (s.ctxs.find c).isSome (wrongState 1 1)) (fun s =>
      let s := { s with ctxs := s.ctxs.set c ⟨j.arg 40 8, j.arg 48 8, j.arg 36 4, j.arg 34 2⟩ }
      (s.wr Reg.MEM_CTX_OPEN 1 c).finishOk j))

/-- A cache, burnisher problem or saved launch of a context (R317). -/
def State.ctxHeld (s : State) (c : Nat) : Bool :=
  s.caches.rows.any (fun r => r.2.ctx == c && !r.2.block.isEmpty) || s.brn.probs.rows.any (fun r => r.2.context == c) ||
  s.jobs.any (fun j => j.context == c && j.phase == .saved)

/-- CTX_CLOSE frees a context that nothing uses (R317). -/
def execCtxClose (job : Nat) (s : State) : Res :=
  match s.startedOp job 1 2 with
  | none => .next s
  | some j =>
    let c := j.context
    let busy := s.jobs.any (fun k => k.context == c && k.id != job) || s.ctxHeld c
    .next (s.runOr j (refuseIf busy (wrongState 1 1)) (fun s =>
      let s := s.dropWalks (fun w => w.context == c)
      let s := { s with ctxs := s.ctxs.erase c }
      (s.wr Reg.MEM_CTX_OPEN 0 c).finishOk j))

/-- The ranges of a context that INVALIDATE may not cover (R318). -/
def State.pinnedRanges (s : State) (c : Nat) : List (Nat × Nat) :=
  (match s.ctxs.find c with | some x => [(x.save, x.saveLen)] | none => []) ++
  (s.caches.rows.filter (fun r => r.2.ctx == c && !r.2.block.isEmpty)).flatMap (fun r =>
    let k := r.2
    [(k.pool, k.slots * k.slotBytes), (k.tables, k.b 40 8), (k.scales, 2 * k.layers * k.heads)] ++
    (if k.stageDdr then [(k.stage 0, k.stageLen 0), (k.stage 1, k.stageLen 1)] else []))

/-- INVALIDATE drops the cached translations of its range (R312, R318). -/
def execInvalidate (job : Nat) (s : State) : Res :=
  match s.startedOp job 1 3 with
  | none => .next s
  | some j =>
    let c := j.context
    let all := bit (j.arg 34 2) 0
    let va := j.arg 40 8
    let n := j.arg 48 8
    if !all ∧ n = 0 then .next (s.finishOk j)
    else
      let held := !all && (s.pinnedRanges c).any (fun r => rangesMeet r.1 r.2 va n)
      .next (s.runOr j (refuseIf held (wrongState 1 1)) (fun s =>
        let s := s.dropWalks (fun w => w.context == c && (all || rangesMeet w.va w.size va n))
        (s.bump Reg.MEM_CNT_INVALIDATES).finishOk j))

/-! ### RESUME and ABORT (R324 to R327) -/

/-- The plate of a plate's DMA channel or fetch path. -/
def chanPlate (c : Nat) : Option Nat := if c ≤ 0x21 then some c else if 0x40 ≤ c ∧ c ≤ 0x61 then some (c - 0x40) else none

/-- A channel with a fault that RESUME retries (R324). -/
def resumable (kind : Nat) : Bool := [fkNotMapped, fkWriteProtect, fkBadEntry, fkNoExec].contains kind

/-- The saved launch of a context on a plate, the latest first, and its record of a channel. -/
def State.savedOf (s : State) (c ctx : Nat) : Option (Nat × SavedPlate × List Nat) :=
  match chanPlate c with
  | none => none
  | some p =>
    (((s.savedOn p).reverse.find? (fun r => match s.job r.1 with | some j => j.context == ctx | none => false))).map
      (fun r => (r.1, r.2, if c < 0x40 then r.2.dmaRec else r.2.fetchRec))

/-- A channel that FAULTED may be acted on from a context: its transfer is of that context, or physical (R326, R409). -/
def State.chanMine (s : State) (c ctx : Nat) : Bool := s.flag Reg.MEM_CH_PHYSICAL c || s.rd Reg.MEM_CH_CONTEXT c == ctx

/-- A channel that stopped goes on: it translates its faulting address again (R324, R328). -/
def State.chanResume (s : State) (c : Nat) : State :=
  let s := (s.wr Reg.MEM_CH_STATE chRunning c).wr Reg.MEM_CH_KIND 0 c
  if c = bulkChan then s.bulkGo ⟨0, 0⟩ else s

/-- The state of a channel that a refusal shows: of the one saved in the context, or as MEM_CH shows it (R326). -/
def State.chanDetail (s : State) (c ctx : Nat) : Nat := if (s.savedOf c ctx).isSome then chSaved else s.chanState c

/-- The record of a saved launch's channel replaced; MEM_CH shows it when that launch is the one whose record it holds. -/
def State.setSavedRec (s : State) (c id : Nat) (x : SavedPlate) (r : List Nat) : State :=
  let p := (chanPlate c).getD 0
  let x := if c < 0x40 then { x with dmaRec := r } else { x with fetchRec := r }
  let s := match s.launches.find id with
    | some l => { s with launches := s.launches.set id { l with saved := l.saved.set p x } }
    | none => s
  if s.chan c = chSaved ∧ (s.savedOn p).getLast?.map (·.1) = some id then s.setChanRec c chSaved r else s

/-- RESUME, of a channel that is FAULTED or of one saved with a launch, whatever its plate does meanwhile (R324 to R326). -/
def execResume (job : Nat) (s : State) : Res :=
  match s.startedOp job 1 4 with
  | none => .next s
  | some j =>
    let c := j.arg 33 1
    let kind := s.rd Reg.MEM_CH_KIND c
    if s.chan c = chFaulted ∧ s.chanMine c j.context ∧ resumable kind then
      .next (((s.bump Reg.MEM_CNT_RESUMES).chanResume c).finishOk j)
    else match s.savedOf c j.context with
      | some (id, x, r) =>
        if resumable (r.getD 1 0) then .next (((s.setSavedRec c id x (r.set 2 1)).bump Reg.MEM_CNT_RESUMES).finishOk j)
        else .next (s.refuse j ⟨stWrongState, 2 * 256 + chSaved⟩)
      | none => .next (s.refuse j ⟨stWrongState, 2 * 256 + s.chanDetail c j.context⟩)

/-- The job that owns a channel's transfer ends with a status (R327, R328): a launch on its plate, a bulk transfer, or the job of
another channel. -/
def State.endOwner (s : State) (c status : Nat) : State :=
  match chanPlate c with
  | some p => match (s.plate p).run with
    | some id => s.endLaunch id p status
    | none => s
  | none =>
    if c = bulkChan then s.endBulk status
    else match s.chanJob.find c with
      | none => s.chanClear c
      | some id => match s.job id with
        | none => s.chanClear c
        | some j => (s.stopJob j).finishQuiet j status 0 0

/-- ABORT ends the job that owns a stopped channel, or the launch with which a channel is saved (R327, R338). -/
def execAbort (job : Nat) (s : State) : Res :=
  match s.startedOp job 1 5 with
  | none => .next s
  | some j =>
    let c := j.arg 33 1
    if s.chan c = chFaulted ∧ s.chanMine c j.context then
      .next (((s.bump Reg.MEM_CNT_ABORTS).endOwner c stAborted).finishOk j)
    else match s.savedOf c j.context with
      | some (id, _, _) => .next (((s.bump Reg.MEM_CNT_ABORTS).endLaunch id ((chanPlate c).getD 0) stAborted).finishOk j)
      | none => .next (s.refuse j ⟨stWrongState, 2 * 256 + s.chanDetail c j.context⟩)

/-! ### Self-resumption and time-outs (R328, R338) -/

/-- A channel stopped for memory not released or offline: the memory is there now (R328). -/
def State.nowReady (s : State) (c : Nat) : Bool :=
  if s.flag Reg.MEM_CH_PHYSICAL c then
    let pa := s.rd Reg.MEM_CH_FAULT_VA c
    s.released pa && s.chanOnline pa
  else s.memReady (s.rd Reg.MEM_CH_CONTEXT c) (s.rd Reg.MEM_CH_FAULT_VA c)

/-- A channel resumes by itself after its memory is released or its DDR4 channel is back (R328). -/
def execChannelSelfResume (chan : Fin 98) (s : State) : Res :=
  let c := chan.val
  let kind := s.rd Reg.MEM_CH_KIND c
  if s.chan c = chFaulted ∧ (kind = fkNotReleased ∨ kind = fkOffline) ∧ s.nowReady c then
    .next ((s.bump Reg.MEM_CNT_SELF_RESUMES).chanResume c)
  else .next s

/-- nr_timeout of a context has passed since a fault's time. -/
def State.nrOver (s : State) (ctx faultNs : Nat) : Bool :=
  match s.ctxs.find ctx with
  | some x => x.nrTimeout != 0 && decide (faultNs + x.nrTimeout * 10000000 ≤ s.dt64)
  | none => false

/-- A record of a fault of kind 4 or 7 whose time-out has passed while its memory is still not there (R328). -/
def State.recOver (s : State) (r : List Nat) : Bool :=
  (r.getD 1 0 == fkNotReleased || r.getD 1 0 == fkOffline) && s.nrOver (r.getD 0 0) (r.getD 8 0) &&
  !s.memReady (r.getD 0 0) (r.getD 6 0)

/-- nr_timeout passes: the owning job ends NOT_READY, whether its channel is FAULTED or SAVED (R328, R338). -/
def execNrTimeout (chan : Fin 98) (s : State) : Res :=
  let c := chan.val
  if s.chan c = chFaulted ∧ !s.flag Reg.MEM_CH_PHYSICAL c ∧ s.recOver (s.chanRec c) then
    .next ((s.bump Reg.MEM_CNT_NR_TIMEOUTS).endOwner c stNotReady)
  else match chanPlate c with
    | none => .next s
    | some p =>
      match (s.savedOn p).find? (fun r => s.recOver (if c < 0x40 then r.2.dmaRec else r.2.fetchRec)) with
      | some (id, _) => .next ((s.bump Reg.MEM_CNT_NR_TIMEOUTS).endLaunch id p stNotReady)
      | none => .next s

/-! ### COPY (R320, R321) -/

/-- A COPY job that has started and waits for an engine. -/
def State.copyWaits (s : State) (j : Job) : Bool :=
  j.opcode == 1 && j.arg 32 1 == 6 && j.phase == .started && !s.chanJob.rows.any (fun r => r.2 == j.id)

/-- One COPY comes before another: higher priority, then earlier acceptance (R321). -/
def copyBefore (j k : Job) : Bool := decide (j.priority < k.priority) || (j.priority == k.priority && decide (j.id < k.id))

/-- The lowest free commons engine on an online half. -/
def State.copyFree (s : State) : Option Nat :=
  ((List.range 8).map (0x28 + ·)).find? (fun c =>
    (s.chanJob.find c).isNone && s.chan c == chIdle && s.unitUp (unitId 5 ((c - 0x28) / 4)) &&
      !s.sliced (unitId 5 ((c - 0x28) / 4)) && !s.gated (islCm ((c - 0x28) / 4)))

/-- The COPY jobs on engines that are not held at a fault, with their engines. -/
def State.copying (s : State) : List (Nat × Job) :=
  ((List.range 8).map (0x28 + ·)).filterMap (fun c =>
    if s.chan c = chFaulted then none
    else ((s.chanJob.find c).bind s.job).bind (fun j => if j.opcode = 1 ∧ j.arg 32 1 = 6 then some (c, j) else none))

/-- The engine that leaves its COPY for one of higher priority: the one whose COPY comes last (R321; log entry 115). -/
def State.copyYields (s : State) (j : Job) : Option Nat :=
  let last := s.copying.foldl (fun (b : Option (Nat × Job)) x => match b with
    | none => some x
    | some y => if copyBefore y.2 x.2 then some x else b) none
  match last with
  | some (c, k) => if j.priority < k.priority ∧ s.copyFree.isNone then some c else none
  | none => none

/-- An engine leaves its COPY at a 4 KiB boundary of bytes_done; the COPY waits with what it has moved. -/
def State.copyLeave (s : State) (c : Nat) : State :=
  match s.chanJob.find c with
  | none => s
  | some id =>
    ({ s with copyDone := s.copyDone.set id (s.rd Reg.MEM_CH_BYTES_DONE c), chanJob := s.chanJob.erase c } : State).chanClear c

/-- A COPY of higher priority waits for the engine of this one (R321). -/
def State.copyWanted (s : State) (c : Nat) : Bool := s.jobs.any (fun k => s.copyWaits k && s.copyYields k == some c)

/-- The engine that a COPY runs on: the one it has; or, for the first job in order of priority and acceptance, a free one, or
one that leaves its own COPY at a 4 KiB boundary (R321). -/
def State.copyChan (s : State) (j : Job) : Option Nat :=
  match s.chanJob.rows.find? (fun r => r.2 == j.id) with
  | some r => some r.1
  | none =>
    if s.jobs.any (fun k => s.copyWaits k && copyBefore k j) then none
    else s.copyFree.or ((s.copyYields j).bind (fun c => if s.rd Reg.MEM_CH_BYTES_DONE c % 4096 = 0 then some c else none))

/-- Pieces of a COPY from byte `k` on, up to 4 KiB boundaries of source, destination and bytes_done, until a boundary of
bytes_done at or after `lim`; the fault that stops it. -/
def State.copyLoop (c ctx job src dst n lim : Nat) (det : ReadFault) : Nat → State → Nat → State × Nat × Option (Nat × Nat)
  | 0, s, k => (s, k, none)
  | fuel + 1, s, k =>
    if n ≤ k then (s, n, none)
    else if lim ≤ k ∧ k % 4096 = 0 then (s, k, none)
    else
      let m := min (min (chunk (src + k) (n - k)) (chunk (dst + k) (n - k))) (chunk k (n - k))
      match s.translateOn c ctx (src + k) .read with
      | (s, .error f) => (s, k, some (f, src + k))
      | (s, .ok pa) =>
        let here := decide (k ≤ det.ofs ∧ det.ofs < k + m)
        let m := if here then min m (64 - pa % 64) else s.readSpan pa (src + k) m false
        match s.translateOn c ctx (dst + k) .write with
        | (s, .error f) => (s, k, some (f, dst + k))
        | (s, .ok out) =>
          let hit := decide (k ≤ det.ofs ∧ det.ofs < k + m)
          let (s, l, bad) := s.ddrGet c (some job) ctx (src + k) pa m (if hit then det.fails else 0)
          let s := if bad then s.storeBad (gaddr spDdr out) l else s.store (gaddr spDdr out) l
          State.copyLoop c ctx job src dst n lim det fuel s (k + m)

/-- COPY moves its bytes on a commons engine, as far as `go` says, or stops at a fault; at a 4 KiB boundary of bytes_done the
engine leaves it for one of higher priority (R320 to R322; log entry 113). -/
def execMemCopy (job : Nat) (go : Stretch) (s : State) : Res :=
  match s.startedOp job 1 6 with
  | none => .next s
  | some j =>
    let n := j.arg 36 4
    if n = 0 then .next (s.finishOk j)
    else match s.copyChan j with
    | none => .next s
    | some c =>
      if s.chan c = chFaulted then .next s
      else
        let mine := s.chanJob.find c == some job
        let s := if mine then s else s.copyLeave c
        let k := if mine then s.rd Reg.MEM_CH_BYTES_DONE c else s.copyDone.get 0 job
        let wanted := mine && s.copyWanted c
        if wanted && k % 4096 == 0 then .next (s.copyLeave c)
        else
          let s := ({ s with chanJob := s.chanJob.set c job, copyDone := s.copyDone.erase job } : State).chanStart c j.context 0 k
            j.tag false
          let lim := if wanted then k else go.upTo.getD n
          match State.copyLoop c j.context job (j.arg 40 8) (j.arg 48 8) n lim go.det (n / 16 + 16) s k with
          | (s, k, some (f, va)) => .next (s.chanFault c f k va)
          | (s, k, none) =>
            if k < n then .next (s.wr Reg.MEM_CH_BYTES_DONE k c)
            else .next (((s.freeChans job).wroteOut job).finishNow job stOk 0 0)

/-! ### Refresh, and DDR4 channels coming back (R303, R305) -/

/-- A device's case temperature, in 0.1 °C, is known anew: the channel's refresh interval is the shorter one while one of its devices is
above 85 °C (R305). -/
def execRefreshRateChange (chan : Fin 8) (report : CaseReport) (s : State) : Res :=
  if bit s.chanMap chan.val then
    let s := { s with boot := { s.boot with caseTemp := s.boot.caseTemp.set (8 * chan.val + report.device.val) report.temp } }
    let hot := s.boot.caseTemp.rows.any (fun r => decide (r.1 / 8 = chan.val) && decide (850 < r.2))
    .next (s.wr Reg.MEM_DDR_STAT_HOT hot.toNat chan.val)
  else .next s

/-- The bytes of the boot region and of its mirror that memory lists, on a channel: the mirror's are copied back (R303). -/
def State.copyBack (s : State) (c : Nat) : State :=
  let half := 2 ^ 35
  let here := fun (pa : Nat) => decide (pa < 2 ^ 30) && s.chanOf pa == c
  let keys := (s.mem.map (·.1)).filterMap (fun a =>
    if a < 2 ^ 30 then some a else if half ≤ a ∧ a < half + 2 ^ 30 then some (a - half) else none)
  (keys.filter here).foldl (fun s pa => s.store (gaddr spDdr pa) [s.byte (gaddr spDdr (pa + half))]) s

/-- A DDR4 channel comes back online: its boot-region granules are copied back from the mirror first (R303, R307). -/
def execDdrChannelOnline (chan : Fin 8) (s : State) : Res :=
  let u := unitId 7 chan.val
  if bit s.chanMap chan.val ∧ (s.unit u).offline ∧ !(s.unit u).bad then .next ((s.copyBack chan.val).onlineNow u)
  else .next s

end Sys2Proof.Machine
end

