-- ==== Sys2Proof/Machine/FpScalar.lean ====
section
/-! DEFINITION. IEEE 754 binary32 with the five rounding modes and exception flags, as the F extension of Table NDL-1 has it
(R205; the arithmetic of the standard is taken from the RISC-V manuals, log entry 37). -/

namespace Sys2Proof.Machine

/-- Exception flags: NV 16, DZ 8, OF 4, UF 2, NX 1. -/
def fNV : Nat := 16
def fDZ : Nat := 8
def fOF : Nat := 4
def fUF : Nat := 2
def fNX : Nat := 1

/-- The canonical NaN (Table NDL-1). -/
def qnan : Nat := 0x7FC00000

/-- m / 2^n rounded by mode: 0 nearest even, 1 toward zero, 2 down, 3 up, 4 nearest away; `neg` is the sign. -/
def roundShift (rm : Nat) (neg : Bool) (m n : Nat) : Nat :=
  let q := m >>> n
  let r := m % 2 ^ n
  match rm with
  | 0 => rneShift m n
  | 1 => q
  | 2 => if neg && r != 0 then q + 1 else q
  | 3 => if !neg && r != 0 then q + 1 else q
  | _ => if n = 0 then m else if 2 ^ (n - 1) ≤ r then q + 1 else q

/-- m * 2^e in units of 2^q rounded by mode, and whether it is inexact. -/
def roundUnits (rm : Nat) (neg : Bool) (m : Nat) (e q : Int) : Nat × Bool :=
  if q ≤ e then (m <<< (e - q).toNat, false)
  else let n := (q - e).toNat; (roundShift rm neg m n, m % 2 ^ n != 0)

/-- A value rounded to a binary format by mode, with the flags it raises; tininess is detected after rounding. -/
def FFmt.round (f : FFmt) (rm : Nat) (v : FVal) : Nat × Nat :=
  let sign := fun (neg : Bool) => neg.toNat <<< (f.eb + f.fb)
  match v with
  | .nan => (f.nanCode, 0)
  | .inf neg => (sign neg + ((2 ^ f.eb - 1) <<< f.fb), 0)
  | .fin neg m e =>
    if m = 0 then (sign neg, 0)
    else
      let qmin : Int := 1 - (f.bias : Int) - f.fb
      let q0 : Int := (Nat.log2 m : Int) + e - f.fb
      let (k, inexact) := roundUnits rm neg m e (max qmin q0)
      let code : Int := (k : Int) + (max qmin q0 - qmin) * 2 ^ f.fb
      if (f.maxCode : Int) < code then
        let toInf := match rm with | 1 => false | 2 => neg | 3 => !neg | _ => true
        (sign neg + (if toInf then (2 ^ f.eb - 1) <<< f.fb else f.maxCode), fOF + fNX)
      else
        let k0 := (roundUnits rm neg m e q0).1
        let tiny := decide (q0 < qmin) && decide (k0 < 2 ^ (f.fb + (qmin - q0).toNat))
        (sign neg + code.toNat, if inexact then (if tiny then fUF + fNX else fNX) else 0)

/-- A pattern is a signalling NaN. -/
def sNaN (b : Nat) : Bool := bits b 23 8 == 255 && bits b 0 23 != 0 && !bit b 22
def isNaN (b : Nat) : Bool := bits b 23 8 == 255 && bits b 0 23 != 0
def isInf (b : Nat) : Bool := bits b 0 31 == 0x7F800000
def isZero (b : Nat) : Bool := bits b 0 31 == 0
def signOf (b : Nat) : Bool := bit b 31

/-- The invalid flag when one of the operands is a signalling NaN. -/
def nvIf (b : Bool) : Nat := if b then fNV else 0

/-- An exact sum rounded: a zero sum of opposite signs is -0 when rounding down. -/
def roundSum (rm : Nat) (a b : FVal) : Nat × Nat :=
  match a, b, a.add b with
  | .fin x _ _, .fin y _ _, .fin _ 0 e => fp32.round rm (.fin (if x = y then x else rm == 2) 0 e)
  | _, _, r => fp32.round rm r

def fpAdd (rm a b : Nat) : Nat × Nat :=
  let r := roundSum rm (f32 a) (f32 b)
  (r.1, r.2 ||| nvIf (sNaN a || sNaN b || (isInf a && isInf b && signOf a != signOf b)))

def negBits (b : Nat) : Nat := b ^^^ 0x80000000

def fpSub (rm a b : Nat) : Nat × Nat :=
  let r := roundSum rm (f32 a) (f32 b).neg
  (r.1, r.2 ||| nvIf (sNaN a || sNaN b || (isInf a && isInf b && signOf a == signOf b)))

def fpMul (rm a b : Nat) : Nat × Nat :=
  let r := fp32.round rm ((f32 a).mul (f32 b))
  (r.1, r.2 ||| nvIf (sNaN a || sNaN b || (isInf a && isZero b) || (isZero a && isInf b)))

/-- The quotient of two finite numbers with a sticky bit, precise enough for one rounding. -/
def divDy (m n : Nat) : Nat × Int :=
  let k := 60 + Nat.log2 n
  let q := (m <<< k) / n
  (2 * q + (if (m <<< k) % n = 0 then 0 else 1), -(k : Int) - 1)

def fpDiv (rm a b : Nat) : Nat × Nat :=
  let nv := nvIf (sNaN a || sNaN b)
  match f32 a, f32 b with
  | .nan, _ => (qnan, nv)
  | _, .nan => (qnan, nv)
  | .inf x, .inf _ => if x then (qnan, fNV) else (qnan, fNV)
  | .inf x, .fin y _ _ => (fp32.round rm (.inf (x != y))).1 |> fun r => (r, 0)
  | .fin x _ _, .inf y => ((fp32.round rm (.fin (x != y) 0 0)).1, 0)
  | .fin x m e, .fin y n d =>
    if n = 0 then (if m = 0 then (qnan, fNV) else ((fp32.round rm (.inf (x != y))).1, fDZ))
    else if m = 0 then ((fp32.round rm (.fin (x != y) 0 0)).1, 0)
    else let (q, k) := divDy m n; fp32.round rm (.fin (x != y) q (k + e - d))

def fpSqrt (rm a : Nat) : Nat × Nat :=
  match f32 a with
  | .nan => (qnan, nvIf (sNaN a))
  | .inf x => if x then (qnan, fNV) else (a, 0)
  | .fin x m e =>
    if m = 0 then (a, 0)
    else if x then (qnan, fNV)
    else
      let k : Nat := 64 + (e % 2).toNat
      let v := m <<< k
      let r := isqrt v
      fp32.round rm (.fin false (2 * r + (if r * r = v then 0 else 1)) ((e - k) / 2 - 1))

/-- a * b + c with one rounding; `np` negates the product, `nc` the addend. -/
def fpFma (rm : Nat) (np nc : Bool) (a b c : Nat) : Nat × Nat :=
  let p := (f32 a).mul (f32 b)
  let p := if np then p.neg else p
  let z := if nc then (f32 c).neg else f32 c
  let r := roundSum rm p z
  let badMul := (isInf a && isZero b) || (isZero a && isInf b)
  let badAdd := match p, z with | .inf x, .inf y => x != y | _, _ => false
  (r.1, r.2 ||| nvIf (sNaN a || sNaN b || sNaN c || badMul || badAdd))

/-- Order of two patterns with -0 below +0, NaN aside. -/
def fpLtZero (a b : Nat) : Bool := (f32 a).lt (f32 b) || (isZero a && isZero b && signOf a && !signOf b)

def fpMin (a b : Nat) : Nat × Nat :=
  (if isNaN a && isNaN b then qnan else if isNaN a then b else if isNaN b then a else if fpLtZero b a then b else a,
   nvIf (sNaN a || sNaN b))
def fpMax (a b : Nat) : Nat × Nat :=
  (if isNaN a && isNaN b then qnan else if isNaN a then b else if isNaN b then a else if fpLtZero a b then b else a,
   nvIf (sNaN a || sNaN b))

/-- Comparisons: feq is quiet, flt and fle signal on any NaN. -/
def fpEq (a b : Nat) : Bool × Nat :=
  (!isNaN a && !isNaN b && !(f32 a).lt (f32 b) && !(f32 b).lt (f32 a), nvIf (sNaN a || sNaN b))
def fpLt (a b : Nat) : Bool × Nat := ((f32 a).lt (f32 b), nvIf (isNaN a || isNaN b))
def fpLe (a b : Nat) : Bool × Nat := (!isNaN a && !isNaN b && !(f32 b).lt (f32 a), nvIf (isNaN a || isNaN b))

def fpSgnj (mode a b : Nat) : Nat :=
  let sb := match mode with | 0 => signOf b | 1 => !signOf b | _ => signOf a != signOf b
  bits a 0 31 + (if sb then 2 ^ 31 else 0)

/-- FCLASS. -/
def fpClass (a : Nat) : Nat :=
  let n := signOf a
  let x := bits a 23 8
  2 ^ (if x = 255 then (if bits a 0 23 = 0 then (if n then 0 else 7) else if bit a 22 then 9 else 8)
       else if isZero a then (if n then 3 else 4)
       else if x = 0 then (if n then 2 else 5) else if n then 1 else 6)

/-- A pattern to an integer in [lo, hi], by mode. -/
def fpToInt (rm : Nat) (lo hi : Int) (a : Nat) : Int × Nat :=
  match f32 a with
  | .nan => (hi, fNV)
  | .inf x => (if x then lo else hi, fNV)
  | .fin x m e =>
    let (k, inexact) := roundUnits rm x m e 0
    let v := sgn x k
    if v < lo then (lo, fNV) else if hi < v then (hi, fNV) else (v, if inexact then fNX else 0)

def fpOfInt (rm : Nat) (i : Int) : Nat × Nat := fp32.round rm (ofInt i)

/-- BF16 to and from FP32. -/
def bf16To32 (a : Nat) : Nat × Nat :=
  (rne32 (bf16.decode a), nvIf (bits a 7 8 == 255 && bits a 0 7 != 0 && !bit a 6))
def bf16Of32 (rm a : Nat) : Nat × Nat := let r := bf16.round rm (f32 a); (r.1, r.2 ||| nvIf (sNaN a))

/-- The seven-bit reciprocal and reciprocal-square-root significands (V 1.0): the value at the middle of each interval. -/
def rec7Sig (i : Nat) : Nat := (2 ^ 17 + (257 + 2 * i)) / (2 * (257 + 2 * i)) - 128
def rsqrt7Sig (i : Nat) : Nat :=
  -- round(256 / sqrt(x)) - 128 with x = (129 + 2 (i % 64)) / 128, doubled in the first half
  let num := if i < 64 then 129 + 2 * i else 129 + 2 * (i - 64)
  let den := if i < 64 then 64 else 128
  -- 256 / sqrt(num/den) = sqrt(65536 den / num); rounded to nearest
  (isqrt (4 * 65536 * den / num) + 1) / 2 - 128

/-- Leading zeros of a 23-bit fraction. -/
def lead23 (m : Nat) : Nat := 22 - Nat.log2 m

/-- vfrec7.v (V 1.0). -/
def fpRec7 (rm a : Nat) : Nat × Nat :=
  let s := a / 2 ^ 31 * 2 ^ 31
  if isNaN a then (qnan, nvIf (sNaN a))
  else if isInf a then (s, 0)
  else if isZero a then (s + 0x7F800000, fDZ)
  else
    let x0 := bits a 23 8
    let m0 := bits a 0 23
    let z := if x0 = 0 then lead23 m0 else 0
    if x0 = 0 ∧ 1 < z then
      (if rm = 1 ∨ (rm = 2 ∧ s = 0) ∨ (rm = 3 ∧ s ≠ 0) then s + 0x7F7FFFFF else s + 0x7F800000, fOF + fNX)
    else
      let x : Int := if x0 = 0 then -(z : Int) else x0
      let m := if x0 = 0 then (m0 <<< (z + 1)) % 2 ^ 23 else m0
      let sig := rec7Sig (m / 2 ^ 16) * 2 ^ 16
      let y : Int := 2 * 127 - 1 - x
      if y = 0 then (s + sig / 2 + 2 ^ 22, 0)
      else if y < 0 then (s + sig / 4 + 2 ^ 21, 0)
      else (s + y.toNat * 2 ^ 23 + sig, 0)

/-- vfrsqrt7.v (V 1.0). -/
def fpRsqrt7 (a : Nat) : Nat × Nat :=
  let s := a / 2 ^ 31 * 2 ^ 31
  if isNaN a then (qnan, nvIf (sNaN a))
  else if isZero a then (s + 0x7F800000, fDZ)
  else if signOf a then (qnan, fNV)
  else if isInf a then (0, 0)
  else
    let x0 := bits a 23 8
    let m0 := bits a 0 23
    let z := if x0 = 0 then lead23 m0 else 0
    let x : Int := if x0 = 0 then -(z : Int) else x0
    let m := if x0 = 0 then (m0 <<< (z + 1)) % 2 ^ 23 else m0
    let i := (x % 2).toNat * 64 + m / 2 ^ 17
    (((3 * 127 - 1 - x) / 2).toNat * 2 ^ 23 + rsqrt7Sig i * 2 ^ 16, 0)

end Sys2Proof.Machine
end

