-- ==== Sys2Proof/Machine/Cose.lean ====
section
/-! DEFINITION. Reading COSE_Sign1 structures that the device verifies (R499, R567, R589, RFC 9052, RFC 8949). -/

namespace Sys2Proof.Machine

/-- A CBOR head: major type, value, and what follows; indefinite lengths are refused. -/
def cborRead : List Byte → Option (Nat × Nat × List Byte)
  | [] => none
  | b :: r =>
    let major := b.toNat / 32
    let a := b.toNat % 32
    if a < 24 then some (major, a, r)
    else if 28 ≤ a then none
    else
      let n := 2 ^ (a - 24)
      if r.length < n then none else some (major, beNat (r.take n), r.drop n)

/-- A byte string, and what follows it. -/
def cborReadBytes (l : List Byte) : Option (List Byte × List Byte) :=
  match cborRead l with
  | some (2, n, r) => if n ≤ r.length then some (r.take n, r.drop n) else none
  | _ => none

/-- What follows `n` CBOR items; `fuel` bounds the items within. -/
def cborSkip : Nat → Nat → List Byte → Option (List Byte)
  | 0, 0, l => some l
  | 0, _ + 1, _ => none
  | _ + 1, 0, l => some l
  | fuel + 1, n + 1, l =>
    match cborRead l with
    | some (2, k, r) => if k ≤ r.length then cborSkip fuel n (r.drop k) else none
    | some (3, k, r) => if k ≤ r.length then cborSkip fuel n (r.drop k) else none
    | some (4, k, r) => cborSkip fuel (n + k) r
    | some (5, k, r) => cborSkip fuel (n + 2 * k) r
    | some (6, _, r) => cborSkip fuel (n + 1) r
    | some (_, _, r) => cborSkip fuel n r
    | none => none

/-- Payload and signature of a COSE_Sign1 structure whose protected header is the map from 1 to -35, with or without tag 18 (R589), and the
bytes that follow it. -/
def coseRead (l : List Byte) : Option (List Byte × List Byte × List Byte) := do
  let l ← match cborRead l with
    | some (6, 18, r) => some r
    | some (6, _, _) => none
    | some _ => some l
    | none => none
  match cborRead l with
  | some (4, 4, r) =>
    let (head, r) ← cborReadBytes r
    if head ≠ coseProtected then none
    else match cborRead r with
      | some (5, n, r2) =>
        let r ← cborSkip (r2.length + 1) (2 * n) r2
        let (payload, r) ← cborReadBytes r
        let (sig, r) ← cborReadBytes r
        some (payload, sig, r)
      | _ => none
  | _ => none

/-- Payload and signature of a byte string that is such a structure whole. -/
def coseParts (l : List Byte) : Option (List Byte × List Byte) :=
  match coseRead l with
  | some (payload, sig, []) => some (payload, sig)
  | _ => none

/-- The signature of a COSE_Sign1 structure under a key. -/
def coseGood (key payload sig : List Byte) : Bool := sig.length == 96 && Config.verifyEs384 key (coseToSign payload) sig

end Sys2Proof.Machine
end

