-- ==== Sys2Proof/Machine/Margin.lean ====
section
/-! DEFINITION. The margin guard and its limit table (R487, R489 to R501, Tables SAF-4 to SAF-6). -/

namespace Sys2Proof.Machine

/-! ### The limit table (Tables SAF-4 to SAF-6) -/

/-- The margin-guard unit index of a path entry (Table ARC-7). -/
def pathUnit (p : Nat) : Nat := if p < 6 then p else if p < 8 then 0x10 + (p - 6) else 0x20 + (p - 8)

/-- The path entry of a unit index. -/
def pathOf (u : Nat) : Option Nat := (List.range 10).find? (fun p => pathUnit p == u)

/-- The policer of a path entry. -/
def pathPolicer (p : Nat) : Nat := if p < 6 then 6 + p else if p < 8 then p - 2 else p + 4

def ltCmds (t : List Byte) : Nat := fld t 20 1
def ltFields (t : List Byte) : Nat := fld t 21 1
/-- The `n`-byte field at offset `o` of command entry `c`. -/
def ltCmd (t : List Byte) (c o n : Nat) : Nat := fld t (416 + 144 * c + o) n
/-- The `n`-byte field at offset `o` of field entry `f`. -/
def ltField (t : List Byte) (f o n : Nat) : Nat := fld t (416 + 144 * ltCmds t + 24 * f + o) n

def fSigned (t : List Byte) (f : Nat) : Bool := bit (ltField t f 1 1) 0
def fBig (t : List Byte) (f : Nat) : Bool := bit (ltField t f 1 1) 1
def fDrop (t : List Byte) (f : Nat) : Bool := bit (ltField t f 1 1) 2
def fLines (t : List Byte) (f : Nat) : Nat := bits (ltField t f 1 1) 3 2
def fOfs (t : List Byte) (f : Nat) : Nat := ltField t f 2 2
def fWidth (t : List Byte) (f : Nat) : Nat := ltField t f 4 1
def fQ (t : List Byte) (f : Nat) : Int := sext 8 (ltField t f 5 1)
def fElem (t : List Byte) (f : Nat) : Nat := ltField t f 6 2
/-- min, max or init, with the field's signedness (R490). -/
def fLimit (t : List Byte) (f o : Nat) : Int := if fSigned t f then sext 32 (ltField t f o 4) else ltField t f o 4
/-- The field entries of a command, ascending. -/
def cmdFields (t : List Byte) (c : Nat) : List Nat := (List.range (ltFields t)).filter (fun f => ltField t f 0 1 == c)
/-- The template of a command. -/
def cmdTemplate (t : List Byte) (c : Nat) : List Byte := slice t (416 + 144 * c + 16) (ltCmd t c 2 1)

/-! ### Loading (R499 to R501, R558, R559) -/

/-- Data lengths of a CAN or CAN FD frame (Table SAF-5). -/
def canLenOk (fdf : Bool) (n : Nat) : Bool := decide (n ≤ 8) || (fdf && [12, 16, 20, 24, 32, 48, 64].contains n)

/-- A command entry keeps Table SAF-5. -/
def cmdOk (t : List Byte) (c : Nat) : Bool :=
  let path := ltCmd t c 0 1
  let fl := ltCmd t c 1 1
  let len := ltCmd t c 2 1
  let m := ltCmd t c 3 1
  let id := ltCmd t c 4 4
  zeroAt t (416 + 144 * c + 8) 8 && decide (path < 10) &&
  (if path < 6 then decide (fl < 4) && m == 0 && canLenOk (bit fl 0) len && bits id 29 2 == 0 && (bit id 31 || decide (id < 2 ^ 11))
   else fl == 0 && id == 0 && decide (60 ≤ len ∧ len ≤ 128 ∧ 12 ≤ m ∧ m ≤ len))

/-- The values a field can hold. -/
def fRange (t : List Byte) (f : Nat) : Int × Int :=
  if fSigned t f then (-(2 ^ (fWidth t f - 1)), 2 ^ (fWidth t f - 1) - 1) else (0, 2 ^ fWidth t f - 1)

/-- A field entry keeps Table SAF-6 and R499. -/
def fieldOk (t : List Byte) (f : Nat) : Bool :=
  let c := ltField t f 0 1
  let w := fWidth t f
  let lo := fLimit t f 8
  let hi := fLimit t f 12
  let ini := fLimit t f 20
  decide (c < ltCmds t) && decide (ltField t f 1 1 < 32) && decide (1 ≤ w ∧ w ≤ 32) && decide (-31 ≤ fQ t f ∧ fQ t f ≤ 31) &&
  (fElem t f == 0xFFFF || decide (fElem t f ≤ 32767)) && fLines t f != 0 &&
  decide (fOfs t f + w ≤ 8 * ltCmd t c 2 1) && (!fBig t f || (fOfs t f % 8 == 0 && w % 8 == 0)) &&
  decide (lo ≤ ini ∧ ini ≤ hi ∧ (fRange t f).1 ≤ lo ∧ hi ≤ (fRange t f).2) &&
  (List.range f).all (fun g => ltField t g 0 1 != c || decide (fOfs t f + w ≤ fOfs t g ∨ fOfs t g + fWidth t g ≤ fOfs t f))

/-- A policy entry keeps R499: entries 0 and 1 as Table SAF-3, lines non-zero but in entry 3, entries 9 to 15 zero. -/
def policyOk (t : List Byte) (n : Nat) : Bool :=
  let lines := fld t (32 + 4 * n) 1
  let mode := fld t (33 + 4 * n) 1
  let d := defaultPolicy n
  if 9 ≤ n then zeroAt t (32 + 4 * n) 4
  else if n ≤ 1 then lines == d.1 && mode == d.2.1.toNat && fld t (34 + 4 * n) 2 == d.2.2
  else decide (lines < 4) && decide (mode ≤ 1) && ((lines == 0) == (n == 3))

/-- The payload of a limit table passes the checks of R499. -/
def tableOk (serial : Nat) (t : List Byte) : Bool :=
  decide (416 ≤ t.length) && fld t 0 4 == 0x44474D41 && fld t 4 2 == 1 && zeroAt t 6 2 && fld t 8 4 == t.length &&
  (fld t 12 8 == 0 || fld t 12 8 == serial) && zeroAt t 22 10 && decide (ltCmds t ≤ 32) && decide (ltFields t ≤ 128) &&
  t.length == 416 + 144 * ltCmds t + 24 * ltFields t && (List.range 16).all (policyOk t) &&
  (List.range 16).all (fun n => fld t (96 + 8 * n + 4) 1 != 0 && zeroAt t (96 + 8 * n + 5) 3) &&
  (List.range 10).all (fun n => decide (fld t (336 + 8 * n) 1 < 16) && zeroAt t (336 + 8 * n + 1) 7) &&
  (List.range (ltCmds t)).all (cmdOk t) && (List.range (ltFields t)).all (fieldOk t)

/-- What a load ends with: LOAD's code, and the table with the structure that carried it when it is LOCKED (R499, R559, R589). -/
def State.loadTable (s : State) : Nat × List Byte × List Byte :=
  let key := s.sec.tableKey
  let n := s.rd Reg.MGD_LOAD_LENGTH
  if key.all (· == 0#8) || s.flag Reg.SEC_STAT_UNLOCKED then (3, [], [])
  else if n = 0 ∨ 16384 < n then (4, [], [])
  else match s.acceptRead (s.rd Reg.MGD_LOAD_CONTEXT) (s.rd Reg.MGD_LOAD_VA) n with
    | .error _ => (4, [], [])
    | .ok l =>
      match coseParts l with
      | none => (4, [], [])
      | some (payload, sig) =>
        if !coseGood key payload sig then (3, [], [])
        else if tableOk s.part.serial payload then (2, payload, l) else (4, [], [])

/-- MGD_CTRL.GO: the table named by MGD_LOAD is read, verified and checked; LOCKED puts it in force and clears the causes of
POWER_ON and CONTAINMENT, and a refused load changes nothing else (R499). -/
def State.mgdGo (s : State) : State :=
  let (code, t, raw) := s.loadTable
  let s := s.wr Reg.MGD_STAT_LOAD code
  if code = 2 then
    let s := { s with mgd := ⟨t, raw, .empty, .empty, .empty⟩ }
    ((s.clearCause srcPowerOn).clearCause srcContainment).fnReady 6
  else s

/-- A load of the limit table, refused while one is LOCKED and after SETUP_DONE (R390, R499, R500). -/
def execMgdGo (s : State) : Res :=
  if s.locked ∨ s.flag Reg.HTP_CTRL_SETUP_DONE ∨ s.power ≠ .up then .next s else .next s.mgdGo

/-! ### Frames (R489 to R494, R497) -/

/-- The value of a field of a frame (R490). -/
def fieldGet (t : List Byte) (f : Nat) (l : List Byte) : Int :=
  let w := fWidth t f
  let v := if fBig t f then beNat (slice l (fOfs t f / 8) (w / 8)) else bits (leNat l) (fOfs t f) w
  if fSigned t f then sext w v else v

/-- A field of a frame written (R490). -/
def fieldPut (t : List Byte) (f : Nat) (l : List Byte) (v : Int) : List Byte :=
  let w := fWidth t f
  if fBig t f then
    let o := fOfs t f / 8
    (l.take o ++ be (w / 8) (toU w v) ++ l.drop (o + w / 8)).take l.length
  else le l.length (putBits (leNat l) (fOfs t f) w (toU w v))

/-- The command entry that a frame on a path matches; the first one, where several match (R489; log entry 45). -/
def matchCmd (t : List Byte) (p ident : Nat) (l : List Byte) : Option Nat :=
  (List.range (ltCmds t)).find? (fun c => ltCmd t c 0 1 == p &&
    (if p < 6 then ltCmd t c 4 4 == ident else l.take (ltCmd t c 3 1) == (cmdTemplate t c).take (ltCmd t c 3 1)))

/-- The value last emitted for a field. -/
def State.prevOf (s : State) (f : Nat) : Int := s.mgd.prev.get (fLimit s.mgd.table f 20) f

/-- The time in µs since the previous frame of a command (R491). -/
def State.sinceLast (s : State) (c : Nat) : Nat :=
  match s.mgd.lastEmit.find c with
  | some x => (s.ticks - x) / 250
  | none => 1000

/-- The value that a field leaves the guard with: clamped into its range, and within its allowed change (R490, R491). -/
def State.clamped (s : State) (f : Nat) (us : Nat) (v : Int) : Int :=
  let t := s.mgd.table
  let v := clampI (fLimit t f 8) (fLimit t f 12) v
  let rate := ltField t f 16 4
  if rate = 0 then v
  else
    let a : Int := (rate * min us 1000000 / 1000 : Nat)
    clampI (s.prevOf f - a) (s.prevOf f + a) v

/-- A violated field: its entry, the value received and the value it leaves with. -/
structure Violation where
  field : Nat
  got : Int
  put : Int
  deriving DecidableEq, Repr

/-- The violations of a frame's fields, in ascending field order (R490). -/
def State.violations (s : State) (c : Nat) (l : List Byte) : List Violation :=
  (cmdFields s.mgd.table c).filterMap (fun f =>
    let v := fieldGet s.mgd.table f l
    let x := s.clamped f (s.sinceLast c) v
    if x = v then none else some ⟨f, v, x⟩)

/-- A violation requests MARGIN on its field's lines, unless the policer dropped the frame, counts, and raises its event
(R493, R494). -/
def State.reportViolation (s : State) (p c : Nat) (dropped request : Bool) (v : Violation) : State :=
  let s := if request then s.requestLines srcMargin (fLines s.mgd.table v.field) false else s
  let s := s.bump Reg.MGD_PATH_VIOLATIONS p
  s.raise 0x0A02 (unitId 0x13 (pathUnit p))
    (le 1 (pathUnit p) ++ le 1 c ++ le 1 v.field ++ le 1 dropped.toNat ++ le 4 (toU 32 v.got) ++ le 4 (toU 32 v.put))

/-- A frame leaves a path through its policer; the cost is one frame on CAN FD, the bytes with the check sequence elsewhere
(R502). -/
def State.sendPath (s : State) (p ident : Nat) (l : List Byte) : State × Bool :=
  match s.police (pathPolicer p) (if p < 6 then 1 else l.length + 4) with
  | (s, true) => (s.emit .egress p (if p < 6 then le 4 ident ++ l else l), true)
  | (s, false) => (s, false)

/-- Flags of a path entry (Table SAF-4). -/
def State.pathFlags (s : State) (p : Nat) : Nat := fld s.mgd.table (336 + 8 * p) 1

/-- A path lets frames pass: it is OPEN in the locked table and its unit is online (R489, R501, Table PRF-12). -/
def State.pathOpen (s : State) (p : Nat) : Bool := s.locked && bit (s.pathFlags p) 0 && s.unitUp (unitId 0x13 (pathUnit p))

/-- A path drops every command frame: SAFE_IN is asserted, or a line that closes the path (R487, R497). -/
def State.pathClosed (s : State) (p : Nat) : Bool :=
  s.flag Reg.SUP_STAT_SAFE_IN || (bit (s.pathFlags p) 2 && s.flag Reg.SUP_STAT_SAFE_A) ||
  (bit (s.pathFlags p) 3 && s.flag Reg.SUP_STAT_SAFE_B)

/-- A frame matching command `c` is checked, and dropped or emitted (R490 to R494). -/
def State.guardFrame (s : State) (p c ident : Nat) (l : List Byte) : State :=
  let t := s.mgd.table
  let vs := s.violations c l
  if vs.any (fun v => fDrop t v.field) then vs.foldl (fun s v => s.reportViolation p c true true v) s
  else
    let out := vs.foldl (fun l v => fieldPut t v.field l v.put) l
    match s.sendPath p ident out with
    | (s, true) =>
      let prev := (cmdFields t c).foldl (fun (m : Tbl Int) f => m.set f (fieldGet t f out)) s.mgd.prev
      let s := { s with mgd := { s.mgd with prev := prev, lastEmit := s.mgd.lastEmit.set c s.ticks } }
      vs.foldl (fun s v => s.reportViolation p c false true v) s
    | (s, false) => vs.foldl (fun s v => s.reportViolation p c true false v) s

/-- A frame offered on a path (R489). -/
def State.offerFrame (s : State) (p ident : Nat) (l : List Byte) : State :=
  if !s.pathOpen p then s
  else match matchCmd s.mgd.table p ident l with
    | none => if bit (s.pathFlags p) 1 then s else (s.sendPath p ident l).1
    | some c => if s.pathClosed p then s else s.guardFrame p c ident l

/-- A frame that device firmware offers on a margin-guard path (R489). -/
def execMarginFrame (path : Fin 10) (f : EgressFrame) (s : State) : Res :=
  if s.power = .up then .next (s.offerFrame path.val f.ident.toNat f.bytes) else .next s

/-! ### Burnisher words (R495, R498) -/

/-- A word with binary point `p` in a field's raw units (R495). -/
def feedValue (t : List Byte) (f : Nat) (w p : Int) : Int :=
  let q := fQ t f
  let v := if q < p then rnd w (p - q).toNat else w * 2 ^ (q - p).toNat
  clampI (fRange t f).1 (fRange t f).2 v

/-- The frames that one OUT step's words build on a path: one for each command whose fields with an element all received a
word; a command without such a field builds none (R495; log entry 46). -/
def builtFrames (t : List Byte) (p : Nat) (words : Tbl Int) (point : Int) : List (Nat × List Byte) :=
  (List.range (ltCmds t)).filterMap (fun c =>
    let fs := (cmdFields t c).filter (fun f => fElem t f != 0xFFFF)
    if ltCmd t c 0 1 == p && !fs.isEmpty && fs.all (fun f => (words.find (fElem t f)).isSome) then
      some (c, fs.foldl (fun l f => fieldPut t f l (feedValue t f (words.get 0 (fElem t f)) point)) (cmdTemplate t c))
    else none)

/-- Words of one OUT step reach a path, named by its unit index. -/
def State.feedPath (s : State) (u : Nat) (words : Tbl Int) (point : Int) : State :=
  match pathOf u with
  | none => s
  | some p =>
    if !s.locked then s
    else (builtFrames s.mgd.table p words point).foldl (fun s e => s.offerFrame p (ltCmd s.mgd.table e.1 4 4) e.2) s

end Sys2Proof.Machine
end

