-- ==== Sys2Proof/Machine/BrnAccept.lean ====
section
/-! DEFINITION. Burnisher problems: the problem record and its program, the checks of a burnisher descriptor at acceptance, and
the registers that show a problem (R265, R270 to R276, R280, R282, Tables BRN-1 to BRN-7). -/

namespace Sys2Proof.Machine

/-- The burnisher's unit and DMA channel (Tables ARC-7, MEM-5). -/
def brnUnit : Nat := unitId 0x0D 0
def brnChan : Nat := 0x32

/-! ### The problem record (Table BRN-3) -/

/-- Little-endian numbers of `k` bytes each, `n` of them. -/
def leList (k : Nat) : Nat → List Byte → List Nat
  | 0, _ => []
  | n + 1, l => leNat (l.take k) :: leList k n (l.drop k)

def recN (r : List Byte) : Nat := fld r 4 4
def recNnz (r : List Byte) : Nat := fld r 8 4
def recUser (r : List Byte) : Nat := fld r 12 1
def recStreamed (r : List Byte) : Bool := bit (fld r 3 1) 0
/-- Streamed arrays are commons offsets. -/
def recCommons (r : List Byte) : Bool := recStreamed r && bit (fld r 3 1) 1
def recRefetch (r : List Byte) : Bool := bit (fld r 3 1) 2
def recTrig (r : List Byte) : Nat := fld r 56 2
def recSteps (r : List Byte) : Nat := fld r 58 2
def recRel (r : List Byte) : Nat := fld r 60 4
def recQ (r : List Byte) (o : Nat) : Int := sext 8 (fld r o 1)
/-- The format of user slot `i`. -/
def recQUser (r : List Byte) (i : Nat) : Int := recQ r (16 + i)
/-- Input entry `i`: slot, kind, count, address. -/
def inSlot (r : List Byte) (i : Nat) : Nat := fld r (72 + 16 * i) 1
def inKind (r : List Byte) (i : Nat) : Nat := fld r (73 + 16 * i) 1
def inCount (r : List Byte) (i : Nat) : Nat := fld r (76 + 16 * i) 4
def inAddr (r : List Byte) (i : Nat) : Nat := fld r (80 + 16 * i) 8
/-- Output target `i`: kind, policy, sync object, path, address. -/
def outKind (r : List Byte) (i : Nat) : Nat := fld r (136 + 24 * i) 1
def outPolicy (r : List Byte) (i : Nat) : Nat := fld r (137 + 24 * i) 1
def outSync (r : List Byte) (i : Nat) : Nat := fld r (138 + 24 * i) 2
def outPath (r : List Byte) (i : Nat) : Nat := fld r (140 + 24 * i) 4
def outAddr (r : List Byte) (i : Nat) : Nat := fld r (144 + 24 * i) 8

def commonsBytes : Nat := 0x1400000

/-- A binary point of R265. -/
def pointOk (r : List Byte) (o : Nat) : Bool := decide (-8 ≤ recQ r o ∧ recQ r o ≤ 31)

/-- The first field of a record that breaks Table BRN-3, R273 or R275, as its offset. -/
def recordError (r : List Byte) : Option Nat :=
  let ins := List.range 4
  let outs := List.range 4
  let l : List (Nat × Bool) := ([ (0, decide (2 < fld r 0 1)),
      (1, decide (3 < fld r 1 1) || (fld r 1 1 == 3 && fld r 0 1 != 0)),
      (2, if fld r 1 1 = 2 then decide (fld r 2 1 < 2 ∨ 8 < fld r 2 1) else fld r 2 1 != 0),
      (3, decide (8 ≤ fld r 3 1)),
      (4, decide (recN r = 0 ∨ 32768 < recN r)),
      (8, decide (recNnz r = 0 ∨ (if recStreamed r then 4194304 else 262144) < recNnz r)),
      (12, decide (recUser r = 0 ∨ 8 < recUser r)),
      (13, !pointOk r 13), (14, !pointOk r 14), (15, !zeroAt r 15 1) ] : List (Nat × Bool)) ++
    (List.range 8).map (fun i => (16, !pointOk r (16 + i))) ++
    (List.range 7).map (fun i => (24, !pointOk r (24 + i))) ++
    [ (24, fld r 0 1 == 1 && (recQ r 28 != recQ r 29 || recQ r 28 != recQ r 30)),
      (31, !zeroAt r 31 1),
      (32, recCommons r && decide (commonsBytes < fld r 32 8 + 4 * (recN r + 1))),
      (40, recCommons r && decide (commonsBytes < fld r 40 8 + 2 * recNnz r)),
      (48, if recStreamed r && fld r 1 1 == 3 then zeroAt r 48 8 else !zeroAt r 48 8),
      (58, decide (recSteps r = 0 ∨ 64 < recSteps r)) ] ++
    ins.flatMap (fun i =>
      [ (72 + 16 * i, inKind r i != 0 && decide (recUser r ≤ inSlot r i)),
        (73 + 16 * i, decide (2 < inKind r i)),
        (74 + 16 * i, !zeroAt r (74 + 16 * i) 2),
        (80 + 16 * i, inKind r i == 2 && decide (commonsBytes < inAddr r i + 4 * inCount r i)) ]) ++
    outs.flatMap (fun i =>
      [ (136 + 24 * i, decide (3 < outKind r i)),
        (137 + 24 * i, decide (8 ≤ outPolicy r i)),
        (140 + 24 * i, outKind r i == 3 && (pathOf (outPath r i)).isNone),
        (144 + 24 * i, outKind r i == 2 && decide (commonsBytes < outAddr r i + 4 * recN r)),
        (152 + 24 * i, !zeroAt r (152 + 24 * i) 8) ]) ++
    [ (232, !zeroAt r 232 24) ]
  (l.find? (fun e => e.2)).map (fun e => e.1)

/-- An input entry whose count exceeds n (R282). -/
def inputTooLong (r : List Byte) : Option Nat :=
  (List.range 4).find? (fun i => inKind r i != 0 && decide (recN r < inCount r i))

/-- Rows of (column, position) of a structure, in CSR order. -/
def csrRows (rp cols : List Nat) : List (List (Nat × Nat)) :=
  (rp.zip (rp.drop 1)).map (fun e => ((cols.drop e.1).take (e.2 - e.1)).zipIdx e.1)

/-- The values are strictly rising. -/
def rising : List Nat → Bool
  | a :: b :: r => decide (a < b) && rising (b :: r)
  | _ => true

/-- The values do not fall. -/
def monotone : List Nat → Bool
  | a :: b :: r => decide (a ≤ b) && monotone (b :: r)
  | _ => true

/-- The row pointers or columns break R273, as the offset of the field that names them. -/
def structError (r : List Byte) (rp cols : List Nat) : Option Nat :=
  if rp.head? ≠ some 0 ∨ !monotone rp ∨ rp.getLast? ≠ some (recNnz r) then some 32
  else
    let rows := csrRows rp cols
    if cols.any (fun c => decide (recN r ≤ c)) || rows.any (fun l => !rising (l.map (·.1))) then some 40
    else if fld r 1 1 ≠ 0 ∧ rows.zipIdx.any (fun l => !l.1.any (fun e => e.1 == l.2)) then some 40
    else none

/-! ### The program (Tables BRN-6, BRN-7, R280) -/

def stOp (p : List Byte) (i : Nat) : Nat := fld p (16 * i) 1
def stDst (p : List Byte) (i : Nat) : Nat := fld p (16 * i + 1) 1
def stA (p : List Byte) (i : Nat) : Nat := fld p (16 * i + 2) 1
def stB (p : List Byte) (i : Nat) : Nat := fld p (16 * i + 3) 1
def stS1 (p : List Byte) (i : Nat) : Nat := fld p (16 * i + 4) 4
def stS2 (p : List Byte) (i : Nat) : Nat := fld p (16 * i + 8) 4
def stCount (p : List Byte) (i : Nat) : Nat := fld p (16 * i + 12) 2
def stAux (p : List Byte) (i : Nat) : Nat := fld p (16 * i + 14) 1
def stFlags (p : List Byte) (i : Nat) : Nat := fld p (16 * i + 15) 1

def opEnd : Nat := 0
def opSolve : Nat := 1
def opSpmv : Nat := 2
def opAxpby : Nat := 3
def opClamp : Nat := 4
def opCopy : Nat := 5
def opLoop : Nat := 6
def opTest : Nat := 7
def opOut : Nat := 8
def opUpdateIn : Nat := 9

/-- An FP32 constant is positive and finite. -/
def positiveFinite (v : Nat) : Bool := decide (0 < v ∧ v < 0x7F800000)

/-- A step breaks the program rules (R280). -/
def stepError (r p : List Byte) (i : Nat) : Bool :=
  let op := stOp p i
  let slotBad := fun (x : Nat) => decide (recUser r ≤ x)
  decide (9 < op) || stFlags p i != (if op = opSolve then stFlags p i % 2 else 0) ||
  ([opSolve, opSpmv, opAxpby, opClamp, opCopy].contains op && slotBad (stDst p i)) ||
  ([opSolve, opSpmv, opAxpby, opClamp, opCopy, opTest, opOut].contains op && slotBad (stA p i)) ||
  ([opAxpby, opClamp, opTest].contains op && slotBad (stB p i)) || (op == opClamp && slotBad (stAux p i)) ||
  (op == opLoop && decide (i ≤ stAux p i)) ||
  (op == opTest && decide (stAux p i ≤ i)) ||
  ((op == opSolve || op == opTest) && !positiveFinite (stS1 p i)) ||
  (op == opOut && (decide (3 < stB p i) || outKind r (stB p i) == 0 || decide (recN r < stAux p i * 32 + stCount p i))) ||
  (op == opUpdateIn && decide (3 < stA p i))

/-! ### Acceptance (R272, R273, R282, R329, R399, R400) -/

/-- A burnisher operation accepted and not completed (R272). -/
def brnOp (j : Job) : Bool := j.opcode == 0x12

/-- Bytes of commons memory at acceptance; a failing word makes the descriptor DATA_ERROR. -/
def State.acceptCommons (s : State) (a n : Nat) : Except Refuse (List Byte) :=
  if s.badRead (gaddr spCommons a) n then .error ⟨stDataErr, a⟩ else .ok (s.bytes (gaddr spCommons a) n)

/-- An acceptance read of the device (R329). -/
def State.acceptBytes (s : State) (j : Job) (com : Bool) (a n : Nat) : Except Refuse (List Byte) :=
  if com then s.acceptCommons a n
  else match s.acceptRead j.context a n with
    | .error e => .error ⟨e.1, e.2⟩
    | .ok l => .ok l

/-- REGISTER: the record, the program and the structure are read and checked; they are kept in this order. -/
def State.brnRecord (s : State) (j : Job) : Except Refuse (List Byte) :=
  match s.acceptBytes j false (j.arg 40 8) 256 with
  | .error e => .error e
  | .ok r =>
    match inputTooLong r, recordError r with
    | some i, _ => .error ⟨stBadLength, 0x8000 + 76 + 16 * i⟩
    | none, some o => .error ⟨stBadField, 0x8000 + o⟩
    | none, none =>
      match s.acceptBytes j (recCommons r) (fld r 32 8) (4 * (recN r + 1)) with
      | .error e => .error e
      | .ok rp =>
        match s.acceptBytes j (recCommons r) (fld r 40 8) (2 * recNnz r) with
        | .error e => .error e
        | .ok cols =>
          match structError r (leList 4 (recN r + 1) rp) (leList 2 (recNnz r) cols) with
          | some o => .error ⟨stBadField, 0x8000 + o⟩
          | none =>
            match s.acceptBytes j false (fld r 64 8) (16 * recSteps r) with
            | .error e => .error e
            | .ok p =>
              if (List.range (recSteps r)).any (stepError r p) then .error ⟨stBadField, 0x8000 + 64⟩
              else .ok (r ++ p ++ rp ++ cols)

/-- UPDATE: the block is read and its own fields are checked (R283). -/
def State.brnUpdateBlock (s : State) (j : Job) : Except Refuse (List Byte) :=
  let len := j.arg 36 4
  if len < 32 then .error ⟨stBadLength, 36⟩
  else match s.acceptBytes j false (j.arg 40 8) len with
    | .error e => .error e
    | .ok l =>
      if 32 + 4 * fld l 8 4 ≠ len then .error ⟨stBadLength, 36⟩
      else if 7 < fld l 0 1 then .error ⟨stBadField, 0x8000⟩
      else if !zeroAt l 1 3 then .error ⟨stBadField, 0x8001⟩
      else if !zeroAt l 12 4 then .error ⟨stBadField, 0x800C⟩
      else if !zeroAt l 20 4 then .error ⟨stBadField, 0x8014⟩
      else .ok l

/-- The checks of a burnisher descriptor at acceptance, lengths and fields before resources: what refuses it, or the parameter
bytes it keeps (R272, R398). A param_len of
zero is a no-op for REGISTER, VALUES and UPDATE. -/
def State.brnAccept (s : State) (j : Job) : Except Refuse (List Byte) :=
  let op := j.arg 32 1
  let len := j.arg 36 4
  if op = 0 ∨ 7 < op then .error ⟨stBadField, 32⟩
  else if (op = 1 ∧ len ≠ 0 ∧ len ≠ 256) ∨ (4 ≤ op ∧ len ≠ 0) then .error ⟨stBadLength, 36⟩
  else if 7 < j.arg 33 1 then .error ⟨stBadField, 33⟩
  else if op ≠ 4 ∧ op ≠ 5 ∧ j.arg 48 8 ≠ 0 then .error ⟨stBadField, 48⟩
  else
    let read : Except Refuse (List Byte) := match op with
      | 1 => if len = 0 then .ok [] else s.brnRecord j
      | 3 => if len = 0 then .ok [] else s.brnUpdateBlock j
      | _ => .ok []
    match read with
    | .ok l => if 32 ≤ (s.jobs.filter brnOp).length then .error ⟨stNoResource, 0⟩ else .ok l
    | .error e => .error e

/-! ### Problems as the registers show them -/

/-- Words of the preconditioner (R274). -/
def preWords (r : List Byte) (rows : List (List (Nat × Nat))) : Nat :=
  let n := recN r
  let b := max 1 (fld r 2 1)
  match fld r 1 1 with
  | 1 => n
  | 2 => (n + b - 1) / b * (if fld r 0 1 = 2 then b * b else b * (b + 1) / 2)
  | 3 => (rows.zipIdx.map (fun l => (l.1.filter (fun e => decide (e.1 ≤ l.2))).length)).sum
  | _ => 0

/-- Burnisher memory a problem needs, in units of 4 KiB (R274). -/
def memUnits (r : List Byte) (rows : List (List (Nat × Nat))) : Nat :=
  let n := recN r
  let res := if recStreamed r then 0 else 4 * (n + 1) + 6 * recNnz r
  let pre := if recStreamed r && fld r 1 1 == 3 then 0 else 4 * preWords r rows
  (res + pre + 4 * n * (recUser r + 8) + 1280 + 4095) / 4096

/-- The structure signature (text after R274). -/
def structSig (n : Nat) (rp cols : List Byte) : Nat := n + 2 ^ 32 * crc64 (le 4 n ++ rp ++ cols)

/-- A problem's record replaced. -/
def State.setProb (s : State) (i : Nat) (p : BrnProb) : State :=
  ({ s with brn := { s.brn with probs := s.brn.probs.set i p } } : State).showProb i

end Sys2Proof.Machine
end

