-- ==== Sys2Proof/Machine/BrnArith.lean ====
section
/-! DEFINITION. The burnisher's arithmetic: scalars, accumulators, words, preconditioners and the three methods (R265 to R269,
R275 to R279, R288 to R291). -/

namespace Sys2Proof.Machine

def scZero : Sc := ⟨0, 0⟩
def scOne : Sc := ⟨2 ^ 30, -30⟩

/-- What a SOLVE keeps while it runs: saturations, the last complete iterate's index, x and residual (R269, R277, R289). -/
structure Prog where
  sats : Nat
  iters : Nat
  x : List Int
  res : Nat
  deriving DecidableEq, Repr

/-- A computation that a breakdown ends. -/
abbrev Brn := ExceptT Unit (StateM Prog)

/-- A breakdown (R266, R276, R277). -/
def breakdown {α : Type} : Brn α := throw ()

/-- Saturations counted (R269). -/
def addSats (n : Nat) : Brn Unit := modify (fun p => { p with sats := p.sats + n })

/-! ### Scalars (R266) -/

/-- num / den in units of 2^-t, to nearest with ties to even. -/
def divNear (num den : Nat) : Nat :=
  let q := num / den
  let r := num % den
  if den < 2 * r ∨ (2 * r = den ∧ q % 2 = 1) then q + 1 else q

/-- The exact value num / den * 2^e rounded once to a scalar; a breakdown when the exponent leaves int16 (R266). -/
def scOf (num : Int) (den : Nat) (e : Int) : Brn Sc := do
  if num = 0 then return scZero
  else if den = 0 then breakdown
  else
    let a := num.natAbs
    -- the quotient lies in [2^30, 2^31) after scaling by 2^t
    let t0 : Int := 30 - ((Nat.log2 a : Int) - Nat.log2 den)
    let scaled := fun (t : Int) => if 0 ≤ t then (a <<< t.toNat, den) else (a, den <<< (-t).toNat)
    let t := if (scaled t0).1 / (scaled t0).2 < 2 ^ 30 then t0 + 1 else t0
    let m := divNear (scaled t).1 (scaled t).2
    let (m, t) := if m = 2 ^ 31 then (2 ^ 30, t - 1) else (m, t)
    if e - t < -32768 ∨ 32767 < e - t then breakdown else return ⟨sgn (decide (num < 0)) m, e - t⟩

/-- The exact sum of two scalars: mantissa and exponent. -/
def scSum (a b : Sc) : Int × Int := addDy a.m a.e b.m b.e

def scAdd (a b : Sc) : Brn Sc := let (m, e) := scSum a b; scOf m 1 e
def scNeg (a : Sc) : Sc := ⟨-a.m, a.e⟩
def scSub (a b : Sc) : Brn Sc := scAdd a (scNeg b)
/-- The exact product, not rounded. -/
def scProd (a b : Sc) : Sc := ⟨a.m * b.m, a.e + b.e⟩
def scMul (a b : Sc) : Brn Sc := scOf (a.m * b.m) 1 (a.e + b.e)
def scDiv (a b : Sc) : Brn Sc :=
  if b.m = 0 then breakdown else scOf (if b.m < 0 then -a.m else a.m) b.m.natAbs (a.e - b.e)
def scSqrt (a : Sc) : Brn Sc :=
  if a.m < 0 then breakdown
  else if a.m = 0 then return scZero
  else
    -- an even exponent and 40 more bits: the root's low bit is sticky
    let odd := (a.e % 2).toNat
    let v := a.m.natAbs <<< (40 + odd)
    let r := isqrt v
    scOf (2 * r + (if r * r = v then 0 else 1) : Nat) 1 ((a.e - odd) / 2 - 21)
/-- a ≤ b. -/
def scLe (a b : Sc) : Bool := decide ((scSum a (scNeg b)).1 ≤ 0)

/-- The scalar of a finite FP32 constant (text after R269); one that is not finite is a breakdown (log entry 43). -/
def scConst (v : Nat) : Brn Sc :=
  match f32 v with
  | .fin neg m e => scOf (sgn neg m) 1 e
  | _ => breakdown

/-! ### Accumulators and words (R267, R268) -/

def accLim : Int := 2 ^ 63 - 1

/-- The sum of products in order, saturating (R267). -/
def accSum (l : List Int) : Brn Int := do
  let (a, n) := l.foldl (fun (a : Int × Nat) v =>
    let t := a.1 + v
    (clampI (-accLim) accLim t, a.2 + (decide (t < -accLim ∨ accLim < t)).toNat)) (0, 0)
  addSats n
  return a

/-- The exact sum of v * 2^-q over the pairs, rounded once into binary point `p` and saturated (R268). -/
def fixWord (p : Int) (l : List (Int × Int)) : Brn Int := do
  let b := l.foldl (fun b v => max b v.2) p
  let n := (l.map (fun v => v.1 * 2 ^ (b - v.2).toNat)).sum
  let w := rnd n (b - p).toNat
  addSats (!fitsS 32 w).toNat
  return satS 32 w

/-- A scalar as a word. -/
def scWord (p : Int) (a : Sc) : Brn Int := fixWord p [(a.m, -a.e)]

/-- u · v as a scalar (R267). -/
def dot (u : List Int) (pu : Int) (v : List Int) (pv : Int) : Brn Sc := do
  let a ← accSum (List.zipWith (· * ·) u v)
  scOf a 1 (-(pu + pv))

/-- Element `i` of a vector. -/
def vec (l : List Int) (i : Nat) : Int := l.getD i 0

/-- The elementwise sum of s * v over the terms, each element rounded once (R268). -/
def comb (n : Nat) (p : Int) (terms : List (Sc × List Int × Int)) : Brn (List Int) :=
  (List.range n).mapM (fun i => fixWord p (terms.map (fun t => (t.1.m * vec t.2.1 i, t.2.2 - t.1.e))))

/-- The scalar 1 as it multiplies exactly. -/
def unit1 : Sc := ⟨1, 0⟩

/-! ### The matrix -/

/-- A sparse matrix: rows of (column, word) in ascending columns, and its binary point. -/
structure Mat where
  rows : List (List (Nat × Int))
  q : Int
  deriving DecidableEq, Repr

def Mat.n (a : Mat) : Nat := a.rows.length
/-- The diagonal word of a row; zero when it has none. -/
def Mat.diag (a : Mat) (i : Nat) : Int := (((a.rows.getD i []).find? (fun e => e.1 == i)).map (·.2)).getD 0

/-- The row accumulators of A x (R267). -/
def Mat.accs (a : Mat) (x : List Int) : Brn (List Int) := a.rows.mapM (fun r => accSum (r.map (fun e => e.2 * vec x e.1)))

/-- A x rounded into binary point `p` (R268). -/
def Mat.mul (a : Mat) (x : List Int) (px p : Int) : Brn (List Int) := do
  let s ← a.accs x
  s.mapM (fun v => fixWord p [(v, a.q + px)])

/-- b - A x, each element rounded once. -/
def Mat.resid (a : Mat) (b : List Int) (pb : Int) (x : List Int) (px p : Int) : Brn (List Int) := do
  let s ← a.accs x
  s.zipIdx.mapM (fun v => fixWord p [(vec b v.2, pb), (-v.1, a.q + px)])

/-! ### Preconditioners (R274, R276, R277) -/

/-- Methods: 0 CG, 1 MINRES, 2 BiCGSTAB; preconditioners: 0 none, 1 Jacobi, 2 block-Jacobi, 3 IC(0) (Table BRN-3). -/
structure PreKind where
  method : Nat
  kind : Nat
  block : Nat
  q : Int
  deriving DecidableEq, Repr

/-- One Gauss-Jordan step on pivot `k`: the pivot row is divided by its pivot and subtracted from the others (R276; the order
of the operations is log entry 44). -/
def gjStep (full : Bool) (k : Nat) (m : List (List Sc)) : Brn (List (List Sc)) := do
  let row := m.getD k []
  let piv := row.getD k scZero
  if piv.m = 0 ∨ (!full ∧ piv.m < 0) then breakdown
  else
    let pr ← row.mapM (fun v => if v.m = 0 then pure scZero else scDiv v piv)
    m.zipIdx.mapM (fun r =>
      if r.2 = k then pure pr
      else
        let f := r.1.getD k scZero
        if f.m = 0 then pure r.1
        else (r.1.zip pr).mapM (fun v => if v.2.m = 0 then pure v.1 else do
          let t ← scMul f v.2
          scSub v.1 t))

/-- The inverse of a block of scalars. -/
def gjInverse (full : Bool) (s : Nat) (m : List (List Sc)) : Brn (List (List Sc)) := do
  let aug := m.zipIdx.map (fun r => r.1 ++ (List.range s).map (fun j => if j = r.2 then scOne else scZero))
  let r ← (List.range s).foldlM (fun m k => gjStep full k m) aug
  return r.map (fun l => l.drop s)

/-- One row of IC(0): the row's entries up to the diagonal from the rows before, as scalars (R276). -/
def icRow (q : Int) (before : List (List (Nat × Sc))) (i : Nat) (row : List (Nat × Int)) : Brn (List (Nat × Sc)) :=
  (row.filter (fun e => decide (e.1 ≤ i))).foldlM (fun (done : List (Nat × Sc)) e => do
    let a ← scOf e.2 1 (-q)
    let other := if e.1 = i then done else before.getD e.1 []
    let t ← done.foldlM (fun (t : Sc) l => do
      match other.find? (fun o => o.1 == l.1 && decide (o.1 < e.1)) with
      | some o =>
        let pr ← scMul l.2 o.2
        scSub t pr
      | none => pure t) a
    if e.1 < i then
      let d := ((other.find? (fun o => o.1 == e.1)).map (·.2)).getD scZero
      let v ← scDiv t d
      pure (done ++ [(e.1, v)])
    else if t.m ≤ 0 then breakdown
    else
      let v ← scSqrt t
      pure (done ++ [(e.1, v)])) []

/-- The preconditioner's words (R276): per row, lists of (column, word): Jacobi the diagonal; block-Jacobi the block row; IC(0)
the row of L with the reciprocal of its diagonal last. -/
def buildPre (k : PreKind) (a : Mat) : Brn (List (List (Nat × Int))) :=
  let n := a.n
  match k.kind with
  | 1 => (List.range n).mapM (fun i => do
      let d ← scOf (a.diag i) 1 (-a.q)
      if d.m = 0 then breakdown
      else
        let d : Sc := if k.method = 1 then ⟨d.m.natAbs, d.e⟩ else d
        let v ← scDiv scOne d
        let w ← scWord k.q v
        return [(i, w)])
  | 2 => do
      let b := max 1 k.block
      let full := k.method == 2
      let blocks ← (List.range ((n + b - 1) / b)).mapM (fun t => do
        let lo := t * b
        let s := min b (n - lo)
        let m ← (List.range s).mapM (fun i => (List.range s).mapM (fun j =>
          match (a.rows.getD (lo + i) []).find? (fun e => e.1 == lo + j) with
          | some e => scOf e.2 1 (-a.q)
          | none => pure scZero))
        let inv ← gjInverse full s m
        (List.range s).mapM (fun i => (List.range s).mapM (fun j => do
          let src := if full ∨ j ≤ i then (inv.getD i []).getD j scZero else (inv.getD j []).getD i scZero
          let w ← scWord k.q src
          return (lo + j, w))))
      return blocks.flatten
  | 3 => do
      let l ← a.rows.zipIdx.foldlM (fun (done : List (List (Nat × Sc))) r => do
        let x ← icRow a.q done r.2 r.1
        return done ++ [x]) []
      l.zipIdx.mapM (fun r => r.1.mapM (fun e => do
        let v ← if e.1 = r.2 then scDiv scOne e.2 else pure e.2
        let w ← scWord k.q v
        return (e.1, w)))
  | _ => pure []

/-- The words of a row outside its diagonal, and the diagonal's. -/
def icParts (row : List (Nat × Int)) (i : Nat) : List (Nat × Int) × Int :=
  (row.filter (fun e => e.1 != i), ((row.find? (fun e => e.1 == i)).map (·.2)).getD 0)

/-- M⁻¹ r (R277): each element rounded once; with no preconditioner z is r. -/
def applyPre (k : PreKind) (w : List (List (Nat × Int))) (r : List Int) (pr pz : Int) : Brn (List Int) :=
  let n := r.length
  match k.kind with
  | 0 => r.mapM (fun v => fixWord pz [(v, pr)])
  | 3 => do
      let y ← (List.range n).foldlM (fun (y : List Int) i => do
        let (lo, d) := icParts (w.getD i []) i
        let v ← fixWord pz ((vec r i * d, pr + k.q) :: lo.map (fun e => (-e.2 * vec y e.1 * d, 2 * k.q + pz)))
        return y ++ [v]) []
      let z ← (List.range n).reverse.foldlM (fun (z : List (Nat × Int)) i => do
        let d := (icParts (w.getD i []) i).2
        let terms := z.filterMap (fun e =>
          ((w.getD e.1 []).find? (fun l => l.1 == i)).map (fun l => (-l.2 * e.2 * d, 2 * k.q + pz)))
        let v ← fixWord pz ((vec y i * d, pz + k.q) :: terms)
        return (i, v) :: z) []
      return z.map (·.2)
  | _ => (List.range n).mapM (fun i => fixWord pz ((w.getD i []).map (fun e => (e.2 * vec r e.1, k.q + pr))))

/-! ### SOLVE (R277 to R279, R288 to R291) -/

/-- Stop reasons (Table BRN-8). -/
def srConverged : Nat := 0
def srMaxiter : Nat := 1
def srDeadline : Nat := 2
def srBreakdown : Nat := 3
/-- A residual that was not computed (R279). -/
def notComputed : Nat := 0xFFFFFFFF

/-- floor(sqrt(num / den) * 2^24), saturated (R279). -/
def relResid (num den : Sc) : Nat :=
  if num.m ≤ 0 ∨ den.m ≤ 0 then 0
  else
    let e := num.e - den.e + 48
    let q := if 0 ≤ e then (num.m.natAbs <<< e.toNat) / den.m.natAbs else num.m.natAbs / (den.m.natAbs <<< (-e).toNat)
    min (isqrt q) 0xFFFFFFFE

/-- What a SOLVE works on: matrix, preconditioner, formats of W0 to W6, b and x0 with their formats, tolerance, max_iter, the
number of iterates that complete before the deadline, if it falls within the solve, and the boundary at which it stops before
its end, if it does (R298). -/
structure Solve where
  a : Mat
  pre : PreKind
  words : List (List (Nat × Int))
  q : List Int
  b : List Int
  pb : Int
  x0 : List Int
  px : Int
  tol : Nat
  maxIter : Nat
  stopAt : Option Nat
  rowsTo : Option Nat
  upTo : Option Nat
  deriving DecidableEq, Repr

def Solve.w (c : Solve) (i : Nat) : Int := c.q.getD i 0
def Solve.n (c : Solve) : Nat := c.a.n
def Solve.minv (c : Solve) (r : List Int) (pr pz : Int) : Brn (List Int) := applyPre c.pre c.words r pr pz
/-- The deadline falls before iterate `k` is complete. -/
def Solve.late (c : Solve) (k : Nat) : Bool := match c.stopAt with | some s => decide (s ≤ k) | none => false

/-- The solve stops at the boundary after iterate `k`. -/
def Solve.pauses (c : Solve) (k : Nat) : Bool := match c.upTo with | some m => decide (m ≤ k) | none => false

/-- How a solve ends: for good, with its stop reason, or at a boundary. -/
inductive SolveEnd
  | stop (reason : Nat)
  | pause (at' : SolvePhase)
  deriving DecidableEq, Repr

/-- Iterate `k` is complete (text after R277). -/
def iterate (k : Nat) (x : List Int) (res : Nat) : Brn Unit := modify (fun p => { p with iters := k, x := x, res := res })

/-- tol² times a norm. -/
def threshold (tol : Nat) (n : Sc) : Brn Sc := do
  let t ← scConst tol
  let t2 ← scMul t t
  scMul t2 n

/-- CG from iteration `k` on. -/
def cgLoop (c : Solve) (bb thr : Sc) : Nat → Nat → CgSt → Brn SolveEnd
  | 0, _, _ => return .stop srMaxiter
  | fuel + 1, k, s => do
    if c.pauses (k - 1) then return .pause (.cg bb thr k s)
    else if c.late k then return .stop srDeadline
    else
      let q ← c.a.mul s.p (c.w 2) (c.w 3)
      let pq ← dot s.p (c.w 2) q (c.w 3)
      if pq.m ≤ 0 then breakdown
      else
        let alpha ← scDiv s.rho pq
        let x ← comb c.n c.px [(unit1, s.x, c.px), (alpha, s.p, c.w 2)]
        let r ← comb c.n (c.w 0) [(unit1, s.r, c.w 0), (scNeg alpha, q, c.w 3)]
        let rr ← dot r (c.w 0) r (c.w 0)
        iterate k x (relResid rr bb)
        if scLe rr thr then return .stop srConverged
        else if k = c.maxIter then return .stop srMaxiter
        else
          let z ← c.minv r (c.w 0) (c.w 1)
          let rhoNew ← dot r (c.w 0) z (c.w 1)
          let beta ← scDiv rhoNew s.rho
          let p ← comb c.n (c.w 2) [(unit1, z, c.w 1), (beta, s.p, c.w 2)]
          cgLoop c bb thr fuel (k + 1) ⟨x, r, p, rhoNew⟩

/-- CG (text after R277). -/
def solveCg (c : Solve) (bb : Sc) : Brn SolveEnd := do
  let r ← c.a.resid c.b c.pb c.x0 c.px (c.w 0)
  let z ← c.minv r (c.w 0) (c.w 1)
  let p ← comb c.n (c.w 2) [(unit1, z, c.w 1)]
  let rho ← dot r (c.w 0) z (c.w 1)
  let rr ← dot r (c.w 0) r (c.w 0)
  iterate 0 c.x0 (relResid rr bb)
  let thr ← threshold c.tol bb
  if scLe rr thr then return .stop srConverged else cgLoop c bb thr c.maxIter 1 ⟨c.x0, r, p, rho⟩

/-- BiCGSTAB from iteration `k` on. -/
def biLoop (c : Solve) (bb thr : Sc) : Nat → Nat → BiSt → Brn SolveEnd
  | 0, _, _ => return .stop srMaxiter
  | fuel + 1, k, s => do
    if c.pauses (k - 1) then return .pause (.bi bb thr k s)
    else if c.late k then return .stop srDeadline
    else
      let ph ← c.minv s.p (c.w 2) (c.w 5)
      let v ← c.a.mul ph (c.w 5) (c.w 3)
      let rv ← dot s.rh (c.w 1) v (c.w 3)
      let alpha ← scDiv s.rho rv
      let r ← comb c.n (c.w 0) [(unit1, s.r, c.w 0), (scNeg alpha, v, c.w 3)]
      let sh ← c.minv r (c.w 0) (c.w 6)
      let t ← c.a.mul sh (c.w 6) (c.w 4)
      let tr ← dot t (c.w 4) r (c.w 0)
      let tt ← dot t (c.w 4) t (c.w 4)
      let omega ← scDiv tr tt
      let x ← comb c.n c.px [(unit1, s.x, c.px), (alpha, ph, c.w 5), (omega, sh, c.w 6)]
      let r ← comb c.n (c.w 0) [(unit1, r, c.w 0), (scNeg omega, t, c.w 4)]
      let rr ← dot r (c.w 0) r (c.w 0)
      iterate k x (relResid rr bb)
      if scLe rr thr then return .stop srConverged
      else if k = c.maxIter then return .stop srMaxiter
      else
        let rhoNew ← dot s.rh (c.w 1) r (c.w 0)
        let u ← scDiv rhoNew s.rho
        let w ← scDiv alpha omega
        let beta ← scMul u w
        let p ← comb c.n (c.w 2) [(unit1, r, c.w 0), (beta, s.p, c.w 2), (scNeg (scProd beta omega), v, c.w 3)]
        biLoop c bb thr fuel (k + 1) ⟨s.rh, x, r, p, v, rhoNew⟩

/-- BiCGSTAB (text after R277). -/
def solveBi (c : Solve) (bb : Sc) : Brn SolveEnd := do
  let r ← c.a.resid c.b c.pb c.x0 c.px (c.w 0)
  let rh ← comb c.n (c.w 1) [(unit1, r, c.w 0)]
  let p ← comb c.n (c.w 2) [(unit1, r, c.w 0)]
  let rho ← dot rh (c.w 1) r (c.w 0)
  let rr ← dot r (c.w 0) r (c.w 0)
  iterate 0 c.x0 (relResid rr bb)
  let thr ← threshold c.tol bb
  if scLe rr thr then return .stop srConverged else biLoop c bb thr c.maxIter 1 ⟨rh, c.x0, r, p, [], rho⟩

/-- MINRES from iteration `k` on. -/
def mrLoop (c : Solve) (beta1 thr : Sc) : Nat → Nat → MrSt → Brn SolveEnd
  | 0, _, _ => return .stop srMaxiter
  | fuel + 1, k, s => do
    if c.pauses (k - 1) then return .pause (.mr beta1 thr k s)
    else if c.late k then return .stop srDeadline
    else
      let ib ← scDiv scOne s.beta
      let v ← comb c.n (c.w 3) [(ib, s.y, c.w 2)]
      let y ← c.a.mul v (c.w 3) (c.w 2)
      let y ← if 2 ≤ k then do
          let f ← scDiv s.beta s.oldb
          comb c.n (c.w 2) [(unit1, y, c.w 2), (scNeg f, s.r1, c.w 0)]
        else pure y
      let alfa ← dot v (c.w 3) y (c.w 2)
      let f ← scDiv alfa s.beta
      let y ← comb c.n (c.w 2) [(unit1, y, c.w 2), (scNeg f, s.r2, c.w 1)]
      let r1 ← comb c.n (c.w 0) [(unit1, s.r2, c.w 1)]
      let r2 ← comb c.n (c.w 1) [(unit1, y, c.w 2)]
      let y ← c.minv r2 (c.w 1) (c.w 2)
      let ry ← dot r2 (c.w 1) y (c.w 2)
      let beta ← scSqrt ry
      let a1 ← scMul s.cs s.dbar
      let a2 ← scMul s.sn alfa
      let delta ← scAdd a1 a2
      let b1 ← scMul s.sn s.dbar
      let b2 ← scMul s.cs alfa
      let gbar ← scSub b1 b2
      let eps ← scMul s.sn beta
      let d1 ← scMul s.cs beta
      let g1 ← scMul gbar gbar
      let g2 ← scMul beta beta
      let g3 ← scAdd g1 g2
      let gamma ← scSqrt g3
      let cs ← scDiv gbar gamma
      let sn ← scDiv beta gamma
      let phi ← scMul cs s.phibar
      let phibar ← scMul sn s.phibar
      let ig ← scDiv scOne gamma
      let w ← comb c.n (c.w 4) [(ig, v, c.w 3), (scNeg (scProd ig s.eps), s.w2, c.w 4), (scNeg (scProd ig delta), s.w, c.w 4)]
      let x ← comb c.n c.px [(unit1, s.x, c.px), (phi, w, c.w 4)]
      iterate k x (relResid (scProd phibar phibar) (scProd beta1 beta1))
      let p2 ← scMul phibar phibar
      if scLe p2 thr then return .stop srConverged
      else if k = c.maxIter then return .stop srMaxiter
      else mrLoop c beta1 thr fuel (k + 1) ⟨x, r1, r2, y, w, s.w, beta, s.beta, scNeg d1, eps, phibar, cs, sn⟩

/-- MINRES (text after R277). -/
def solveMr (c : Solve) : Brn SolveEnd := do
  let r1 ← c.a.resid c.b c.pb c.x0 c.px (c.w 0)
  let y ← c.minv r1 (c.w 0) (c.w 2)
  let ry ← dot r1 (c.w 0) y (c.w 2)
  let beta1 ← scSqrt ry
  if beta1.m = 0 then breakdown
  else
    let r2 ← comb c.n (c.w 1) [(unit1, r1, c.w 0)]
    let zero := List.replicate c.n (0 : Int)
    iterate 0 c.x0 (relResid (scProd beta1 beta1) (scProd beta1 beta1))
    let b2 ← scMul beta1 beta1
    let thr ← threshold c.tol b2
    if scLe b2 thr then return .stop srConverged
    else
      mrLoop c beta1 thr c.maxIter 1
        ⟨c.x0, r1, r2, y, zero, zero, beta1, scZero, scZero, scZero, beta1, scNeg scOne, scZero⟩

/-- What a SOLVE leaves: its stop reason, x, residual, iterations and saturations, the preconditioner when it was built, and
the boundary at which it stopped before its end, if it did. -/
structure Solved where
  reason : Nat
  x : List Int
  res : Nat
  iters : Nat
  sats : Nat
  built : Option (List (List (Nat × Int)))
  paused : Option SolvePhase
  deriving DecidableEq, Repr

/-- The iterations of a SOLVE, from a boundary or from iterate 0, as they end; `c` has the preconditioner's words. A breakdown
leaves the start value with no residual (R290). -/
def Solve.iterations (c : Solve) (body : Brn SolveEnd) (p : Prog) (built : Option (List (List (Nat × Int)))) : Solved :=
  match body.run.run p with
  | (.error _, p) => ⟨srBreakdown, c.x0, notComputed, p.iters, p.sats, built, none⟩
  | (.ok (.stop reason), p) => ⟨reason, p.x, p.res, p.iters, p.sats, built, none⟩
  | (.ok (.pause at'), p) => ⟨srConverged, p.x, p.res, p.iters, p.sats, built, some at'⟩

/-- The rows of the preconditioner at which a build stops: whole blocks for block-Jacobi. -/
def Solve.rowsDone (c : Solve) (before : Nat) : Option Nat :=
  match c.rowsTo with
  | none => none
  | some m =>
    let m := if c.pre.kind = 2 then m / max 1 c.pre.block * max 1 c.pre.block else m
    if m < c.n then some (max before m) else none

/-- A SOLVE from its beginning, `before` rows of a stale preconditioner having been built. A zero b gives x = 0 at once and
builds nothing (R278); a breakdown, or a deadline before iterate 0, leaves the start value with no residual (R290). -/
def Solve.fromStart (c : Solve) (stale : Bool) (before : Nat) : Solved :=
  match (dot c.b c.pb c.b c.pb).run.run ⟨0, 0, c.x0, notComputed⟩ with
  | (.error _, p) => ⟨srBreakdown, c.x0, notComputed, 0, p.sats, none, none⟩
  | (.ok bb, p) =>
    if bb.m = 0 then ⟨srConverged, List.replicate c.n 0, 0, 0, p.sats, none, none⟩
    else
      let build := stale && c.pre.kind != 0
      match if build then c.rowsDone before else none with
      | some m =>
        (match (buildPre c.pre ⟨c.a.rows.take m, c.a.q⟩).run.run ⟨0, 0, c.x0, notComputed⟩ with
         | (.error _, q) => ⟨srBreakdown, c.x0, notComputed, 0, q.sats, none, none⟩
         | (.ok _, _) => ⟨srConverged, c.x0, notComputed, 0, 0, none, some (.rows m)⟩)
      | none =>
        if c.late 0 then ⟨srDeadline, c.x0, notComputed, 0, p.sats, none, none⟩
        else match ((if build then buildPre c.pre c.a else pure c.words) : Brn _).run.run p with
        | (.error _, p) => ⟨srBreakdown, c.x0, notComputed, 0, p.sats, none, none⟩
        | (.ok w, p) =>
          let c := { c with words := w }
          let body := match c.pre.method with | 0 => solveCg c bb | 1 => solveMr c | _ => solveBi c bb
          c.iterations body p (if build then some w else none)

/-- A SOLVE from where it stands; `stale` says that the preconditioner is to be built first. A run that stopped at a boundary
goes on to the same bits as one that did not (R298). -/
def runSolve (c : Solve) (stale : Bool) (st : SolveSt) : Solved :=
  let p : Prog := ⟨0, st.iters, st.x, st.res⟩
  match st.phase with
  | .begun => c.fromStart stale 0
  | .rows n => c.fromStart stale n
  | .cg bb thr k s => c.iterations (cgLoop c bb thr (c.maxIter + 1 - k) k s) p none
  | .bi bb thr k s => c.iterations (biLoop c bb thr (c.maxIter + 1 - k) k s) p none
  | .mr beta1 thr k s => c.iterations (mrLoop c beta1 thr (c.maxIter + 1 - k) k s) p none

end Sys2Proof.Machine
end

