-- ==== Sys2Proof/Machine/Burnisher.lean ====
section
/-! DEFINITION. The burnisher's operations, triggers, runs and program steps (R270 to R299). -/

namespace Sys2Proof.Machine

/-! ### Order of operations (R271) -/

/-- Operations on problem `i` accepted before `id` and not completed. -/
def State.brnAhead (s : State) (i id : Nat) : List Job :=
  s.jobs.filter (fun j => brnOp j && j.arg 33 1 == i && decide (j.id < id))

/-- The turn of an operation has come: every earlier one on its problem has completed (R271). -/
def State.brnTurn (s : State) (i id : Nat) : Bool := (s.brnAhead i id).isEmpty

/-- An operation of the byte named, started, with the burnisher working (R20, R299). -/
def State.brnDo (s : State) (job op : Nat) (run : State → Job → Nat → Res) : Res :=
  match s.startedOp job 0x12 op with
  | none => .next s
  | some j =>
    if (s.unit brnUnit).offline then .next (s.refuse j ⟨stUnitOffline, 0⟩)
    else if !s.unitUp brnUnit then .next s
    else run s j (j.arg 33 1)

/-- The state code of a problem (Table BRN-4). -/
def State.probState (s : State) (i : Nat) : Nat := (s.prob i).elim 0 (·.state)

/-! ### Reads and writes of the burnisher's DMA engine (R297, R319, R322, R446) -/

/-- What a read answers: the bytes and whether they are failed data, or the fault with its address. -/
abbrev BrnRead := Except (Nat × Nat) (List Byte × Bool)

/-- Reads through translation on the burnisher's channel, piece by piece, with what was read before a fault. -/
def State.brnReadLoop (ctx job : Nat) : Nat → State → Nat → Nat → List Byte → Bool →
    State × (List Byte × Bool) × Option (Nat × Nat)
  | 0, s, _, _, a, bad => (s, (a, bad), none)
  | fuel + 1, s, va, n, a, bad =>
    if n = 0 then (s, (a, bad), none)
    else
      match s.translateOn brnChan ctx va .read with
      | (s, .error k) => (s, (a, bad), some (k, va))
      | (s, .ok pa) =>
        let c := chunk va n
        let (s, l, b) := s.ddrGet brnChan (some job) ctx va pa c 0
        State.brnReadLoop ctx job fuel s (va + c) (n - c) (a ++ l) (bad || b)

/-- The accesses that `job` has still to take from their record, and those that it has made. -/
def State.brnRedo (s : State) (job : Nat) : List (List Byte × Bool) := if s.brn.accJob = job then s.brn.redo else []
def State.brnMade (s : State) (job : Nat) : List (List Byte × Bool) := if s.brn.accJob = job then s.brn.made else []

/-- An access of `job` is complete. -/
def State.brnTook (s : State) (job : Nat) (x : List Byte × Bool) : State :=
  { s with brn := { s.brn with accJob := job, redo := (s.brnRedo job).drop 1, made := s.brnMade job ++ [x] } }

/-- An access of `job` meets a fault: what it has moved stays, and it goes on from there (R322, R324). -/
def State.brnStopped (s : State) (job : Nat) (x : List Byte × Bool) : State :=
  { s with brn := { s.brn with accJob := job, redo := s.brnMade job ++ [x], made := [] } }

/-- No access is recorded any longer. -/
def State.brnNoAccess (s : State) : State := { s with brn := { s.brn with redo := [], made := [] } }

/-- `n` bytes of an array: a commons offset or a virtual address. An access that a fault has held goes on from what it has
read; one that was complete before the fault is not made again (R324). -/
def State.brnRead (s : State) (com : Bool) (ctx job a n : Nat) : State × BrnRead :=
  let x := (s.brnRedo job).headD ([], false)
  if 0 < n ∧ x.1.length = n then (s.brnTook job x, .ok x)
  else if com then
    let bad := s.badRead (gaddr spCommons a) n
    let l := s.bytes (gaddr spCommons a) n
    ((if bad then s.sramDetect (unitId 5 (a / 0xA00000)) 1 a true else s).brnTook job (l, bad), .ok (l, bad))
  else
    let k := x.1.length
    match State.brnReadLoop ctx job (n / 4096 + 2) s (a + k) (n - k) x.1 x.2 with
    | (s, x, none) => (s.brnTook job x, .ok x)
    | (s, x, some f) => (s.brnStopped job x, .error f)

/-- A write of the burnisher's DMA engine, which likewise goes on from what it has written (R322, R324). -/
def State.brnWrite (s : State) (ctx job va : Nat) (l : List Byte) : State × Option (Nat × Nat) :=
  let k := ((s.brnRedo job).headD ([], false)).1.length
  match s.vwrite brnChan ctx (va + k) (l.drop k) with
  | (s, _, none) => (s.brnTook job (l, false), none)
  | (s, d, some f) => (s.brnStopped job (l.take (k + d), false), some f)

/-- The engine stops at a fault; the job holds it there, and the channel's record has the bytes moved of the access
(R297, R319, R322). -/
def State.brnFault (s : State) (id ctx tag : Nat) (f : Nat × Nat) : State :=
  let s := s.chanStart brnChan ctx 0 0 tag false
  ({ s with chanJob := s.chanJob.set brnChan id } : State).chanFault brnChan f.1 (((s.brnRedo id).getLast?).elim 0 (·.1.length)) f.2

/-- The engine holds a fault. -/
def State.brnHeld (s : State) : Bool := s.chan brnChan == chFaulted

/-- The engine holds a fault, or has resumed one and goes on with an access of another job: transfers are made in order, one
at a time (R297, R319). -/
def State.brnTaken (s : State) (id : Nat) : Bool :=
  s.brnHeld || (match s.chanJob.find brnChan with | some k => k != id | none => false)

/-- The channel after an access has gone through. -/
def State.brnFree (s : State) : State :=
  let s := s.brnNoAccess
  if (s.chanJob.find brnChan).isSome then ({ s with chanJob := s.chanJob.erase brnChan } : State).chanClear brnChan else s

/-! ### REGISTER, VALUES, UPDATE, RELEASE (R272 to R274, R283) -/

/-- Words of a byte list as int32. -/
def wordList (n : Nat) (l : List Byte) : List Int := (leList 4 n l).map (fun v => sext 32 v)

/-- REGISTER: structure and program are copied, memory is allocated; the words of new slots are free values (log entry 47). -/
def execBrnRegister (job : Nat) (s : State) : Res :=
  s.brnDo job 1 (fun s j i =>
    if !s.brnTurn i job then .next s
    else if j.param.isEmpty then .next (s.finishOk j)
    else if (s.prob i).isSome then .next (s.refuse j ⟨stWrongState, 4 * 256 + s.probState i⟩)
    else
      let r := j.param.take 256
      let p := slice j.param 256 (16 * recSteps r)
      let rp := slice j.param (256 + 16 * recSteps r) (4 * (recN r + 1))
      let cols := j.param.drop (256 + 16 * recSteps r + 4 * (recN r + 1))
      let rows := csrRows (leList 4 (recN r + 1) rp) (leList 2 (recNnz r) cols)
      let units := memUnits r rows
      let left := s.rd Reg.BRN_MEM_FREE_4K
      if left < units then .next (s.refuse j ⟨stNoResource, 0⟩)
      else
        let keep := !recStreamed r
        let slots : Tbl (List Int) := ⟨(List.range (recUser r)).map (fun k =>
          (k, (List.range (recN r)).map (fun e => sext 32 (bits (Config.free (s.free + k)) (32 * e) 32))))⟩
        let x : BrnProb := ⟨1, j.context, r, p, if keep then rp else [], if keep then cols else [], [], (0, 0),
          structSig (recN r) rp cols, slots, .empty, [], [], true, none, 0, 0, [], none, none⟩
        let s := { s with free := s.free + recUser r }
        let s := ((s.setProb i x).wr Reg.BRN_PROB_ALLOC_4K units i).wr Reg.BRN_MEM_FREE_4K (left - units)
        .next (s.finishOk j))

/-- The matrix values of a problem replaced: the problem is READY, its preconditioner stale. -/
def BrnProb.withValues (p : BrnProb) (l : List Byte) (place : Nat × Nat) (bad : Bool) : BrnProb :=
  { p with vals := l, valsAt := place, stale := true, state := 2,
           poison := p.poison.filter (· != 8) ++ (if bad then [8] else []) }

/-- VALUES: copied when resident, recorded when streamed (Table BRN-2). -/
def execBrnValues (job : Nat) (s : State) : Res :=
  s.brnDo job 2 (fun s j i =>
    if !s.brnTurn i job ∨ s.brnTaken job then .next s
    else
      let len := j.arg 36 4
      let a := j.arg 40 8
      if len = 0 then .next (s.finishOk j)
      else match s.prob i with
      | none => .next (s.refuse j ⟨stWrongState, 4 * 256⟩)
      | some p =>
        if len ≠ 4 * recNnz p.record then .next (s.refuse j ⟨stBadLength, 36⟩)
        else if recCommons p.record ∧ commonsBytes < a + len then .next (s.refuse j ⟨stBadField, 40⟩)
        else if recStreamed p.record then .next ((s.setProb i (p.withValues [] (j.context, a) false)).finishOk j)
        else match s.brnRead false j.context job a len with
          | (s, .error f) => .next (s.brnFault job j.context j.tag f)
          | (s, .ok (l, bad)) => .next ((s.brnFree.setProb i (p.withValues l (j.context, a) bad)).finishOk j))

/-- UPDATE writes words into a user slot and gives it the block's signature (R283). -/
def execBrnUpdate (job : Nat) (s : State) : Res :=
  s.brnDo job 3 (fun s j i =>
    if !s.brnTurn i job then .next s
    else if j.param.isEmpty then .next (s.finishOk j)
    else match s.prob i with
    | none => .next (s.refuse j ⟨stWrongState, 4 * 256⟩)
    | some p =>
      let l := j.param
      let slot := fld l 0 1
      let first := fld l 4 4
      let count := fld l 8 4
      if recN p.record < first + count then .next (s.refuse j ⟨stBadLength, 0x8008⟩)
      else if recUser p.record ≤ slot then .next (s.refuse j ⟨stBadField, 0x8000⟩)
      else if p.state = 3 then .next (s.refuse j ⟨stWrongState, 4 * 256 + 3⟩)
      else if count = 0 then .next (s.finishOk j)
      else
        let old := p.slots.get [] slot
        let new := old.take first ++ wordList count (l.drop 32) ++ old.drop (first + count)
        let poison := if count = recN p.record then p.poison.filter (· != slot) else p.poison
        let p := { p with slots := p.slots.set slot new, poison := poison,
                          sigs := p.sigs.set slot (fld l 16 4 + 2 ^ 32 * fld l 24 8) }
        .next ((s.setProb i p).finishOk j))

/-- RELEASE frees a problem that is not armed and has no run (Table BRN-2, R272). -/
def execBrnRelease (job : Nat) (s : State) : Res :=
  s.brnDo job 7 (fun s j i =>
    if (s.brnAhead i job).any (fun k => k.arg 32 1 == 4) then
      .next (s.refuse j ⟨stWrongState, 4 * 256 + s.probState i⟩)
    else if !s.brnTurn i job then .next s
    else match s.prob i with
    | none => .next (s.refuse j ⟨stWrongState, 4 * 256⟩)
    | some p =>
      if p.armed.isSome then .next (s.refuse j ⟨stWrongState, 4 * 256 + p.state⟩)
      else
        let left := s.rd Reg.BRN_MEM_FREE_4K + s.rd Reg.BRN_PROB_ALLOC_4K i
        let s := ({ s with brn := { s.brn with probs := s.brn.probs.erase i } } : State).showProb i
        .next (((s.wr Reg.BRN_PROB_ALLOC_4K 0 i).wr Reg.BRN_MEM_FREE_4K left).finishOk j))

/-! ### RUN, ARM, DISARM, triggers (R284 to R286) -/

/-- RUN queues one run of the program. -/
def execBrnRun (job : Nat) (s : State) : Res :=
  s.brnDo job 4 (fun s j i =>
    if !s.brnTurn i job then .next s
    else match s.prob i with
    | none => .next (s.refuse j ⟨stWrongState, 4 * 256⟩)
    | some p =>
      if p.state ≠ 2 then .next (s.refuse j ⟨stWrongState, 4 * 256 + p.state⟩)
      else if p.queued.contains job then .next s
      else .next (s.setProb i { p with queued := p.queued ++ [job] }))

/-- ARM starts triggering and completes at once (R284, R286). -/
def execBrnArm (job : Nat) (s : State) : Res :=
  s.brnDo job 5 (fun s j i =>
    if !s.brnTurn i job then .next s
    else match s.prob i with
    | none => .next (s.refuse j ⟨stWrongState, 4 * 256⟩)
    | some p =>
      if p.state ≠ 2 ∨ p.armed.isSome then .next (s.refuse j ⟨stWrongState, 4 * 256 + p.state⟩)
      else .next ((s.setProb i { p with armed := some j, vNext := j.arg 48 8 }).finishOk j))

/-- DISARM ends triggering; a triggered run not yet started completes ABORTED (R286). It does not wait for triggered runs. -/
def execBrnDisarm (job : Nat) (s : State) : Res :=
  s.brnDo job 6 (fun s j i =>
    match s.prob i with
    | none => if s.brnTurn i job then .next (s.refuse j ⟨stWrongState, 4 * 256⟩) else .next s
    | some p =>
      if (s.brnAhead i job).any (fun k => !k.freed) then .next s
      else if p.armed.isNone then .next (s.refuse j ⟨stWrongState, 4 * 256 + p.state⟩)
      else
        let left := p.queued.filter (fun q => decide (some q ≠ p.trigRun))
        let s := (s.setProb i { p with armed := none, trigRun := none, queued := left }).finishOk j
        match p.trigRun.bind s.job with
        | some k => .next (s.finishQuiet k stAborted 0 0)
        | none => .next s)

/-- The job of a triggered run: the ARM descriptor as a RUN without wait and signal, accepted now (R271, R286; log entry 48). -/
def State.trigJob (s : State) (a : Job) (taint : List Taint) : Job :=
  let d := patch (patch (patch (patch a.desc 32 (le 1 4)) 16 (le 4 0xFFFFFFFF)) 24 (zeros 8)) 48 (zeros 8)
  ⟨s.nextJob, a.ring, d, [], .started, s.ticks, s.dt64, s.ticks, 0, none, 0, none, s.live taint, true, false⟩

/-- The value of trig_obj has reached v_next: one run is queued, or an overrun is counted (R284, R285); a run whose trigger
carries an epoch that has been retracted ends RETRACTED at once (R294, R436). -/
def execBrnTrigger (prob : Fin 8) (s : State) : Res :=
  let i := prob.val
  match s.prob i with
  | none => .next s
  | some p =>
    match p.armed with
    | none => .next s
    | some a =>
      let o := recTrig p.record
      let v := (s.obj o).value
      if o = 0xFFFF ∨ v < p.vNext ∨ !s.unitUp brnUnit then .next s
      else
        let skipped := v - p.vNext + p.trigRun.isSome.toNat
        let s := if skipped = 0 then s else s.bump Reg.BRN_CNT_TRIG_OVERRUNS 0 skipped
        if p.trigRun.isSome then .next (s.setProb i { p with vNext := v + 1 })
        else
          let j := s.trigJob a (s.obj o).taint
          match s.retractedIn j.taint with
          | some (m, k) =>
            let s := { s with nextJob := s.nextJob + 1 }
            .next ((s.setProb i { p with vNext := v + 1 }).retractJob j m k)
          | none =>
            let s := ({ s with jobs := s.jobs ++ [j], nextJob := s.nextJob + 1 } : State).showCtx j.context
            .next (s.setProb i { p with vNext := v + 1, queued := p.queued ++ [j.id], trigRun := some j.id })

/-! ### Completion of a run (R292, Table BRN-8) -/

/-- The burnisher is free: no run executes. -/
def State.brnIdle (s : State) : State :=
  let c := s.brn.cur
  let s := ({ s.brnNoAccess with brn := { s.brnNoAccess.brn with cur := none }, chanJob := s.chanJob.erase brnChan } : State).chanClear
    brnChan
  match c with | some i => s.showProb i | none => s

/-- A started run ends: RUNS counts it, and the problem has no run any longer. -/
def State.brnLeave (s : State) (i : Nat) (p : BrnProb) : State :=
  (s.brnIdle.setProb i { p with run := none }).bump Reg.BRN_CNT_RUNS

/-- A run completes with its stop reason (Table BRN-8). -/
def State.brnComplete (s : State) (i : Nat) (p : BrnProb) (r : BrnRun) : State :=
  let s := s.brnLeave i p
  let s := if r.reason = srDeadline then s.bump Reg.BRN_CNT_DEADLINES
           else if r.reason = srBreakdown then s.bump Reg.BRN_CNT_BREAKDOWNS else s
  match s.job r.job with
  | none => s
  | some j =>
    let status := if r.reason = srDeadline then stDeadline else if r.reason = srBreakdown then stBadField else stOk
    s.finish j status (r.iters % 2 ^ 32) (r.resid + r.reason * 2 ^ 32 + r.stopStep * 2 ^ 40 + r.no % 65536 * 2 ^ 48)

/-- A detection stops or reruns a run. In structure, values, preconditioner or program: a rerun with REFETCH, at most twice,
otherwise DATA_ERROR and STALE (R295). In a slot or workspace word: DATA_ERROR, and every slot the run has written takes the
null signature (R296). -/
def State.brnDetected (s : State) (i : Nat) (p : BrnProb) (r : BrnRun) (det : BrnDet) : State :=
  let s := (s.brnFree.sramDetect brnUnit (if det = .source then 2 else 3) (s.freeVal 22) false).usedFree
  if det = .source ∧ recRefetch p.record ∧ r.retries < 2 then
    let r := { r with step := 0, passes := .empty, inputs := 0, late := false, reason := 0, iters := 0, resid := notComputed,
                      retries := r.retries + 1, refetch := true, touched := [], solve := none }
    ((s.bump Reg.BRN_CNT_RECOMPUTES).addFlag r.job cfRecomputed).setProb i
      { p with slots := r.snapSlots, sigs := r.snapSigs, stale := true, run := some r }
  else
    let p := if det = .source then { p with state := 3, vals := [], stale := true }
             else { p with sigs := r.touched.foldl (fun (t : Tbl Nat) k => t.set k 0) p.sigs }
    let s := s.brnLeave i p
    match s.job r.job with
    | some j => s.finishQuiet j stDataErr 0 0
    | none => s

/-- Every run accepted and not completed ends UNIT_OFFLINE; the problems are kept (R299). -/
def State.brnOffline (s : State) : State :=
  let s := s.brnIdle
  (s.jobs.filter (fun j => brnOp j && j.arg 32 1 == 4)).foldl (fun s j =>
    (s.dropRun j.id).finishQuiet j stUnitOffline 0 0) s

/-- The current run loses its grant and keeps its state (R298). -/
def State.brnWithdraw (s : State) (r : BrnRun) : State :=
  match s.job r.job with
  | some j => s.brnIdle.setJob { j with phase := .saved, runTicks := s.jobTicks j }
  | none => s.brnIdle

/-- The current run. -/
def State.brnCur (s : State) : Option (Nat × BrnProb × BrnRun × Job) := do
  let i ← s.brn.cur
  let p ← s.prob i
  let r ← p.run
  let j ← s.job r.job
  pure (i, p, r, j)

/-- A run's deadline has come, and it has not stopped for it yet. -/
def State.brnDue (s : State) (r : BrnRun) : Bool :=
  !r.late && (match r.deadline with | some d => decide (d ≤ s.dt64) | none => false)

/-- The current run's step `op` may execute: the inputs are read, no fault is held, the unit works, the partition holds the
burnisher, and no deadline is due. Otherwise the state that this finds (R297 to R299). -/
def State.brnStep (s : State) (op : Nat) (go : State → Nat → BrnProb → BrnRun → Job → State) : Res :=
  match s.brnCur with
  | none => .next s
  | some (i, p, r, j) =>
    if (s.unit brnUnit).offline then .next s.brnOffline
    else if s.brnTaken j.id ∨ !s.unitUp brnUnit ∨ s.gated islBrn then .next s
    else if !s.brnGranted j.part then .next (s.brnWithdraw r)
    else if s.brnDue r ∨ r.inputs < 4 ∨ r.refetch then .next s
    else
      let here := if r.step < recSteps p.record then stOp p.program r.step else opEnd
      if here = op then .next (go s i p r j) else .next s

/-- The run with its next step. -/
def State.brnNext (s : State) (i : Nat) (p : BrnProb) (r : BrnRun) (step : Nat) : State :=
  s.setProb i { p with run := some { r with step := step } }

/-- The first step from `k` on that a run stopped by its deadline still executes: an OUT whose policy includes DEADLINE. -/
def lateStep (r p : List Byte) (k : Nat) : Nat :=
  (((List.range (recSteps r)).filter (fun i => decide (k ≤ i) && stOp p i == opOut && bit (outPolicy r (stB p i)) 2)).head?).getD
    (recSteps r)

/-- A run stops for its deadline with steps from `k` on to follow (text after R291). -/
def BrnRun.stopLate (r : BrnRun) (rec prog : List Byte) (k : Nat) : BrnRun :=
  { r with late := true, reason := srDeadline, stopStep := r.step, step := lateStep rec prog k }

/-- The output time of a job that has written none is the time at which its run stopped (R292). -/
def State.stoppedAt (s : State) (id : Nat) : State :=
  { s with jobs := s.jobs.map (fun k => if k.id = id ∧ k.outAt.isNone then { k with outAt := some s.dt64 } else k) }

/-! ### Starting a run and its inputs (R282, R287) -/

/-- An input entry is read into its slot, which takes the problem's signature; none when a fault holds the run. -/
def State.brnInput (s : State) (i k : Nat) : State × Bool :=
  match s.prob i with
  | none => (s, true)
  | some p =>
    match p.run with
    | none => (s, true)
    | some r =>
      if inKind p.record k = 0 then (s, true)
      else match s.job r.job with
        | none => (s, true)
        | some j =>
          match s.brnRead (inKind p.record k == 2) p.context j.id (inAddr p.record k) (4 * inCount p.record k) with
          | (s, .error f) => (s.brnFault j.id p.context j.tag f, false)
          | (s, .ok (l, bad)) =>
            let slot := inSlot p.record k
            let n := inCount p.record k
            let new := wordList n l ++ (p.slots.get [] slot).drop n
            let keep := if n = recN p.record then p.poison.filter (· != slot) else p.poison
            let p := { p with slots := p.slots.set slot new, sigs := p.sigs.set slot p.sig,
                              poison := if bad then slot :: keep else keep,
                              run := some { r with touched := slot :: r.touched } }
            (s.brnNoAccess.setProb i p, true)

/-- The inputs not yet read, in entry order; `n` bounds them. -/
def State.brnInputs (i : Nat) : Nat → State → State
  | 0, s => s
  | n + 1, s =>
    match (s.prob i).bind (·.run) with
    | none => s
    | some r =>
      if 4 ≤ r.inputs then s
      else match s.brnInput i r.inputs with
        | (s, false) => s
        | (s, true) =>
          match s.prob i with
          | none => s
          | some p => State.brnInputs i n (s.setProb i { p with run := p.run.map (fun x => { x with inputs := x.inputs + 1 }) })

/-- Structure and values are fetched again (R295); false when a fault holds the run. -/
def State.brnRefetch (s : State) (i : Nat) (p : BrnProb) (r : BrnRun) : State × Bool :=
  let rec_ := p.record
  let done := fun (s : State) (p : BrnProb) => (s.brnNoAccess.setProb i { p with stale := true, run := some { r with refetch := false } }, true)
  if recStreamed rec_ then done s p
  else match s.brnRead false p.context r.job (fld rec_ 32 8) (4 * (recN rec_ + 1)) with
    | (s, .error f) => (s.brnFault r.job p.context ((s.job r.job).elim 0 Job.tag) f, false)
    | (s, .ok (rp, b1)) =>
      match s.brnRead false p.context r.job (fld rec_ 40 8) (2 * recNnz rec_) with
      | (s, .error f) => (s.brnFault r.job p.context ((s.job r.job).elim 0 Job.tag) f, false)
      | (s, .ok (cols, b2)) =>
        match s.brnRead false p.valsAt.1 r.job p.valsAt.2 (4 * recNnz rec_) with
        | (s, .error f) => (s.brnFault r.job p.valsAt.1 ((s.job r.job).elim 0 Job.tag) f, false)
        | (s, .ok (v, b3)) =>
          done s { p with rowptr := rp, cols := cols, vals := v,
                          poison := p.poison.filter (· != 8) ++ (if b1 || b2 || b3 then [8] else []) }

/-- The channel is free again once every input has been read. -/
def State.brnFreed (s : State) (i : Nat) : State :=
  match (s.prob i).bind (·.run) with
  | some r => if r.inputs = 4 then s.brnFree else s
  | none => s

/-- What the current run still reads at its start: data to be fetched again, then the inputs. -/
def State.brnBegin (s : State) (i : Nat) (det : BrnDet) : State :=
  match s.prob i with
  | none => s
  | some p =>
    match p.run with
    | none => s
    | some r =>
      if det ≠ .none then s.brnDetected i p r det
      else
        let (s, ok) := if r.refetch then s.brnRefetch i p r else (s, true)
        if ok then (State.brnInputs i 4 s).brnFreed i else s

/-- Whether a queued or stopped run may execute now, with its rank: the partition's priority, then acceptance (R287). -/
def State.brnReady (s : State) : List (Nat × Nat × Nat) :=
  (List.range 8).filterMap (fun i =>
    match s.prob i with
    | none => none
    | some p =>
      let id := match p.run with | some r => some r.job | none => p.queued.head?
      match id.bind s.job with
      | none => none
      | some j => if s.brnGranted j.part && (p.run.isSome || s.brnTurn i j.id) then some (i, s.partRec j.part 1 1, j.id) else none)

/-- The first of the runs ready. -/
def brnFirst (l : List (Nat × Nat × Nat)) : Option (Nat × Nat × Nat) :=
  l.foldl (fun b x => match b with
    | none => some x
    | some y => if x.2.1 < y.2.1 ∨ (x.2.1 = y.2.1 ∧ x.2.2 < y.2.2) then some x else some y) none

/-- A queued run starts: its number, its deadline, its charge; when the deadline has passed only OUT steps follow. -/
def State.brnStartRun (s : State) (i : Nat) (p : BrnProb) (j : Job) : State :=
  let rel := recRel p.record
  let deadline := if j.arg 48 8 ≠ 0 then some (j.arg 48 8) else if rel ≠ 0 then some (j.atNs + rel) else none
  let r : BrnRun := ⟨j.id, p.runs + 1, 0, .empty, 0, deadline, false, 0, 0, notComputed, 0, 0, false, p.slots, p.sigs, [], none⟩
  let due := s.brnDue r
  let r := if due then { r.stopLate p.record p.program 0 with inputs := 4 } else r
  let p := { p with runs := p.runs + 1, queued := p.queued.filter (· != j.id), run := some r,
                    trigRun := if p.trigRun = some j.id then none else p.trigRun }
  let s := s.beginJob j .running
  let s := ({ s with brn := { s.brn with cur := some i } } : State).chanStart brnChan p.context 0 0 j.tag false
  let s := s.setProb i p
  if due then s.stoppedAt j.id else s

/-- The burnisher starts the first of the ready runs, or lets one that lost its grant go on, and reads its inputs (R282, R287,
R298); a run held at an input read goes on here. -/
def execBrnRunStart (det : BrnDet) (s : State) : Res :=
  if (s.unit brnUnit).offline then .next s.brnOffline
  else if s.brnTaken ((s.brnCur).elim s.nextJob (·.2.2.1.job)) ∨ !s.unitUp brnUnit ∨ s.sliced brnUnit ∨ s.gated islBrn then .next s
  else match s.brnCur with
  | some (i, _, r, _) => if (r.inputs < 4 ∨ r.refetch) ∧ !s.brnDue r then .next (s.brnBegin i det) else .next s
  | none =>
    match brnFirst s.brnReady with
    | none => .next s
    | some (i, _, id) =>
      match s.prob i, s.job id with
      | some p, some j =>
        match p.run with
        | some _ =>
          let s := s.setJob { j with phase := .running, startTick := s.ticks }
          let s := ({ s with brn := { s.brn with cur := some i } } : State).chanStart brnChan p.context 0 0 j.tag false
          .next (s.showProb i)
        | none =>
          if s.flag Reg.BRN_CTRL_HOLD then .next s
          else if p.state ≠ 2 then .next ((s.dropRun id).refuse j ⟨stWrongState, 4 * 256 + p.state⟩)
          else
            let s := s.brnStartRun i p j
            match s.brnCur with
            | some (_, _, r, _) => if r.late then .next s else .next (s.brnBegin i det)
            | none => .next s
      | _, _ => .next s

/-! ### Steps (R277 to R281, R288 to R291) -/

/-- The matrix of a problem from its words. -/
def matOf (r rp cols vals : List Byte) : Mat :=
  let v := wordList (recNnz r) vals
  let v := v.toArray
  ⟨(csrRows (leList 4 (recN r + 1) rp) (leList 2 (recNnz r) cols)).map (fun l =>
    l.map (fun e => (e.1, v.getD e.2 0))), recQ r 13⟩

/-- The matrix of the current run's problem, and whether its words are failed: resident, or streamed from its arrays. -/
def State.brnMat (s : State) (p : BrnProb) (j : Job) : State × Except (Nat × Nat) (Mat × Bool) :=
  let r := p.record
  let com := recCommons r
  if !recStreamed r then (s, .ok (matOf r p.rowptr p.cols p.vals, p.poison.contains 8))
  else match s.brnRead com p.context j.id (fld r 32 8) (4 * (recN r + 1)) with
    | (s, .error f) => (s, .error f)
    | (s, .ok (rp, b1)) =>
      match s.brnRead com p.context j.id (fld r 40 8) (2 * recNnz r) with
      | (s, .error f) => (s, .error f)
      | (s, .ok (cols, b2)) =>
        match s.brnRead com p.valsAt.1 j.id p.valsAt.2 (4 * recNnz r) with
        | (s, .error f) => (s, .error f)
        | (s, .ok (v, b3)) => (s, .ok (matOf r rp cols v, b1 || b2 || b3))

/-- A slot's words and its format. -/
def BrnProb.slot (p : BrnProb) (i : Nat) : List Int := p.slots.get [] i
def BrnProb.q (p : BrnProb) (i : Nat) : Int := recQUser p.record i

/-- The detection met by a step: the one reported, or a poisoned slot or value that it reads (R446). -/
def BrnProb.found (p : BrnProb) (det : BrnDet) (srcs : List Nat) (bad : Bool) : BrnDet :=
  if bad || det == .source then .source
  else if det == .work || srcs.any p.poison.contains then .work else .none

/-- A slot written whole: its words, the problem's signature, no poison (R281, R291). -/
def BrnProb.put (p : BrnProb) (r : BrnRun) (i : Nat) (l : List Int) : BrnProb :=
  { p with slots := p.slots.set i l, sigs := p.sigs.set i p.sig, poison := p.poison.filter (· != i),
           run := some { r with touched := i :: r.touched } }

/-- Saturations are counted and mark the job (R269). -/
def State.brnSats (s : State) (id n : Nat) : State :=
  if n = 0 then s else (s.bump Reg.BRN_CNT_SATURATIONS 0 n).addFlag id cfSaturated

/-- A breakdown ends the run (R266, R288). -/
def State.brnBroken (s : State) (i : Nat) (p : BrnProb) (r : BrnRun) (iters : Nat) : State :=
  s.brnComplete i p { r with reason := srBreakdown, iters := iters, resid := notComputed, stopStep := r.step }

/-- A step that writes one slot from others, elementwise; `mat` says that it uses the matrix. -/
def State.brnVector (s : State) (i : Nat) (p : BrnProb) (r : BrnRun) (j : Job) (det : BrnDet) (mat : Bool) (srcs : List Nat)
    (f : Mat → Brn (List Int)) : State :=
  let (s, m) := if mat then s.brnMat p j else (s, .ok (⟨[], 0⟩, false))
  match m with
  | .error e => s.brnFault j.id p.context j.tag e
  | .ok (a, bad) =>
    let s := s.brnFree
    let d := p.found det srcs bad
    if d ≠ .none then s.brnDetected i p r d
    else match (f a).run.run ⟨0, 0, [], 0⟩ with
      | (.error _, g) => (s.brnSats j.id g.sats).brnBroken i p r r.iters
      | (.ok l, g) =>
        let s := s.brnSats j.id g.sats
        let p := p.put r (stDst p.program r.step) l
        match p.run with
        | some r => s.brnNext i p r (r.step + 1)
        | none => s

/-- SPMV: dst := A a (R281). -/
def execBrnSpmv (det : BrnDet) (s : State) : Res :=
  s.brnStep opSpmv (fun s i p r j =>
    let g := p.program
    s.brnVector i p r j det true [stA g r.step] (fun a => a.mul (p.slot (stA g r.step)) (p.q (stA g r.step)) (p.q (stDst g r.step))))

/-- AXPBY: dst := s1 a + s2 b (R281). -/
def execBrnAxpby (det : BrnDet) (s : State) : Res :=
  s.brnStep opAxpby (fun s i p r j =>
    let g := p.program
    let a := stA g r.step
    let b := stB g r.step
    s.brnVector i p r j det false [a, b] (fun _ => do
      let x ← scConst (stS1 g r.step)
      let y ← scConst (stS2 g r.step)
      comb (recN p.record) (p.q (stDst g r.step)) [(x, p.slot a, p.q a), (y, p.slot b, p.q b)]))

/-- The smaller and the larger of two values v * 2^-q. -/
def fixLe (x y : Int × Int) : Bool := decide (x.1 * 2 ^ (y.2 - min x.2 y.2).toNat ≤ y.1 * 2 ^ (x.2 - min x.2 y.2).toNat)
def fixMax (x y : Int × Int) : Int × Int := if fixLe x y then y else x
def fixMin (x y : Int × Int) : Int × Int := if fixLe x y then x else y

/-- CLAMP: dst := min(max(a, b), slot aux), elementwise (R281). -/
def execBrnClamp (det : BrnDet) (s : State) : Res :=
  s.brnStep opClamp (fun s i p r j =>
    let g := p.program
    let a := stA g r.step
    let b := stB g r.step
    let c := stAux g r.step
    s.brnVector i p r j det false [a, b, c] (fun _ => (List.range (recN p.record)).mapM (fun e =>
      fixWord (p.q (stDst g r.step))
        [fixMin (fixMax (vec (p.slot a) e, p.q a) (vec (p.slot b) e, p.q b)) (vec (p.slot c) e, p.q c)])))

/-- COPY: dst := a (R281). -/
def execBrnStepCopy (det : BrnDet) (s : State) : Res :=
  s.brnStep opCopy (fun s i p r j =>
    let g := p.program
    let a := stA g r.step
    s.brnVector i p r j det false [a] (fun _ => (p.slot a).mapM (fun v => fixWord (p.q (stDst g r.step)) [(v, p.q a)])))

/-- The system of a SOLVE step. -/
def BrnProb.solve (p : BrnProb) (r : BrnRun) (a : Mat) (x0 : List Int) (env : SolveEnv) : Solve :=
  let g := p.program
  let rc := p.record
  ⟨a, ⟨fld rc 0 1, fld rc 1 1, fld rc 2 1, recQ rc 14⟩, p.pre, (List.range 7).map (fun k => recQ rc (24 + k)),
   p.slot (stA g r.step), p.q (stA g r.step), x0, p.q (stDst g r.step), stS1 g r.step, stCount g r.step,
   if r.deadline.isSome then env.stopAt else none, env.rows, env.upTo⟩

/-- The factor area of a streamed IC(0) problem is written at its build; the spec does not lay its words out (log entry 49). -/
def State.brnFactor (s : State) (p : BrnProb) (j : Job) (a : Mat) (built : Bool) : State × Option (Nat × Nat) :=
  let r := p.record
  if recStreamed r ∧ fld r 1 1 = 3 ∧ built then
    let n := preWords r (a.rows.map (fun l => l.map (fun e => (e.1, 0))))
    s.usedFree.brnWrite p.context j.id (fld r 48 8) (le (4 * n) (Config.free s.free))
  else (s, none)

/-- A SOLVE step begins: a warm start counts only when the slot's signature is the problem's (R291). -/
def State.brnSolveBegin (s : State) (p : BrnProb) (r : BrnRun) (j : Job) : State × SolveSt :=
  match r.solve with
  | some st => (s, st)
  | none =>
    let dst := stDst p.program r.step
    let warm := bit (stFlags p.program r.step) 0
    let good := warm && p.sigs.get 0 dst == p.sig
    let x0 := if good then p.slot dst else List.replicate (recN p.record) 0
    (if warm && !good then (s.bump Reg.BRN_CNT_WARM_REJECTS).addFlag j.id cfWarmRejected else s,
     ⟨good, x0, .begun, 0, x0, notComputed⟩)

/-- What a SOLVE leaves (R288 to R291), or where it stands at a boundary (R298). -/
def State.brnSolved (s : State) (i : Nat) (p : BrnProb) (r : BrnRun) (j : Job) (st : SolveSt) (x : Solved) : State :=
  let s := (s.brnSats j.id x.sats).bump Reg.BRN_CNT_ITERATIONS 0 (x.iters - st.iters)
  let p := match x.built with | some w => { p with pre := w, stale := false } | none => p
  match x.paused with
  | some at' =>
    s.setProb i { p with run := some { r with solve := some { st with phase := at', iters := x.iters, x := x.x, res := x.res } } }
  | none =>
    let p := p.put r (stDst p.program r.step) x.x
    match p.run with
    | none => s
    | some r =>
      if x.reason = srBreakdown then s.brnBroken i p r x.iters
      else
        let r := { r with reason := x.reason, iters := x.iters, resid := x.res, solve := none }
        if x.reason = srDeadline then
          ((s.setProb i { p with run := some (r.stopLate p.record p.program (r.step + 1)) })).stoppedAt j.id
        else s.brnNext i p r (r.step + 1)

/-- SOLVE (R277 to R279, R288 to R291), from where it stands to its end or to a boundary where it stops (R298). A detection in
a slot or workspace word takes the signature of the x slot, which the SOLVE writes (R296). -/
def execBrnSolve (env : SolveEnv) (s : State) : Res :=
  s.brnStep opSolve (fun s i p r j =>
    let g := p.program
    let dst := stDst g r.step
    let (s, st) := s.brnSolveBegin p r j
    let r := { r with solve := some st }
    let p := { p with run := some r }
    let s := s.setProb i p
    match s.brnMat p j with
    | (s, .error f) => s.brnFault j.id p.context j.tag f
    | (s, .ok (a, bad)) =>
      let d := p.found env.det (stA g r.step :: (if st.warm then [dst] else [])) bad
      if d ≠ .none then s.brnDetected i p { r with touched := dst :: r.touched } d
      else
        let x := runSolve (p.solve r a st.x0 env) p.stale st
        match s.brnFactor p j a x.built.isSome with
        | (s, some f) => s.brnFault j.id p.context j.tag f
        | (s, none) => s.brnFree.brnSolved i p r j st x)

/-- LOOP: while the pass counter is below count, it is incremented and the run continues at the target (Table BRN-7). -/
def execBrnLoop (s : State) : Res :=
  s.brnStep opLoop (fun s i p r _ =>
    let c := r.passes.get 0 r.step
    if c < stCount p.program r.step then
      s.brnNext i p { r with passes := r.passes.set r.step (c + 1) } (stAux p.program r.step)
    else s.brnNext i p r (r.step + 1))

/-- The squared norms of a - b and of b as scalars. -/
def testNorms (p : BrnProb) (a b : Nat) : Brn (Sc × Sc) := do
  let q := max (p.q a) (p.q b)
  let d := (List.range (recN p.record)).map (fun e =>
    vec (p.slot a) e * 2 ^ (q - p.q a).toNat - vec (p.slot b) e * 2 ^ (q - p.q b).toNat)
  let dd ← dot d q d q
  let bb ← dot (p.slot b) (p.q b) (p.slot b) (p.q b)
  return (dd, bb)

/-- TEST: the run continues at the target when the difference is small enough (Table BRN-7). -/
def execBrnTest (det : BrnDet) (s : State) : Res :=
  s.brnStep opTest (fun s i p r j =>
    let g := p.program
    let a := stA g r.step
    let b := stB g r.step
    let d := p.found det [a, b] false
    if d ≠ .none then s.brnDetected i p r d
    else
      let body : Brn Bool := do
        let n ← testNorms p a b
        let t ← threshold (stS1 g r.step) n.2
        return scLe n.1 t
      match body.run.run ⟨0, 0, [], 0⟩ with
      | (.error _, x) => (s.brnSats j.id x.sats).brnBroken i p r r.iters
      | (.ok yes, x) => (s.brnSats j.id x.sats).brnNext i p r (if yes then stAux g r.step else r.step + 1))

/-- Words for a margin-guard path: delivered, or held while the job's taint has not committed, at most 4,096 per path
(R294, R438, R439, R495). -/
def State.brnDeliver (s : State) (id path first : Nat) (words : List Int) (point : Int) (taint : List Taint) : State :=
  if taint.isEmpty then s.feedPath path ⟨words.zipIdx.map (fun w => (first + w.2, w.1))⟩ point
  else
    let step := (s.ring.held.foldl (fun m h => max m h.step) 0) + 1
    let room := 4096 - (s.ring.held.filter (fun h => h.path == path)).length
    let new := ((words.zipIdx).take room).map (fun w => (⟨path, first + w.2, w.1, point, step, id, taint⟩ : HeldWord))
    let s := { s with ring := { s.ring with held := s.ring.held ++ new } }
    if room < words.length then (s.bump Reg.RNG_CNT_HOLD_DROPS 0 (words.length - room)).addFlag id cfDropped else s

/-- An OUT step executes: its words go to the target, and its sync object is signalled (R293). -/
def State.brnOutput (s : State) (i : Nat) (p : BrnProb) (r : BrnRun) (j : Job) (next : Nat) : State :=
  let g := p.program
  let rc := p.record
  let t := stB g r.step
  let first := stAux g r.step * 32
  let a := stA g r.step
  if p.poison.contains a then s.brnDetected i p r .work
  else
    let words := ((p.slot a).drop first).take (stCount g r.step)
    let data := words.flatMap (fun w => le 4 (toU 32 w))
    let fin := fun (s : State) =>
      ((s.brnFree.wroteOut j.id).signal (outSync rc t) 1 j.taint).brnNext i p r next
    match outKind rc t with
    | 1 =>
      match s.brnWrite p.context j.id (outAddr rc t + 4 * first) data with
      | (s, some f) => s.brnFault j.id p.context j.tag f
      | (s, none) => fin s
    | 2 => fin (s.store (gaddr spCommons (outAddr rc t + 4 * first)) data)
    | _ => fin (s.brnDeliver j.id (outPath rc t) first words (p.q a) j.taint)

/-- OUT: executed when the target's policy includes the stop reason of the latest SOLVE, CONVERGED when there was none (R293). -/
def execBrnOut (s : State) : Res :=
  s.brnStep opOut (fun s i p r j =>
    let next := if r.late then lateStep p.record p.program (r.step + 1) else r.step + 1
    if bit (outPolicy p.record (stB p.program r.step)) r.reason then s.brnOutput i p r j next
    else s.brnNext i p r next)

/-- UPDATE_IN reads an input entry into its slot now (R282). -/
def execBrnUpdateIn (s : State) : Res :=
  s.brnStep opUpdateIn (fun s i p r _ =>
    match s.brnInput i (stA p.program r.step) with
    | (s, false) => s
    | (s, true) =>
      let s := s.brnFree
      match s.prob i with
      | none => s
      | some p => match p.run with | some x => s.brnNext i p x (x.step + 1) | none => s)

/-- END, or the end of the program: the run completes (R292). -/
def execBrnEnd (s : State) : Res :=
  s.brnStep opEnd (fun s i p r _ => s.brnComplete i p (if r.late then r else { r with stopStep := r.step }))

/-- What the x slot of a SOLVE step that has begun takes when its run stops for the deadline: the last complete iterate with
its residual, or the start value when iterate 0 is not complete (R289, R290). -/
def BrnProb.putIterate (p : BrnProb) (r : BrnRun) : BrnProb × BrnRun :=
  match r.solve with
  | none => (p, r)
  | some st =>
    let dst := stDst p.program r.step
    (p.put r dst st.x, { r with iters := st.iters, resid := st.res, solve := none, touched := dst :: r.touched })

/-- A run's deadline arrives between its steps, within a SOLVE that has stopped at a boundary, while it is held at a fault, or
while it has no grant: only OUT steps with the DEADLINE policy follow (R289, R290, R297, R298). -/
def execBrnDeadline (s : State) : Res :=
  let due := (List.range 8).filterMap (fun i =>
    (s.prob i).bind (fun p => p.run.bind (fun r => if s.brnDue r then some (i, p, r) else none)))
  let mine := due.find? (fun e => s.brn.cur == some e.1)
  match mine.or due.head? with
  | none => .next s
  | some (i, p, r) =>
    let k := if r.inputs < 4 then 0 else if r.solve.isSome then r.step + 1 else r.step
    let (p, r) := p.putIterate r
    let x := { r.stopLate p.record p.program k with inputs := 4, refetch := false }
    let s := if s.brn.cur = some i ∧ s.chanJob.find brnChan = some r.job then
        (({ s.brnNoAccess with chanJob := s.chanJob.erase brnChan } : State).wr Reg.MEM_CH_STATE chRunning brnChan).wr
          Reg.MEM_CH_KIND 0 brnChan
      else s
    .next ((s.setProb i { p with run := some x }).stoppedAt r.job)

end Sys2Proof.Machine
end

