-- ==== Sys2Proof/Machine/Transport.lean ====
section
/-! DEFINITION. Host frames received, sessions, heartbeats and host loss, events, the epoch stream and bulk requests (R377 to
R389, R407 to R413, R526, R543, R545). -/

namespace Sys2Proof.Machine

/-! ### Reception (R377 to R383) -/

/-- Fields of the transport header (Table HST-2). -/
def frType (f : HostFrame) : Nat := fld f.bytes 1 1
def frSession (f : HostFrame) : Nat := fld f.bytes 4 4
def frSeq (f : HostFrame) : Nat := fld f.bytes 8 2
def frLength (f : HostFrame) : Nat := fld f.bytes 14 2

/-- The payload of a device frame. -/
def frPayload (f : HostFrame) : List Byte := (f.bytes.drop 32).take (frLength f)

/-- The length field agrees with the frame, or the frame is padded to the minimum data field (text after R378). -/
def frLengthOk (f : HostFrame) : Bool :=
  let n := 32 + frLength f
  if n < (if f.tagged then 42 else 46) then decide (n ≤ f.bytes.length) else n == f.bytes.length

/-- The types that the host sends (Table HST-3). -/
def hostTypes : List Nat := [0x01, 0x02, 0x10, 0x11, 0x20, 0x30, 0x31, 0x32]

/-- The RELIABLE and STREAM flags of a type that the host sends (Table HST-3). -/
def hostFlags (t : Nat) : Nat :=
  match typeStream t with
  | none => 0
  | some b => 1 + 2 * b.toNat

/-- A port with MACSEC set takes only frames valid under its receive association or the next one (R377, R565). -/
def State.secureOk (s : State) (port : Nat) (f : HostFrame) : Bool :=
  let n := s.sec.rxAssoc.get 0 port
  !s.flag Reg.HTP_PORT_MACSEC port || f.secured == some n || f.secured == some (n + 1)

/-- The first valid frame under the next association moves the receiver to it (R565). -/
def State.rollAssoc (s : State) (port : Nat) (f : HostFrame) : State :=
  let n := s.sec.rxAssoc.get 0 port + 1
  if s.flag Reg.HTP_PORT_MACSEC port ∧ f.secured = some n then
    ({ s with sec := { s.sec with rxAssoc := s.sec.rxAssoc.set port n } } : State).wr Reg.SEC_MACSEC_RX_AN (n % 4) port
  else s

/-- A frame is discarded and counted (R377, R378). In RESTART the session of a HEARTBEAT is not compared (R389). -/
def State.frameBad (s : State) (port : Nat) (f : HostFrame) : Bool :=
  let t := frType f
  !s.secureOk port f || fld f.bytes 0 1 != 1 || f.dst.toNat != s.rd Reg.HTP_MAC_ADDR port ||
  !frLengthOk f || !hostTypes.contains t || fld f.bytes 2 1 % 4 != hostFlags t ||
  (t != 1 && !(t == 2 && s.dev == stRestart) && frSession f != s.rd Reg.HTP_SESSION_ID)

/-- What becomes of a host frame at a port. -/
inductive Rx
  /-- It does not reach the transport: the link is down, or the state discards it uncounted (R388, R389). -/
  | lost
  /-- It is discarded and counted. -/
  | bad
  | taken
  deriving DecidableEq, Repr

def State.rxOf (s : State) (port : Nat) (f : HostFrame) : Rx :=
  if !s.alive || !s.portUp port then .lost
  else if s.frameBad port f then .bad
  else if s.dev == stHostLost && frType f != 1 then .lost
  else if s.dev == stRestart && frType f != 1 && frType f != 2 then .lost
  else .taken

/-- A host frame of type `t` is received: `run` says what a frame that is not discarded does. -/
def State.receive (s : State) (port : Nat) (f : HostFrame) (t : Nat) (run : State → State) : State :=
  match s.rxOf port f with
  | .lost => s
  | .bad => s.bump Reg.HTP_CNT_DISCARDED
  | .taken =>
    if frType f = t then
      let s := s.rollAssoc port f
      run { s with ht := { s.ht with hostMac := s.ht.hostMac.set port f.src.toNat } }
    else s

/-- A host frame that R377 or R378 discards. -/
def execHostFrameDiscarded (port : Fin 2) (f : HostFrame) (s : State) : Res :=
  .next (match s.rxOf port.val f with
    | .bad => s.bump Reg.HTP_CNT_DISCARDED
    | _ => s)

/-- HELLO and HEARTBEAT payload (Table HST-5). -/
def State.helloPayload (s : State) : List Byte :=
  le 4 (s.rd Reg.HTP_SESSION_ID) ++ le 1 s.dev ++ zeros 3 ++ le 8 s.part.serial ++ le 4 s.ddtGen ++ zeros 12

/-- A HELLO (type 1) or HEARTBEAT (type 2) leaves on a port. -/
def State.sendStatus (s : State) (port type : Nat) : State :=
  s.sendFrame port (s.hostMac port) (s.rd Reg.HTP_SESSION_ID) type 0 s.helloPayload

/-- Both acknowledgements that a frame carries take effect (R381). -/
def State.takeAcks (s : State) (f : HostFrame) : State := (s.acked false (fld f.bytes 10 2)).acked true (fld f.bytes 12 2)

/-- A reliable frame meets the sequence check of its stream (R380): accepted, it advances the expected number, has an
acknowledgement due and carries the stream to its port (R381, R383). The answer says whether it was accepted. -/
def State.sequence (s : State) (bulk : Bool) (port : Nat) (f : HostFrame) : State × Bool :=
  let x := s.stream bulk
  let behind := (x.nextRx + 65536 - frSeq f) % 65536
  if behind = 0 then
    let s := s.setStream bulk { x with nextRx := (x.nextRx + 1) % 65536, ackDue := some (x.ackDue.getD s.ticks) }
    (s.moveStream bulk port, true)
  else if behind ≤ 64 then ((s.bump Reg.HTP_CNT_DUP_FRAMES).sendStatus port 2, false)
  else (s.bump Reg.HTP_CNT_OUT_OF_WINDOW, false)

/-- A reliable frame of type `t` on a stream: `run` is what the device does with its payload once accepted. -/
def State.reliable (s : State) (bulk : Bool) (port : Nat) (f : HostFrame) (t : Nat) (run : State → List Byte → State) : State :=
  s.receive port f t (fun s =>
    match (s.takeAcks f).sequence bulk port f with
    | (s, true) => run s (frPayload f)
    | (s, false) => s)

/-! ### Acknowledgement and retransmission (R381 to R383) -/

/-- 50 us have passed since a reliable frame was accepted, and no frame has carried its acknowledgement (R381). -/
def execAckHeartbeat (s : State) : Res :=
  let due : Bool → Bool := fun b => match (s.stream b).ackDue with
    | some t => s.passed t (usTicks 50)
    | none => false
  if due false then .next (s.sendStatus (s.streamPort false) 2)
  else if due true then .next (s.sendStatus (s.streamPort true) 2)
  else .next s

/-- 200 us have passed since the oldest unacknowledged frame of a stream was sent: every unacknowledged frame is sent again, on
the other port after 16 periods or when the link is down and the other is up (R382, R383). -/
def execRetransmit (bulk : Bool) (s : State) : Res :=
  let x := s.stream bulk
  match x.unacked with
  | [] => .next s
  | f :: _ =>
    if s.alive ∧ s.dev ≠ stHostLost ∧ s.passed f.sentAt (usTicks 200) then
      let s := s.setStream bulk { x with periods := x.periods + 1 }
      let move := !s.portUp (s.streamPort bulk) || decide (16 ≤ (s.stream bulk).periods)
      .next (if move && s.portUp (1 - s.streamPort bulk) then s.failover bulk else s.resend bulk)
    else .next s

/-- The link of a host port goes down: its readiness entry returns to WAITING, and streams leave it (R383, R550). -/
def State.hostLinkDown (s : State) (n : Nat) : State :=
  let s := s.setLink n false
  if s.flag Reg.HTP_PORT_LINK n then
    let s := (s.wr Reg.HTP_PORT_LINK 0 n).wr Reg.HTP_PORT_SQI 0 n
    let s := if s.fnState (0x700 + n) = rdReady then s.setFnQuiet (0x700 + n) rdWaiting 0 else s
    s.failoverDue
  else s.failoverDue

def execHostLinkDown (port : Fin 2) (s : State) : Res := .next (s.hostLinkDown port.val)

/-! ### Sessions (R385 to R389, R526) -/

/-- A job ends because a new session opens: what runs it stops, and it leaves without a record (R385). -/
def State.endSilently (s : State) (j : Job) : State := ((s.stopJob j).chargeJob j).dropJob j

/-- Payloads of a stream's frames of one type that are not acknowledged. -/
def undelivered (x : Stream) (t : Nat) : List (List Byte) := ((x.unacked ++ x.waiting).filter (fun f => f.type == t)).map (·.payload)

/-- The staging area is cleared, with its copy in the mirror (R544, R545, R557). -/
def State.clearStaging (s : State) : State :=
  (s.eraseRange (gaddr spDdr 0x30400000) (2 ^ 26)).eraseRange (gaddr spDdr (0x30400000 + 2 ^ 35)) (2 ^ 26)

/-- A new session opens (R385, R545). -/
def State.openSession (s : State) (sid : Nat) : State :=
  let events := undelivered s.ht.ctl 0x22 ++ s.ht.againEvents
  let epochs := (undelivered s.ht.blk 0x40).filter (fun p => fld p 0 1 == 0x32) ++ s.ht.againEpochs
  let s := s.jobs.foldl State.endSilently s
  let s := s.chanClear bulkChan
  let s := { s with
    ht := { s.ht with
      ctl := .reset, blk := .reset, shadow := .empty, cq := .empty, confirm := [], bulk := [], pushed := .empty, ended := [],
      creditIn := 0, usedIn := 0, creditOut := 0, usedOut := 0, againEvents := events, againEpochs := epochs,
      everSession := true, lastHb := s.ticks, devHb := s.ticks },
    boot := { s.boot with verify := none } }
  let s := (List.range 64).foldl (fun s r =>
    (((s.wr Reg.HTP_SQ_IDX_TAIL 0 r).wr Reg.HTP_SQ_IDX_FREED 0 r).wr Reg.HTP_CQ_IDX_PROD 0 r).wr Reg.HTP_CQ_IDX_HEAD 0 r) s
  let s := if s.dev = stRom then s.clearStaging else s
  (s.wr Reg.HTP_SESSION_ID sid).wr Reg.HTP_STAT_SESSION 1

/-- The state outside HOST_LOST: ROM without firmware, SETUP or RUN according to SETUP_DONE (Table HST-4, R388). -/
def State.plainDev (s : State) : Nat :=
  if s.boot.fwHeader.isEmpty then stRom else if s.flag Reg.HTP_CTRL_SETUP_DONE then stRun else stSetup

/-- The device returns from HOST_LOST: delivery resumes with the frames still unacknowledged (R388). -/
def State.hostBack (s : State) : State :=
  let s := s.wr Reg.HTP_STAT_STATE s.plainDev
  let s := ({ s with ht := { s.ht with lastHb := s.ticks } } : State).clearCause srcHostLost
  let s := (s.raise 0x0702 0 []).failoverDue
  let s := (s.resend false).resend true
  (s.pump false (s.stream false).waiting.length).pump true (s.stream true).waiting.length

/-- A HELLO is received: it opens or confirms a session, for which an attestation report is asked, and is answered (R385, R388,
R389, R562). -/
def execHello (port : Fin 2) (f : HostFrame) (s : State) : Res :=
  .next (s.receive port.val f 0x01 (fun s =>
    let sid := fld (frPayload f) 0 4
    let lost := s.dev == stHostLost
    let s :=
      let report := fun (s : State) => ({ s with sec := { s.sec with reports := s.sec.reports ++ [le 4 sid ++ zeros 28] } } : State)
      if sid = 0 ∨ s.dev = stRestart then s
      else if s.inSession ∧ sid = s.rd Reg.HTP_SESSION_ID then
        let s := if lost then s.hostBack else s
        report (s.takeAcks f)
      else
        let s := s.openSession sid
        let s := if lost then s.hostBack else s
        report s.grantCredits
    s.sendStatus port.val 0x01))

/-- A HEARTBEAT is received (R381, R387); in RESTART it is answered (R389). -/
def execHeartbeat (port : Fin 2) (f : HostFrame) (s : State) : Res :=
  .next (s.receive port.val f 0x02 (fun s =>
    if s.dev = stRestart then s.sendStatus port.val 0x02
    else
      let s := s.takeAcks f
      if s.inSession then { s with ht := { s.ht with lastHb := s.ticks } } else s))

/-- Every 10 ms while a session is open, a HEARTBEAT leaves on each port whose link is up (R386). -/
def execDeviceHeartbeat (s : State) : Res :=
  if s.alive ∧ s.inSession ∧ s.passed s.ht.devHb (msTicks 10) then
    let s := { s with ht := { s.ht with devHb := s.ticks } }
    let send := fun (s : State) (p : Nat) => if s.portUp p then s.sendStatus p 0x02 else s
    .next (send (send s 0) 1)
  else .next s

/-- HOSTLOSS_MS has passed without a HEARTBEAT from the host (R387). -/
def execHostLost (s : State) : Res :=
  if s.alive ∧ s.inSession ∧ s.dev ≠ stHostLost ∧ s.dev ≠ stRestart ∧ s.passed s.ht.lastHb (msTicks (s.rd Reg.HTP_CFG_HOSTLOSS_MS)) then
    let s := (s.wr Reg.HTP_STAT_STATE stHostLost).bump Reg.HTP_CNT_HOST_LOSSES
    .next ((s.raise 0x0701 0 []).requestHeld srcHostLost)
  else .next s

/-- Until a session opens, a HELLO with session 0 leaves on each checked port, the first when its link check passes, then one
every 100 ms (R526). -/
def execSessionlessHello (port : Fin 2) (s : State) : Res :=
  let p := port.val
  let due : Bool := match s.ht.lastHello.find p with
    | some t => s.passed t (msTicks 100)
    | none => true
  if s.alive ∧ !s.inSession ∧ s.dev ≠ stRestart ∧ s.fnState 1 = rdReady ∧ s.portUp p ∧ due then
    .next (({ s with ht := { s.ht with lastHello := s.ht.lastHello.set p s.ticks } } : State).sendStatus p 0x01)
  else .next s

/-! ### Events (R407) -/

/-- One item of an EVENT frame: kind, length, the record, padding (text before Table HST-16). -/
def eventItem (kind : Nat) (l : List Byte) : List Byte :=
  le 1 kind ++ le 1 0 ++ le 2 l.length ++ l ++ zeros ((8 - l.length % 8) % 8)

/-- The queue whose next packet was raised first. -/
def State.nextEventQueue (s : State) : Option Nat :=
  let a := s.queue 0x30
  let b := s.queue 0x31
  let ready := fun (q : Nat) (x : Queue) => !s.flag Reg.SPQ_CTRL_CONS q && (takePacket x.stream).isSome
  match ready 0x30 a, ready 0x31 b with
  | true, true => if a.order.headD 0 ≤ b.order.headD 0 then some 0x30 else some 0x31
  | true, false => some 0x30
  | false, true => some 0x31
  | false, false => none

/-- The items that fit one EVENT frame beside `l`, taken in the order raised; a packet that is not whole is dropped (R85). -/
def State.gatherEvents : Nat → State → List Byte → State × List Byte
  | 0, s, l => (s, l)
  | n + 1, s, l =>
    match s.nextEventQueue with
    | none => (s, l)
    | some q =>
      match s.dequeue q with
      | none => (s, l)
      | some (h, ws, t) =>
        if packetBad h ws then State.gatherEvents n t l
        else
          let x := eventItem (q - 0x30) (packetBytes h ws)
          if 8256 < l.length + x.length then (if l.isEmpty then (t, l) else (s, l)) else State.gatherEvents n t (l ++ x)

/-- The device sends events and error records, in the order raised; none without a session or in HOST_LOST (R385, R407). -/
def execEvent (s : State) : Res :=
  if !s.alive ∨ !s.inSession ∨ !s.canSend false then .next s
  else match s.ht.againEvents with
  | p :: r => .next (({ s with ht := { s.ht with againEvents := r } } : State).sendReliable false 0x22 p)
  | [] =>
    let (s, l) := State.gatherEvents ((s.queue 0x30).stream.length + (s.queue 0x31).stream.length) s []
    .next (if l.isEmpty then s else s.sendReliable false 0x22 l)

/-! ### Epoch stream (R412, R413) -/

/-- A packet of an EPOCH_STREAM payload. -/
def streamPacket (q : Nat) (l : List QItem) : List Byte :=
  le 1 q ++ le 1 0 ++ le 2 (l.length - 1) ++ zeros 4 ++ l.flatMap (·.data)

/-- A LENGTH word whose packet carries DATA_ERROR (Table ING-8). -/
def QItem.damaged (h : QItem) : QItem := { h with data := h.data.take 8 ++ le 1 (fld h.data 8 1 ||| stDataError) ++ h.data.drop 9 }

/-- The destination of session-less EPOCH_STREAM frames (R413). -/
def streamMac : Nat := leNat [0x07#8, 0x56#8, 0x41#8, 0x58#8, 0x43#8, 0x00#8]

/-- A frame with the payload may be sent now: on H0 before any session, on the bulk stream within the credits otherwise. -/
def State.canStream (s : State) (l : List Byte) : Bool :=
  decide (l.length ≤ 8256) &&
  (if s.inSession then s.canSend true && decide (s.ht.usedOut < s.ht.creditOut) else s.portUp 0)

/-- An EPOCH_STREAM frame leaves: unreliable with session 0 before any session, reliable within one (R413). -/
def State.sendStream (s : State) (l : List Byte) : State :=
  if s.inSession then ({ s with ht := { s.ht with usedOut := s.ht.usedOut + 1 } } : State).sendReliable true 0x40 l
  else s.sendFrame 0 streamMac 0 0x40 0 l

/-- The next packet of a streamed queue is sent: an epoch record waits when it cannot be, a copied packet is dropped and
counted; a packet with a POISON word goes as one with DATA_ERROR (R85, R385, R412, R413). -/
def execEpochStream (queue : Fin 51) (s : State) : Res :=
  let q := queue.val
  if !s.alive ∨ s.dev = stRestart then .next s
  else if q = 0x32 then
    match s.ht.againEpochs with
    | p :: r =>
      if s.canStream p then .next (({ s with ht := { s.ht with againEpochs := r } } : State).sendStream p) else .next s
    | [] =>
      match s.dequeue q with
      | none => .next s
      | some (h, ws, t) =>
        let p := streamPacket q ((if packetBad h ws then h.damaged else h) :: ws)
        if s.canStream p then .next (t.sendStream p) else .next s
  else
    let x := s.queue q
    match x.copies with
    | [] => .next s
    | c :: r =>
      let s := s.setQueue q { x with copies := r }
      let p := streamPacket q c
      if s.canStream p then .next (s.sendStream p) else .next (s.bump Reg.HTP_CNT_STREAM_DROPS)

/-! ### Bulk requests (R408 to R411, R543) -/

/-- A push transfer ends with a report now; when it held the channel, the channel goes on (R409). -/
def State.stopPush (s : State) (xfer status : Nat) (last : Bool) : State :=
  let heads := match s.ht.bulk with
    | b :: _ => !b.pull && b.xfer == xfer
    | [] => false
  ((if heads then s.chanClear bulkChan else s).endPush xfer status last).bulkGo ⟨0, 0⟩

/-- Why a push data frame ends its transfer (R409, R543, Table HST-18; log entry 64). -/
def State.pushError (s : State) (p : List Byte) : Option Nat :=
  let n := p.length - 32
  let space := fld p 4 1
  if n = 0 ∨ 8192 < n then some stBadLength
  else if 2 < space ∨ 1 < fld p 5 1 ∨ !zeroAt p 7 1 ∨ !zeroAt p 16 16 then some stBadField
  else if space = 2 ∧ s.dev ≠ stRom then some stWrongState
  else if space = 2 ∧ 2 ^ 26 < fld p 8 8 + n then some stBadLength
  else none

/-- An accepted push data frame: it is written in stream order, or ends its transfer (R409). -/
def State.takePush (s : State) (p : List Byte) (det : ReadFault) : State :=
  let xfer := fld p 0 4
  let last := bit (fld p 5 1) 0
  let s := { s with ht := { s.ht with usedIn := s.ht.usedIn + 1 } }
  let s :=
    if s.ht.ended.contains xfer then
      if last then { s with ht := { s.ht with ended := s.ht.ended.filter (· != xfer) } } else s
    else match s.pushError p with
      | some st => s.stopPush xfer st last
      | none =>
        let b : Bulk := { xfer := xfer, pull := false, space := fld p 4 1, context := fld p 6 1, addr := fld p 8 8,
                          data := p.drop 32, last := last, total := 0, done := 0, flags := 0 }
        ({ s with ht := { s.ht with bulk := s.ht.bulk ++ [b] } } : State).bulkGo det
  s.grantCredits

/-- BULK_PUSH: a data frame outside a session or beyond the credits granted is discarded and counted, its sequence number not
consumed (R408); otherwise it is taken. -/
def execBulkPush (port : Fin 2) (f : HostFrame) (det : ReadFault) (s : State) : Res :=
  let expected := decide (frSeq f = s.ht.blk.nextRx)
  let past := !s.inSession || (expected && decide (s.ht.creditIn ≤ s.ht.usedIn))
  .next (if past then s.receive port.val f 0x30 (fun s => (s.takeAcks f).bump Reg.HTP_CNT_DISCARDED)
         else s.reliable true port.val f 0x30 (fun s p => s.takePush p det))

/-- Why a pull request is refused (R411). -/
def pullError (p : List Byte) : Option Nat :=
  if p.length ≠ 32 ∨ fld p 16 4 = 0 ∨ 268435456 < fld p 16 4 then some stBadLength
  else if 1 < fld p 4 1 ∨ !zeroAt p 5 1 ∨ !zeroAt p 7 1 ∨ !zeroAt p 20 12 then some stBadField
  else none

/-- BULK_PULL: the bytes are sent in address order, then the report; a refused request gets its report only (R411). -/
def execBulkPull (port : Fin 2) (f : HostFrame) (det : ReadFault) (s : State) : Res :=
  .next (s.reliable true port.val f 0x31 (fun s p =>
    match pullError p with
    | some st => s.sendReport (fld p 0 4) st 0 0
    | none =>
      if !s.inSession then s
      else
        let b : Bulk := { xfer := fld p 0 4, pull := true, space := fld p 4 1, context := fld p 6 1, addr := fld p 8 8,
                          data := [], last := true, total := fld p 16 4, done := 0, flags := 0 }
        ({ s with ht := { s.ht with bulk := s.ht.bulk ++ [b] } } : State).bulkGo det))

/-- BULK_CREDIT: the host's cumulative credits; a pull that waits for them goes on (R408). -/
def execBulkCredit (port : Fin 2) (f : HostFrame) (s : State) : Res :=
  .next (s.reliable true port.val f 0x32 (fun s p =>
    if s.inSession then ({ s with ht := { s.ht with creditOut := fld p 0 4 } } : State).bulkGo ⟨0, 0⟩ else s))

end Sys2Proof.Machine
end

