-- ==== Sys2Proof/Machine/Taint.lean ====
section
/-! DEFINITION. Check epochs, and what a verdict does to everything that rests on a taint (R432 to R439). -/

namespace Sys2Proof.Machine

/-- Every taint that the device holds is changed alike: of jobs, objects, held records, reported jobs and held words. -/
def State.mapTaints (f : List Taint → List Taint) (s : State) : State :=
  { s with
    jobs := s.jobs.map (fun j => { j with taint := f j.taint })
    sync := ⟨s.sync.rows.map (fun r => (r.1, { r.2 with taint := f r.2.taint }))⟩
    ht := { s.ht with
      confirm := s.ht.confirm.map (fun c => ({ c.1 with taint := f c.1.taint }, c.2))
      provisional := s.ht.provisional.map (fun p => (p.1, p.2.1, f p.2.2)) }
    ring := { s.ring with held := s.ring.held.map (fun h => { h with taint := f h.taint }) } }

/-- The distinct taints held (R434). -/
def State.taints (s : State) : List (List Taint) :=
  ((s.jobs.map (·.taint) ++ s.sync.rows.map (·.2.taint) ++ s.ht.confirm.map (·.1.taint) ++ s.ht.provisional.map (·.2.2) ++
    s.ring.held.map (·.taint)).filter (fun t => !t.isEmpty)).eraseDups

/-- Held records and signals whose taint has committed are sent and applied (R438). -/
def State.releaseConfirm (s : State) : State :=
  let go := s.ht.confirm.filter (fun c => c.1.taint.isEmpty)
  let s := { s with ht := { s.ht with confirm := s.ht.confirm.filter (fun c => !c.1.taint.isEmpty),
                                      provisional := s.ht.provisional.filter (fun p => !p.2.2.isEmpty) } }
  go.foldl (fun s c => (s.writeRecord c.1.ring c.2).signal c.1.sigObj c.1.sigAdd []) s

/-- Held words whose taint has committed reach their path, in the order in which they were computed (R438, R439). -/
def State.releaseWords (s : State) : State :=
  let go := s.ring.held.filter (fun h => h.taint.isEmpty)
  let s := { s with ring := { s.ring with held := s.ring.held.filter (fun h => !h.taint.isEmpty) } }
  ((go.map (·.step)).eraseDups).foldl (fun s n =>
    match go.filter (fun h => h.step == n) with
    | [] => s
    | h :: r => s.feedPath h.path ⟨(h :: r).map (fun w => (w.elem, w.word))⟩ h.point) s

/-- Module `m` has committed through check epoch `k`: entries that this settles are dropped; one that holds a retracted epoch stays
(R436, R437). -/
def State.commitThrough (s : State) (m k : Nat) : State :=
  let s := s.wr Reg.RNG_COMMIT_THROUGH k m
  let old := s.ring.verdicts.filter (fun v => v.module != m || v.retract)
  let s : State := { s with ring := { s.ring with verdicts := old ++ [⟨m, k, k, false⟩] } }
  (s.mapTaints s.live).releaseConfirm.releaseWords

/-- Check epoch `k` of module `m` is retracted: everything here that rests on it is withdrawn (R437, R438). -/
def State.retract (s : State) (m k : Nat) : State :=
  let s := { s with ring := { s.ring with verdicts := s.ring.verdicts ++ [⟨m, k, k, true⟩] } }
  let hit := fun (t : List Taint) => taintHolds t m k
  let n := (s.taints.filter hit).length
  if n = 0 then s
  else
    let words := s.ring.held.filter (fun h => !hit h.taint)
    let reported := s.ht.provisional.filter (fun p => hit p.2.2)
    let confirm := s.ht.confirm.filter (fun c => hit c.1.taint)
    let s := { s with
      ring := { s.ring with held := words }
      ht := { s.ht with provisional := s.ht.provisional.filter (fun p => !hit p.2.2),
                        confirm := s.ht.confirm.filter (fun c => !hit c.1.taint) } }
    let s := reported.foldl (fun s p =>
      s.writeRecord p.1 (recordBytes p.2.1 stRetracted (2 ^ cfProvisional) p.1 0 s.dt64 (retractDetail m k))) s
    let s := confirm.foldl (fun s c =>
      s.writeRecord c.1.ring (recordBytes c.1.tag stRetracted c.1.flags c.1.ring 0 s.dt64 (retractDetail m k))) s
    let s := (s.jobs.filter (fun j => hit j.taint || (j.phase == .waiting && j.waitObj != 0xFFFF && hit (s.obj j.waitObj).taint))).foldl
      (fun s j => s.retractJob j m k) s
    (s.bump Reg.RNG_CNT_RETRACTS 0 n).raise 0x0803 0 (le 1 m ++ zeros 3 ++ le 4 k)

/-- A verdict is heard (R435, R436). -/
def State.verdictOf (s : State) (m k : Nat) (retract : Bool) : State := if retract then s.retract m k else s.commitThrough m k

end Sys2Proof.Machine
end

