-- ==== Sys2Proof/Machine/Ring.lean ====
section
/-! DEFINITION. Ring ports: flits, replay, lanes, neighbours, the census and roles (R414 to R427, R549). -/

namespace Sys2Proof.Machine

/-! ### Lane states and the census (R418, R423 to R427) -/
/-- Lane states show in RNG_LANE and LANE_STATE is raised (R418, R419, Table RNG-6). -/
def State.setLane (s : State) (i st : Nat) : State :=
  let old := s.rd Reg.RNG_LANE_STATE i
  let s := s.wr Reg.RNG_LANE_STATE st i
  if old = st then s
  else s.raise 0x0802 (laneUnit i) (le 1 i ++ le 1 st ++ le 2 0 ++ le 4 (s.rd Reg.RNG_LANE_SYNC_ERR i))

/-- A lane leaves ACTIVE for RETRAIN (R418). -/
def State.dropLane (s : State) (i : Nat) : State :=
  let s := s.sendCtrl (i / 4) ctLaneDrop (le 1 (i % 4))
  let s := (s.setLane i laneRetrain).wr Reg.RNG_LANE_RUNS 0 i
  ({ s with ring := { s.ring with passed := putBit s.ring.passed i false } } : State).bump Reg.RNG_CNT_RETRAINS

/-! ### The census (R423 to R427) -/

/-- CRC-32 of the role table; zero with none (Table RNG-2). -/
def State.roleCrc (s : State) : Nat := if s.ring.roles.isEmpty then 0 else crc32 s.ring.roles

/-- The entry of a serial in a role table: module and role. -/
def roleEntry (t : List Byte) (serial : Nat) : Option (Nat × Nat) :=
  ((List.range 8).find? (fun i => fld t (16 * i) 8 != 0 && fld t (16 * i) 8 == serial)).map
    (fun i => (fld t (16 * i + 8) 1, fld t (16 * i + 9) 1))

/-- This module's number and role as it tells them: 0xFF and ALL without a role table (Table RNG-2, R425). -/
def State.ownRole (s : State) : Nat × Nat :=
  if s.ring.roles.isEmpty then (0xFF, 4) else (roleEntry s.ring.roles s.part.serial).getD (0xFF, 0)

/-- One entry of a CENSUS or FORMED flit: serial, role, module (log entry 66). -/
def memberEntry (m : Member) : List Byte := le 8 m.serial ++ le 1 m.role ++ le 1 m.module ++ le 2 0

/-- A CENSUS or FORMED payload. -/
def memberPayload (l : List Member) (closed : Bool) (gen : Nat) : List Byte :=
  le 1 l.length ++ le 1 closed.toNat ++ le 2 0 ++ le 4 gen ++ l.flatMap memberEntry

/-- The entries of a CENSUS or FORMED payload. -/
def payloadMembers (p : List Byte) : List Member :=
  (List.range (min 8 (fld p 0 1))).map (fun i =>
    let o := 8 + 12 * i
    ⟨fld p o 8, fld p (o + 9) 1, fld p (o + 8) 1, 0⟩)

def State.self (s : State) : Member := ⟨s.part.serial, s.ownRole.1, s.ownRole.2, s.roleCrc⟩

/-- A port has an admitted neighbour. -/
def State.hasNeigh (s : State) (p : Nat) : Bool := (s.ring.neigh.find p).isSome

/-- Members with the numbers and roles that R425 gives them: by the role table where this module has one, by the entries where
another has, by position where none has. -/
def State.numbered (s : State) (l : List Member) : List Member :=
  let table := !s.ring.roles.isEmpty
  let none := !table && l.all (fun m => m.module == 0xFF)
  l.zipIdx.map (fun e =>
    let m := e.1
    let crc := match s.ring.neigh.rows.find? (fun r => r.2.serial == m.serial) with
      | some r => r.2.roleCrc
      | _ => s.roleCrc
    if none then ⟨m.serial, e.2, 4, crc⟩
    else if table then
      let x := (roleEntry s.ring.roles m.serial).getD (0xFF, 0)
      ⟨m.serial, x.1, x.2, crc⟩
    else ⟨m.serial, m.module, if m.module = 0xFF then 0 else m.role, crc⟩)

/-- A collective's job ends with a status, and the collective leaves the list. -/
def State.endColl (s : State) (id status detail : Nat) : State :=
  match s.job id with
  | some j => (s.stopJob j).finishQuiet j status 0 detail
  | none => s.setColls (s.ring.colls.filter (fun c => c.job != id))

/-- Check epochs of a module that has left are retracted where they are not committed: those that a taint held here rests on now,
and those that a transfer may still bring (R426). -/
def State.retractGone (s : State) (m : Nat) : State :=
  let k := s.checkEpoch
  let lo := match s.ring.verdicts.find? (fun v => v.module == m && !v.retract) with
    | some v => (v.hi + 1) % 2 ^ 32
    | none => (k + 2 ^ 31 + 1) % 2 ^ 32
  let s := if serLe lo k then { s with ring := { s.ring with verdicts := s.ring.verdicts ++ [⟨m, lo, k, true⟩] } } else s
  (((s.taints.flatMap id).filter (fun e => e.module == m)).map (·.hi)).eraseDups.foldl (fun s k => s.retract m k) s

/-- FORMED takes effect (R423 to R426). -/
def State.formed (s : State) (l : List Member) (closed : Bool) (gen : Nat) : State :=
  let new := s.numbered l
  let gone := s.ring.members.filter (fun m => m.module != 0xFF && !new.any (fun n => n.serial == m.serial))
  let s := (s.ring.colls.filter (fun c => c.startAt.isSome)).foldl (fun s c => s.endColl c.job stUnitOffline 0) s
  let s := { s with ring := { s.ring with members := new, census := none, early := [], genSeen := max s.ring.genSeen gen } }
  let me := (new.find? (fun m => m.serial == s.part.serial)).getD s.self
  let s := ((s.wr Reg.RNG_STAT_FORMED 1).wr Reg.RNG_STAT_CLOSED closed.toNat).wr Reg.RNG_STAT_MEMBERS (new.length - 1)
  let rank := if me.role = 0 then 0 else (rankOrder new closed).findIdx (fun m => m.serial == s.part.serial)
  let s := ((s.wr Reg.RNG_STAT_RANK rank).wr Reg.RNG_STAT_MODULE (if me.module = 0xFF then 0 else me.module)).wr Reg.RNG_STAT_ROLE me.role
  let s := (s.wr Reg.RNG_GEN_GENERATION gen).bump Reg.RNG_CNT_REFORMS
  let s := gone.foldl (fun s m => (s.retractGone m.module).kvGone m.module) s
  let s := { s with prf := { s.prf with digests := s.prf.digests.filter (fun d => !gone.any (fun m => m.module == d.module)) } }
  s.raise 0x0801 0 (le 4 gen ++ le 1 new.length ++ le 1 closed.toNat ++ le 1 (s.rd Reg.RNG_STAT_RANK) ++
    le 1 (s.rd Reg.RNG_STAT_MODULE))

/-- The module that completes a census broadcasts FORMED and takes it (R423). -/
def State.completeCensus (s : State) (l : List Member) (closed : Bool) : State :=
  let gen := (s.ring.genSeen + 1) % 2 ^ 32
  let s := s.sendCtrl (if closed then 0 else 1) ctFormed (memberPayload l closed gen)
  s.formed l closed gen

/-- A census begins at this module (R423). -/
def State.beginCensus (s : State) : State :=
  let s := { s with ring := { s.ring with census := some (s.part.serial, s.ticks) } }
  if s.hasNeigh 0 then s.sendCtrl 0 ctCensus (memberPayload [s.self] false 0) else s.completeCensus [s.self] false

/-- After a change of a neighbour, this module starts the census when its port 1 has none, or when both its ports have one and its
serial is the lowest it knows: it cannot then see that some module has none (R423; log entry 66). -/
def State.neighbourChanged (s : State) : State :=
  let lowest := s.ring.neigh.rows.all (fun r => decide (s.part.serial ≤ r.2.serial))
  if !s.hasNeigh 1 || (s.hasNeigh 0 && lowest) then s.beginCensus else s

/-- A CENSUS flit arrives from upstream (R423). -/
def State.censusIn (s : State) (p : List Byte) : State :=
  let l := payloadMembers p
  match l with
  | [] => s
  | m :: _ =>
    if m.serial = s.part.serial then
      (if (s.ring.census.map (·.1)) = some m.serial then s.completeCensus l true else s)
    else
      let mine := match s.ring.census with | some (x, _) => decide (x < m.serial) | none => false
      if mine || decide (8 ≤ l.length) then s
      else
        let s := { s with ring := { s.ring with census := none } }
        let l := l ++ [s.self]
        if s.hasNeigh 0 then s.sendCtrl 0 ctCensus (memberPayload l false 0) else s.completeCensus l false

/-- A FORMED flit arrives at port `p`: it takes effect once, and goes on (R423). -/
def State.formedIn (s : State) (p : Nat) (l : List Byte) : State :=
  let gen := fld l 4 4
  if s.flag Reg.RNG_STAT_FORMED ∧ s.rd Reg.RNG_GEN_GENERATION = gen then s
  else (s.sendCtrl (1 - p) ctFormed l).formed (payloadMembers l) (fld l 1 1 == 1) gen

/-! ### Neighbours (R422) -/

/-- HELLO payload (Table RNG-2). -/
def State.ringHello (s : State) : List Byte :=
  let formed := s.flag Reg.RNG_STAT_FORMED
  le 8 s.part.serial ++ le 1 (if formed then s.rd Reg.RNG_STAT_MODULE else s.ownRole.1) ++
  le 1 (if formed then s.rd Reg.RNG_STAT_ROLE else s.ownRole.2) ++ le 2 (s.rd Reg.RNG_CHECK_PERIOD_US) ++ le 4 s.roleCrc ++
  le 4 s.ring.genSeen ++ le 4 (s.epochOf s.dt64) ++ le 4 s.checkEpoch ++ le 8 s.dt64 ++ zeros 92

/-- A neighbour is lost (R422). -/
def State.dropNeigh (s : State) (p : Nat) : State :=
  if s.hasNeigh p then
    ({ s with ring := { s.ring with neigh := s.ring.neigh.erase p } } : State).neighbourChanged
  else s

/-- A HELLO arrives: the neighbour is admitted, or refused for its period or its time (R422). -/
def State.helloIn (s : State) (p : Nat) (l : List Byte) : State :=
  let d : Int := (fld l 28 8 + s.rd Reg.RNG_CABLE_CABLE_NS : Nat) - (s.dt64 : Int)
  if fld l 10 2 ≠ s.rd Reg.RNG_CHECK_PERIOD_US then s.raise 0x0804 0 (le 1 p ++ le 1 1)
  else if ((s.rd Reg.RNG_CFG_TIME_TOL_US * 1000 : Nat) : Int) < |d| then s.raise 0x0804 0 (le 1 p ++ le 1 2)
  else
    let n : Neighbour := ⟨fld l 0 8, fld l 9 1, fld l 12 4, fld l 16 4, s.ticks⟩
    let same := match s.ring.neigh.find p with | some m => m.serial == n.serial | none => false
    let s := { s with ring := { s.ring with neigh := s.ring.neigh.set p n, genSeen := max s.ring.genSeen n.generation } }
    let s := { s with ring := { s.ring with members := s.ring.members.map (fun m =>
      if m.serial = n.serial then { m with roleCrc := n.roleCrc } else m) } }
    if same then s else s.neighbourChanged

/-- Readiness and neighbour of a port follow its lanes; a port that comes up numbers its flits from 0 (R420, R549, R550). -/
def State.showPort (s : State) (p : Nat) : State :=
  let fn := 0x600 + p
  if s.ringUp p then
    if s.fnState fn = rdReady then s else ((s.setTx p .reset).setRx p .reset).fnReady fn
  else
    let s := if s.fnState fn = rdReady then s.setFnQuiet fn rdWaiting 0 else s
    s.dropNeigh p

/-- Each module sends a HELLO on each port once per millisecond. -/
def execRingHello (port : Fin 2) (s : State) : Res :=
  let p := port.val
  let due : Bool := match s.ring.helloAt.find p with
    | some t => s.passed t (msTicks 1)
    | none => true
  if s.alive ∧ s.ringUp p ∧ due then
    .next (({ s with ring := { s.ring with helloAt := s.ring.helloAt.set p s.ticks } } : State).sendCtrl p ctHello s.ringHello)
  else .next s

/-- 3 ms without a HELLO, or the port going down, loses the neighbour and starts a census (R422, R423). -/
def execNeighbourLoss (port : Fin 2) (s : State) : Res :=
  let p := port.val
  let late : Bool := match s.ring.neigh.find p with
    | some n => s.passed n.lastAt (msTicks 3)
    | none => false
  if !s.alive then .next s
  else if !s.ringUp p then .next (s.showPort p)
  else if late then .next (s.dropNeigh p)
  else .next s

/-- A census not completed within 100 us is started again (R423). -/
def execCensusTimeout (s : State) : Res :=
  match s.ring.census with
  | some (_, t) => if s.alive && s.passed t (usTicks 100) then .next s.beginCensus else .next s
  | none => .next s

/-! ### Lane commands -/

/-- A lane meets a condition of R418: it retrains; while another lane of its port retrains it stays in striping and is counted,
or only leaves the striping when it has lost block lock (R418, R420). With the cause `trained` its adaptation has ended: it has block lock again. -/
def execLaneRetrain (lane : Fin 8) (cause : LaneCause) (s : State) : Res :=
  let i := lane.val
  let lock := fun (s : State) (b : Bool) => { s with ring := { s.ring with locked := putBit s.ring.locked i b } }
  let busy := (List.range 4).any (fun l => i / 4 * 4 + l ≠ i ∧ s.rd Reg.RNG_LANE_STATE (i / 4 * 4 + l) = laneRetrain)
  if !s.alive ∨ s.rd Reg.RNG_LANE_STATE i = 3 ∨ s.rd Reg.RNG_LANE_STATE i = laneFailed then .next s
  else match cause with
  | .trained => .next ((lock s true).showPort (i / 4))
  | .lost =>
    if s.lanePassed i ∧ !busy then .next (((lock s false).dropLane i).showPort (i / 4))
    else .next ((lock s false).showPort (i / 4))
  | .errors =>
    if !s.laneServes i then .next s
    else
      let s := s.bump Reg.RNG_LANE_SYNC_ERR i (s.rd Reg.RNG_CFG_LANE_ERR + 1)
      if busy then .next (s.bump Reg.RNG_CNT_LANE_DEFERRED) else .next ((s.dropLane i).showPort (i / 4))

/-- A lane of a port that has lost block lock retrains once no other lane of the port does (R418, R420). -/
def State.nextRetrain (s : State) (p : Nat) : State :=
  let l := (List.range 4).map (4 * p + ·)
  if l.any (fun i => s.rd Reg.RNG_LANE_STATE i == laneRetrain) then s
  else match l.find? (fun i => s.lanePassed i && !bit s.ring.locked i) with
    | some i => s.dropLane i
    | none => s

/-- A lane that comes back online retrains; while another lane of its port does, it waits as one that has lost block lock (R419, R420). -/
def State.retrainLane (s : State) (i : Nat) : State :=
  let s := s.wr Reg.RNG_LANE_RUNS 0 i
  if (List.range 4).any (fun l => i / 4 * 4 + l ≠ i ∧ s.rd Reg.RNG_LANE_STATE (i / 4 * 4 + l) = laneRetrain) then
    ({ s with ring := { s.ring with passed := putBit s.ring.passed i true, locked := putBit s.ring.locked i false } } : State).setLane i laneActive
  else (s.setLane i laneRetrain).bump Reg.RNG_CNT_RETRAINS

/-- A lane has gone offline: LANE_DROP tells the other end, LANE_STATE the host, and a lane that waited to retrain does (R418, R420). -/
def State.laneOffline (s : State) (i : Nat) : State :=
  let s := s.sendCtrl (i / 4) ctLaneDrop (le 1 (i % 4))
  let s := s.raise 0x0802 (laneUnit i) (le 1 i ++ le 1 (s.rd Reg.RNG_LANE_STATE i) ++ le 2 0 ++ le 4 (s.rd Reg.RNG_LANE_SYNC_ERR i))
  (s.nextRetrain (i / 4)).showPort (i / 4)

/-- A ring port of which fewer than 3 lanes can still pass fails its check (R549, Table BUP-10; log entry 71). -/
def State.portFailed (s : State) (p : Nat) : State :=
  if 1 < ((List.range 4).filter (fun l => (s.unit (laneUnit (4 * p + l))).offline || (s.unit (laneUnit (4 * p + l))).bad)).length then
    s.setFn (0x600 + p) rdFailed 6
  else s

/-- A PRBS31 run of a lane ends: without an error the lane joins by LANE_ADD, after 3 failed runs it is FAILED (R419, R549). A
lane under a field test ends it by FIELD_TEST_DONE. -/
def execPrbsRunDone (lane : Fin 8) (errors : Nat) (s : State) : Res :=
  let i := lane.val
  let st := s.rd Reg.RNG_LANE_STATE i
  let waits := st == laneRetrain || (st == laneActive && !bit s.ring.passed i)
  if !s.alive ∨ !waits ∨ (s.unit (laneUnit i)).offline then .next s
  else if errors = 0 then
    let s := { s with ring := { s.ring with passed := putBit s.ring.passed i true, locked := putBit s.ring.locked i true } }
    let s := ((s.setLane i laneActive).wr Reg.RNG_LANE_RUNS 0 i).sendCtrl (i / 4) ctLaneAdd (le 1 (i % 4))
    .next ((s.nextRetrain (i / 4)).showPort (i / 4))
  else
    let n := s.rd Reg.RNG_LANE_RUNS i + 1
    let s := s.wr Reg.RNG_LANE_RUNS n i
    if n < 3 then .next s
    else .next (((((s.offlineNow (laneUnit i)).setLane i laneFailed).nextRetrain (i / 4)).showPort (i / 4)).portFailed (i / 4))

/-! ### Replay (R417) -/

/-- Every lane of a port retrains and the port goes down (R417). -/
def State.portDown (s : State) (p : Nat) : State :=
  let s := (List.range 4).foldl (fun s l => if s.laneServes (p * 4 + l) then s.dropLane (p * 4 + l) else s) s
  s.showPort p

/-- Every kept flit is sent again in order; the 16th replay that begins at one number takes the port down (R417). -/
def State.replay (s : State) (p : Nat) : State :=
  let x := s.tx p
  match x.kept with
  | [] => s
  | (n, _) :: _ =>
    let count := if x.replaySeq = n then x.replays + 1 else 1
    let s := (s.setTx p { x with replaySeq := n, replays := count, keptAt := s.ticks }).bump Reg.RNG_CNT_REPLAYS
    let s := x.kept.foldl (fun s e => s.flitOut p (fld e.2 0 1) (fld e.2 1 1) e.1 0 0 (e.2.drop 2)) s
    if 16 ≤ count then s.portDown p else s

/-- 4 us pass without an ack that covers the oldest kept flit (R417). -/
def execFlitReplay (port : Fin 2) (s : State) : Res :=
  let p := port.val
  let x := s.tx p
  if s.alive ∧ s.ringUp p ∧ !x.kept.isEmpty ∧ s.passed x.keptAt (usTicks 4) then .next (s.replay p) else .next s

/-- An ack drops the kept flits that it covers (R417). -/
def State.flitAck (s : State) (p ack : Nat) : State :=
  let x := s.tx p
  let left := x.kept.filter (fun e => !decide (0 < (ack + 65536 - e.1) % 65536 ∧ (ack + 65536 - e.1) % 65536 ≤ 256))
  if left.length < x.kept.length then s.setTx p { x with kept := left, keptAt := s.ticks, replays := 0 } else s

/-- Credits that the peer returns (R415). -/
def State.flitCredit (s : State) (p c d : Nat) : State :=
  let x := s.tx p
  (s.setTx p { x with ctrlCredit := min 16 (x.ctrlCredit + c), dataCredit := min 240 (x.dataCredit + d) }).drainPort p
    (x.waitCtrl.length + x.waitData.length)

/-! ### CHECK flits (Table PRF-5, R435, R459) -/

/-- A CHECK payload (Table PRF-5). -/
def State.checkPayload (s : State) (kind verdict group number digest region : Nat) : List Byte :=
  le 1 kind ++ le 1 (s.rd Reg.RNG_STAT_MODULE) ++ le 1 verdict ++ le 1 group ++ le 4 number ++ le 8 digest ++ le 8 s.part.serial ++
  le 1 region ++ zeros 103

/-- A CHECK flit is broadcast: downstream in a closed ring, both ways in a chain (R435). -/
def State.broadcast (s : State) (l : List Byte) : State :=
  let s := s.sendCtrl 0 ctCheck l
  if s.flag Reg.RNG_STAT_CLOSED then s else s.sendCtrl 1 ctCheck l

/-! ### ROLE_LOAD (R427) -/

/-- A role table breaks its rules: the offset of the failing entry or field (R427). -/
def roleTableError (t : List Byte) : Option Nat :=
  let used := fun (i : Nat) => fld t (16 * i) 8 != 0
  let clash := fun (i : Nat) => (List.range i).any (fun k => used k &&
    (fld t (16 * k) 8 == fld t (16 * i) 8 || fld t (16 * k + 8) 1 == fld t (16 * i + 8) 1))
  ((List.range 8).find? (fun i => !zeroAt t (16 * i + 10) 6 ||
    (used i && (decide (7 < fld t (16 * i + 8) 1) || decide (4 < fld t (16 * i + 9) 1) || clash i)))).map (16 * ·)

/-- ROLE_LOAD takes effect at once and starts a census (R427). -/
def execRoleLoad (job : Nat) (s : State) : Res :=
  match s.startedOp job 0x30 1 with
  | none => .next s
  | some j =>
    let role := ((roleEntry j.param s.part.serial).getD (0xFF, 0)).2
    .next (s.runOr j (refuseIf (!j.param.isEmpty && (s.ring.colls.any (fun c => c.startAt.isSome) ||
        (decide (role < 3) && !s.ring.placed.isEmpty))) (wrongState 9 0)) (fun s =>
      if j.param.isEmpty then s.finishOk j
      else
        let s := ({ s with ring := { s.ring with roles := j.param } } : State).wr Reg.RNG_STAT_ROLES_LOADED 1
        s.beginCensus.finishOk j))

end Sys2Proof.Machine
end

