-- ==== Sys2Proof/Machine/RingColl.lean ====
section
/-! DEFINITION. Ring collectives and the reception of flits (R416, R428 to R435, R459). -/

namespace Sys2Proof.Machine

/-! ### Acceptance (R400, R427, R429) -/

def ringChan : Nat := 0x33

/-- Bytes of an element of REDUCE_SCATTER. -/
def elemBytes (e : Nat) : Nat := if e = 1 then 2 else 4

/-- The checks of a RING descriptor at acceptance; a role table is kept (Table RNG-3, R427, R429, R400). -/
def State.ringAccept (s : State) (j : Job) : Except Refuse (List Byte) :=
  let op := j.arg 32 1
  let len := j.arg 36 4
  let me := s.rd Reg.RNG_STAT_MODULE
  match firstOf [
    refuseIf (op == 0 || decide (4 < op)) (badField 32),
    refuseIf (if op = 1 then len != 0 && len != 128 else decide (67108864 < len)) (badLength 36),
    refuseIf (if op = 3 then decide (2 < j.arg 33 1) else j.arg 33 1 != 0) (badField 33),
    refuseIf (if op = 1 then j.arg 34 1 != 0 else !bit (j.arg 34 1) me) (badField 34),
    refuseIf (op == 3 && len % elemBytes (j.arg 33 1) != 0) (badField 36),
    refuseIf (op == 1 && !zeroAt j.desc 48 8) (badField 48),
    refuseIf (op == 1 && !zeroAt j.desc 56 4) (badField 56),
    refuseIf (op != 1 && len != 0 && decide (64 ≤ s.ring.colls.length)) noResource] with
  | some e => .error e
  | none =>
    if op ≠ 1 ∨ len = 0 then .ok []
    else match s.acceptRead j.context (j.arg 40 8) 128 with
      | .error e => .error ⟨e.1, e.2⟩
      | .ok l => match roleTableError l with
        | some o => .error ⟨stBadField, 0x8000 + o⟩
        | none => .ok l

/-- An accepted collective joins the list, in acceptance order (R430). -/
def State.joinColls (s : State) (j : Job) : State :=
  s.setColls (s.ring.colls ++ [⟨j.id, j.arg 56 4, none, 0, false, 0, []⟩])

/-! ### Transfers (R432) -/

/-- Jobs and contexts whose output a transfer of job `j` sends: `j` itself, the launches of its context whose sampled tiles are
not yet compared, and its context (R435; log entry 67). -/
def State.coveredBy (s : State) (j : Job) : List Nat :=
  j.id :: s.sampledJobs j.context

/-- A transfer of job `j` leaves by port `p`: its taint is the job's merged with the present check epoch of this module, which
is remembered for the verdict (R421, R432, R435). -/
def State.sendXfer (s : State) (j : Job) (p : Nat) (x : Xfer) : State :=
  let k := s.checkEpoch
  let x := { x with taint := mergeTaint (((s.job j.id).map (·.taint)).getD j.taint) [⟨s.rd Reg.RNG_STAT_MODULE, k, k⟩] }
  let s := s.noteSent k (s.coveredBy j) j.context
  let s := if s.lanes p = 3 then s.addFlag j.id cfDegraded else s
  s.xferOut p x

/-! ### Collectives (R428) -/

/-- The members of a collective in rank order. -/
def State.collRanks (s : State) (j : Job) : List Member := s.ranks.filter (fun m => bit (j.arg 34 1) m.module)

/-- This module's rank in a collective. -/
def State.collRank (s : State) (j : Job) : Nat := (s.collRanks j).findIdx (fun m => m.serial == s.part.serial)

/-- Transfers that each member receives. -/
def collSteps (op n : Nat) : Nat := if n ≤ 1 then 0 else if op = 4 then 1 else n - 1

/-- The port by which transfers to the next rank leave: downstream, or upstream from the last rank of a chain to rank 0 (text
after R425). -/
def State.collPort (s : State) (r n : Nat) : Nat := if s.flag Reg.RNG_STAT_CLOSED || decide (r + 1 < n) then 0 else 1

/-- One element of a partial sum: FP32 for the floating types, INT32 saturating (R428, R170). -/
def addElem (e a b : Nat) : Nat × Bool :=
  if e = 2 then
    let v := sext 32 a + sext 32 b
    (toU 32 (satS 32 v), !fitsS 32 v)
  else (add32 a b, false)

/-- Own elements as 32-bit words: BF16 is widened to FP32. -/
def widenElems (e : Nat) : Nat → List Byte → List Nat
  | 0, _ => []
  | n + 1, l => (if e = 1 then fld l 0 2 * 65536 else fld l 0 4) :: widenElems e n (l.drop (elemBytes e))

/-- Words of a transferred partial sum. -/
def words32le : Nat → List Byte → List Nat
  | 0, _ => []
  | n + 1, l => fld l 0 4 :: words32le n (l.drop 4)

/-- The result of REDUCE_SCATTER as bytes: BF16 is rounded once (R428). -/
def narrowElems (e : Nat) (l : List Nat) : List Byte :=
  l.flatMap (fun w => if e = 1 then le 2 (bf16.encode (f32 w)) else le 4 w)

/-- Bytes of a chunk read for a collective: the bytes, the failed-data status, or a fault (R431, R446). -/
inductive CollRead
  | data (l : List Byte)
  | failed
  | fault (kind va : Nat)

/-- A chunk read piece by piece from its end `l` on; `det` is what a burst of it meets, if any. A burst that fails twice is served from
the boot region's or the weight region's mirror, or ends the collective (R444, R446, R448). -/
def State.collReadLoop (j : Job) (va n : Nat) (det : ReadFault) : Nat → State → List Byte → State × CollRead
  | 0, s, l => (s, .data l)
  | fuel + 1, s, l =>
    if n ≤ l.length then (s, .data l)
    else
      let a := va + l.length
      match s.translateOn ringChan j.context a .read with
      | (s, .error k) => (s, .fault k a)
      | (s, .ok pa) =>
        let c := chunk a (n - l.length)
        let here := decide (l.length ≤ det.ofs ∧ det.ofs < l.length + c)
        match s.ddrGet ringChan (some j.id) j.context a pa c (if here then det.fails else 0) with
        | (s, _, true) => (s, .failed)
        | (s, x, false) => State.collReadLoop j va n det fuel s (l ++ x)

def State.collRead (s : State) (j : Job) (va n : Nat) (det : ReadFault) : State × CollRead :=
  State.collReadLoop j va n det (n / 4096 + 2) s []

/-- The channel stops at a fault of the collective (R322, R431). -/
def State.collFault (s : State) (j : Job) (kind va : Nat) : State :=
  ((s.chanStart ringChan j.context 0 0 j.tag false).chanFault ringChan kind 0 va)

/-- The collective's entry changed. -/
def State.modColl (s : State) (id : Nat) (f : Coll → Coll) : State :=
  { s with ring := { s.ring with colls := s.ring.colls.map (fun c => if c.job = id then f c else c) } }

/-- Bytes are written for a collective; the answer says whether they all were. -/
def State.collWrite (s : State) (j : Job) (va : Nat) (l : List Byte) : State × Bool :=
  match s.vwrite ringChan j.context va l with
  | (s, _, some (k, a)) => (s.collFault j k a, false)
  | (s, _, none) => (s.wroteOut j.id, true)

/-- The collective completes OK (R428). -/
def State.collDone (s : State) (j : Job) : State :=
  let s := (s.setColls (s.ring.colls.filter (fun c => c.job != j.id))).freeChans j.id
  s.finishNow j.id stOk 0 0

/-- The destination offset that a transfer's header carries: its chunk's, zero for RING_PASS (R428, R432). -/
def collOfs (op chunk len : Nat) : Nat := if op = 4 then 0 else chunk * len

/-- The first transfer of a collective, and the copy of this module's own chunk (R428). -/
def State.collFirst (s : State) (j : Job) (n r : Nat) (det : ReadFault) : State :=
  let op := j.arg 32 1
  let len := j.arg 36 4
  let src := j.arg 40 8
  let dst := j.arg 48 8
  let e := j.arg 33 1
  let chunk := if op = 3 then (r + n - 1) % n else r
  match s.collRead j (if op = 3 then src + (if n = 1 then 0 else chunk) * len else src) len det with
  | (s, .failed) => s.endColl j.id stDataErr 0
  | (s, .fault k a) => s.collFault j k a
  | (s, .data l) =>
    let own := op == 2 || n == 1
    let at0 := if op = 2 then dst + r * len else dst
    match (if own then s.collWrite j at0 l else (s, true)) with
    | (s, false) => s
    | (s, true) =>
      let s := s.modColl j.id (fun c => { c with sent := true, progressAt := s.ticks })
      if n = 1 then s
      else
        let got := if op = 3 then (widenElems e (len / elemBytes e) l).flatMap (le 4) else l
        s.sendXfer j (s.collPort r n) ⟨j.arg 56 4, op, r, 0, got.length, collOfs op chunk len, [], got, false⟩

/-- A transfer received for a started collective is used: its chunk is written, or its partial sum gets this module's elements,
and the next transfer leaves (R428). -/
def State.collUse (s : State) (j : Job) (n r : Nat) (x : Xfer) (det : ReadFault) : State :=
  let op := j.arg 32 1
  let len := j.arg 36 4
  let src := j.arg 40 8
  let dst := j.arg 48 8
  let e := j.arg 33 1
  let step := x.step
  let size := if op = 3 then len / elemBytes e * 4 else len
  let chunk := if op = 3 then (r + 2 * n - 2 - step) % n else (r + 2 * n - 1 - step) % n
  let s := if x.slow then s.addFlag j.id cfDegraded else s
  let next := fun (s : State) => (s.modColl j.id (fun c => { c with
    step := c.step + 1, progressAt := s.ticks, received := c.received.filter (fun y => y.step != step) })).absorb j.id x.taint
  if x.op ≠ op ∨ x.size ≠ size ∨ x.ofs ≠ collOfs op chunk len ∨ x.sender ≠ (r + n - 1) % n then s.endColl j.id stBadField 0
  else if (s.retractedIn (s.merge j.taint x.taint)).isSome then s.absorb j.id x.taint
  else if op = 3 then
    match s.collRead j (src + chunk * len) len det with
    | (s, .failed) => s.endColl j.id stDataErr 0
    | (s, .fault k a) => s.collFault j k a
    | (s, .data l) =>
      let m := len / elemBytes e
      let sums := (words32le m x.got).zip (widenElems e m l) |>.map (fun p => addElem e p.1 p.2)
      let s := if sums.any (·.2) then s.addFlag j.id cfSaturated else s
      let v := sums.map (·.1)
      if chunk = r then
        match s.collWrite j dst (narrowElems e v) with
        | (s, false) => s
        | (s, true) => next s
      else
        let s := next s
        s.sendXfer j (s.collPort r n) ⟨j.arg 56 4, op, r, step + 1, 4 * m, collOfs op chunk len, [], v.flatMap (le 4), false⟩
  else
    match s.collWrite j (if op = 2 then dst + chunk * len else dst) x.got with
    | (s, false) => s
    | (s, true) =>
      let s := next s
      if op = 2 ∧ step + 1 < n - 1 then
        s.sendXfer j (s.collPort r n) ⟨j.arg 56 4, op, r, step + 1, len, collOfs op chunk len, [], x.got, false⟩
      else s

/-- A started collective goes on with what it has received, to its end; `fuel` bounds the transfers used, and `det` is what its next
read meets. -/
def State.collRun (id : Nat) : Nat → State → ReadFault → State
  | 0, s, _ => s
  | fuel + 1, s, det =>
    match s.job id, s.ring.colls.find? (fun c => c.job == id) with
    | some j, some c =>
      if s.chan ringChan = chFaulted then s
      else
        let n := (s.collRanks j).length
        let r := s.collRank j
        if !c.sent then State.collRun id fuel (s.collFirst j n r det) ⟨0, 0⟩
        else if collSteps (j.arg 32 1) n ≤ c.step then s.collDone j
        else match c.received.find? (fun x => x.step == c.step) with
          | some x => State.collRun id fuel (s.collUse j n r x det) ⟨0, 0⟩
          | none => s
    | _, _ => s

/-- Why a collective is refused as it starts (R429). -/
def State.collRefusal (s : State) (j : Job) : Option Refuse :=
  let missing := (List.range 8).any (fun m => bit (j.arg 34 1) m && !s.ring.members.any (fun x => x.module == m && x.role != 0))
  firstOf [
    refuseIf (missing || !s.flag Reg.RNG_STAT_FORMED) unitOffline,
    refuseIf ((s.collRanks j).any (fun m => m.roleCrc != s.roleCrc)) (wrongState 9 0)]

/-- A collective starts in its turn, with the transfers that came early; one under way goes on (R428 to R430). -/
def State.collGo (s : State) (op job : Nat) (det : ReadFault) : State :=
  match s.job job with
  | none => s
  | some j =>
    if j.opcode ≠ 0x30 ∨ j.arg 32 1 ≠ op ∨ s.gated islRng then s
    else if j.phase = .running then State.collRun job 20 s det
    else if j.phase ≠ .started then s
    else if j.arg 36 4 = 0 then s.finishOk j
    else match s.ring.colls with
      | [] => s
      | c :: _ =>
        if c.job ≠ job then s
        else match s.collRefusal j with
          | some e => (s.setColls (s.ring.colls.drop 1)).refuse j e
          | none =>
            let mine := s.ring.early.filter (fun x => x.coll == c.number)
            let s := { s with ring := { s.ring with early := s.ring.early.filter (fun x => x.coll != c.number) } }
            let s := s.modColl job (fun c => { c with startAt := some s.ticks, progressAt := s.ticks, received := mine })
            let s := s.setJob { j with phase := .running }
            let s := ({ s with chanJob := s.chanJob.set ringChan job } : State).chanStart ringChan j.context 0 0 j.tag false
            State.collRun job 20 s det

/-- ALL_GATHER (R428). -/
def execAllGather (go : CollRun) (s : State) : Res := .next (s.collGo 2 go.job go.det)

/-- REDUCE_SCATTER (R428). -/
def execReduceScatter (go : CollRun) (s : State) : Res := .next (s.collGo 3 go.job go.det)

/-- RING_PASS (R428). -/
def execRingPass (go : CollRun) (s : State) : Res := .next (s.collGo 4 go.job go.det)

/-- Not every member has joined within JOIN_MS of the start (R430; log entry 68). -/
def execJoinTimeout (job : Nat) (s : State) : Res :=
  match s.ring.colls.find? (fun c => c.job == job) with
  | some c => match c.startAt with
    | some t =>
      if s.passed t (msTicks (s.rd Reg.RNG_CFG_JOIN_MS)) ∧ c.step = 0 ∧ c.received.isEmpty then .next (s.endColl job stNotReady 0)
      else .next s
    | none => .next s
  | none => .next s

/-- No progress for JOIN_MS on a member whose own channel has not faulted (R431). -/
def execCollectiveStall (job : Nat) (s : State) : Res :=
  match s.ring.colls.find? (fun c => c.job == job) with
  | some c =>
    if c.startAt.isSome ∧ s.chan ringChan ≠ chFaulted ∧ s.passed c.progressAt (msTicks (s.rd Reg.RNG_CFG_JOIN_MS)) then
      .next (s.endColl job stNotReady 0)
    else .next s
  | none => .next s

/-! ### Received transfers -/

/-- A whole transfer has arrived: the collective that runs under its number goes on with it, or it waits for one (R430). -/
def State.xferIn (s : State) (x : Xfer) : State :=
  match s.ring.colls.find? (fun c => c.number == x.coll && c.startAt.isSome) with
  | some c =>
    let s := s.modColl c.job (fun c => { c with received := c.received ++ [x], progressAt := s.ticks })
    State.collRun c.job 20 s ⟨0, 0⟩
  | none => { s with ring := { s.ring with early := s.ring.early ++ [x] } }

/-- A transfer at port `p` only passes through: at a member without a rank, upstream along a chain, and when it is a message to another
module's tracer (R424, text after R425; log entries 67, 114). -/
def State.passes (s : State) (p : Nat) (x : Xfer) : Bool :=
  s.rd Reg.RNG_STAT_ROLE == 0 ||
  if x.isKv then x.kvTo != s.rd Reg.RNG_STAT_MODULE
  else p == 0 && !s.flag Reg.RNG_STAT_CLOSED && s.rd Reg.RNG_STAT_RANK != 0

/-- A whole transfer has arrived, for this module or on its way. -/
def State.xferWhole (s : State) (p : Nat) (x : Xfer) : State :=
  if s.passes p x then s else if x.isKv then s.kvIn x else s.xferIn x

/-- A DATA payload at port `p` begins or continues a transfer, and goes on where the transfer only passes through (R424, R432; log
entry 67). -/
def State.dataIn (s : State) (p : Nat) (l : List Byte) : State :=
  let y := s.rx p
  let x := match y.xfer with
    | none => readHeader l
    | some x => { x with got := (x.got ++ l).take x.size }
  let x := { x with slow := x.slow || s.lanes p == 3 }
  let s := if s.passes p x then s.sendFlit (1 - p) flitData 0 l else s
  if x.got.length = x.size then (s.setRx p { y with xfer := none }).xferWhole p x else s.setRx p { y with xfer := some x }

/-! ### Digest comparisons (R458 to R462) -/

/-- A region's block and state. -/
def State.region (s : State) (i : Nat) : Region := s.prf.regions.get ⟨[], 0, 0, 0⟩ i
def State.regionState (s : State) (i : Nat) : Nat := s.rd Reg.PRF_REGION_STATE i
def rgValid : Nat := 1
def rgLost : Nat := 2
def rgExpelled : Nat := 3
def rgSuspended : Nat := 4
def rgVerified : Nat := 5

/-- Every job of a context that has not completed ends with a status; comparisons that cover its output have failed (R435, R458,
R461). -/
def State.endContext (s : State) (ctx status : Nat) : State :=
  let bad := (s.ring.sent.filter (fun e => e.2.2.contains ctx)).flatMap (·.2.1)
  let s := { s with ring := { s.ring with badJobs := (s.ring.badJobs ++ bad).eraseDups } }
  (s.jobs.filter (fun j => j.context == ctx)).foldl (fun s j => (s.stopJob j).finishQuiet j status 0 0) s

/-- The DIGEST_MISMATCH event and the error record of op 0x06 (R464, Tables PRF-7, PRF-14). -/
def State.digestMismatch (s : State) (i group action step digest : Nat) : State :=
  let s := s.raise 0x0903 0 (le 1 i ++ le 1 group ++ le 1 action ++ le 1 0 ++ le 4 step ++ le 8 digest)
  s.record 0 6 s.dt64 2 1 [(1, i), (2, group), (3, step % 2 ^ 32), (4, digest), (5, action)]

/-- The bytes of a region, or of its mirror, walked from the stored root (R457, R472). -/
def State.regionBytes (s : State) (i : Nat) (mirror : Bool) : List Byte :=
  let g := s.region i
  let base := if mirror then fld g.block 24 8 else fld g.block 8 8
  (List.range (fld g.block 16 8 / 4096)).flatMap (fun n =>
    match s.walk g.root (base + 4096 * n) with
    | .ok (e, size) => s.physRead (pteAddr e + (base + 4096 * n) % size) 4096
    | .error _ => zeros 4096)

/-- The digest of a region's present contents, or of its mirror's (R457). -/
def State.regionDigest (s : State) (i : Nat) (mirror : Bool) : Nat := crc64 (s.regionBytes i mirror)

/-- The mirror is copied over the region (R458, R463). -/
def State.fromMirror (s : State) (i : Nat) : State :=
  let g := s.region i
  let base := fld g.block 8 8
  let l := s.regionBytes i true
  (List.range (fld g.block 16 8 / 4096)).foldl (fun s n =>
    match s.walk g.root (base + 4096 * n) with
    | .ok (e, size) => s.store (gaddr spDdr (pteAddr e + (base + 4096 * n) % size)) ((l.drop (4096 * n)).take 4096)
    | .error _ => s) s

/-- RELOAD's effect on a region (R463). -/
def State.reload (s : State) (i : Nat) (fromMirror : Bool) : State :=
  let s := if fromMirror then s.fromMirror i else s
  let g := s.region i
  let d := s.regionDigest i false
  let s := { s with prf := { s.prf with regions := s.prf.regions.set i { g with ref := d } } }
  let s := { s with nv := { s.nv with regions := s.nv.regions.set i ({ g with ref := d }, s.rd Reg.PRF_REGION_CONTEXT i) } }
  s.wr Reg.PRF_REGION_STATE rgValid i

/-- A region is lost: its mirror replaces it where that is good, otherwise its context's work ends (R458). -/
def State.regionLost (s : State) (i : Nat) : State :=
  let g := s.region i
  if bit (fld g.block 1 1) 0 && s.regionDigest i true == g.ref then s.fromMirror i
  else
    let s := (s.weightLost i 0).wr Reg.PRF_REGION_STATE rgLost i
    s.endContext (s.rd Reg.PRF_REGION_CONTEXT i) stDataErr

/-- A region is suspended: with a mirror the device reloads it by itself, otherwise it waits for the host (R462). -/
def State.regionSuspended (s : State) (i : Nat) : State :=
  if bit (fld (s.region i).block 1 1) 0 then s.reload i true
  else
    let s := (s.weightLost i 0).wr Reg.PRF_REGION_STATE rgSuspended i
    s.endContext (s.rd Reg.PRF_REGION_CONTEXT i) stDataErr

/-- The members of a group, as far as this module knows: its own regions of the group, and a region on each module whose
digests it has heard (R459). -/
def State.groupDigests (s : State) (group step : Nat) : List Digest :=
  s.prf.digests.filter (fun d => d.group == group && d.step == step)

/-- Members of a group that have sent a digest for any step, with module and region. -/
def State.groupMembers (s : State) (group : Nat) : List (Nat × Nat) :=
  ((s.prf.digests.filter (fun d => d.group == group)).map (fun d => (d.module, d.region))).eraseDups

/-- The digest that more than half of those compared hold (R460). -/
def majority (l : List Digest) : Option Nat :=
  ((l.map (·.value)).eraseDups).find? (fun v => decide (l.length < 2 * (l.filter (fun d => d.value == v)).length))

/-- The comparison of a group's step for this module's region `i` (R459 to R462). -/
def State.compareDigests (s : State) (i step : Nat) : State :=
  let group := fld (s.region i).block 0 1
  let l := s.groupDigests group step
  let late := (s.groupMembers group).length - l.length
  let me := s.rd Reg.RNG_STAT_MODULE
  let s := { s with prf := { s.prf with digestWait := s.prf.digestWait.filter (fun w => !(w.1 == i && w.2.1 == step)) } }
  let s := (s.bump Reg.PRF_REGION_COMPARES i).bump Reg.PRF_CNT_DIGEST_LATE 0 late
  match l.find? (fun d => d.module == me && d.region == i) with
  | none => s
  | some d =>
    if l.length ≤ 1 then s
    else match majority l with
      | some v =>
        if v = d.value then s
        else
          let s := (s.digestMismatch i group 1 step d.value).bump Reg.PRF_CNT_EXPULSIONS
          (s.wr Reg.PRF_REGION_STATE rgExpelled i).endContext (s.rd Reg.PRF_REGION_CONTEXT i) stExpelled
      | none => (s.digestMismatch i group 2 step d.value).regionSuspended i

/-- Own comparisons of a step run once every known member's digest is held (R459). -/
def State.compareReady (s : State) (group step : Nat) : State :=
  let all := (s.groupMembers group).length ≤ (s.groupDigests group step).length
  (s.prf.digestWait.filter (fun w => w.2.1 == step && fld (s.region w.1).block 0 1 == group)).foldl
    (fun s w => if all then s.compareDigests w.1 step else s) s

/-- A digest is held. -/
def State.holdDigest (s : State) (d : Digest) : State :=
  { s with prf := { s.prf with digests := s.prf.digests.filter (fun e => !(e.module == d.module && e.group == d.group &&
      e.region == d.region && e.step == d.step)) ++ [d] } }

/-- A CHECK flit at port `p`: it goes on to every member, then its verdict or digest is taken (R435, R459). -/
def State.checkIn (s : State) (p : Nat) (l : List Byte) : State :=
  if fld l 16 8 = s.part.serial then s
  else
    let s := s.sendCtrl (1 - p) ctCheck l
    if fld l 0 1 = 1 then s.verdictOf (fld l 1 1 % 8) (fld l 4 4) (fld l 2 1 == 1)
    else if fld l 0 1 = 2 then
      (s.holdDigest ⟨fld l 1 1, fld l 3 1, fld l 4 4, fld l 24 1, fld l 8 8⟩).compareReady (fld l 3 1) (fld l 4 4)
    else s

/-! ### Flits received (R416, R417, R422, R423, R435) -/

/-- An accepted CTRL or DATA flit is used. -/
def State.useFlit (s : State) (p type code : Nat) (l : List Byte) : State :=
  if type = flitData then s.dataIn p l
  else match code with
    | 1 => s.helloIn p l
    | 2 =>
      let i := p * 4 + fld l 0 1 % 4
      if s.laneServes i then (s.dropLane i).showPort p else s
    | 4 => s.censusIn l
    | 5 => s.formedIn p l
    | 6 => s.checkIn p l
    | _ => s

/-- A flit is discarded, and a NAK sent unless one is outstanding (R416). -/
def State.refuseFlit (s : State) (p : Nat) : State :=
  let s := s.bump Reg.RNG_CNT_CRC_ERRORS
  let y := s.rx p
  if y.nak then s else (s.setRx p { y with nak := true }).idleFlit p 0 0 true

/-- A ring flit is received: accepted when its CRC checks and, for CTRL and DATA, its number is the one expected; it is then
acknowledged and its buffer returned (R415 to R417). -/
def execFlitRx (port : Fin 2) (flit : Flit) (s : State) : Res :=
  let p := port.val
  let b := flit.bytes
  let type := fld b 0 1
  if !s.alive ∨ !s.ringUp p then .next s
  else if fld b 136 4 ≠ crc32c (b.take 136) ∨ b.length ≠ 144 ∨ 2 < type then .next (s.refuseFlit p)
  else if type ≠ 0 ∧ fld b 2 2 ≠ (s.rx p).expect then .next (s.refuseFlit p)
  else
    let s := (s.flitAck p (fld b 4 2)).flitCredit p (fld b 6 1) (fld b 7 1)
    if type = 0 then .next (if bit (fld b 1 1) 0 then s.replay p else s)
    else
      let y := s.rx p
      let s := s.setRx p { y with expect := (y.expect + 1) % 65536, nak := false }
      let s := s.idleFlit p (if type = flitCtrl then 1 else 0) (if type = flitData then 1 else 0) false
      .next (s.useFlit p type (fld b 1 1) ((b.drop 8).take 128))

/-! ### Verdicts on own check epochs (R435, R436) -/

/-- Every comparison that covers an entry of `sent` is complete: no sampled tile of its jobs waits, and no digest of its
contexts. -/
def State.covered (s : State) (e : Nat × List Nat × List Nat) : Bool :=
  !(s.plates.rows.any (fun r => r.2.slots.any (fun x => e.2.1.contains x.job) ||
      (match r.2.recording with | some x => e.2.1.contains x.job | none => false))) &&
  !(s.prf.digestWait.any (fun w => e.2.2.contains (s.rd Reg.PRF_REGION_CONTEXT w.1)))

/-- The verdict on the oldest open check epoch is broadcast, and holds here too (R435). -/
def State.closeEpoch (s : State) (e : Nat × List Nat × List Nat) (retract : Bool) : State :=
  let s := { s with ring := { s.ring with sent := s.ring.sent.filter (fun x => x.1 != e.1) } }
  let s := s.broadcast (s.checkPayload 1 retract.toNat 0 e.1 0 0)
  let s := s.verdictOf (s.rd Reg.RNG_STAT_MODULE) e.1 retract
  let left := s.ring.sent.flatMap (·.2.1)
  { s with ring := { s.ring with badJobs := s.ring.badJobs.filter (fun j => left.contains j) } }

/-- A check epoch has ended. -/
def State.epochOver (s : State) (k : Nat) : Bool := k != s.checkEpoch && serLe k s.checkEpoch

/-- Every comparison that covers the oldest open check epoch has completed (R435). -/
def execCheckEpochClose (s : State) : Res :=
  match s.ring.sent with
  | [] => .next s
  | e :: _ =>
    if s.alive ∧ s.epochOver e.1 ∧ s.covered e then .next (s.closeEpoch e (s.ring.badJobs.any (fun j => e.2.1.contains j)))
    else .next s

/-- LIMIT_US after its end, a check epoch that is not closed is retracted (R435). -/
def execCheckLimitExpiry (s : State) : Res :=
  match s.ring.sent with
  | [] => .next s
  | e :: _ =>
    let period := s.rd Reg.RNG_CHECK_PERIOD_US * 1000
    let since := ((s.checkEpoch + 2 ^ 32 - e.1) % 2 ^ 32) * period
    let within := toU 64 (((s.dt64 : Int) - s.rd Reg.RUL_EPOCH_OFS_OFS_NS) % (period : Int))
    if s.alive ∧ s.epochOver e.1 ∧ period + s.rd Reg.RNG_CHECK_LIMIT_US * 1000 ≤ since + within then .next (s.closeEpoch e true)
    else .next s

end Sys2Proof.Machine
end

