-- ==== Sys2Proof/Machine/Stipple.lean ====
section
/-! DEFINITION. The Stipple engine: acceptance and start of its jobs, voxelisation, sorting, neighbour search and rule books
(R129 to R164, Tables STP-1 to STP-12). -/

namespace Sys2Proof.Machine

def stpUnit : Nat := unitId 0x0C 0
def stpChan : Nat := 0x31
def maxPoints : Nat := 1048576

/-! ### The voxel space (R135 to R137) -/

/-- A voxel space descriptor (Table STP-3). -/
structure Space where
  x0 : Int
  y0 : Int
  z0 : Int
  vx : Nat
  vy : Nat
  vz : Nat
  dx : Nat
  dy : Nat
  dz : Nat
  reqVf : Bool

/-- The descriptor at offset `o`. -/
def spaceAt (l : List Byte) (o : Nat) : Space :=
  ⟨sext 32 (fld l o 4), sext 32 (fld l (o + 4) 4), sext 32 (fld l (o + 8) 4), fld l (o + 12) 2, fld l (o + 14) 2, fld l (o + 16) 2,
   fld l (o + 18) 1, fld l (o + 19) 1, fld l (o + 20) 1, bit (fld l (o + 21) 1) 0⟩

/-- The offset of a field of a descriptor at `o` that breaks its range. -/
def spaceError (l : List Byte) (o : Nat) : Option Nat :=
  let size := fun (k : Nat) => decide (fld l (o + k) 2 < 10 ∨ 20000 < fld l (o + k) 2)
  let db := fun (k : Nat) => decide (fld l (o + k) 1 < 1 ∨ 21 < fld l (o + k) 1)
  ([(12, size 12), (14, size 14), (16, size 16), (18, db 18), (19, db 19), (20, db 20), (21, decide (1 < fld l (o + 21) 1)),
    (22, !zeroAt l (o + 22) 2)] : List (Nat × Bool)).find? (fun e => e.2) |>.map (fun e => o + e.1)

/-- A voxel component: none outside 0 to 2^DB - 1 (R136). -/
def voxel1 (x x0 : Int) (v db : Nat) : Option Nat :=
  let c := (x - x0) / (v : Int)
  if 0 ≤ c ∧ c < (2 ^ db : Int) then some c.toNat else none

/-- The voxel of a point (R136). -/
def Space.voxel (p : Space) (x y z : Int) : Option (Nat × Nat × Nat) := do
  let a ← voxel1 x p.x0 p.vx p.dx
  let b ← voxel1 y p.y0 p.vy p.dy
  let c ← voxel1 z p.z0 p.vz p.dz
  some (a, b, c)

/-- The Morton code of a voxel (R137). -/
def morton (v : Nat × Nat × Nat) : Nat :=
  (List.range 21).foldl (fun c i =>
    c + (v.1.testBit i).toNat * 2 ^ (3 * i) + (v.2.1.testBit i).toNat * 2 ^ (3 * i + 1) + (v.2.2.testBit i).toNat * 2 ^ (3 * i + 2)) 0

/-- The voxel of a Morton code (R137). -/
def unmorton (c : Nat) : Nat × Nat × Nat :=
  let axis := fun (k : Nat) => (List.range 21).foldl (fun a i => a + (c.testBit (3 * i + k)).toNat * 2 ^ i) 0
  (axis 0, axis 1, axis 2)

/-! ### Points -/

/-- A point as an operation uses it: none of its coordinates when the transform left int32 (R140). -/
structure SPoint where
  pos : Option (Int × Int × Int)
  flags : Nat
  intensity : Nat
  sweep : Nat

/-- A canonical point record (Table HAT-7). -/
def pointOf (sweep : Nat) (l : List Byte) : SPoint :=
  ⟨some (sext 32 (fld l 0 4), sext 32 (fld l 4 4), sext 32 (fld l 8 4)), fld l 20 2, fld l 16 2, sweep⟩

/-- The point records in a list of bytes; `n` bounds them. -/
def pointsOf (sweep : Nat) : Nat → List Byte → List SPoint
  | 0, _ => []
  | n + 1, l => pointOf sweep (l.take 24) :: pointsOf sweep n (l.drop 24)

/-- The transform of a source entry at offset `o` (R140). -/
def xformPoint (l : List Byte) (o : Nat) (p : SPoint) : SPoint :=
  let r := fun (k : Nat) => sext 32 (fld l (o + 16 + 4 * k) 4)
  match p.pos with
  | none => p
  | some (x, y, z) =>
    let row := fun (k : Nat) => rnd (r (3 * k) * x + r (3 * k + 1) * y + r (3 * k + 2) * z) 29 + sext 32 (fld l (o + 52 + 4 * k) 4)
    let ok := fitsS 32 (row 0) && fitsS 32 (row 1) && fitsS 32 (row 2)
    { p with pos := if ok then some (row 0, row 1, row 2) else none }

/-- The voxel of a point, none when it is filtered (R136, R140, Table STP-3). -/
def Space.voxelOf (sp : Space) (p : SPoint) : Option (Nat × Nat × Nat) :=
  if sp.reqVf && !bit p.flags 4 then none
  else match p.pos with
    | none => none
    | some (x, y, z) => sp.voxel x y z

/-! ### Acceptance (R130, R131, R138, R146, R149, R154) -/

/-- Sum of the counts of the kind 0 sources before source `i`. -/
def srcSum (p : List Byte) (i : Nat) : Nat :=
  ((List.range i).map (fun k => if fld p (64 + 64 * k) 1 = 0 then fld p (64 + 64 * k + 4) 4 else 0)).sum

/-- A source entry breaks its table: the offset of the field. -/
def srcError (p : List Byte) (i : Nat) : Option Nat :=
  let o := 64 + 64 * i
  ([(o, decide (1 < fld p o 1)),
    (o + 1, decide (15 < fld p (o + 1) 1) || (List.range i).any (fun k => fld p (64 + 64 * k + 1) 1 == fld p (o + 1) 1)),
    (o + 2, decide (1 < fld p (o + 2) 1)), (o + 3, !zeroAt p (o + 3) 1),
    (o + 4, fld p o 1 == 1 && fld p (o + 4) 4 != 0)] : List (Nat × Bool)).find? (fun e => e.2) |>.map (·.1)

/-- A BAD_FIELD at the first offset of a list that is wrong. -/
def wrongAt (l : List (Nat × Bool)) : Option Refuse := (l.find? (fun e => e.2)).map (fun e => ⟨stBadField, 0x8000 + e.1⟩)

/-- A BAD_LENGTH at the first offset of a list that is wrong. -/
def longAt (l : List (Nat × Bool)) : Option Refuse := (l.find? (fun e => e.2)).map (fun e => ⟨stBadLength, 0x8000 + e.1⟩)

/-- BAD_FIELD at an offset of the block. -/
def fieldAt (o : Option Nat) : Option Refuse := o.map (fun o => ⟨stBadField, 0x8000 + o⟩)

/-- Offsets per kernel (Table STP-9). -/
def kernelOffsets (k : Nat) : Nat := [0, 1, 8, 27].getD k 0

/-- The checks of a parameter block (R138, R146, R149, R154). -/
def stpBlockError (op : Nat) (p : List Byte) : Option Refuse :=
  match op with
  | 1 =>
    let n := fld p 0 1
    firstOf [
      longAt ((List.range n).map (fun i => (64 + 64 * i + 4, decide (maxPoints < srcSum p (i + 1)))) ++
        [(56, decide (fld p 56 4 < 64 * fld p 4 4))]),
      wrongAt [(0, decide (n < 1 ∨ 16 < n)), (1, decide (1 < fld p 1 1)), (2, !zeroAt p 2 2),
        (4, decide (fld p 4 4 < 1 ∨ 262144 < fld p 4 4))],
      fieldAt (spaceError p 8), wrongAt [(60, !zeroAt p 60 4)],
      fieldAt ((List.range n).findSome? (srcError p))]
  | 2 =>
    firstOf [
      longAt [(4, decide (maxPoints < fld p 4 4)), (56, decide (fld p 56 4 < 16 * fld p 4 4))],
      wrongAt [(0, decide (1 < fld p 0 1)), (1, !zeroAt p 1 3)],
      (if fld p 0 1 = 0 then fieldAt (spaceError p 32) else none), wrongAt [(60, !zeroAt p 60 4)]]
  | 3 =>
    firstOf [
      longAt [(40, decide (fld p 40 4 < fld p 12 4 * (8 + 8 * fld p 2 1)))],
      wrongAt [(0, decide (1 < fld p 0 1)), (1, decide (1 < fld p 1 1)), (2, decide (fld p 2 1 < 1 ∨ 32 < fld p 2 1)),
        (3, decide (1 < fld p 3 1)), (4, decide (fld p 4 2 < 1 ∨ 256 < fld p 4 2)), (6, !zeroAt p 6 2),
        (8, decide (fld p 8 4 < 1 ∨ 65535 < fld p 8 4)), (44, !zeroAt p 44 20)]]
  | _ =>
    let subm := bit (fld p 2 1) 0
    firstOf [
      wrongAt [(0, decide (fld p 0 1 < 1 ∨ 3 < fld p 0 1)), (1, decide (fld p 1 1 < 1 ∨ 2 < fld p 1 1)),
        (2, decide (3 < fld p 2 1) || (subm && fld p 1 1 == 2)), (3, decide (fld p 3 1 < 1 ∨ 32 < fld p 3 1)),
        (8, decide (fld p 8 4 < 1 ∨ maxPoints < fld p 8 4)), (12, !zeroAt p 12 4), (60, !zeroAt p 60 4)],
      longAt [(4, decide (maxPoints < fld p 4 4)), (8, subm && decide (fld p 8 4 < fld p 4 4)),
        (56, decide (fld p 56 4 < 16 * kernelOffsets (fld p 0 1) * fld p 4 4))]]

/-- The block gives the job no work at all (R400). -/
def stpNoWork (op : Nat) (p : List Byte) : Bool := (op == 2 && fld p 4 4 == 0) || (op == 3 && fld p 12 4 == 0) || (op == 4 && fld p 4 4 == 0)

/-- The checks of a Stipple descriptor at acceptance; its block is kept (R130, R131, R400). -/
def State.stippleAccept (s : State) (j : Job) : Except Refuse (List Byte) :=
  let op := j.arg 32 1
  let len := j.arg 48 4
  let full := decide (16 ≤ (s.jobs.filter (fun k => k.opcode == 0x11)).length)
  if op = 0 ∨ 4 < op then .error ⟨stBadField, 32⟩
  else if !zeroAt j.desc 33 7 then .error ⟨stBadField, 33⟩
  else if !zeroAt j.desc 52 12 then .error ⟨stBadField, 52⟩
  else if len = 0 then (if full then .error ⟨stNoResource, 0⟩ else .ok [])
  else if len < 64 ∨ (op ≠ 1 ∧ len ≠ 64) then .error ⟨stBadLength, 48⟩
  else match s.acceptRead j.context (j.arg 40 8) 64 with
  | .error e => .error ⟨e.1, e.2⟩
  | .ok h =>
    if op = 1 ∧ len ≠ 64 + 64 * fld h 0 1 then .error ⟨stBadLength, 48⟩
    else match s.acceptRead j.context (j.arg 40 8) len with
    | .error e => .error ⟨e.1, e.2⟩
    | .ok p => match stpBlockError op p with
      | some r => .error r
      | none => if full then .error ⟨stNoResource, 0⟩ else .ok (if stpNoWork op p then [] else p)

/-! ### Start (R132, R138, R149, R164) -/

/-- The first Stipple job in order of acceptance. -/
def State.stpFirst (s : State) : Option Job := s.jobs.find? (fun j => j.opcode == 0x11)

/-- Sources of a VOXELISE job whose point buffer is no longer held: the offset of the address. -/
def State.srcGone (s : State) (p : List Byte) : Option Nat :=
  ((List.range (fld p 0 1)).find? (fun i => fld p (64 + 64 * i) 1 == 1 && (s.heldPoints (fld p (72 + 64 * i) 4)).isNone)).map
    (fun i => 72 + 64 * i)

/-- The engine is offline: every job not yet started completes UNIT_OFFLINE; the one in progress runs on (R164). -/
def State.stpOffline (s : State) : State :=
  (s.jobs.filter (fun j => j.opcode == 0x11 && s.stp.run != some j.id)).foldl (fun s j => s.finishQuiet j stUnitOffline 0 0) s

/-- The Stipple engine takes its next job (R132, R164). -/
def execStippleJobStart (s : State) : Res :=
  if (s.unit stpUnit).offline then .next s.stpOffline
  else match s.stpFirst with
  | none => .next s
  | some j =>
    if s.stp.run.isSome ∨ j.phase ≠ .started then .next s
    else if s.flag Reg.STP_CTRL_HOLD ∨ !s.unitUp stpUnit ∨ s.sliced stpUnit then .next s
    else if j.param.isEmpty then .next (((s.beginJob j .running).bump Reg.STP_CNT_JOBS).finishNow j.id stOk 0 0)
    else match (if j.arg 32 1 = 1 then s.srcGone j.param else none) with
      | some o => .next ((s.bump Reg.STP_CNT_JOBS).refuse j ⟨stBadField, 0x8000 + o⟩)
      | none =>
        let s := { s with stp := { StpSt.reset with run := some j.id } }
        let s := ((s.wr Reg.STP_STAT_BUSY 1).wr Reg.STP_STAT_OP (j.arg 32 1)).wr Reg.STP_STAT_RETRY 0
        .next (s.beginJob j .running)

/-! ### Reads and the end of a job (R134, R162, R163) -/

/-- Reads of a job: the bytes, or the fault that stops it. -/
abbrev SRead (α : Type) := State × Except (Nat × Nat) α

/-- A read of DDR4 met a detection: the run counts as failed (R162). -/
def State.stpHit (s : State) (pa : Nat) : State :=
  let s := s.ddrDetect 1 pa false true
  { s with stp := { s.stp with hit := true } }

/-- `n` bytes read through translation. -/
def State.stpGet (s : State) (ctx va n : Nat) : SRead (List Byte) :=
  let (s, l, f) := s.vread stpChan ctx va n
  match f with
  | some e => (s, .error e)
  | none =>
    if s.vbad ctx (n / 4096 + 2) va n then
      (s.stpHit (match s.translate ctx va .read with | .ok pa => pa | .error _ => 0), .ok l)
    else (s, .ok l)

/-- The points of epoch `e` read from its buffer. -/
def State.stpBuffer (s : State) (e : Nat) : State × List Byte :=
  let n := 24 * (s.heldPoints e).getD 0
  let l := s.physRead (pointBuffer e) n
  if s.readFails (pointBuffer e) n then (s.stpHit (pointBuffer e), l) else (s, l)

/-- A Stipple job completes. -/
def State.stpEnd (s : State) (j : Job) (status result detail : Nat) (dropped : Bool) : State :=
  let s := if dropped then s.addFlag j.id cfDropped else s
  ((((s.freeChans j.id).stpIdle).bump Reg.STP_CNT_JOBS).wroteOut j.id).finishNow j.id status result detail

/-- The engine stops at a faulting page; the job holds it there (R163). -/
def State.stpFault (s : State) (j : Job) (k va done : Nat) : State :=
  let s := ({ s with chanJob := s.chanJob.set stpChan j.id } : State).chanStart stpChan j.context 0 0 j.tag false
  s.chanFault stpChan k done va

/-- A run met a detection: the job runs again from its inputs, up to 2 times, and then completes DATA_ERROR (R133, R162). -/
def State.stpAgain (s : State) (j : Job) : State :=
  let n := s.rd Reg.STP_STAT_RETRY
  let s := { s with stp := { s.stp with hit := false, out := none, readDone := false } }
  if n < 2 then
    (((s.wr Reg.STP_STAT_RETRY (n + 1)).bump Reg.STP_CNT_RECOMPUTES).bump Reg.PRF_CNT_RECOMPUTES).addFlag j.id cfRecomputed
  else (s.stpSpoil j).stpEnd j stDataErr 0 0 false

/-- Writes of a computed job, in order, until all are done or one faults. -/
def State.stpWrites (ctx : Nat) : List (Nat × List Byte) → State → State × Option (List (Nat × List Byte) × Nat × Nat)
  | [], s => (s, none)
  | (a, l) :: r, s =>
    match s.vwrite stpChan ctx a l with
    | (s, _, none) => State.stpWrites ctx r s
    | (s, d, some (k, va)) => (s, some ((a + d, l.drop d) :: r, k, va))

/-- The outcome of a job is written, and the job completes. -/
def State.stpPut (s : State) (j : Job) (o : StpOut) : State :=
  match State.stpWrites j.context o.writes s with
  | (s, some (rest, k, va)) =>
    ({ s with stp := { s.stp with out := some { o with writes := rest } } } : State).stpFault j k va 0
  | (s, none) =>
    let s := if o.status = 0 ∨ j.arg 32 1 = 3 then s else s.stpSpoil j
    s.stpEnd j o.status o.result o.detail o.dropped

/-- The running job with operation `op`, unless its channel is stopped on a fault. -/
def State.stpRunning (s : State) (op : Nat) : Option Job :=
  match s.stp.run with
  | none => none
  | some id => match s.job id with
    | some j => if j.arg 32 1 = op ∧ s.chan stpChan ≠ chFaulted ∧ !s.gated islStp then some j else none
    | none => none

/-- The run of an operation: what it reads and computes, then what it writes; `det` is a detection that the run meets (R162). -/
def State.stpRun (s : State) (op : Nat) (det : StpDet) (compute : State → Job → SRead StpOut) : State :=
  match s.stpRunning op with
  | none => s
  | some j =>
    match s.stp.out with
    | some o => s.stpPut j o
    | none =>
      match compute s j with
      | (s, .error (k, va)) => s.stpFault j k va 0
      | (s, .ok o) =>
        let s := { s with stp := { s.stp with readDone := true } }
        match det with
        | .parity => ((s.sramDetect stpUnit 1 (s.freeVal 22) false).usedFree).stpAgain j
        | .burst pa false => (s.ddrDetect 1 pa false false).stpAgain j
        | .burst pa true => if s.stp.hit then (s.ddrDetect 1 pa true false).stpAgain j else (s.ddrDetect 1 pa true false).stpPut j o
        | .none => if s.stp.hit then s.stpAgain j else s.stpPut j o

/-- A work area after use: its bytes are free values (log entry 4). -/
def State.workBytes (s : State) (n : Nat) : State × List Byte :=
  ({ s with free := s.free + n }, (List.range n).map (fun i => BitVec.ofNat 8 (Config.free (s.free + i))))

/-! ### VOXELISE (R139 to R145) -/

/-- A cell as it grows (R144). -/
structure VCell where
  code : Nat
  count : Nat
  sumI : Nat
  sumX : Nat
  sumY : Nat
  sumZ : Nat
  sweeps : Nat
  first : Nat

/-- The hash table and what insertion has counted. -/
structure VTable where
  /-- Valid slots: tag and cell index. -/
  slots : Tbl (Nat × Nat)
  cells : List VCell
  /-- Per input point, the index of its cell. -/
  map : List (Option Nat)
  filtered : Nat
  cellDrops : Nat
  probeDrops : Nat
  pointDrops : Nat
  /-- The probe at which each insert or merge found its slot. -/
  hits : List Nat

/-- Bucket and tag of a code (R142). -/
def bucketOf (c : Nat) : Nat := bits (c * 0x9E3779B97F4A7C15 % 2 ^ 64) 45 19
def tagOf (c : Nat) : Nat := bits (c * 0x9E3779B97F4A7C15 % 2 ^ 64) 32 13

/-- The probe that ends a search: its number, and the cell found or none for a free slot (R142). -/
def VTable.probe (t : VTable) (c : Nat) : Option (Nat × Option Nat) :=
  (List.range 8).findSome? (fun j =>
    match t.slots.find ((bucketOf c + j) % 2 ^ 19) with
    | none => some (j, none)
    | some (g, i) => if g = tagOf c ∧ (t.cells.map (·.code))[i]? = some c then some (j, some i) else none)

/-- A point merged into a cell. -/
def VCell.merge (x : VCell) (p : SPoint) (dx dy dz : Nat) : VCell :=
  { x with count := x.count + 1, sumI := x.sumI + p.intensity, sumX := x.sumX + dx, sumY := x.sumY + dy, sumZ := x.sumZ + dz,
           sweeps := x.sweeps ||| 2 ^ p.sweep }

/-- Input point number `n` enters the table (R139, R142, R143). -/
def VTable.insert (sp : Space) (cap : Nat) (t : VTable) (e : SPoint × Nat) : VTable :=
  let (p, n) := e
  if maxPoints ≤ n then { t with pointDrops := t.pointDrops + 1, map := t.map ++ [none] }
  else match sp.voxelOf p, p.pos with
  | some v, some (x, y, z) =>
    let c := morton v
    let dx := (x - sp.x0 - (v.1 * sp.vx : Nat)).toNat
    let dy := (y - sp.y0 - (v.2.1 * sp.vy : Nat)).toNat
    let dz := (z - sp.z0 - (v.2.2 * sp.vz : Nat)).toNat
    match t.probe c with
    | some (j, some i) =>
      { t with cells := t.cells.modify i (fun x => x.merge p dx dy dz), map := t.map ++ [some i], hits := t.hits ++ [j] }
    | some (j, none) =>
      if t.cells.length < cap then
        let i := t.cells.length
        { t with slots := t.slots.set ((bucketOf c + j) % 2 ^ 19) (tagOf c, i),
                 cells := t.cells ++ [VCell.merge ⟨c, 0, 0, 0, 0, 0, 0, n⟩ p dx dy dz],
                 map := t.map ++ [some i], hits := t.hits ++ [j] }
      else { t with cellDrops := t.cellDrops + 1, map := t.map ++ [none] }
    | none => { t with probeDrops := t.probeDrops + 1, map := t.map ++ [none] }
  | _, _ => { t with filtered := t.filtered + 1, map := t.map ++ [none] }

/-- The lowest set bit of a sweep set. -/
def lowestBit (v : Nat) : Nat := ((List.range 16).find? v.testBit).getD 0

/-- A cell record (Table STP-6). -/
def VCell.bytes (x : VCell) : List Byte :=
  let mean := fun (v : Nat) => (v + x.count / 2) / x.count
  le 8 x.code ++ le 2 (satU 16 x.count) ++ le 2 x.sweeps ++ le 1 (lowestBit x.sweeps) ++ le 1 (decide (65535 < x.count)).toNat ++
  le 2 (mean x.sumI) ++ le 2 (mean x.sumX) ++ le 2 (mean x.sumY) ++ le 2 (mean x.sumZ) ++ le 2 0 ++ le 4 x.first ++ le 4 0

/-- The cells in ascending code order (R145). -/
def VTable.sorted (t : VTable) : List VCell := t.cells.insertionSort (fun a b => a.code ≤ b.code)

/-- The point-to-cell map (R145). -/
def VTable.mapBytes (t : VTable) : List Byte :=
  let codes := t.cells.map (·.code)
  t.map.flatMap (fun m => le 4 (match m with
    | some i => (codes.filter (fun c => decide (c < codes.getD i 0))).length
    | none => 0xFFFFFFFF))

/-- The points of a source (R139, R140). -/
def State.sourcePoints (s : State) (ctx : Nat) (p : List Byte) (i : Nat) : SRead (List SPoint) :=
  let o := 64 + 64 * i
  let sweep := fld p (o + 1) 1
  let ready := fun (l : List Byte) =>
    let pts := pointsOf sweep (l.length / 24) l
    if bit (fld p (o + 2) 1) 0 then pts.map (xformPoint p o) else pts
  if fld p o 1 = 1 then
    let (s, l) := s.stpBuffer (fld p (o + 8) 4)
    (s, .ok (ready l))
  else match s.stpGet ctx (fld p (o + 8) 8) (24 * fld p (o + 4) 4) with
    | (s, .error e) => (s, .error e)
    | (s, .ok l) => (s, .ok (ready l))

/-- The points of every source in order. -/
def State.allPoints (s : State) (ctx : Nat) (p : List Byte) : SRead (List SPoint) :=
  (List.range (fld p 0 1)).foldl (fun (a : SRead (List SPoint)) i =>
    match a with
    | (s, .error e) => (s, .error e)
    | (s, .ok l) => match s.sourcePoints ctx p i with
      | (s, .error e) => (s, .error e)
      | (s, .ok m) => (s, .ok (l ++ m))) (s, .ok [])

/-- The counters of a voxelisation advance. -/
def State.countVoxels (s : State) (t : VTable) : State :=
  let s := (((s.bump Reg.STP_CNT_FILTERED 0 t.filtered).bump Reg.STP_CNT_CELL_DROPS 0 t.cellDrops).bump Reg.STP_CNT_PROBE_DROPS 0
    t.probeDrops).bump Reg.STP_CNT_POINT_DROPS 0 t.pointDrops
  t.hits.foldl (fun s j => s.bump Reg.STP_PROBE_HIST_HITS j) s

/-- VOXELISE computed (R139 to R145). -/
def State.voxelise (s : State) (j : Job) : SRead StpOut :=
  let p := j.param
  match s.allPoints j.context p with
  | (s, .error e) => (s, .error e)
  | (s, .ok pts) =>
    let t := pts.zipIdx.foldl (VTable.insert (spaceAt p 8) (fld p 4 4)) ⟨.empty, [], [], 0, 0, 0, 0, []⟩
    let (s, work) := (s.countVoxels t).workBytes (64 * fld p 4 4)
    let lost := t.cellDrops + t.probeDrops + t.pointDrops
    let map := if bit (fld p 1 1) 0 then [(fld p 40 8, t.mapBytes)] else []
    (s, .ok ⟨[(fld p 48 8, work), (fld p 32 8, t.sorted.flatMap VCell.bytes)] ++ map, 0, t.cells.length,
             lost + t.filtered * 2 ^ 32, decide (0 < lost)⟩)

/-- A VOXELISE job runs: it quantises, hashes and merges its points into cell records (R139 to R145). -/
def execVoxelise (det : StpDet) (s : State) : Res := .next (s.stpRun 1 det State.voxelise)

/-! ### SORT (R146 to R148) -/

/-- Codes and indices of the items of a SORT, those filtered left out. -/
def sortItems (kind : Nat) (sp : Space) (l : List Byte) (count : Nat) : List (Nat × Nat) :=
  (List.range count).filterMap (fun i =>
    if kind = 0 then (sp.voxelOf (pointOf 0 (slice l (24 * i) 24))).map (fun v => (morton v, i))
    else some (fld l (16 * i) 8, fld l (16 * i + 8) 4))

/-- A sorted entry (R147). -/
def sortEntry (e : Nat × Nat) : List Byte := le 8 e.1 ++ le 4 e.2 ++ le 4 0

/-- SORT computed. -/
def State.sortJob (s : State) (j : Job) : SRead StpOut :=
  let p := j.param
  let kind := fld p 0 1
  let count := fld p 4 4
  match s.stpGet j.context (fld p 8 8) ((if kind = 0 then 24 else 16) * count) with
  | (s, .error e) => (s, .error e)
  | (s, .ok l) =>
    let items := sortItems kind (spaceAt p 32) l count
    let sorted := items.insertionSort (fun a b => a.1 ≤ b.1)
    let gone := count - items.length
    let head := le 4 items.length ++ le 4 gone ++ le 8 (fld p 8 8) ++ (if kind = 0 then slice p 32 24 else zeros 24) ++ zeros 24
    let (s, work) := (s.bump Reg.STP_CNT_FILTERED 0 gone).workBytes (16 * count)
    (s, .ok ⟨[(fld p 24 8, work), (fld p 16 8, head ++ sorted.flatMap sortEntry)], 0, items.length, gone * 2 ^ 32, false⟩)

/-- A SORT job runs (R147, R148). -/
def execSort (det : StpDet) (s : State) : Res := .next (s.stpRun 2 det State.sortJob)

/-! ### NEIGHBOURS (R149 to R153) -/

/-- A reference entry: code, index and coordinates. -/
structure RefPoint where
  code : Nat
  index : Nat
  x : Int
  y : Int
  z : Int

/-- Squared distance in (0.1 mm)^2. -/
def RefPoint.d2 (r : RefPoint) (x y z : Int) : Nat := ((r.x - x) ^ 2 + (r.y - y) ^ 2 + (r.z - z) ^ 2).toNat

/-- The voxels around a voxel in offset order, x fastest. -/
def around (v : Nat × Nat × Nat) : List (Int × Int × Int) :=
  (List.range 27).map (fun n => ((v.1 : Int) + (n % 3 : Nat) - 1, (v.2.1 : Int) + (n / 3 % 3 : Nat) - 1, (v.2.2 : Int) + (n / 9 : Nat) - 1))

/-- The candidates of a query in voxel `v`, and whether CELL met more than 4,096 of them (R150). -/
def candidates (search w : Nat) (refs : List RefPoint) (v : Nat × Nat × Nat) : List RefPoint × Bool :=
  if search = 0 then
    let pos := (refs.filter (fun r => decide (r.code < morton v))).length
    ((refs.take (pos + w)).drop (pos - w), false)
  else
    let l := (around v).flatMap (fun c =>
      if 0 ≤ c.1 ∧ 0 ≤ c.2.1 ∧ 0 ≤ c.2.2 then refs.filter (fun r => unmorton r.code == (c.1.toNat, c.2.1.toNat, c.2.2.toNat)) else [])
    (l.take 4096, decide (4096 < l.length))

/-- A result block, and whether it carries TRUNC (R151 to R153). -/
def neighbourBlock (p : List Byte) (sp : Space) (refs : List RefPoint) (q : SPoint) (n : Nat) : List Byte × Bool :=
  let radius := fld p 0 1 == 1
  let k := fld p 2 1
  let same := bit (fld p 3 1) 0
  let block := fun (l : List (Nat × Nat)) (flags : Nat) =>
    le 1 l.length ++ le 1 flags ++ le 2 0 ++ le 4 n ++ l.flatMap (fun e => le 4 e.2 ++ le 4 (satU 32 e.1)) ++
    List.replicate (8 * (k - l.length)) 0xFF#8
  match sp.voxelOf q, q.pos with
  | some v, some (x, y, z) =>
    let (cands, many) := candidates (fld p 1 1) (fld p 4 2) refs v
    let cands := if same then cands.filter (fun r => r.index != n) else cands
    let ranked := ((cands.map (fun r => (r.d2 x y z, r.index))).insertionSort
      (fun a b => a.1 < b.1 ∨ (a.1 = b.1 ∧ a.2 ≤ b.2)))
    let near := if radius then ranked.filter (fun e => decide (e.1 ≤ fld p 8 4 ^ 2)) else ranked
    let out := near.take k
    let trunc := many || (radius && decide (k < near.length))
    let e := min sp.vx (min sp.vy sp.vz)
    let exact' := fld p 1 1 == 1 && !trunc &&
      (if radius then decide (fld p 8 4 ≤ e) else out.length == k && decide ((out.getLast?.map (·.1)).getD 0 ≤ e ^ 2))
    (block out (exact'.toNat + 2 * trunc.toNat), trunc)
  | _, _ => (block [] 0, false)

/-- The reference points of a sorted array, in its order. -/
def refsOf (entries records : List Byte) (n : Nat) : List RefPoint :=
  (List.range n).map (fun i =>
    let ix := fld entries (16 * i + 8) 4
    let r := slice records (24 * ix) 24
    ⟨fld entries (16 * i) 8, ix, sext 32 (fld r 0 4), sext 32 (fld r 4 4), sext 32 (fld r 8 4)⟩)

/-- A refused computation: the job completes with the status and writes nothing. -/
def stpRefused (status detail : Nat) : StpOut := ⟨[], status, 0, detail, false⟩

/-- NEIGHBOURS computed; the header of the sorted array decides the checks of R149. -/
def State.neighbours (s : State) (j : Job) : SRead StpOut :=
  let p := j.param
  let ctx := j.context
  let same := bit (fld p 3 1) 0
  let nq := fld p 12 4
  match s.stpGet ctx (fld p 16 8) 64 with
  | (s, .error e) => (s, .error e)
  | (s, .ok h) =>
    let n := fld h 0 4
    let total := n + fld h 4 4
    if same ∧ nq ≠ total then (s, .ok (stpRefused stBadLength (0x8000 + 12)))
    else if zeroAt h 16 24 then (s, .ok (stpRefused stBadField (0x8000 + 16)))
    else match s.stpGet ctx (fld p 16 8 + 64) (16 * n) with
    | (s, .error e) => (s, .error e)
    | (s, .ok entries) => match s.stpGet ctx (fld h 8 8) (24 * total) with
      | (s, .error e) => (s, .error e)
      | (s, .ok records) => match (if same then (s, .ok records) else s.stpGet ctx (fld p 24 8) (24 * nq) : SRead (List Byte)) with
        | (s, .error e) => (s, .error e)
        | (s, .ok queries) =>
          let sp := spaceAt h 16
          let refs := refsOf entries records n
          let blocks := (List.range nq).map (fun i => neighbourBlock p sp refs (pointOf 0 (slice queries (24 * i) 24)) i)
          let out := (List.range nq).filter (fun i => (sp.voxelOf (pointOf 0 (slice queries (24 * i) 24))).isNone)
          let s := s.bump Reg.STP_CNT_FILTERED 0 out.length
          (s, .ok ⟨[(fld p 32 8, blocks.flatMap (·.1))], 0, nq, (blocks.filter (·.2)).length, false⟩)

/-- A NEIGHBOURS job runs (R150 to R153). -/
def execNeighbours (det : StpDet) (s : State) : Res := .next (s.stpRun 3 det State.neighbours)

/-! ### RULEBOOK (R155 to R161) -/

/-- The kernel offset with number `n` (Table STP-9). -/
def offsetOf (kernel n : Nat) : Int × Int × Int :=
  match kernel with
  | 2 => ((n % 2 : Nat), (n / 2 % 2 : Nat), (n / 4 : Nat))
  | 3 => (((n % 3 : Nat) : Int) - 1, ((n / 3 % 3 : Nat) : Int) - 1, ((n / 9 : Nat) : Int) - 1)
  | _ => (0, 0, 0)

/-- One axis of (i - d) / s, when it is a site coordinate (R156). -/
def siteAxis (i : Nat) (d : Int) (s : Nat) : Option Nat :=
  let v := (i : Int) - d
  if 0 ≤ v ∧ v % (s : Int) = 0 ∧ v / (s : Int) < 2 ^ 21 then some (v / (s : Int)).toNat else none

/-- The output site that input site `c` reaches through an offset (R156). -/
def outSite (stride : Nat) (d : Int × Int × Int) (c : Nat) : Option Nat := do
  let v := unmorton c
  let x ← siteAxis v.1 d.1 stride
  let y ← siteAxis v.2.1 d.2.1 stride
  let z ← siteAxis v.2.2 d.2.2 stride
  some (morton (x, y, z))

/-- The input site s x o + d of output site `o`, as a code (R158). -/
def inSite (stride : Nat) (d : Int × Int × Int) (o : Nat) : Option Nat :=
  let v := unmorton o
  let x := (v.1 * stride : Nat) + d.1
  let y := (v.2.1 * stride : Nat) + d.2.1
  let z := (v.2.2 * stride : Nat) + d.2.2
  if 0 ≤ x ∧ 0 ≤ y ∧ 0 ≤ z ∧ x < 2 ^ 21 ∧ y < 2 ^ 21 ∧ z < 2 ^ 21 then some (morton (x.toNat, y.toNat, z.toNat)) else none

/-- Equal neighbours of a sorted list dropped. -/
def dropEqual : List Nat → List Nat
  | [] => []
  | a :: r => if r.head? = some a then dropEqual r else a :: dropEqual r

/-- Every output site in ascending code order (R156). -/
def outSites (subm : Bool) (kernel stride : Nat) (sites : List Nat) : List Nat :=
  if subm then sites
  else dropEqual ((sites.flatMap (fun c =>
    (List.range (kernelOffsets kernel)).filterMap (fun n => outSite stride (offsetOf kernel n) c))).insertionSort (· ≤ ·))

/-- The position of a value in an ascending list. -/
def positionOf (l : List Nat) (c : Nat) : Option Nat := l.idxOf? c

/-- The pairs of offset `n` over the outputs from `lo` to below `hi` (R158, R159). -/
def pairsOf (kernel stride : Nat) (ins outs : List Nat) (n lo hi : Nat) : List (Nat × Nat) :=
  (List.range hi).filterMap (fun o =>
    if o < lo then none
    else ((inSite stride (offsetOf kernel n) (outs.getD o 0)).bind (positionOf ins)).map (fun i => (i, o)))

/-- The pairs, range by range and offset by offset, one list per entry of the range table (R159, R160). -/
def rulePairs (kernel stride ranges : Nat) (ins outs : List Nat) : List (List (Nat × Nat)) :=
  (List.range ranges).flatMap (fun r => (List.range (kernelOffsets kernel)).map (fun n =>
    pairsOf kernel stride ins outs n (r * outs.length / ranges) ((r + 1) * outs.length / ranges)))

/-- The range table (R160). -/
def rangeTable (l : List (List (Nat × Nat))) : List Byte :=
  (l.foldl (fun (a : List Byte × Nat) e => (a.1 ++ le 4 a.2 ++ le 4 e.length, a.2 + e.length)) ([], 0)).1

/-- RULEBOOK computed; codes that do not ascend strictly end it BAD_FIELD (R155). -/
def State.ruleBook (s : State) (j : Job) : SRead StpOut :=
  let p := j.param
  let kernel := fld p 0 1
  let stride := fld p 1 1
  let ranges := fld p 3 1
  let count := fld p 4 4
  let size := if bit (fld p 2 1) 1 then 32 else 8
  match s.stpGet j.context (fld p 16 8) (size * count) with
  | (s, .error e) => (s, .error e)
  | (s, .ok l) =>
    let ins := (List.range count).map (fun i => fld l (size * i) 8)
    if !(ins.zip ins.tail).all (fun e => decide (e.1 < e.2)) then (s, .ok (stpRefused stBadField (0x8000 + 16)))
    else
      let all := outSites (bit (fld p 2 1) 0) kernel stride ins
      let outs := all.take (fld p 8 4)
      let lost := all.length - outs.length
      let pairs := rulePairs kernel stride ranges ins outs
      let total := (pairs.map (·.length)).sum
      let first := outs.head?.getD (s.freeVal 64)
      let last := outs.getLast?.getD (s.freeVal 64)
      let s := if outs.isEmpty then s.usedFree else s
      let head := slice p 0 4 ++ le 2 (kernelOffsets kernel) ++ le 2 0 ++ le 4 count ++ le 4 outs.length ++ le 4 lost ++ le 4 total ++
        le 8 first ++ le 8 last ++ le 4 0 ++ zeros 20
      let (s, work) := (s.bump Reg.STP_CNT_SITE_DROPS 0 lost).workBytes (16 * kernelOffsets kernel * count)
      (s, .ok ⟨[(fld p 48 8, work), (fld p 24 8, outs.flatMap (le 8)),
                (fld p 32 8, pairs.flatMap (fun e => e.flatMap (fun x => le 4 x.1 ++ le 4 x.2))),
                (fld p 40 8, head ++ rangeTable pairs), (fld p 40 8 + 40, le 4 1)],
               0, outs.length, lost + total * 2 ^ 32, decide (0 < lost)⟩)

/-- A RULEBOOK job runs (R155 to R161). -/
def execRulebook (det : StpDet) (s : State) : Res := .next (s.stpRun 4 det State.ruleBook)

end Sys2Proof.Machine
end

