-- ==== Sys2Proof/Machine/Proof.lean ====
section
/-! DEFINITION. Containment, proof sampling, weight digests, field tests and live removal (R449 to R481, R31). -/

namespace Sys2Proof.Machine

/-! ### Containment (R469 to R476) -/

/-- A read of control state leaves the data failed: containment with a code of Table PRF-3 (R469), naming a unit of Table ARC-7 or none
(R26). -/
def execContainment (code : Fin 12) (unit : BitVec 32) (s : State) : Res :=
  if code.val = 0 ∨ !(unit.toNat == 0 || unitBuilt unit.toNat) then .next s
  else if code.val = 0x0B then .next (if s.alive then s.coldStart else s)
  else .next (s.contain code.val unit.toNat)

/-- The supervisor's two copies differ: the safe-state outputs are asserted and the module restarts as from power-on (R475). -/
def execSupervisorMismatch (s : State) : Res := .next (if s.alive then s.coldStart else s)

/-! ### Proof sampling (R452 to R456) -/

/-- Plates that can execute a record, in the order of R452 after plate `p`: online and not under test. The order wraps, so that a
plate which has no other checks itself (log entry 116). -/
def State.checkers (s : State) (p : Nat) : List Nat :=
  let on := s.platesOn.filter (fun q => s.unitUp (unitId 1 q))
  let l := on.filter (fun q => decide (p < q)) ++ on.filter (fun q => decide (q < p))
  if l.isEmpty then on else l

/-- The slots of a plate changed. -/
def State.setSlots (s : State) (p : Nat) (l : List ProofRec) : State := s.setPlate p { s.plate p with slots := l }

/-- The verdict on a mismatch: 0 source, 1 checker, 2 both (R454, R455, R464, Table PRF-7). -/
def State.proofVerdict (s : State) (p : Nat) (r : ProofRec) (checker : Nat) (arbiter : Option Nat) (verdict : Nat) : State :=
  let arr := fun (q : Nat) => unitId 2 q
  let third := match arbiter with | some q => arr q | none => 0
  let s := s.raise 0x0902 (arr p) (le 4 r.tile ++ le 4 (arr checker) ++ le 4 third ++ le 1 verdict)
  let s := if verdict ≠ 1 then s.histEvent (arr p) 4 else s
  let s := if verdict ≠ 0 ∧ checker ≠ p then s.histEvent (arr checker) 4 else s
  let detail := [(1, r.tile), (2, arr p), (3, arr checker)] ++ (match arbiter with | some q => [(4, arr q)] | none => []) ++ [(5, verdict)]
  let s := s.record (if verdict = 1 then arr checker else arr p) 5 s.dt64 1 1 detail
  let s := { s with ring := { s.ring with badJobs := (s.ring.badJobs ++ [r.job]).eraseDups } }
  if verdict = 1 then s
  else
    let s := (((s.wr Reg.PLT_ARR_ERR_TILE r.tile p).wr Reg.PLT_ARR_ERR_CAUSE 5 p).wr Reg.PLT_ARR_ERR_CORE 0 p).wr
      Reg.PLT_ARR_ERR_STRIPE 0 p
    match s.launches.find r.job with
    | none => s
    | some l =>
      { s with launches := s.launches.set r.job { l with dataErr := some (l.dataErr.getD (r.tile, arr p, 5)) } }

/-- A plate's array executes a record at its next tile boundary: the CRC that it forms. An array in good order reproduces the
tile exactly; `upset` is what a fault of it changes in the CRC (R453, R456). -/
def State.recordCrc (s : State) (q : Nat) (r : ProofRec) (upset : BitVec 64) : Option Nat :=
  if s.flag Reg.PLT_ARR_STAT_AT_TB q then some (BitVec.ofNat 64 r.result ^^^ upset).toNat else none

/-- The checker executes a record and the CRCs are compared (R453, R454); with fewer than three plates online, a mismatch finds
both arrays faulty. -/
def execProofCheck (plate : Fin 34) (slot : Fin 2) (upset : BitVec 64) (s : State) : Res :=
  let p := plate.val
  let l := (s.plate p).slots
  match l[slot.val]?, s.checkers p with
  | some r, c :: others =>
    match r.checkCrc, s.recordCrc c r upset with
    | none, some crc =>
      let s := s.bump Reg.PRF_CNT_PROOF_TILES
      if r.crc = some crc then .next (s.setSlots p (l.eraseIdx slot.val))
      else
        let s := s.bump Reg.PRF_CNT_PROOF_MISMATCH
        if others.isEmpty then .next ((s.setSlots p (l.eraseIdx slot.val)).proofVerdict p r c none 2)
        else .next (s.setSlots p (l.set slot.val { r with checkCrc := some crc }))
    | _, _ => .next s
  | _, _ => .next s

/-- The arbiter executes a record on which source and checker differ, and the verdict follows (R454). -/
def execProofArbitrate (plate : Fin 34) (slot : Fin 2) (upset : BitVec 64) (s : State) : Res :=
  let p := plate.val
  let l := (s.plate p).slots
  match l[slot.val]?, s.checkers p with
  | some r, c :: others =>
    match r.checkCrc with
    | none => .next s
    | some b =>
      match others with
      | [] => .next ((s.setSlots p (l.eraseIdx slot.val)).proofVerdict p r c none 2)
      | a :: _ =>
        match s.recordCrc a r upset with
        | none => .next s
        | some crc =>
          let verdict := if crc = b then 0 else if r.crc = some crc then 1 else 2
          .next ((s.setSlots p (l.eraseIdx slot.val)).proofVerdict p r c (some a) verdict)
  | _, _ => .next s

/-! ### Weight digests (R457 to R463, R472, R478) -/

/-- step_obj has reached a multiple of K: the digest is computed for the highest one, checked against the reference, and
broadcast to the group (R457 to R459). -/
def execDigestCompute (region : Fin 64) (s : State) : Res :=
  let i := region.val
  let g := s.region i
  let k := max 1 (fld g.block 2 2)
  let step := (s.obj (fld g.block 4 2)).value / k * k
  if !s.alive ∨ s.regionState i ≠ rgValid ∨ step ≤ g.lastStep then .next s
  else
    let d := s.regionDigest i false
    let group := fld g.block 0 1
    let s := s.bump Reg.PRF_CNT_DIGESTS
    let s : State := { s with prf := { s.prf with regions := s.prf.regions.set i { g with lastStep := step } } }
    let s := if d = g.ref then s else (s.digestMismatch i group 0 step d).regionLost i
    if group = 0xFF then .next s
    else
      let n := step % 2 ^ 32
      let s := if s.flag Reg.RNG_STAT_FORMED then s.broadcast (s.checkPayload 2 0 group n d i) else s
      let s := s.holdDigest ⟨s.rd Reg.RNG_STAT_MODULE, group, n, i, d⟩
      let s : State := { s with prf := { s.prf with digestWait := s.prf.digestWait ++ [(i, n, s.ticks)] } }
      .next (s.compareReady group n)

/-- DIGEST_WAIT_MS has passed since an own digest: the comparison is made without the members missing (R459). -/
def execDigestWaitExpiry (region : Fin 64) (s : State) : Res :=
  match s.prf.digestWait.find? (fun w => w.1 == region.val && s.passed w.2.2 (msTicks (s.rd Reg.PRF_CFG_DIGEST_WAIT_MS))) with
  | some w => .next (s.compareDigests w.1 w.2.1)
  | none => .next s

/-- A region block breaks Table PRF-4: the offset of the field. -/
def regionError (l : List Byte) : Option Nat :=
  let mirror := bit (fld l 1 1) 0
  ([ (0, decide (15 < fld l 0 1 ∧ fld l 0 1 ≠ 0xFF)), (1, decide (1 < fld l 1 1)), (2, decide (fld l 2 2 = 0)), (6, !zeroAt l 6 2),
     (8, decide (fld l 8 8 % 65536 ≠ 0)),
     (16, decide (fld l 16 8 % 65536 ≠ 0 ∨ fld l 16 8 = 0 ∨ 2 ^ 34 < fld l 16 8)),
     (24, !mirror && !zeroAt l 24 8), (32, !zeroAt l 32 16 || !zeroAt l 48 16) ] : List (Nat × Bool)).find? (fun e => e.2) |>.map (·.1)

/-- The regions of a context other than `i`. -/
def State.otherRegions (s : State) (ctx i : Nat) : List Region :=
  (s.prf.regions.rows.filter (fun r => r.1 != i && s.regionState r.1 != 0 && s.rd Reg.PRF_REGION_CONTEXT r.1 == ctx)).map (·.2)

/-- A block clashes with another region of its context: it overlaps one, or names the group of one (R478). -/
def State.regionClash (s : State) (ctx i : Nat) (l : List Byte) : Option Nat :=
  let o := s.otherRegions ctx i
  if o.any (fun r => decide (fld r.block 8 8 < fld l 8 8 + fld l 16 8 ∧ fld l 8 8 < fld r.block 8 8 + fld r.block 16 8)) then some 8
  else if fld l 0 1 ≠ 0xFF ∧ o.any (fun r => fld r.block 0 1 == fld l 0 1) then some 0
  else none

/-- A region is registered in the state and in the store (R457, R472). -/
def State.putRegion (s : State) (i ctx : Nat) (g : Region) : State :=
  let s : State := { s with prf := { s.prf with regions := s.prf.regions.set i g },
                            nv := { s.nv with regions := s.nv.regions.set i (g, ctx) } }
  (s.wr Reg.PRF_REGION_STATE rgValid i).wr Reg.PRF_REGION_CONTEXT ctx i

/-- REGION_SET registers a region and computes its reference digest; one verified after a restart keeps its own (R457, R472,
R478). -/
def execRegionSet (job : Nat) (s : State) : Res :=
  match s.startedOp job 0x40 4 with
  | none => .next s
  | some j =>
    let i := j.arg 36 1
    let l := j.param
    let g := s.region i
    let root := ((s.ctxs.find j.context).map (·.root)).getD 0
    let st := s.regionState i
    let verified := st == rgVerified
    let step := (s.obj (fld l 4 2)).value / max 1 (fld l 2 2) * max 1 (fld l 2 2)
    .next (s.runOr j (firstOf [
      refuseIf (!l.isEmpty && (s.regionClash j.context i l).isSome) (badParam ((s.regionClash j.context i l).getD 0)),
      refuseIf (!l.isEmpty && st != 0 && !verified) (wrongState 8 1),
      refuseIf (!l.isEmpty && verified && g.root != root) (badField 4),
      refuseIf (!l.isEmpty && verified && fld g.block 0 1 != fld l 0 1) (badParam 0),
      refuseIf (!l.isEmpty && verified && fld g.block 8 16 != fld l 8 16) (badParam 8),
      refuseIf (!l.isEmpty && verified && fld g.block 24 8 != fld l 24 8) (badParam 24)]) (fun s =>
        if l.isEmpty then s.finishOk j
        else if verified then (s.putRegion i j.context ⟨l, g.ref, root, step⟩).finishOk j
        else match s.vcheck j.context .read (fld l 16 8 / 4096 + 2) (fld l 8 8) (fld l 16 8) with
          | some (k, va) => s.refuse j ⟨if k = fkNotReleased ∨ k = fkOffline then stNotReady else stXlateFault, va⟩
          | none =>
            let s := s.putRegion i j.context ⟨l, 0, root, step⟩
            (s.putRegion i j.context ⟨l, s.regionDigest i false, root, step⟩).finishOk j))

/-- REGION_CLEAR removes a registered region (R478). -/
def execRegionClear (job : Nat) (s : State) : Res :=
  match s.startedOp job 0x40 5 with
  | none => .next s
  | some j =>
    let i := j.arg 36 1
    .next (s.runOr j (refuseIf (s.regionState i == 0) (wrongState 8 0)) (fun s =>
      let s : State := { s with
        prf := { s.prf with regions := s.prf.regions.erase i, digestWait := s.prf.digestWait.filter (fun w => w.1 != i),
                            digests := s.prf.digests.filter (fun d => !(d.region == i && d.module == s.rd Reg.RNG_STAT_MODULE)) }
        nv := { s.nv with regions := s.nv.regions.erase i } }
      ((s.wr Reg.PRF_REGION_STATE 0 i).wr Reg.PRF_REGION_CONTEXT 0 i).finishOk j))

/-- RELOAD sets a region's reference to its present contents, from the mirror first when asked, and lifts its refusals (R463,
R478). -/
def execReload (job : Nat) (s : State) : Res :=
  match s.startedOp job 0x40 6 with
  | none => .next s
  | some j =>
    let i := j.arg 36 1
    let mirror := bit (j.arg 33 1) 0
    .next (s.runOr j (firstOf [
      refuseIf (mirror && s.regionState i != 0 && !bit (fld (s.region i).block 1 1) 0) (badField 33),
      refuseIf (s.regionState i == 0) (wrongState 8 0)]) (fun s => (s.reload i mirror).finishOk j))

/-- After a warm restart, a kept region's digest is computed by walking the stored root, and REGION_VERIFIED is raised (R472). -/
def execRegionVerify (region : Fin 64) (s : State) : Res :=
  let i := region.val
  match s.nv.regions.find i with
  | none => .next s
  | some (g, ctx) =>
    if !s.boot.warm ∨ s.power ≠ .up ∨ s.boot.fwHeader.isEmpty ∨ s.regionState i ≠ 0 then .next s
    else
      let s : State := { s with prf := { s.prf with regions := s.prf.regions.set i { g with lastStep := 0 } } }
      let good := s.regionDigest i false == g.ref
      let s := s.raise 0x0906 0 (le 1 i ++ le 1 good.toNat)
      if good then .next ((s.wr Reg.PRF_REGION_STATE rgVerified i).wr Reg.PRF_REGION_CONTEXT ctx i)
      else .next { s with prf := { s.prf with regions := s.prf.regions.erase i }, nv := { s.nv with regions := s.nv.regions.erase i } }

/-! ### DIAG (R477 to R481) -/

/-- The checks of a DIAG descriptor at acceptance; a region block is kept (R400, R478, Table PRF-11). -/
def State.diagAccept (s : State) (j : Job) : Except Refuse (List Byte) :=
  let op := j.arg 32 1
  let target := j.arg 36 4
  let len := j.arg 40 4
  let unit := decide (1 ≤ op ∧ op ≤ 3)
  let cls := target / 2 ^ 24
  match firstOf [
    refuseIf (op == 0 || decide (7 < op)) (badField 32),
    refuseIf (if op = 6 then decide (1 < j.arg 33 1) else j.arg 33 1 != 0) (badField 33),
    refuseIf (unit && (!unitBuilt target || cls == 0x10 || cls == 0x11 || cls == 0x12 || cls == 0x16 || target == unitId 0x14 0)) (badField 36),
    refuseIf (decide (4 ≤ op ∧ op ≤ 6) && decide (63 < target)) (badField 36),
    refuseIf (op == 7 && target != 0) (badField 36),
    refuseIf (if op = 4 then len != 0 && len != 64 else if op = 7 then len % 32 != 0 else len != 0) (badLength 40),
    refuseIf (op != 4 && op != 7 && !zeroAt j.desc 48 8) (badField 48)] with
  | some e => .error e
  | none =>
    if op ≠ 4 ∨ len = 0 then .ok []
    else match s.acceptRead j.context (j.arg 48 8) 64 with
      | .error e => .error ⟨e.1, e.2⟩
      | .ok l => match regionError l with
        | some o => .error ⟨stBadField, 0x8000 + o⟩
        | none => .ok l

/-- The units that a target stands for: a plate for its parts, every unit of a power domain (R481, Table PRF-12). -/
def targetUnits (u : Nat) : List Nat :=
  if u / 2 ^ 24 = 0x14 then plainUnits.filter (fun v => domainOf v == bits u 0 24) else [ownerUnit u]

/-- A unit comes under test (Table PRF-12). -/
def State.beginTest (s : State) (u : Nat) : State :=
  if testOnline u && u / 2 ^ 24 != 7 then s.setUnit u (fun x => { x with test := true })
  else
    let s := s.changeUnit u (fun x => { x with test := true })
    if u / 2 ^ 24 = 0x0E then ((s.dropLane (bits u 0 24)).showPort (bits u 0 24 / 4)) else s

/-- A unit leaves its test in its former state; a commons half then holds zero (R479, R592). -/
def State.leaveTest (s : State) (u : Nat) (pass : Bool) : State :=
  if testOnline u && u / 2 ^ 24 != 7 then s.setUnit u (fun x => { x with test := false })
  else
    let i := bits u 0 24
    let s := if u / 2 ^ 24 = 0x0E && pass then
        ({ s with ring := { s.ring with passed := putBit s.ring.passed i true, locked := putBit s.ring.locked i true } } : State).setLane i
          (if (s.unit u).offline then 3 else laneActive)
      else s
    let s := s.changeUnit u (fun x => { x with test := false })
    let s := if u / 2 ^ 24 = 5 then s.eraseRange (gaddr spCommons (i * 10485760)) 10485760 else s
    if u / 2 ^ 24 = 0x0E then (s.nextRetrain (i / 4)).showPort (i / 4) else s

/-- FIELD_TEST isolates the unit and begins its golden test; a plate is taken when its running launch has completed (R479 to
R481). -/
def execFieldTest (job : Nat) (s : State) : Res :=
  match s.startedOp job 0x40 1 with
  | none => .next s
  | some j =>
    let us := targetUnits (j.arg 36 4)
    let tested := us.any (fun u => (s.unit u).test)
    let held := us.any (fun u => u / 2 ^ 24 == 1 && s.plateHeld (bits u 0 24))
    if tested then .next (s.refuse j ⟨stWrongState, 9 * 256 + (us.any s.unitOff).toNat⟩)
    else if held then .next s
    else
      let s := us.foldl (fun s u => s.beginTest u) s
      let s : State := { s with prf := { s.prf with tests := s.prf.tests ++ us.map (fun u => ⟨u, j.id, s.ticks, false, false⟩) } }
      .next (s.setJob { j with phase := .running })

/-- What a unit's going offline does at once outside the tables (R164, R299). -/
def State.afterOffline (s : State) (u : Nat) : State :=
  match u / 2 ^ 24 with
  | 0x0C => s.stpOffline
  | 0x0D => s.brnOffline
  | 0x0E => s.laneOffline (bits u 0 24)
  | _ => s

/-- A field test ends (R467, R468, R479). The unit may be the part that failed; the descriptor completes with the last of its
units. -/
def execFieldTestDone (unit : BitVec 32) (failSub : Option Nat) (s : State) : Res :=
  let u := unit.toNat
  match s.prf.tests.find? (fun t => !t.ended && unitBuilt u && (t.unit == u || t.unit == ownerUnit u)) with
  | none => .next s
  | some t =>
    let us := (s.ticks - t.startTick) / 250
    let s := s.bump Reg.PRF_CNT_FIELD_TESTS
    let s := match failSub with
      | none => s.leaveTest t.unit true
      | some k =>
        let s := ((s.histFailed u).record u 7 s.dt64 0 1 [(1, 1), (2, k), (3, us)]).leaveTest t.unit false
        let s := if u / 2 ^ 24 = 0x0E then s.wr Reg.RNG_LANE_STATE laneFailed (bits u 0 24) else s
        s.afterOffline t.unit
    let tests := s.prf.tests.map (fun x => if x.unit = t.unit then { x with ended := true, failed := failSub.isSome } else x)
    let mine := tests.filter (fun x => x.job == t.job)
    if mine.all (·.ended) then
      let s : State := { s with prf := { s.prf with tests := tests.filter (fun x => x.job != t.job) } }
      match s.job t.job with
      | some j => .next (s.finish j stOk (mine.any (·.failed)).toNat (j.arg 36 4 + us * 2 ^ 32))
      | none => .next s
    else .next { s with prf := { s.prf with tests := tests } }

/-- OFFLINE takes a unit, or every unit of a domain, offline (R30, R480, R481). -/
def execOffline (job : Nat) (s : State) : Res :=
  match s.startedOp job 0x40 2 with
  | none => .next s
  | some j =>
    let us := targetUnits (j.arg 36 4)
    .next (s.runOr j (refuseIf (us.all (fun u => (s.unit u).offline)) (wrongState 9 1)) (fun s =>
      (us.foldl (fun s u => if (s.unit u).offline then s else (s.takeOffline u).afterOffline u) s).finishOk j))

/-- A unit may come back online: it is offline or waits to go, is not bad, and neither it nor a part of a plate is PERMANENT
(R478, Table PRF-9; log entry 90). -/
def State.canOnline (s : State) (u : Nat) : Bool :=
  ((s.unit u).offline || (s.unit u).offlinePending) && !(s.unit u).bad &&
    s.nv.history.rows.all (fun e => (if u / 2 ^ 24 = 1 then ownerUnit e.1 else e.1) != u || e.2.state != 3)

/-- ONLINE brings a unit back (R419, R481). -/
def execOnline (job : Nat) (s : State) : Res :=
  match s.startedOp job 0x40 3 with
  | none => .next s
  | some j =>
    let us := targetUnits (j.arg 36 4)
    .next (s.runOr j (refuseIf (!us.any s.canOnline) (wrongState 9 (us.any s.unitOff).toNat)) (fun s =>
      ((us.filter s.canOnline).foldl (fun s u =>
        if u / 2 ^ 24 = 0x0E then (s.onlineNow u).retrainLane (bits u 0 24) else s.onlineNow u) s).finishOk j))

/-- A history entry as stored (Table PRF-8). -/
def historyBytes (u : Nat) (h : History) : List Byte :=
  le 4 u ++ le 1 h.state ++ le 1 h.source ++ le 2 h.events ++ (List.range 3).flatMap (fun i => le 4 (h.seconds.getD i 0)) ++
  le 1 h.lastOp ++ zeros 3 ++ le 4 h.record ++ zeros 4

/-- HISTORY writes the entries in ascending unit order, as many as the output holds (R481); channel 0x30 stops at a fault
(R322). -/
def execHistory (job : Nat) (s : State) : Res :=
  match s.job job with
  | none => .next s
  | some j =>
    if j.opcode ≠ 0x40 ∨ j.arg 32 1 ≠ 7 ∨ (j.phase ≠ .started ∧ j.phase ≠ .running) ∨ s.chan 0x30 = chFaulted then .next s
    else if j.arg 40 4 = 0 then .next (s.finishOk j)
    else
      let rows := s.nv.history.rows.take (j.arg 40 4 / 32)
      let l := rows.flatMap (fun r => historyBytes r.1 r.2)
      match s.vwrite 0x30 j.context (j.arg 48 8) l with
      | (s, done, some (k, va)) =>
        let s := s.setJob { j with phase := .running }
        let s := ({ s with chanJob := s.chanJob.set 0x30 job } : State).chanStart 0x30 j.context 0 0 j.tag false
        .next (s.chanFault 0x30 k done va)
      | (s, _, none) => .next (((s.freeChans job).wroteOut job).finishNow job stOk rows.length 0)

/-- A unit's event leaves the 500-hour window: its classification falls back (R467). -/
def execEventAgeout (unit : BitVec 32) (s : State) : Res :=
  let u := unit.toNat
  if s.power == .off then .next s
  else if s.classOf u < (s.history u).state then .next (s.setClass u (s.classOf u)) else .next s

end Sys2Proof.Machine
end

