-- ==== Sys2Proof/Machine/Accept.lean ====
section
/-! DEFINITION. Doorbells, the acceptance and the start of descriptors, the sending of completion records, and SETUP_DONE
(R370, R371, R375, R391, R393 to R399, R433, R434, R551, Tables HST-6 to HST-9). -/

namespace Sys2Proof.Machine

/-! ### Acceptance (R397 to R399, R551) -/

/-- Opcodes of Table HST-11. -/
def opcodes : List Nat := [0, 1, 2, 3, 0x10, 0x11, 0x12, 0x13, 0x20, 0x21, 0x30, 0x40]

/-- Reserved fields of a descriptor in order: offset, bytes and the largest value that leaves its reserved bits zero
(Tables HST-8, HST-14, HST-15, MEM-4, PAR-4, PAR-9, PLT-8, STP-1, BRN-1, ATT-9, RNG-3, PRF-11). -/
def reservedFields (opcode op : Nat) : List (Nat × Nat × Nat) :=
  [(2, 1, 1), (7, 1, 0)] ++
  match opcode with
  | 0 => [(32, 32, 0)]
  | 1 => (if op = 3 then [(34, 2, 1)] else []) ++ [(56, 8, 0)]
  | 2 => [(36, 4, 0), (48, 16, 0)]
  | 3 => [(34, 2, 0), (48, 16, 0)]
  | 0x10 => [(58, 6, 0)]
  | 0x11 => [(33, 7, 0), (52, 12, 0)]
  | 0x12 => [(34, 2, 0), (56, 8, 0)]
  | 0x13 => [(34, 2, 0), (60, 4, 0)]
  | 0x20 => [(33, 1, 1), (48, 16, 0)]
  | 0x21 => [(34, 30, 0)]
  | 0x30 => [(35, 1, 0), (60, 4, 0)]
  | 0x40 => [(34, 2, 0), (44, 4, 0), (56, 8, 0)]
  | _ => []

/-- The first reserved field or bit of a descriptor that is not zero (R8). -/
def reservedBad (j : Job) : Option Nat :=
  ((reservedFields j.opcode (j.arg 32 1)).find? (fun e => decide (e.2.2 < j.arg e.1 e.2.1))).map (·.1)

/-- Descriptors of a context are refused because a region of its is LOST, SUSPENDED or EXPELLED; RELOAD goes on (R458, R461, R462). -/
def State.ctxBarred (s : State) (j : Job) : Option Refuse :=
  let has := fun (st : Nat) => (List.range 64).any (fun r =>
    s.rd Reg.PRF_REGION_STATE r == st && s.rd Reg.PRF_REGION_CONTEXT r == j.context)
  if j.opcode = 0x40 ∧ j.arg 32 1 = 6 then none
  else if has rgExpelled then some ⟨stExpelled, 0⟩
  else if has rgLost || has rgSuspended then some ⟨stDataErr, 0⟩ else none

/-- The functions that a descriptor needs (R551). -/
def State.needs (s : State) (j : Job) : List Nat :=
  match j.opcode with
  | 0x10 => ((List.range 32).filter (fun i => bit (j.arg 52 4) i && decide (i < s.platesOn.length))).map (0x300 + ·)
  | 0x11 => [7]
  | 0x12 => [8]
  | 0x13 => [9, 10]
  | 1 => if j.arg 32 1 = 6 then [9, 10] else []
  | _ => []

/-- What a needed function refuses: UNIT_OFFLINE when it is OFFLINE or RETIRED or the domain of its unit is off, NOT_READY when it is
not READY (R20, R551). -/
def State.needError (s : State) (fn : Nat) : Option Refuse :=
  let st := s.fnState fn
  if !s.domainOn (s.fnUnit fn) then some ⟨stUnitOffline, fn⟩
  else if st = rdReady then none
  else if st = rdOffline ∨ st = rdRetired then some ⟨stUnitOffline, fn⟩ else some ⟨stNotReady, fn⟩

/-- The checks of the header in order, the grants aside (R316, R345, R355, R397, R398). -/
def State.headerError (s : State) (j : Job) : Option Refuse :=
  firstOf [
    refuseIf (s.dev == stRom || s.dev == stRestart) (wrongState 0 s.dev),
    refuseIf (!opcodes.contains j.opcode) (badField 0),
    (reservedBad j).bind badField,
    refuseIf (!(j.opcode == 1 && j.arg 32 1 == 1) && (s.ctxs.find j.context).isNone) (wrongState 1 0),
    refuseIf (!s.partDefined j.part) (badField 5),
    refuseIf (j.task != 0 && (!s.taskValid j.task || s.taskRec j.task 1 1 != j.part)) (badField 3)]

/-- The check of the sync objects' grants (R369). -/
def State.grantError (s : State) (j : Job) : Option Refuse :=
  firstOf [refuseIf (!s.mayUse j.part j.waitObj) (badField 16), refuseIf (!s.mayUse j.part j.sigObj) (badField 18)]

/-- The checks of a descriptor's opcode at acceptance: what refuses it, or the bytes that it keeps. -/
def State.opcodeAccept (s : State) (j : Job) : Except Refuse (List Byte) :=
  match j.opcode with
  | 0 => nopAccept j
  | 1 => s.memAccept j
  | 2 => State.syncAccept j
  | 3 => s.partAccept j
  | 0x10 => s.launchAccept j
  | 0x11 => s.stippleAccept j
  | 0x12 => s.brnAccept j
  | 0x13 => s.kvAccept j
  | 0x20 => s.loadAccept j
  | 0x21 => readmitAccept j
  | 0x30 => s.ringAccept j
  | 0x40 => s.diagAccept j
  | _ => .error ⟨stBadField, 0⟩

/-- The checks that follow the header: the context's regions, the functions needed, the opcode's own, and the room for one more
wait (R375, R398, R458, R551). -/
def State.bodyAccept (s : State) (j : Job) : Except Refuse (List Byte) :=
  match firstOf (s.ctxBarred j :: (s.needs j).map s.needError) with
  | some r => .error r
  | none =>
    match s.opcodeAccept j with
    | .error r => .error r
    | .ok l => if 4096 ≤ s.heldWaits then .error ⟨stNoResource, 0⟩ else .ok l

/-- The device takes a descriptor of submission ring `q`: it is refused with its record, or accepted (R398, R399). -/
def State.take (s : State) (q : Nat) (d : List Byte) : State :=
  let j : Job := { id := s.nextJob, ring := q, desc := d, param := [], phase := .waiting, atTick := s.ticks, atNs := s.dt64,
                   startTick := 0, runTicks := 0, charge := none, flags := 0, outAt := none, taint := [], freed := false, taintWait := false }
  let room := s.heldWaits
  let t := { s with nextJob := s.nextJob + 1 }
  match s.headerError j with
  | some r => t.refuse j r
  | none => match s.grantError j with
    | some r => (t.bump Reg.SYN_CNT_GRANT_REFUSALS).refuse j r
    | none => match s.bodyAccept j with
      | .error r => (if r.status = stNoResource ∧ 4096 ≤ room then t.bump Reg.SYN_CNT_WAIT_FULL else t).refuse j r
      | .ok l =>
        let j := { j with param := l }
        let t := ({ t with jobs := t.jobs ++ [j] } : State).showCtx j.context
        if j.opcode = 0x30 ∧ j.arg 32 1 ≠ 1 then t.joinColls j else t

/-! ### Shadow rings and doorbells (R393 to R396) -/

/-- Records of completion ring `c` that the ring has no room for: their index minus HEAD reaches the ring size (R396). -/
def State.heldIn (s : State) (c n : Nat) : Nat :=
  let size := 2 ^ s.rd Reg.HTP_CQ_LOG2_SIZE c
  let start := s.rd Reg.HTP_CQ_IDX_PROD c + 2 ^ 32 - n
  ((List.range n).filter (fun i => decide (size ≤ (start + i + 2 ^ 32 - s.rd Reg.HTP_CQ_IDX_HEAD c) % 2 ^ 32))).length

/-- Completion records held across the device (R396, R438). -/
def State.heldRecords (s : State) : Nat :=
  (s.ht.cq.rows.map (fun r => s.heldIn r.1 r.2.length)).sum + s.ht.confirm.length

/-- Descriptors are taken from the shadow rings, each ring in index order, unless 4,096 records are held; `n` bounds their number
(R394, R396). -/
def State.takeAll : Nat → State → State
  | 0, s => s
  | n + 1, s =>
    if 4096 ≤ s.heldRecords then s
    else match s.ht.shadow.rows.find? (fun r => !r.2.isEmpty) with
      | some (q, d :: r) => State.takeAll n (({ s with ht := { s.ht with shadow := s.ht.shadow.set q r } } : State).take q d)
      | _ => s

/-- Every descriptor that may be taken is taken. -/
def State.takeReady (s : State) : State := State.takeAll ((s.ht.shadow.rows.map (fun r => r.2.length)).sum) s

/-- The host's consumer index of a completion ring, when it does not move backward (R393). -/
def State.setCqHead (s : State) (c v : Nat) : State :=
  if c < 64 ∧ serLe (s.rd Reg.HTP_CQ_IDX_HEAD c) v then s.wr Reg.HTP_CQ_IDX_HEAD v c else s

/-- Why a doorbell's descriptors are not taken (R393, event DOORBELL_REFUSED). -/
def State.bellError (s : State) (p : List Byte) : Option Nat :=
  let q := fld p 0 1
  let n := fld p 2 2
  if 128 < n ∨ p.length ≠ 32 + 64 * n then some 5
  else if 63 < q ∨ !s.flag Reg.HTP_SQ_EN q then some 1
  else if fld p 4 4 ≠ s.rd Reg.HTP_SQ_IDX_TAIL q then some 2
  else if fld p 8 4 ≠ (fld p 4 4 + n) % 2 ^ 32 then some 3
  else if 2 ^ s.rd Reg.HTP_SQ_LOG2_SIZE q < (fld p 8 4 + 2 ^ 32 - s.rd Reg.HTP_SQ_IDX_FREED q) % 2 ^ 32 then some 4
  else none

/-- Descriptors enter a shadow ring, whose producer index follows. -/
def State.putShadow (s : State) (q : Nat) (l : List (List Byte)) : State :=
  (({ s with ht := { s.ht with shadow := s.ht.shadow.modify [] q (· ++ l) } } : State).bump Reg.HTP_SQ_IDX_TAIL q l.length).takeReady

/-- An accepted DOORBELL frame (R393). -/
def State.doorbell (s : State) (p : List Byte) : State :=
  let q := fld p 0 1
  let n := fld p 2 2
  let refused := fun (s : State) (r : Nat) => (s.raise 0x0704 0 (le 1 q ++ le 1 r)).bump Reg.HTP_CNT_DOORBELL_REFUSED
  if s.bellError p = some 5 then refused s 5
  else
    let s := (if fld p 1 1 ≠ 0xFF then s.setCqHead (fld p 1 1) (fld p 12 4) else s).takeReady
    if n = 0 then s
    else match s.bellError p with
      | some r => refused s r
      | none => s.putShadow q ((List.range n).map (fun i => slice p (32 + 64 * i) 64))

/-- DOORBELL: applies cq_head and copies descriptors into a shadow ring, or is refused (R393). -/
def execDoorbell (port : Fin 2) (f : HostFrame) (s : State) : Res :=
  .next (s.reliable false port.val f 0x20 (fun s p => s.doorbell p))

/-- A plate launch descriptor comes to acceptance on submission ring `sq`, which is enabled and has room (R191, R393). -/
def execPlateLaunch (sq : Fin 64) (d : List Byte) (s : State) : Res :=
  let q := sq.val
  let full := decide (2 ^ s.rd Reg.HTP_SQ_LOG2_SIZE q ≤
    (s.rd Reg.HTP_SQ_IDX_TAIL q + 2 ^ 32 - s.rd Reg.HTP_SQ_IDX_FREED q) % 2 ^ 32)
  if !s.alive ∨ !s.inSession ∨ !s.flag Reg.HTP_SQ_EN q ∨ full ∨ d.length ≠ 64 ∨ fld d 0 2 ≠ 0x10 then .next s
  else .next (s.putShadow q [d])

/-! ### Waits and starts (R370, R371, R399, R433, R434) -/

/-- The taint of a job as it starts: its own and its wait object's (R433). -/
def State.startTaint (s : State) (j : Job) : List Taint :=
  if j.waitObj = 0xFFFF then j.taint else s.merge j.taint (s.obj j.waitObj).taint

/-- The operation starts when the descriptor does; a launch, a Stipple job and a burnisher run wait for their engine, and are
charged from its start (R132, R192, R287, R358). -/
def waitsForEngine (j : Job) : Bool := j.opcode == 0x10 || j.opcode == 0x11 || (j.opcode == 0x12 && j.arg 32 1 == 4)

/-- A descriptor whose wait is satisfied starts, with its wait object's taint; one whose taint has been retracted ends, whether its
wait is satisfied or not, and one that needs a taint more than the device holds waits (R370, R399, R433, R434, R437). -/
def execDescriptorStart (job : Nat) (s : State) : Res :=
  match s.job job with
  | none => .next s
  | some j =>
    if j.phase ≠ .waiting ∨ !s.alive then .next s
    else
      let t := s.startTaint j
      let j := { j with taint := t }
      match s.retractedIn t with
      | some (m, k) => .next (s.retractJob j m k)
      | none =>
        if !s.waitMet j then .next s
        else if !t.isEmpty ∧ !s.taints.contains t ∧ 1024 ≤ s.taints.length then
          .next (if j.taintWait then s
                 else (s.bump Reg.RNG_CNT_TAINT_WAITS).setJob { j with taint := [], taintWait := true })
        else if waitsForEngine j then
          let s := s.setJob { j with phase := .started }
          .next (if j.opcode = 0x10 then s.claimPlates j else s)
        else .next (s.beginJob j .started)

/-- The wait limit of a descriptor's partition has passed with its wait unsatisfied (R371). -/
def execWaitTimeout (job : Nat) (s : State) : Res :=
  match s.job job with
  | none => .next s
  | some j =>
    let limit := s.partRec j.part 2 2
    if j.phase = .waiting ∧ !s.waitMet j ∧ limit ≠ 0 ∧ s.passed j.atTick (msTicks limit) then
      .next (((s.stopJob j).bump Reg.SYN_CNT_WAIT_TIMEOUTS).finishQuiet j stWaitTimeout 0 0)
    else .next s

/-! ### Completion frames (R396, Table HST-7) -/

/-- The records of ring `c` that may be sent in one frame: at most 256, each within the ring (R396). -/
def State.sendable (s : State) (c : Nat) : Nat :=
  let n := (s.ht.cq.get [] c).length
  min 256 (n - s.heldIn c n)

/-- COMPLETION: written records leave in index order as far as the completion ring has room (R396). -/
def execCompletion (cq : Fin 64) (s : State) : Res :=
  let c := cq.val
  let l := s.ht.cq.get [] c
  let n := s.sendable c
  if !s.alive ∨ !s.inSession ∨ n = 0 ∨ !s.canSend false then .next s
  else
    let start := (s.rd Reg.HTP_CQ_IDX_PROD c + 2 ^ 32 - l.length) % 2 ^ 32
    let s := { s with ht := { s.ht with cq := s.ht.cq.set c (l.drop n) } }
    .next (s.sendReliable false 0x21 (le 1 c ++ le 1 0 ++ le 2 n ++ le 4 start ++ le 8 0 ++ (l.take n).flatten)).takeReady

/-! ### SETUP_DONE (R391) -/

/-- SETUP_DONE is written with `v`: 1 in SETUP sets it and enters RUN. -/
def State.setupDone (s : State) (v : Bool) : State :=
  if v ∧ s.dev = stSetup then (s.wr Reg.HTP_CTRL_SETUP_DONE 1).wr Reg.HTP_STAT_STATE stRun else s

/-- Writing SETUP_DONE (R391). -/
def execSetupDone (value : Bool) (s : State) : Res := .next (s.setupDone value)

end Sys2Proof.Machine
end

