-- ==== Sys2Proof/Machine/BringUp.lean ====
section
/-! DEFINITION. Power-on, start-up BIST, calibration, DDR4 training, release of memory, firmware and link checks (R517 to R552,
R556 to R558, Tables BUP-1 to BUP-12). -/

namespace Sys2Proof.Machine

/-! ### Power good and start-up BIST (R518 to R525, Tables BUP-2, BUP-4) -/

/-- Power good: VIN has stayed at `vinMv`, between 9.5 V and 60 V, for 10 ms, and the module starts cold, provided that WAKE is
high (R574, R578). -/
def execPowerGood (vinMv : Nat) (s : State) : Res :=
  if s.power ≠ .off ∨ !s.flag Reg.PWR_STAT_WAKE ∨ vinMv < 9500 ∨ 60000 < vinMv then .next s
  else
    let s := { s with pwr := { s.pwr with vin := vinMv, underSince := none, overSince := none, surgeSince := none } }
    let s := ((s.wr Reg.PWR_SUPPLY_VIN_MV vinMv).wr Reg.PWR_STAT_UNDERVOLT 0).wr Reg.PWR_STAT_OVERVOLT 0
    .next s.coldStart

/-- The fuses mark a unit bad (Table BUP-2). -/
def Part.fused (x : Part) (u : Nat) : Bool :=
  let i := bits u 0 24
  match u / 2 ^ 24 with
  | 1 => bit x.badPlate i
  | 3 => x.badStripe.getD (i / 16) 0xF == i % 16
  | 4 => x.badCore.getD (2 * (i / 256)) 0x7F == i % 256 || x.badCore.getD (2 * (i / 256) + 1) 0x7F == i % 256
  | 5 => bit x.badMisc i
  | 7 => bit x.badMisc (2 + i)
  | 9 => bit x.badMisc (9 + i)
  | 0x0A => bit x.badMisc (16 + i)
  | 0x0B => bit x.badMisc (28 + i)
  | 0x0C => bit x.badMisc 44
  | 0x0D => bit x.badMisc 45
  | 0x0E => bit x.badMisc (34 + i)
  | 0x0F => bit x.badMisc (42 + i)
  | _ => false

/-- Units without which the module cannot run: easel, ruling engine, supervisor, fabric (R524). -/
def coreUnits : List Nat := [unitId 0x10 0, unitId 0x11 0, unitId 0x12 0] ++ (List.range 48).map (unitId 0x16)

/-- Margin-guard paths (Table ARC-7). -/
def pathUnits : List Nat := ((List.range 6) ++ [0x10, 0x11, 0x20, 0x21]).map (unitId 0x13)

/-- Units that start-up BIST tests, ascending (Table BUP-4). -/
def bistUnits : List Nat :=
  (List.range 34).map (unitId 1) ++ (List.range 34).map (unitId 2) ++
  ((List.range 34).flatMap (fun p => (List.range 9).map (fun k => unitId 3 (16 * p + k)))) ++
  ((List.range 34).flatMap (fun p => (List.range 66).map (fun c => unitId 4 (256 * p + c)))) ++
  plainUnits.filter (fun u => decide (2 ^ 24 * 2 ≤ u)) ++ coreUnits ++ pathUnits

/-- A unit's history entry is PERMANENT. -/
def State.permanent (s : State) (u : Nat) : Bool := (s.history u).state == 3

/-- A unit on which the fuses and start-up BIST disagree: a record of op 0x08, and a failure that the fuses do not show makes the
unit PERMANENT (R521). -/
def State.bistDiffers (s : State) (u : Nat) (failed : Bool) : State :=
  let old := (s.history u).state
  let s := if failed ∧ old ≠ 3 then
      let s := s.setHistory u { s.history u with state := 3, source := (s.history u).source ||| 2 }
      (s.raise 0x0901 u (le 1 old ++ le 1 3)).bump Reg.PRF_STAT_PERMANENT
    else s
  s.record u 8 s.dt64 0 1 [(1, (s.part.fused u).toNat), (2, failed.toNat)]

/-- The numbers below `n` that `bad` does not name, at most `most` of them, as a bit map (R14, R522). -/
def lowestGood (n most : Nat) (bad : Nat → Bool) : Nat :=
  (((List.range n).filter (fun i => !bad i)).take most).foldl (fun m i => m + 2 ^ i) 0

/-- A plate cannot be brought to its shape from its spares (R13, R522). -/
def plateBad (bad : Nat → Bool) (p : Nat) : Bool :=
  bad (unitId 1 p) || bad (unitId 2 p) ||
  decide (1 < ((List.range 9).filter (fun k => bad (unitId 3 (16 * p + k)))).length) ||
  decide (2 < ((List.range 66).filter (fun c => bad (unitId 4 (256 * p + c)))).length)

/-- The regions that hold no memory, and so are never released (R302, R304). -/
def State.regionHolds (s : State) (r : Nat) : Bool :=
  decide (r % 8 < 2 * ((List.range 4).filter (fun i => bit s.chanMap (r / 8 * 4 + i))).length)

/-- Functions whose unit is not enabled are RETIRED, and Hatch or a ring port that needs a bad unit is FAILED
(Tables BUP-4, BUP-10; log entry 71). -/
def State.retireUnits (s : State) (bad : Nat → Bool) (failed : List Nat) : State :=
  let s := ([unitId 5 0, unitId 5 1, unitId 0x0C 0, unitId 0x0D 0] ++ (List.range 12).map (unitId 0x0A) ++
      (List.range 6).map (unitId 0x0B) ++ (List.range 2).map (unitId 0x0F)).foldl (fun s u =>
    if bad u then s.setFn (s.unitFn u) rdRetired 0 else s) s
  let s := (List.range 8).foldl (fun s c => if bit s.chanMap c then s else s.setFn (0x200 + c) rdRetired 0) s
  let s := (List.range 32).foldl (fun s i => if i < s.platesOn.length then s else s.setFn (0x300 + i) rdRetired 0) s
  let s := (List.range 16).foldl (fun s r => if s.regionHolds r then s else s.setFn (0x100 + r) rdRetired 0) s
  let stages := (List.range 6).map (fun k => unitId 9 (k + 1))
  let s := if stages.any failed.contains then s.setFn 4 rdFailed 1 else if stages.any bad then s.setFn 4 rdFailed 7 else s
  (List.range 2).foldl (fun s p =>
    if 1 < ((List.range 4).filter (fun l => bad (unitId 0x0E (4 * p + l)))).length then s.setFn (0x600 + p) rdFailed 7 else s) s

/-- Plates are enabled and numbered, and their spares decided (R14, R522, R523). -/
def State.enablePlates (s : State) (bad : Nat → Bool) : State :=
  let s := { s with plateMap := lowestGood 34 32 (plateBad bad) }
  (List.range 34).foldl (fun s p =>
    let s := s.wr Reg.PLT_SPARE_STRIPE_MAP (lowestGood 9 8 (fun k => bad (unitId 3 (16 * p + k)))) p
    let s := s.wr Reg.PLT_SPARE_CORE_MAP (lowestGood 66 64 (fun c => bad (unitId 4 (256 * p + c)))) p
    s.wr Reg.PLT_STAT_ONLINE (bit s.plateMap p).toNat p) s

/-- The units that are bad at this start are not enabled (R520). -/
def State.markBad (s : State) (bad : Nat → Bool) : State :=
  let us := plainUnits ++ pathUnits ++ ((List.range 64).filter queueBuilt).map (unitId 0x15)
  us.foldl (fun s u =>
    if bad u || (u / 2 ^ 24 == 1 && plateBad bad (bits u 0 24)) then
      let s := s.setUnit u (fun x => { x with bad := true })
      if u / 2 ^ 24 = 0x0E then s.wr Reg.RNG_LANE_STATE 3 (bits u 0 24) else s
    else s) s

/-- The DDR4 channel set: at a cold start the channels that are not bad; a warm start keeps the former one (R471, R552). -/
def State.enableChans (s : State) (bad : Nat → Bool) : State :=
  let s := if s.boot.warm then s else { s with chanMap := mapBits 8 (fun c => !bad (unitId 7 c)) }
  let s := { s with ddrBytes := popBits 8 s.chanMap * 2 ^ 33 }
  (List.range 8).foldl (fun s c => s.wr Reg.MEM_DDR_STAT_STATE (bit s.chanMap c).toNat c) s

/-- Start-up BIST ends, with the units that failed it: bad units and spares are decided, and the Device Description Table is
built (R519 to R525). -/
def execStartupBist (fails : List (BitVec 32)) (s : State) : Res :=
  if s.power ≠ .starting ∨ s.boot.bistDone then .next s
  else
    let skip := fun (u : Nat) => s.boot.warm && (u / 2 ^ 24 == 7 || u / 2 ^ 24 == 8)
    let failed := bistUnits.filter (fun u => fails.any (fun f => f.toNat == u) && !skip u)
    let part := s.part
    let differ := bistUnits.filter (fun u => part.fused u != failed.contains u && !skip u)
    let s := differ.foldl (fun s u => s.bistDiffers u (failed.contains u)) s
    let own := fun (u : Nat) => part.fused u || failed.contains u || s.permanent u
    let bad := fun (u : Nat) =>
      own u || (u / 2 ^ 24 == 5 && own (unitId 6 (bits u 0 24))) || (u / 2 ^ 24 == 6 && own (unitId 5 (bits u 0 24))) ||
      (u / 2 ^ 24 == 7 && !skip u && (List.range 5).any (fun d => s.permanent (unitId 8 (8 * bits u 0 24 + d))))
    if coreUnits.any own then
      .next (({ s with power := .held, prf := { s.prf with heldReset := true } } : State).requestLines srcPowerOn 3 true)
    else
      let s := (s.enableChans bad).enablePlates bad
      let s := (s.markBad (fun u => bad u && !skip u)).retireUnits bad failed
      .next { s with boot := { s.boot with bistDone := true } }

/-! ### The calibration set (R527 to R529) -/

/-- Where bank `b` of the ruling table, the sensor table or the Hatch tables begins, and how many bytes it has. -/
def bankRange (family b : Nat) : Nat × Nat :=
  if family = 0 then (rulAddr b 0, 8192) else if family = 1 then (sensAddr b 0, 4096) else (gaddr spHatTab (b * 2 ^ 32), 2 ^ 32)

/-- The cells of a bank, at their addresses in bank 0. -/
def State.bankCells (s : State) (family b : Nat) : List Host.Cell :=
  let (a, n) := bankRange family b
  (s.mem.filter (fun c => decide (a ≤ c.1) && decide (c.1 < a + n))).map (fun c => ((bankRange family 0).1 + (c.1 - a), c.2))

/-- Bytes of the Hatch tables that a set saves: the entries in use, a remap grid as far as it goes (log entry 72). -/
def hatchBytes (cells : List Host.Cell) : Nat :=
  let at1 := fun (c : Host.Cell) => c.1 - gaddr spHatTab 0
  let slot := fun (c : Host.Cell) => (at1 c / 2 ^ 24, at1 c % 2 ^ 24 / hatSize (at1 c / 2 ^ 24))
  ((cells.map slot).eraseDups.map (fun e =>
    if e.1 = htRemap then
      (((cells.filter (fun c => slot c == e)).map (fun c => at1 c % 2 ^ 24 % hatSize htRemap + 1)).foldl max 0 + 7) / 8 * 8
    else hatSize e.1)).sum

/-- The active banks as a calibration set. -/
def State.calNow (s : State) : CalSet :=
  let hat := s.bankCells 2 s.hatBank
  ⟨s.bankCells 0 s.rulBank ++ s.bankCells 1 (s.rd Reg.ING_ST_CTRL_BANK) ++ hat, 8192 + 4096 + hatchBytes hat, true⟩

/-- EAS_CTRL.NVSAVE: the active banks are saved, unless they are larger than 4 MiB or a save is in progress (R529). -/
def State.nvSave (s : State) : State :=
  if s.boot.saving.isSome then s
  else
    let c := s.calNow
    if 4194304 < c.size then s.wr Reg.EAS_BOOT_NVSAVE_ERR 1
    else ({ s with boot := { s.boot with saving := some c } } : State).wr Reg.EAS_BOOT_NVSAVE_BUSY 1

def execNvsave (s : State) : Res := .next (if s.power = .up ∧ !s.flag Reg.HTP_CTRL_SETUP_DONE then s.nvSave else s)

/-- A save completes: the store keeps two copies in alternation (R529). -/
def execNvsaveDone (s : State) : Res :=
  match s.boot.saving with
  | none => .next s
  | some c =>
    .next (({ s with nv := { s.nv with cal := (c :: s.nv.cal).take 2 }, boot := { s.boot with saving := none } } : State).wr
      Reg.EAS_BOOT_NVSAVE_BUSY 0)

/-- Entry `i` of the default sensor table (R68; log entry 73). -/
def defaultSensor (i : Nat) : List Byte :=
  if i < 16 then
    le 1 (if i < 12 then 1 else 2) ++ le 1 (if i < 12 then i else i - 12) ++ le 2 0 ++ le 2 0xFFFF ++ le 1 0xFF ++ le 1 2 ++
    le 4 16777216 ++ le 2 0 ++ le 2 1 ++ le 2 (10 + Config.defaultTimeout % 9991) ++ zeros 46
  else zeros 64

/-- Entry `i` of the default ruling table (R528). -/
def defaultRuling (i : Nat) : List Byte :=
  if i < 12 then
    le 2 (0x2000 + i) ++ le 1 0xFF ++ le 1 0 ++ le 4 50000000 ++ le 4 0 ++ le 4 1000000 ++ le 1 1 ++ le 1 0 ++ zeros 14
  else zeros 32

/-- The calibration set is loaded into bank 0 of each table, or the defaults; a saved copy whose CRC fails is ignored and recorded
(R68, R527, R528; log entry 74). -/
def State.loadCal (s : State) : State :=
  let s := (s.nv.cal.takeWhile (fun c => !c.good)).foldl (fun s _ =>
    (s.record (unitId 0x10 0) (s.freeVal 8) s.dt64 0 1 []).usedFree) s
  match s.nv.cal.find? (fun c => c.good) with
  | some c =>
    let s := { s with boot := { s.boot with calSet := some c } }
    c.cells.foldl (fun s x => s.store x.1 [x.2]) (s.wr Reg.EAS_BOOT_CALSET 1)
  | none =>
    let s := s.store (rulAddr 0 0) ((List.range 12).flatMap defaultRuling)
    s.store (sensAddr 0 0) ((List.range 16).flatMap defaultSensor)

/-- The data of a SUPPLY event (Table MOD-14). -/
def State.supplyData (s : State) (kind seconds : Nat) : List Byte :=
  le 1 kind ++ le 1 0 ++ le 2 (s.rd Reg.PWR_SUPPLY_VIN_MV) ++ le 4 seconds ++ le 2 (s.rd Reg.PWR_TEMP_BASE)

/-- ROM boot is done: the tables are loaded, discovery begins, and the device is in ROM (R470, R526, R527, R574). -/
def execRomBootDone (s : State) : Res :=
  if s.power ≠ .starting ∨ !s.boot.bistDone then .next s
  else
    let brownOut := s.nv.brownOut
    let s := ({ s with power := .up } : State).loadCal
    let s := (List.range 64).foldl (fun s i => s.setIngest i (if s.sensor i 0 1 = 0 then 0 else 1)) s
    let s := ((s.wr Reg.HTP_STAT_STATE stRom).fnReady 1).discoverAll
    match brownOut with
    | some t => .next (({ s with nv := { s.nv with brownOut := none } } : State).raise 0x0D01 0 (s.supplyData 3 t))
    | none => .next s

/-! ### DDR4 training and the release of memory (R304, R530 to R541, Tables BUP-6, BUP-7) -/

/-- Every enabled channel's training has ended. -/
def State.allTrained (s : State) : Bool := (List.range 8).all (fun c => !bit s.chanMap c || bit s.boot.trained c)

/-- A channel of half `h` failed its training at this start, and is offline (R531, R532). -/
def State.halfOffline (s : State) (h : Nat) : Bool :=
  (List.range 4).any (fun i => bit s.boot.trained (4 * h + i) &&
    !bit (s.rd Reg.EAS_BOOT_TRAIN_SAVED ||| s.rd Reg.EAS_BOOT_TRAIN_FULL) (4 * h + i))

/-- The test of region `r` is over for this start: released, failed, without memory, or held back with its half (R532, R536). -/
def State.regionOver (s : State) (r : Nat) : Bool :=
  bit (s.rd Reg.MEM_RELEASE_REGION) r || (s.boot.failed.find r).isSome || !s.regionHolds r || s.halfOffline (r / 8)

/-- The boot region's test is over: released, or failed. -/
def State.bootOver (s : State) : Bool := s.flag Reg.MEM_RELEASE_BOOT || s.fnState 3 == rdFailed

/-- The retention phase of half `h` is over, or not asked for: LEVEL QUICK, or a half without a region to test (Table BUP-6). -/
def State.retentionOver (s : State) (h : Nat) : Bool :=
  s.boot.level == 1 || bit s.boot.retained (2 + h) || (List.range 8).all (fun i => s.regionOver (8 * h + i))

/-- Region `r` is under test: its turn in Table BUP-7 has come. -/
def State.regionTurn (s : State) (r : Nat) : Bool :=
  s.power == .up && s.allTrained && s.bootOver && !s.regionOver r &&
  (r == 0 || (s.regionOver 0 && s.retentionOver (r / 8) &&
    (List.range 8).all (fun i => decide (r % 8 ≤ i) || 8 * (r / 8) + i == 0 || s.regionOver (8 * (r / 8) + i))))

/-- EAS_MEMTEST.PHASE as the test stands, and IN_PROGRESS for what it tests now. -/
def State.showTest (s : State) : State :=
  let ph := if !s.allTrained then 0 else if !s.bootOver then 1 else if !s.regionOver 0 then 2
    else if (List.range 16).all s.regionOver then 5 else if s.retentionOver 0 && s.retentionOver 1 then 4 else 3
  let s := s.wr Reg.EAS_MEMTEST_PHASE ph
  let s := if ph = 1 ∧ s.fnState 3 = rdWaiting then s.setFn 3 rdProgress 0 else s
  (List.range 16).foldl (fun s r =>
    if s.regionTurn r ∧ s.fnState (0x100 + r) = rdWaiting then s.setFn (0x100 + r) rdProgress 0 else s) s

/-- Region `r` is released (R304). -/
def State.releaseRegion (s : State) (r : Nat) : State :=
  (s.wr Reg.MEM_RELEASE_REGION (s.rd Reg.MEM_RELEASE_REGION ||| 2 ^ r)).fnReady (0x100 + r)

/-- The boot region and its mirror are released: the spill queues have their middles, the staging area is clear, and bulk credits
are granted (R534, R542, R557). -/
def State.releaseBoot (s : State) : State :=
  let s := ((s.wr Reg.MEM_RELEASE_BOOT 1).fnReady 3).clearStaging
  (((List.range 64).filter queueBuilt).foldl (fun s q => s.showQueue q) s).grantCredits

/-- After a warm restart what was released before is released again at once, and what failed stays failed (R471, R532). -/
def State.releaseKept (s : State) : State :=
  if !s.boot.warm then s
  else
    let s := if bit s.boot.kept 16 then s.releaseBoot else s
    (List.range 16).foldl (fun s r =>
      match s.boot.failed.find r with
      | some reason => s.setFn (0x100 + r) rdFailed reason
      | none => if bit s.boot.kept r ∧ !s.halfOffline (r / 8) then s.releaseRegion r else s) s

/-- A channel's training ends: its saved settings were restored, or full training passed or failed; a channel that fails is
offline for the rest of the start and PERMANENT (R530, R531). -/
def execDdrTrainingDone (chan : Fin 8) (restored : Bool) (full : Option Bool) (s : State) : Res :=
  let c := chan.val
  let u := unitId 7 c
  if !s.alive ∨ !bit s.chanMap c ∨ bit s.boot.trained c ∨ !bit s.pwr.domains (41 + c / 4) ∨
      (restored ∧ !bit s.nv.training c) ∨ (!restored ∧ full = none) then .next s
  else
    let s := { s with boot := { s.boot with trained := s.boot.trained ||| 2 ^ c } }
    let s :=
      if restored then (s.wr Reg.EAS_BOOT_TRAIN_SAVED (s.rd Reg.EAS_BOOT_TRAIN_SAVED ||| 2 ^ c)).fnReady (0x200 + c)
      else if full = some true then
        (({ s with nv := { s.nv with training := s.nv.training ||| 2 ^ c } } : State).wr Reg.EAS_BOOT_TRAIN_FULL
          (s.rd Reg.EAS_BOOT_TRAIN_FULL ||| 2 ^ c)).fnReady (0x200 + c)
      else
        let s := (s.offlineNow u).histFailed u
        let s := (s.record u 7 s.dt64 0 1 [(1, 1), (2, 0x10), (3, s.freeVal 32)]).usedFree
        s.setFn (0x200 + c) rdFailed 2
    .next (if s.allTrained then s.releaseKept.showTest else s.showTest)

/-- A release unit passes its test: unit 16 is the boot region with its mirror, whose granules with a failed boot copy are served
from the mirror (R304, R532, R536, R539). -/
def execRegionRelease (unit : Fin 17) (badGranules : List Nat) (s : State) : Res :=
  let r := unit.val
  if r = 16 then
    if s.power = .up ∧ s.allTrained ∧ !s.bootOver then
      .next ({ s with boot := { s.boot with badBoot := badGranules } } : State).releaseBoot.showTest
    else .next s
  else if s.regionTurn r then .next (s.releaseRegion r).showTest
  else .next s

/-- A release unit fails its test, with kind 0 address, 1 march or 2 retention at the first failing address: a region is not
released, and its channel becomes PERMANENT; the boot region fails when both copies of a granule do (R539, R540). -/
def execRegionTestFail (region : Fin 17) (kind : Fin 3) (addr : Nat) (s : State) : Res :=
  let r := region.val
  let k := kind.val
  if r = 16 then
    if s.power = .up ∧ s.allTrained ∧ !s.bootOver then .next (s.setFn 3 rdFailed 3).showTest else .next s
  else if s.regionTurn r then
    let s := { s with boot := { s.boot with failed := s.boot.failed.set r (3 + k) } }
    let s := (s.wr Reg.EAS_MEMTEST_FAILED (s.rd Reg.EAS_MEMTEST_FAILED ||| 2 ^ r)).setFn (0x100 + r) rdFailed (3 + k)
    let u := unitId 7 (s.chanOf (r * 2 ^ 32 + addr % 2 ^ 32))
    let s := (s.histFailed u).record u 7 s.dt64 0 1 [(1, 1), (2, 0x11 + k), (3, s.freeVal 32)]
    .next s.usedFree.showTest
  else .next s

/-- A retention pause of a half ends, or is abandoned and begun again because the refresh interval changed; the phase has two
pauses, the second with the inverse pattern (R537, text after Table BUP-6). -/
def execRetentionPause (half : Fin 2) (abandoned : Bool) (s : State) : Res :=
  let h := half.val
  if abandoned ∨ s.power ≠ .up ∨ !s.allTrained ∨ !s.bootOver ∨ !s.regionOver 0 ∨ s.retentionOver h then .next s
  else
    let b := if bit s.boot.retained h then 2 + h else h
    .next ({ s with boot := { s.boot with retained := s.boot.retained ||| 2 ^ b } } : State).showTest

/-! ### Firmware (R474, R542 to R547, R556 to R558, Tables SEC-2, SEC-3) -/

/-- The header of the staged image, at physical 0x3040_0000 (Table BUP-5). -/
def imageBase : Nat := 0x30400000

/-- `n` bytes of the staging area from offset `o`, each granule from the copy that serves it (R303). -/
def State.staged (s : State) (o n : Nat) : List Byte := (List.range n).flatMap (fun i => s.physRead (imageBase + o + i) 1)

/-- What a step of Table SEC-3 finds wrong: RESULT and the report's status. -/
def State.imageStep (s : State) (h : List Byte) (step : Nat) : Option (Nat × Nat) :=
  let bad := fun (c : Bool) (r st : Nat) => if c then some (r, st) else none
  match step with
  | 1 => bad (fld h 0 4 != 0x49574641 || fld h 4 2 != 1 || decide (1 < fld h 6 1) || decide (128 < fld h 7 1) || !zeroAt h 12 4 ||
      !zeroAt h 376 40 || !zeroAt h 512 512) 2 stBadField
  | 2 => bad (fld h 8 4 == 0 || decide (67108864 < 1024 + fld h 8 4)) 3 stBadLength
  | 3 => bad (!Config.verifyEs384 (Config.vendorKey (fld h 6 1)) (h.take 184) (slice h 184 96)) 4 stAuthFail
  | 4 => bad (decide (s.part.serial < fld h 168 8) || decide (fld h 176 8 < s.part.serial)) 5 stAuthFail
  | 5 => bad (decide (fld h 7 1 < s.rd Reg.SEC_ROLLBACK_COUNTER)) 6 stAuthFail
  | 6 => bad (!Config.verifyEs384 (slice h 72 96) (h.take 416) (slice h 416 96)) 7 stAuthFail
  | _ => bad (Config.sha384 (s.staged 1024 (fld h 8 4)) != slice h 24 48) 8 stAuthFail

/-- The first failure of Table SEC-3; a step that reads bytes of which both copies fail detection stops with READ (R556). -/
def State.imageError (s : State) (h : List Byte) (readFail : Option (Fin 7)) : Option (Nat × Nat) :=
  ((List.range 7).map (fun k =>
    if readFail.any (fun f => f.val == k) then some (9, stDataErr) else s.imageStep h (k + 1))).findSome? id

/-- Device firmware makes the record of op 0x09 and raises CONTAINED after a containment (R474). -/
def State.tellContained (s : State) : State :=
  if s.rd Reg.EAS_BOOT_KIND ≠ startContained then s
  else
    let code := s.rd Reg.PRF_CONTAIN_CODE
    let t := s.rd Reg.PRF_CONTAIN_TIME_DT64
    let n := s.prf.containSecs.length
    let u := s.rd Reg.PRF_CONTAIN_UNIT
    (s.record u 9 t 4 1 [(1, code), (2, t), (3, n)]).raise 0x0905 u (le 1 code ++ le 1 n ++ le 2 0 ++ le 8 t)

/-- A verified image runs: its security version and table key are latched, and the state becomes SETUP (R544, R558). -/
def State.startImage (s : State) (h : List Byte) : State :=
  let key := slice h 280 96
  let s := { s with boot := { s.boot with fwHeader := h }, sec := { s.sec with tableKey := key } }
  let s := ((s.wr Reg.SEC_BOOT_RESULT 1).wr Reg.SEC_BOOT_SVN (fld h 7 1)).wr Reg.SEC_BOOT_FW_VERSION (fld h 16 8)
  let s := (s.wr Reg.SEC_STAT_TABLE_KEY (key.any (· != 0#8)).toNat).wr Reg.HTP_STAT_STATE stSetup
  (s.fnReady 5).tellContained

/-- The staged image is verified after the LAST frame of a push of space 0x2, and runs, or the staging area is cleared; the
transfer's report follows (R544, R556). `readFail` names the step that reads bytes failing detection in both copies. -/
def execFirmwareVerify (readFail : Option (Fin 7)) (s : State) : Res :=
  match s.boot.verify with
  | none => .next s
  | some xfer =>
    if s.power ≠ .up ∨ s.dev ≠ stRom then .next s
    else
      let h := s.staged 0 1024
      let x := s.pushOf xfer
      let s := { s with boot := { s.boot with verify := none }, ht := { s.ht with pushed := s.ht.pushed.erase xfer } }
      match s.imageError h readFail with
      | some (r, st) => .next (((s.wr Reg.SEC_BOOT_RESULT r).clearStaging).sendReport xfer st x.2 x.1)
      | none => .next ((s.startImage h).sendReport xfer stOk x.2 x.1)

/-- The router that a packet at node `n` goes to next on its way to node `d`: X first, then Y (R22). -/
def routeNext (n d : Nat) : Nat :=
  if n % 8 < d % 8 then n + 1 else if d % 8 < n % 8 then n - 1
  else if n / 8 < d / 8 then n + 8 else if d / 8 < n / 8 then n - 8 else n

/-- The nodes to which a multicast packet at node `n` with the destination bitmap `map`, one bit per node in row-major order, is
delivered, copied where the routes to its destinations part (R24). A route has at most 12 links, which the first argument counts. -/
def multicastFrom : Nat → Nat → Nat → List Nat
  | 0, _, _ => []
  | k + 1, n, map =>
    let part := fun (h : Nat) => mapBits 48 (fun d => bit map d && d != n && routeNext n d == h)
    (if bit map n then [n] else []) ++
      (([n - 1, n + 1, n - 8, n + 8].eraseDups.filter (fun h => h != n && part h != 0)).flatMap (fun h => multicastFrom k h (part h)))

/-- The fabric node of physical plate `p`, and that of island AON, which holds the easel (Table ARC-5). -/
def plateNode (p : Nat) : Nat := 8 + p
def aonNode : Nat := 47

/-- Device firmware multicasts the needle firmware to every enabled plate in one pass, once it runs and the plates' domains are on:
one packet names the plates' nodes, and each plate receives it (R24, R547). -/
def execNeedleFwMulticast (s : State) : Res :=
  if s.power ≠ .up ∨ s.boot.fwHeader.isEmpty ∨ s.boot.needleFw ∨ s.gated islFab ∨
      !s.platesOn.all (fun p => bit s.pwr.domains (1 + p)) then .next s
  else
    let map := mapBits 48 (fun n => s.platesOn.any (fun p => plateNode p == n))
    let got := multicastFrom 13 aonNode map
    let s := { s with boot := { s.boot with needleFw := true, fwPlates := mapBits 34 (fun p => got.contains (plateNode p)) } }
    .next ((List.range s.platesOn.length).foldl (fun s i =>
      if s.fnState (0x300 + i) = rdWaiting then s.setFn (0x300 + i) rdProgress 0 else s) s)

/-- A plate, a commons half, Stipple or the burnisher ends its own initialisation and is ready (R547, R550). -/
def execUnitReady (fn : BitVec 16) (s : State) : Res :=
  let f := fn.toNat
  let u := s.fnUnit f
  let plate := decide (0x300 ≤ f ∧ f < 0x300 + s.platesOn.length)
  let known := plate || f == 7 || f == 8 || f == 9 || f == 10
  if s.power ≠ .up ∨ s.boot.fwHeader.isEmpty ∨ !known ∨ !s.unitUp u ∨ !bit s.pwr.domains (domainOf u) ∨
      (plate ∧ !bit s.boot.fwPlates (bits u 0 24)) then .next s
  else
    let s := if plate then
        let p := bits u 0 24
        if s.rd Reg.PLT_STAT_STATE p = 0 then s.wr Reg.PLT_STAT_STATE 1 p else s
      else if f = 9 ∨ f = 10 then s.wr Reg.TRC_STAT_RUN 1 (f - 9)
      else s
    .next (s.fnReady f)

/-- EAS_CTRL.RESTART: the module restarts as from power-on, before SETUP_DONE (R546). -/
def execRestart (s : State) : Res := .next (if s.alive ∧ !s.flag Reg.HTP_CTRL_SETUP_DONE then s.coldStart else s)

/-! ### Link checks (R548, R550, Table BUP-8) -/

/-- A link passes its check with the quality given: cameras 0-11, lidar and auxiliary ports 12-17, host ports 18-19. A camera whose
power switch is open has no link (R579). -/
def execLinkCheckPass (link : Fin 20) (quality : BitVec 8) (s : State) : Res :=
  let k := link.val
  let q := quality.toNat
  let least := if k < 12 then s.rd Reg.EAS_LINKCHK_APHY_MIN else s.rd Reg.EAS_LINKCHK_SQI_MIN
  let u := if k < 12 then unitId 0x0A k else if k < 18 then unitId 0x0B (k - 12) else unitId 0x0F (k - 18)
  let dark := decide (k < 12) && (bit (s.rd Reg.PWR_POC_FAULT) k || !bit (s.rd Reg.PWR_POC_ENABLE) k || s.flag Reg.PWR_STAT_VCAM_BAD)
  if !s.alive ∨ q < least ∨ !s.unitUp u ∨ dark ∨ (12 ≤ k ∧ 7 < q) then .next s
  else if k < 18 then
    let n := linkQueue k
    let s := (s.wr Reg.ING_PORT_STAT_LINK 1 n).wr Reg.ING_PORT_STAT_QUALITY q n
    let s := if k < 12 then (s.wr Reg.ING_PORT_STAT_GEAR (1 + s.freeVal 16 % 3) n).usedFree else s
    .next (s.fnReady (linkFn k)).discoverAll
  else
    let n := k - 18
    .next ((((s.setLink n true).wr Reg.HTP_PORT_LINK 1 n).wr Reg.HTP_PORT_SQI q n).fnReady (0x700 + n)).failoverDue

/-- A checked link goes down (R550). -/
def execLinkCheckLost (link : Fin 20) (s : State) : Res :=
  let k := link.val
  if k < 18 then .next (if s.flag Reg.ING_PORT_STAT_LINK (linkQueue k) then s.sensorLinkDown k else s)
  else .next (s.hostLinkDown (k - 18))

end Sys2Proof.Machine
end

