-- ==== Sys2Proof/Machine/NeedleScalar.lean ====
section
/-! DEFINITION. The scalar instructions of a needle core: RV64I with M, A, F, C, Zicsr, Zifencei and Zicntr, the CSRs of Table
NDL-3, and the addresses of R207 to R209. What each standard instruction does is taken from the RISC-V manuals
(R205; log entry 37). -/

namespace Sys2Proof.Machine

/-! ### Data accesses (R207 to R210, R447) -/

/-- The plate offset that an effective address names with an extent of `n` bytes; none is an access fault (R185, R207). -/
def State.dataOfs (s : State) (p cores a n : Nat) : Option Nat :=
  if a / 2 ^ 32 ≠ 0 then none
  else if bits a 30 2 = 0 then (if bits a 22 8 = 0 ∧ a + n ≤ s.abufLimit p then some (s.abufOfs p a) else none)
  else if bits a 30 2 = 1 then
    (if bits a 15 9 = 0 ∧ bits a 24 6 < cores ∧ bits a 0 15 + n ≤ s.lmLimit p then
      some (s.lmOfs p (bits a 24 6) (bits a 0 15)) else none)
  else none

/-- The cores started by the launch that runs on a plate. -/
def State.coresOn (s : State) (p : Nat) : Nat := match s.runningOn p with | some (_, l) => l.cores | none => 0

/-- The plate offset of an access, or the cause that it raises: misaligned `mis`, or access fault `mis + 1` (R207, R208). -/
def State.dataAddr (s : State) (p a n mis : Nat) : Except Nat Nat :=
  if a % n ≠ 0 then .error mis
  else match s.dataOfs p (s.coresOn p) a n with | some o => .ok o | none => .error (mis + 1)

/-- A load's bytes. One that meets a failing word returns the data as read and raises interrupt 16 (R447). -/
def State.coreLoad (s : State) (p c o n : Nat) : State × Nat :=
  let v := s.num (plateAddr p o) n
  if s.badRead (plateAddr p o) n then
    let tag := (s.core p c).lastTile
    let s := s.arrFault p c ⟨(s.arr p).logOf tag, tag, 1, 0, none⟩
    ((s.bump Reg.PLT_CNT_PARITY p).sramDetect (unitId 1 p) 1 o true, v)
  else (s, v)

/-! ### CSRs (Table NDL-3, R215) -/

/-- The logical plate of a physical one in xnlaunch, with the core and the context. -/
def State.xnlaunch (s : State) (p c : Nat) : Nat :=
  c + s.logical p * 2 ^ 8 + (match s.runningOn p with | some (j, _) => j.context | none => 0) * 2 ^ 16

/-- The value of a CSR that U mode may read; none raises an illegal-instruction exception. Clock cycles are no part of the
model: cycle reads as a free value (log entries 4, 39). -/
def State.csrRead (s : State) (p c n : Nat) : Option Nat :=
  let k := s.core p c
  match n with
  | 0x001 => some (bits (k.csrVal 0x003) 0 5)
  | 0x002 => some (bits (k.csrVal 0x003) 5 3)
  | 0x003 => some (k.csrVal 0x003)
  | 0x008 => some (k.csrVal 0x008)
  | 0x009 => some (bits (k.csrVal 0x00F) 0 1)
  | 0x00A => some (bits (k.csrVal 0x00F) 1 2)
  | 0x00F => some (k.csrVal 0x00F)
  | 0xC00 => some (s.freeVal 64)
  | 0xC01 => some s.dt64
  | 0xC02 => some (k.csrVal 0xC02)
  | 0xC20 => some (k.csrVal 0xC20)
  | 0xC21 => some (k.csrVal 0xC21)
  | 0xC22 => some 64
  | 0xCC0 => some (s.xnlaunch p c)
  | _ => none

/-- What mstatus reads beside MIE, MPIE and MPP: FS and VS dirty, SD, and UXL = 64 bits (log entry 37). -/
def mstatusFixed : Nat := 2 ^ 63 + 2 * 2 ^ 32 + 3 * 2 ^ 13 + 3 * 2 ^ 9
/-- misa: MXL = 64 bits, with A, C, F, I, M, U, V and X (Table NDL-1; log entry 37). -/
def misaValue : Nat := 2 ^ 63 + 2 ^ 23 + 2 ^ 21 + 2 ^ 20 + 2 ^ 12 + 2 ^ 8 + 2 ^ 5 + 2 ^ 2 + 1

/-- The value of a CSR of the M-mode set (Table NDL-3, R206); none for one that is not implemented. -/
def State.csrM (s : State) (p c n : Nat) : Option Nat :=
  match n with
  | 0x300 => some (s.mval p c 0x300 + mstatusFixed)
  | 0x301 => some misaValue
  | 0x304 => some (s.mval p c 0x304)
  | 0x305 => some (s.mval p c 0x305)
  | 0x340 => some (s.mval p c 0x340)
  | 0x341 => some (s.mval p c 0x341)
  | 0x342 => some (s.mval p c 0x342)
  | 0x343 => some (s.mval p c 0x343)
  | 0x344 => some (s.core p c).irq
  | 0xB00 => some (s.freeVal 64)
  | 0xB02 => some ((s.core p c).csrVal 0xC02)
  | 0xF14 => some (p * 256 + s.physCore p c)
  | _ => none

/-- A CSR of the M-mode set is written: its writable fields take the value; minstret holds it when the instruction has retired;
none for one that cannot be written. -/
def State.csrMWrite (s : State) (p c n v : Nat) : Option State :=
  match n with
  | 0x300 =>
    let mpp := if bits v 11 2 = 0 ∨ bits v 11 2 = 3 then bits v 11 2 else bits (s.mval p c 0x300) 11 2
    some (s.setM p c 0x300 (bits v 3 1 * 2 ^ 3 + bits v 7 1 * 2 ^ 7 + mpp * 2 ^ 11))
  | 0x301 => some s
  | 0x304 => some (s.setM p c 0x304 (v &&& 3 * 2 ^ 16))
  | 0x305 => some (s.setM p c 0x305 (v - bits v 1 1 * 2))
  | 0x340 => some (s.setM p c 0x340 v)
  | 0x341 => some (s.setM p c 0x341 (v / 2 * 2))
  | 0x342 => some (s.setM p c 0x342 v)
  | 0x343 => some (s.setM p c 0x343 v)
  | 0x344 => some s
  | 0xB00 => some s
  | 0xB02 => some (s.setCore p c ((s.core p c).setCsr 0xC02 ((v + 2 ^ 64 - 1) % 2 ^ 64)))
  | _ => none

/-- A core with a writable CSR set; none for one that cannot be written. -/
def CoreSt.csrWrite (k : CoreSt) (n v : Nat) : Option CoreSt :=
  match n with
  | 0x001 => some (k.setCsr 0x003 (putBits (k.csrVal 0x003) 0 5 v))
  | 0x002 => some (k.setCsr 0x003 (putBits (k.csrVal 0x003) 5 3 v))
  | 0x003 => some (k.setCsr 0x003 (v % 256))
  | 0x008 => some (k.setCsr 0x008 (v % 512))
  | 0x009 => some (k.setCsr 0x00F (putBits (k.csrVal 0x00F) 0 1 v))
  | 0x00A => some (k.setCsr 0x00F (putBits (k.csrVal 0x00F) 1 2 v))
  | 0x00F => some (k.setCsr 0x00F (v % 8))
  | _ => none

/-- The core with exception flags added. -/
def CoreSt.addFlags (k : CoreSt) (fl : Nat) : CoreSt := k.setCsr 0x003 (k.csrVal 0x003 ||| fl)

/-- The rounding mode of an instruction: its own, or frm's; none when it is reserved. -/
def CoreSt.rm (k : CoreSt) (r : Nat) : Option Nat :=
  let m := if r = 7 then bits (k.csrVal 0x003) 5 3 else r
  if m ≤ 4 then some m else none

/-! ### Integer arithmetic -/

/-- Sign extension of the low 32 bits to 64. -/
def sx32 (v : Nat) : Nat := toU 64 (sext 32 v)

/-- OP and OP-IMM by funct3; `alt` is SUB and SRA. -/
def alu (f3 : Nat) (alt : Bool) (a b : Nat) : Nat :=
  match f3 with
  | 0 => if alt then toU 64 ((a : Int) - b) else (a + b) % 2 ^ 64
  | 1 => (a <<< (b % 64)) % 2 ^ 64
  | 2 => (decide (sext 64 a < sext 64 b)).toNat
  | 3 => (decide (a < b)).toNat
  | 4 => a ^^^ b
  | 5 => if alt then toU 64 (sext 64 a / 2 ^ (b % 64)) else a >>> (b % 64)
  | 6 => a ||| b
  | _ => a &&& b

/-- OP-32 by funct3. -/
def alu32 (f3 : Nat) (alt : Bool) (a b : Nat) : Nat :=
  match f3 with
  | 0 => sx32 (if alt then toU 32 ((a : Int) - b) else a + b)
  | 1 => sx32 (a <<< (b % 32))
  | _ => if alt then toU 64 (sext 32 a / 2 ^ (b % 32)) else sx32 (a % 2 ^ 32 >>> (b % 32))

/-- Division of `w`-bit operands: quotient and remainder, signed or not, with the results of RISC-V for zero and overflow. -/
def divRem (w : Nat) (signed : Bool) (a b : Nat) : Nat × Nat :=
  let a' := a % 2 ^ w
  let b' := b % 2 ^ w
  if b' = 0 then (2 ^ w - 1, a')
  else if signed then (toU w ((sext w a').tdiv (sext w b')), toU w ((sext w a').tmod (sext w b')))
  else (a' / b', a' % b')

/-- The M extension by funct3. -/
def mulDiv (f3 a b : Nat) : Nat :=
  match f3 with
  | 0 => a * b % 2 ^ 64
  | 1 => toU 64 (sext 64 a * sext 64 b / 2 ^ 64)
  | 2 => toU 64 (sext 64 a * b / 2 ^ 64)
  | 3 => a * b / 2 ^ 64
  | 4 => (divRem 64 true a b).1
  | 5 => (divRem 64 false a b).1
  | 6 => (divRem 64 true a b).2
  | _ => (divRem 64 false a b).2

/-- The 32-bit M instructions; funct3 1 to 3 are reserved. -/
def mulDiv32 (f3 a b : Nat) : Option Nat :=
  match f3 with
  | 0 => some (sx32 (a * b))
  | 4 => some (sx32 (divRem 32 true a b).1)
  | 5 => some (sx32 (divRem 32 false a b).1)
  | 6 => some (sx32 (divRem 32 true a b).2)
  | 7 => some (sx32 (divRem 32 false a b).2)
  | _ => none

/-- A branch is taken, by funct3; none for a reserved one. -/
def branchTaken (f3 a b : Nat) : Option Bool :=
  match f3 with
  | 0 => some (a == b)
  | 1 => some (a != b)
  | 4 => some (decide (sext 64 a < sext 64 b))
  | 5 => some (decide (sext 64 b ≤ sext 64 a))
  | 6 => some (decide (a < b))
  | 7 => some (decide (b ≤ a))
  | _ => none

/-- The result an AMO stores, by funct5, on `w`-bit operands. -/
def amoOp (f5 w old v : Nat) : Option Nat :=
  match f5 with
  | 0x01 => some v
  | 0x00 => some (old + v)
  | 0x04 => some (old ^^^ v)
  | 0x0C => some (old &&& v)
  | 0x08 => some (old ||| v)
  | 0x10 => some (if sext w old < sext w v then old else v)
  | 0x14 => some (if sext w old < sext w v then v else old)
  | 0x18 => some (min old v)
  | 0x1C => some (max old v)
  | _ => none

/-! ### Instruction fields -/

def iRd (w : Nat) : Nat := bits w 7 5
def iF3 (w : Nat) : Nat := bits w 12 3
def iRs1 (w : Nat) : Nat := bits w 15 5
def iRs2 (w : Nat) : Nat := bits w 20 5
def iF7 (w : Nat) : Nat := bits w 25 7
/-- Immediates as 64-bit numbers. -/
def immI (w : Nat) : Nat := toU 64 (sext 12 (bits w 20 12))
def immS (w : Nat) : Nat := toU 64 (sext 12 (bits w 25 7 * 32 + bits w 7 5))
def immB (w : Nat) : Nat :=
  toU 64 (sext 13 (bits w 31 1 * 4096 + bits w 7 1 * 2048 + bits w 25 6 * 32 + bits w 8 4 * 2))
def immU (w : Nat) : Nat := sx32 (bits w 12 20 * 4096)
def immJ (w : Nat) : Nat :=
  toU 64 (sext 21 (bits w 31 1 * 2 ^ 20 + bits w 12 8 * 4096 + bits w 20 1 * 2048 + bits w 21 10 * 2))

/-! ### Compressed instructions -/

/-- Words of the base formats. -/
def mkR (f7 rs2 rs1 f3 rd op : Nat) : Nat := f7 * 2 ^ 25 + rs2 * 2 ^ 20 + rs1 * 2 ^ 15 + f3 * 2 ^ 12 + rd * 2 ^ 7 + op
def mkI (imm rs1 f3 rd op : Nat) : Nat := imm % 4096 * 2 ^ 20 + rs1 * 2 ^ 15 + f3 * 2 ^ 12 + rd * 2 ^ 7 + op
def mkS (imm rs2 rs1 f3 op : Nat) : Nat :=
  imm / 32 % 128 * 2 ^ 25 + rs2 * 2 ^ 20 + rs1 * 2 ^ 15 + f3 * 2 ^ 12 + imm % 32 * 2 ^ 7 + op
def mkB (imm rs1 f3 : Nat) : Nat :=
  bits imm 12 1 * 2 ^ 31 + bits imm 5 6 * 2 ^ 25 + rs1 * 2 ^ 15 + f3 * 2 ^ 12 + bits imm 1 4 * 2 ^ 8 + bits imm 11 1 * 2 ^ 7 + 0x63
def mkJ (imm rd : Nat) : Nat :=
  bits imm 20 1 * 2 ^ 31 + bits imm 1 10 * 2 ^ 21 + bits imm 11 1 * 2 ^ 20 + bits imm 12 8 * 2 ^ 12 + rd * 2 ^ 7 + 0x6F

/-- The 32-bit word of a compressed instruction of RV64C without D; none when reserved or absent. -/
def expandC (h : Nat) : Option Nat :=
  let f3 := bits h 13 3
  let rd := bits h 7 5
  let rs2 := bits h 2 5
  let rdp := bits h 2 3 + 8
  let rs1p := bits h 7 3 + 8
  let imm6 := toU 12 (sext 6 (bits h 12 1 * 32 + bits h 2 5))
  let shamt := bits h 12 1 * 32 + bits h 2 5
  match bits h 0 2, f3 with
  | 0, 0 =>
    let imm := bits h 7 4 * 64 + bits h 11 2 * 16 + bits h 5 1 * 8 + bits h 6 1 * 4
    if imm = 0 then none else some (mkI imm 2 0 rdp 0x13)
  | 0, 2 => some (mkI (bits h 5 1 * 64 + bits h 10 3 * 8 + bits h 6 1 * 4) rs1p 2 rdp 0x03)
  | 0, 3 => some (mkI (bits h 5 2 * 64 + bits h 10 3 * 8) rs1p 3 rdp 0x03)
  | 0, 6 => some (mkS (bits h 5 1 * 64 + bits h 10 3 * 8 + bits h 6 1 * 4) rdp rs1p 2 0x23)
  | 0, 7 => some (mkS (bits h 5 2 * 64 + bits h 10 3 * 8) rdp rs1p 3 0x23)
  | 1, 0 => some (mkI imm6 rd 0 rd 0x13)
  | 1, 1 => if rd = 0 then none else some (mkI imm6 rd 0 rd 0x1B)
  | 1, 2 => some (mkI imm6 0 0 rd 0x13)
  | 1, 3 =>
    if rd = 2 then
      let imm := toU 12 (sext 10 (bits h 12 1 * 512 + bits h 3 2 * 128 + bits h 5 1 * 64 + bits h 2 1 * 32 + bits h 6 1 * 16))
      if imm = 0 then none else some (mkI imm 2 0 2 0x13)
    else
      let imm := toU 20 (sext 6 shamt)
      if imm = 0 then none else some (imm * 2 ^ 12 + rd * 2 ^ 7 + 0x37)
  | 1, 4 =>
    match bits h 10 2 with
    | 0 => some (mkI shamt rs1p 5 rs1p 0x13)
    | 1 => some (mkI (shamt + 0x400) rs1p 5 rs1p 0x13)
    | 2 => some (mkI imm6 rs1p 7 rs1p 0x13)
    | _ =>
      match bits h 12 1, bits h 5 2 with
      | 0, 0 => some (mkR 0x20 rdp rs1p 0 rs1p 0x33)
      | 0, 1 => some (mkR 0 rdp rs1p 4 rs1p 0x33)
      | 0, 2 => some (mkR 0 rdp rs1p 6 rs1p 0x33)
      | 0, _ => some (mkR 0 rdp rs1p 7 rs1p 0x33)
      | _, 0 => some (mkR 0x20 rdp rs1p 0 rs1p 0x3B)
      | _, 1 => some (mkR 0 rdp rs1p 0 rs1p 0x3B)
      | _, _ => none
  | 1, 5 =>
    let imm := bits h 12 1 * 2048 + bits h 8 1 * 1024 + bits h 9 2 * 256 + bits h 6 1 * 128 + bits h 7 1 * 64 +
      bits h 2 1 * 32 + bits h 11 1 * 16 + bits h 3 3 * 2
    some (mkJ (toU 21 (sext 12 imm)) 0)
  | 1, _ =>
    let imm := bits h 12 1 * 256 + bits h 5 2 * 64 + bits h 2 1 * 32 + bits h 10 2 * 8 + bits h 3 2 * 2
    some (mkB (toU 13 (sext 9 imm)) rs1p (f3 - 6))
  | 2, 0 => some (mkI shamt rd 1 rd 0x13)
  | 2, 2 => if rd = 0 then none else some (mkI (bits h 2 2 * 64 + bits h 12 1 * 32 + bits h 4 3 * 4) 2 2 rd 0x03)
  | 2, 3 => if rd = 0 then none else some (mkI (bits h 2 3 * 64 + bits h 12 1 * 32 + bits h 5 2 * 8) 2 3 rd 0x03)
  | 2, 4 =>
    if bits h 12 1 = 0 then
      (if rs2 = 0 then (if rd = 0 then none else some (mkI 0 rd 0 0 0x67)) else some (mkR 0 rs2 0 0 rd 0x33))
    else if rs2 = 0 then (if rd = 0 then some 0x00100073 else some (mkI 0 rd 0 1 0x67))
    else some (mkR 0 rs2 rd 0 rd 0x33)
  | 2, 6 => some (mkS (bits h 7 2 * 64 + bits h 9 4 * 4) rs2 2 2 0x23)
  | 2, 7 => some (mkS (bits h 7 3 * 64 + bits h 10 3 * 8) rs2 2 3 0x23)
  | _, _ => none

/-! ### Execution -/

/-- What an instruction does: it retires with the core's new registers, goes to a new pc, or raises a cause. -/
inductive Did
  | retire (s : State) (k : CoreSt)
  | jump (s : State) (k : CoreSt) (pc : Nat)
  | trap (cause tval : Nat)

/-- A load into an integer register, by funct3. -/
def State.runLoad (s : State) (p c w : Nat) : Did :=
  let k := s.core p c
  let a := (k.xr (iRs1 w) + immI w) % 2 ^ 64
  let f3 := iF3 w
  let n := 2 ^ (f3 % 4)
  if f3 = 7 then .trap 2 0
  else match s.dataAddr p a n 4 with
  | .error e => .trap e a
  | .ok o =>
    let (s, v) := s.coreLoad p c o n
    .retire s ((s.core p c).setX (iRd w) (if f3 < 4 then toU 64 (sext (8 * n) v) else v))

/-- A store of `n` bytes of `v`. -/
def State.runStore (s : State) (p c a n v : Nat) : Did :=
  match s.dataAddr p a n 6 with
  | .error e => .trap e a
  | .ok o => let s := s.plateStore p o (le n v) (some c); .retire s (s.core p c)

/-- LR, SC and AMOs (R209). -/
def State.runAmo (s : State) (p c w : Nat) : Did :=
  let k := s.core p c
  let a := k.xr (iRs1 w)
  let n := 2 ^ (iF3 w)
  let f5 := bits w 27 5
  if iF3 w ≠ 2 ∧ iF3 w ≠ 3 then .trap 2 0
  else if f5 = 2 then
    (if iRs2 w ≠ 0 then .trap 2 0
     else match s.dataAddr p a n 4 with
     | .error e => .trap e a
     | .ok o =>
       let (s, v) := s.coreLoad p c o n
       .retire s { (s.core p c).setX (iRd w) (toU 64 (sext (8 * n) v)) with resv := some (o / 8 * 8) })
  else if f5 = 3 then
    match s.dataAddr p a n 6 with
    | .error e => .trap e a
    | .ok o =>
      let hit := k.resv == some (o / 8 * 8)
      let s := if hit then s.plateStore p o (le n (k.xr (iRs2 w))) (some c) else s
      .retire s { (s.core p c).setX (iRd w) (!hit).toNat with resv := none }
  else match amoOp f5 (8 * n) 0 0 with
  | none => .trap 2 0
  | some _ =>
    match s.dataAddr p a n 6 with
    | .error e => .trap e a
    | .ok o =>
      let (s, old) := s.coreLoad p c o n
      let new := (amoOp f5 (8 * n) old (k.xr (iRs2 w) % 2 ^ (8 * n))).getD 0
      let s := s.plateStore p o (le n new) (some c)
      .retire s ((s.core p c).setX (iRd w) (toU 64 (sext (8 * n) old)))

/-- CSR instructions (Zicsr). The M-mode set exists for the plate runtime only (Table NDL-3). -/
def State.runCsr (s : State) (p c w : Nat) : Did :=
  let k := s.core p c
  let n := bits w 20 12
  let f3 := iF3 w
  let src := if f3 < 4 then k.xr (iRs1 w) else iRs1 w
  let writes := f3 % 4 == 1 || iRs1 w != 0
  match (s.csrRead p c n).or (if k.machine then s.csrM p c n else none) with
  | none => .trap 2 0
  | some old =>
    let s := if n = 0xC00 ∨ n = 0xB00 then s.usedFree else s
    let new := match f3 % 4 with | 1 => src | 2 => old ||| src | _ => old - (old &&& src)
    if writes then
      (match k.csrWrite n new with
       | some k => .retire s (k.setX (iRd w) old)
       | none =>
         match if k.machine then s.csrMWrite p c n new else none with
         | some s => .retire s ((s.core p c).setX (iRd w) old)
         | none => .trap 2 0)
    else .retire s (k.setX (iRd w) old)

/-- An FP result into f[rd] with its flags. -/
def fpOut (s : State) (k : CoreSt) (rd : Nat) (r : Nat × Nat) : Did := .retire s ((k.setF rd r.1).addFlags r.2)
/-- A value into x[rd] with flags. -/
def fpIntOut (s : State) (k : CoreSt) (rd v fl : Nat) : Did := .retire s ((k.setX rd v).addFlags fl)

/-- OP-FP in single precision. -/
def State.runFp (s : State) (p c w : Nat) : Did :=
  let k := s.core p c
  let a := k.fr (iRs1 w)
  let b := k.fr (iRs2 w)
  let rd := iRd w
  let f3 := iF3 w
  let rounded := fun (f : Nat → Nat × Nat) => match k.rm f3 with | some m => fpOut s k rd (f m) | none => .trap 2 0
  match iF7 w with
  | 0x00 => rounded (fun m => fpAdd m a b)
  | 0x04 => rounded (fun m => fpSub m a b)
  | 0x08 => rounded (fun m => fpMul m a b)
  | 0x0C => rounded (fun m => fpDiv m a b)
  | 0x2C => if iRs2 w ≠ 0 then .trap 2 0 else rounded (fun m => fpSqrt m a)
  | 0x10 => if 2 < f3 then .trap 2 0 else fpOut s k rd (fpSgnj f3 a b, 0)
  | 0x14 => if f3 = 0 then fpOut s k rd (fpMin a b) else if f3 = 1 then fpOut s k rd (fpMax a b) else .trap 2 0
  | 0x50 =>
    match f3 with
    | 0 => fpIntOut s k rd (fpLe a b).1.toNat (fpLe a b).2
    | 1 => fpIntOut s k rd (fpLt a b).1.toNat (fpLt a b).2
    | 2 => fpIntOut s k rd (fpEq a b).1.toNat (fpEq a b).2
    | _ => .trap 2 0
  | 0x60 =>
    match k.rm f3, iRs2 w with
    | some m, 0 => let r := fpToInt m (-(2 ^ 31)) (2 ^ 31 - 1) a; fpIntOut s k rd (toU 64 r.1) r.2
    | some m, 1 => let r := fpToInt m 0 (2 ^ 32 - 1) a; fpIntOut s k rd (sx32 r.1.toNat) r.2
    | some m, 2 => let r := fpToInt m (-(2 ^ 63)) (2 ^ 63 - 1) a; fpIntOut s k rd (toU 64 r.1) r.2
    | some m, 3 => let r := fpToInt m 0 (2 ^ 64 - 1) a; fpIntOut s k rd r.1.toNat r.2
    | _, _ => .trap 2 0
  | 0x68 =>
    let x := k.xr (iRs1 w)
    match k.rm f3, iRs2 w with
    | some m, 0 => fpOut s k rd (fpOfInt m (sext 32 x))
    | some m, 1 => fpOut s k rd (fpOfInt m (x % 2 ^ 32 : Nat))
    | some m, 2 => fpOut s k rd (fpOfInt m (sext 64 x))
    | some m, 3 => fpOut s k rd (fpOfInt m x)
    | _, _ => .trap 2 0
  | 0x70 =>
    if iRs2 w ≠ 0 then .trap 2 0
    else if f3 = 0 then .retire s (k.setX rd (sx32 a)) else if f3 = 1 then .retire s (k.setX rd (fpClass a)) else .trap 2 0
  | 0x78 => if iRs2 w = 0 ∧ f3 = 0 then .retire s (k.setF rd (k.xr (iRs1 w))) else .trap 2 0
  | _ => .trap 2 0

/-- Fused multiply-add by opcode: 0x43 FMADD, 0x47 FMSUB, 0x4B FNMSUB, 0x4F FNMADD. -/
def State.runFma (s : State) (p c w : Nat) : Did :=
  let k := s.core p c
  if bits w 25 2 ≠ 0 then .trap 2 0
  else match k.rm (iF3 w) with
  | none => .trap 2 0
  | some m =>
    let np := decide (bits w 0 7 = 0x4B ∨ bits w 0 7 = 0x4F)
    let nc := decide (bits w 0 7 = 0x47 ∨ bits w 0 7 = 0x4F)
    fpOut s k (iRd w) (fpFma m np nc (k.fr (iRs1 w)) (k.fr (iRs2 w)) (k.fr (bits w 27 5)))

/-- One scalar 32-bit instruction word; `len` is the length of the instruction it came from. SYSTEM and the vector and vendor
opcodes are not among them. -/
def State.runScalar (s : State) (p c w len : Nat) : Did :=
  let k := s.core p c
  let a := k.xr (iRs1 w)
  let b := k.xr (iRs2 w)
  let rd := iRd w
  let f3 := iF3 w
  match bits w 0 7 with
  | 0x37 => .retire s (k.setX rd (immU w))
  | 0x17 => .retire s (k.setX rd ((k.pc + immU w) % 2 ^ 64))
  | 0x6F => .jump s (k.setX rd ((k.pc + len) % 2 ^ 64)) ((k.pc + immJ w) % 2 ^ 64)
  | 0x67 => if f3 ≠ 0 then .trap 2 0 else .jump s (k.setX rd ((k.pc + len) % 2 ^ 64)) ((a + immI w) % 2 ^ 64 / 2 * 2)
  | 0x63 =>
    match branchTaken f3 a b with
    | none => .trap 2 0
    | some t => if t then .jump s k ((k.pc + immB w) % 2 ^ 64) else .retire s k
  | 0x03 => s.runLoad p c w
  | 0x23 => if 3 < f3 then .trap 2 0 else s.runStore p c ((a + immS w) % 2 ^ 64) (2 ^ f3) b
  | 0x13 =>
    if f3 = 1 ∧ bits w 26 6 ≠ 0 then .trap 2 0
    else if f3 = 5 ∧ bits w 26 6 ≠ 0 ∧ bits w 26 6 ≠ 0x10 then .trap 2 0
    else .retire s (k.setX rd (alu f3 (f3 == 5 && bit w 30) a (immI w)))
  | 0x1B =>
    if f3 = 0 then .retire s (k.setX rd (sx32 (a + immI w)))
    else if f3 = 1 ∧ iF7 w = 0 then .retire s (k.setX rd (alu32 1 false a (iRs2 w)))
    else if f3 = 5 ∧ (iF7 w = 0 ∨ iF7 w = 0x20) then .retire s (k.setX rd (alu32 5 (bit w 30) a (iRs2 w)))
    else .trap 2 0
  | 0x33 =>
    if iF7 w = 1 then .retire s (k.setX rd (mulDiv f3 a b))
    else if iF7 w = 0 ∨ (iF7 w = 0x20 ∧ (f3 = 0 ∨ f3 = 5)) then .retire s (k.setX rd (alu f3 (bit w 30) a b))
    else .trap 2 0
  | 0x3B =>
    if iF7 w = 1 then (match mulDiv32 f3 a b with | some v => .retire s (k.setX rd v) | none => .trap 2 0)
    else if (iF7 w = 0 ∧ (f3 = 0 ∨ f3 = 1 ∨ f3 = 5)) ∨ (iF7 w = 0x20 ∧ (f3 = 0 ∨ f3 = 5)) then
      .retire s (k.setX rd (alu32 f3 (bit w 30) a b))
    else .trap 2 0
  | 0x0F => if f3 ≤ 1 then .retire s k else .trap 2 0
  | 0x2F => s.runAmo p c w
  | 0x73 => if f3 % 4 = 0 then (if w = 0x00100073 then .trap 3 k.pc else .trap 2 0) else s.runCsr p c w
  | 0x07 =>
    (match s.dataAddr p ((a + immI w) % 2 ^ 64) 4 4 with
     | .error e => .trap e ((a + immI w) % 2 ^ 64)
     | .ok o => let (s, v) := s.coreLoad p c o 4; .retire s ((s.core p c).setF rd v))
  | 0x27 => s.runStore p c ((a + immS w) % 2 ^ 64) 4 (k.fr (iRs2 w))
  | 0x43 => s.runFma p c w
  | 0x47 => s.runFma p c w
  | 0x4B => s.runFma p c w
  | 0x4F => s.runFma p c w
  | 0x53 => s.runFp p c w
  | _ => .trap 2 0

/-- The outcome applied: the core retires, jumps, or traps (R195, R213). -/
def State.settle (s : State) (p c len : Nat) (d : Did) : State :=
  match d with
  | .retire t k => t.retire p c k len
  | .jump t k pc => t.retire p c { k with pc := (pc + (2 ^ 64 - len)) % 2 ^ 64 } len
  | .trap cause tval => s.trap p c cause tval

end Sys2Proof.Machine
end

