-- ==== Sys2Proof/Machine/NeedleVector.lean ====
section
/-! DEFINITION. The vector instructions of a needle core: V 1.0 at the Zve64f level with VLEN 512, Zvfbfmin and Zvfbfwma
(Table NDL-1). What each standard instruction does is taken from the RISC-V manuals (R205; log entry 37). -/

namespace Sys2Proof.Machine

/-! ### Configuration -/

def CoreSt.vl (k : CoreSt) : Nat := k.csrVal 0xC20
def CoreSt.vtype (k : CoreSt) : Nat := k.csrVal 0xC21
def CoreSt.vstart (k : CoreSt) : Nat := k.csrVal 0x008
def CoreSt.vill (k : CoreSt) : Bool := bit k.vtype 63
/-- SEW in bits. -/
def sewOf (vt : Nat) : Nat := 8 * 2 ^ bits vt 3 3
/-- LMUL in eighths: mf8 is 1, m1 is 8, m8 is 64. -/
def lmul8 (vt : Nat) : Nat := if bits vt 0 3 < 4 then 8 * 2 ^ bits vt 0 3 else 2 ^ (bits vt 0 3 - 5)
/-- A vtype value is supported: no reserved bits, SEW at most 64, and LMUL no smaller than SEW / 64. -/
def vtypeOk (vt : Nat) : Bool :=
  decide (vt < 256) && decide (bits vt 3 3 ≤ 3) && bits vt 0 3 != 4 && decide (8 * sewOf vt ≤ 64 * lmul8 vt)
/-- VLMAX of a vtype. -/
def vlmaxOf (vt : Nat) : Nat := 64 * lmul8 vt / sewOf vt

/-- A core with a new vtype for the requested length: `keep` keeps vl. -/
def CoreSt.setVl (k : CoreSt) (vt : Nat) (avl : Option Nat) (rd : Nat) : CoreSt :=
  let bad := !vtypeOk vt || (avl.isNone && (k.vill || vlmaxOf vt != vlmaxOf k.vtype))
  if bad then (((k.setCsr 0xC21 (2 ^ 63)).setCsr 0xC20 0).setCsr 0x008 0).setX rd 0
  else
    let m := vlmaxOf vt
    let vl := match avl with
      | none => k.vl
      | some n => if n ≤ m then n else if 2 * m ≤ n then m else
          let lo := (n + 1) / 2
          lo + Config.vlPick n m % (m - lo + 1)
    (((k.setCsr 0xC21 vt).setCsr 0xC20 vl).setCsr 0x008 0).setX rd vl

/-- vsetvli, vsetivli, vsetvl. -/
def State.runVset (s : State) (p c w : Nat) : Did :=
  let k := s.core p c
  let rd := iRd w
  let fromReg := if iRs1 w ≠ 0 then some (k.xr (iRs1 w)) else if rd ≠ 0 then some (2 ^ 64 - 1) else none
  if bit w 31 = false then .retire s (k.setVl (bits w 20 11) fromReg rd)
  else if bit w 30 then .retire s (k.setVl (bits w 20 10) (some (iRs1 w)) rd)
  else if bits w 25 5 = 0 then .retire s (k.setVl (k.xr (iRs2 w)) fromReg rd)
  else .trap 2 0

/-! ### Registers and groups -/

/-- Element `i` of `n` bytes of the group at `r`. -/
def CoreSt.el (k : CoreSt) (r n i : Nat) : Nat := fld (k.vr ((r + i * n / 64) % 32)) (i * n % 64) n
def CoreSt.putEl (k : CoreSt) (r n i v : Nat) : CoreSt :=
  let q := (r + i * n / 64) % 32
  k.setV q (patch (k.vr q) (i * n % 64) (le n v))
/-- Mask bit `i` of register `r`. -/
def CoreSt.mbit (k : CoreSt) (r i : Nat) : Bool := bit (fld (k.vr r) (i / 8) 1) (i % 8)
def CoreSt.putMbit (k : CoreSt) (r i : Nat) (b : Bool) : CoreSt :=
  k.setV r (patch (k.vr r) (i / 8) (le 1 (putBit (fld (k.vr r) (i / 8) 1) (i % 8) b)))

/-- Registers of a group of multiplier `m8` eighths. -/
def groupRegs (m8 : Nat) : Nat := max 1 (m8 / 8)
/-- A group's register number is aligned, and its multiplier legal. -/
def groupOk (r m8 : Nat) : Bool := decide (1 ≤ m8 ∧ m8 ≤ 64) && r % groupRegs m8 == 0
def overlap (a na b nb : Nat) : Bool := decide (a < b + nb) && decide (b < a + na)
/-- A destination group of element width `de` may overlap a source group of width `se`: equal widths; a narrower destination
in the lowest part of the source; a wider destination with the source in its highest part. -/
def overlapOk (d dm de r rm se : Nat) : Bool :=
  !overlap d (groupRegs dm) r (groupRegs rm) || de == se ||
  (decide (de < se) && d == r) || (decide (se < de) && decide (8 ≤ rm) && r + groupRegs rm == d + groupRegs dm)

/-- What one vector instruction works with. -/
structure VCtx where
  k : CoreSt
  /-- SEW in bytes and LMUL in eighths. -/
  n : Nat
  m8 : Nat
  vl : Nat
  vstart : Nat
  vm : Bool
  vta : Bool
  vma : Bool
  /-- Bit i: an agnostic element i is filled with ones (V 1.0 leaves the choice open; log entry 40). -/
  fill : Nat

def State.vctx (s : State) (p c w : Nat) : VCtx :=
  let k := s.core p c
  ⟨k, sewOf k.vtype / 8, lmul8 k.vtype, k.vl, k.vstart, bit w 25, bit k.vtype 6, bit k.vtype 7, Config.free s.free⟩

/-- Element `i` is active. -/
def VCtx.on (x : VCtx) (i : Nat) : Bool := x.vm || x.k.mbit 0 i

/-- Results written to elements of `n` bytes of the group at `vd` of multiplier `m8`: body elements that are active take `f`;
agnostic elements keep their value or take ones; nothing is written when vstart is at or above vl. -/
def VCtx.write (x : VCtx) (vd n m8 : Nat) (act : Nat → Bool) (f : Nat → Nat) : CoreSt :=
  if x.vl ≤ x.vstart then x.k
  else
    let total := max (64 / n) (64 * m8 / (8 * n))
    (List.range total).foldl (fun k i =>
      if i < x.vstart then k
      else if i < x.vl then
        (if act i then k.putEl vd n i (f i) else if x.vma && bit x.fill i then k.putEl vd n i (2 ^ (8 * n) - 1) else k)
      else if x.vta && bit x.fill i then k.putEl vd n i (2 ^ (8 * n) - 1) else k) x.k

/-- Mask results written to `vd`; mask tails are agnostic always. -/
def VCtx.writeMask (x : VCtx) (vd : Nat) (act : Nat → Bool) (f : Nat → Bool) : CoreSt :=
  if x.vl ≤ x.vstart then x.k
  else (List.range 512).foldl (fun k i =>
      if i < x.vstart then k
      else if i < x.vl then
        (if act i then k.putMbit vd i (f i) else if x.vma && bit x.fill i then k.putMbit vd i true else k)
      else if bit x.fill i then k.putMbit vd i true else k) x.k

/-- A single element result at index 0 of `vd` (reductions, vmv.s.x): its tail is agnostic or undisturbed by vta. -/
def VCtx.writeScalar (x : VCtx) (vd n v : Nat) : CoreSt :=
  ({ x with vl := min 1 x.vl } : VCtx).write vd n 8 (fun _ => true) (fun _ => v)

/-- The instruction ends with vstart cleared. -/
def vdone (s : State) (k : CoreSt) : Did := .retire s.usedFree (k.setCsr 0x008 0)

/-- Flags of a list of element results are added. -/
def CoreSt.flagAll (k : CoreSt) (fl : List Nat) : CoreSt := k.addFlags (fl.foldl (· ||| ·) 0)

/-- vxsat is set when one of the elements saturated. -/
def CoreSt.satIf (k : CoreSt) (b : Bool) : CoreSt := if b then k.setCsr 0x00F (k.csrVal 0x00F ||| 1) else k

/-- The indices of active body elements. -/
def VCtx.body (x : VCtx) : List Nat := (List.range x.vl).filter (fun i => decide (x.vstart ≤ i) && x.on i)

/-! ### Loads and stores -/

/-- One element access: which register group, element index, address, whether it is active. -/
structure VAcc where
  reg : Nat
  idx : Nat
  addr : Nat
  /-- The body element it belongs to. -/
  elem : Nat
  deriving DecidableEq, Repr

/-- The first access that fails, with its cause. -/
def State.vFail (s : State) (p n mis : Nat) (l : List VAcc) : Option (VAcc × Nat) :=
  match l with
  | [] => none
  | a :: r => match s.dataAddr p a.addr n mis with
    | .error e => some (a, e)
    | .ok _ => s.vFail p n mis r

/-- Loads of elements of `n` bytes in order; nothing fails. -/
def State.vLoadAll (s : State) (p c n : Nat) (l : List VAcc) : State × List (VAcc × Nat) :=
  l.foldl (fun (a : State × List (VAcc × Nat)) x =>
    match a.1.dataAddr p x.addr n 4 with
    | .ok o => let (s, v) := a.1.coreLoad p c o n; (s, a.2 ++ [(x, v)])
    | .error _ => a) (s, [])

def State.vStoreAll (s : State) (p c n : Nat) (l : List (VAcc × Nat)) : State :=
  l.foldl (fun s x => match s.dataAddr p x.1.addr n 6 with
    | .ok o => s.plateStore p o (le n x.2) (some c)
    | .error _ => s) s

/-- Values loaded enter their registers; agnostic elements of each group may take ones. -/
def VCtx.fillLoads (x : VCtx) (vd n m8 nf vl : Nat) (l : List (VAcc × Nat)) : CoreSt :=
  let y : VCtx := { x with vl := vl }
  (List.range nf).foldl (fun k f =>
    let r := vd + f * groupRegs m8
    let here := l.filter (fun e => e.1.reg == r)
    ({ y with k := k } : VCtx).write r n m8 (fun i => here.any (fun e => e.1.elem == i))
      (fun i => ((here.find? (fun e => e.1.elem == i)).map (·.2)).getD 0)) x.k

/-- A vector load or store: unit-stride, strided, indexed, with segments; whole registers and masks; fault-only-first
(R207, R208). -/
def State.runVmem (s : State) (p c w : Nat) (store : Bool) : Did :=
  let x := s.vctx p c w
  let k := x.k
  let wn := match iF3 w with | 0 => 1 | 5 => 2 | 6 => 4 | _ => 8
  let nf := bits w 29 3 + 1
  let mop := bits w 26 2
  let base := k.xr (iRs1 w)
  let vd := iRd w
  let umop := iRs2 w
  let mis := if store then 6 else 4
  let adr := fun (o : Nat) => (base + o) % 2 ^ 64
  -- elements of `n` bytes in groups of `m8`, `cnt` of them, with the offset of element i
  let go := fun (n m8 cnt nf : Nat) (act : Nat → Bool) (ofs : Nat → Nat) (ff : Bool) =>
    let regs := groupRegs m8
    let idx := (List.range cnt).filter (fun i => decide (x.vstart ≤ i) && act i)
    let acc := idx.flatMap (fun i => (List.range nf).map (fun f => (⟨vd + f * regs, i, adr (ofs i + f * n), i⟩ : VAcc)))
    match s.vFail p n mis acc with
    | some (a, e) =>
      if ff && a.elem != 0 then
        let (s, l) := s.vLoadAll p c n (acc.filter (fun y => decide (y.elem < a.elem)))
        let k := ({ x with k := (s.core p c) } : VCtx).fillLoads vd n m8 nf a.elem l
        vdone s (k.setCsr 0xC20 a.elem)
      else Did.trap e a.addr
    | none =>
      if store then vdone (s.vStoreAll p c n (acc.map (fun y => (y, k.el y.reg n y.idx)))) k
      else
        let (s, l) := s.vLoadAll p c n acc
        vdone s (({ x with k := (s.core p c) } : VCtx).fillLoads vd n m8 nf cnt l)
  if bit w 28 then .trap 2 0
  else if mop = 0 ∧ umop = 8 then
    -- whole registers
    if !x.vm || !(nf == 1 || nf == 2 || nf == 4 || nf == 8) || vd % nf != 0 || (store && wn != 1) then .trap 2 0
    else
      let y : VCtx := { x with vl := nf * 64 / wn, vta := false, vma := false }
      let acc := ((List.range (nf * 64 / wn)).filter (fun i => decide (x.vstart ≤ i))).map (fun i => (⟨vd, i, adr (i * wn), i⟩ : VAcc))
      match s.vFail p wn mis acc with
      | some (a, e) => .trap e a.addr
      | none =>
        if store then vdone (s.vStoreAll p c wn (acc.map (fun a => (a, k.el vd wn a.idx)))) k
        else let (s, l) := s.vLoadAll p c wn acc
             vdone s (({ y with k := s.core p c } : VCtx).fillLoads vd wn (8 * nf) 1 (nf * 64 / wn) l)
  else if k.vill then .trap 2 0
  else if mop = 0 ∧ umop = 11 then
    if !x.vm || nf != 1 || wn != 1 then .trap 2 0
    else
      let cnt := (x.vl + 7) / 8
      let acc := ((List.range cnt).filter (fun i => decide (x.vstart ≤ i))).map (fun i => (⟨vd, i, adr i, i⟩ : VAcc))
      match s.vFail p 1 mis acc with
      | some (a, e) => .trap e a.addr
      | none =>
        if store then vdone (s.vStoreAll p c 1 (acc.map (fun a => (a, k.el vd 1 a.idx)))) k
        else let (s, l) := s.vLoadAll p c 1 acc
             vdone s (({ x with k := s.core p c, vta := true } : VCtx).fillLoads vd 1 8 1 cnt l)
  else if mop = 1 ∨ mop = 3 then
    -- indexed: the data have SEW, the indices the width of the encoding
    let im := wn * x.m8 / x.n
    if !groupOk vd x.m8 || wn * x.m8 % x.n != 0 || !groupOk umop im || 8 < nf * groupRegs x.m8 || 32 < vd + nf * groupRegs x.m8 ||
       (!store && ((!x.vm && vd == 0) || (nf == 1 && !overlapOk vd x.m8 x.n umop im wn) ||
         (nf != 1 && overlap vd (nf * groupRegs x.m8) umop (groupRegs im)))) then .trap 2 0
    else go x.n x.m8 x.vl nf x.on (fun i => k.el umop wn i) false
  else
    let m8 := wn * x.m8 / x.n
    let ff := mop == 0 && umop == 16
    if wn * x.m8 % x.n != 0 || !groupOk vd m8 || 8 < nf * groupRegs m8 || 32 < vd + nf * groupRegs m8 || (!store && !x.vm && vd == 0) ||
       (mop == 0 && umop != 0 && !(ff && !store)) then .trap 2 0
    else if mop = 2 then go wn m8 x.vl nf x.on (fun i => i * k.xr umop) false
    else go wn m8 x.vl nf x.on (fun i => i * nf * wn) ff

/-! ### Integer and fixed-point arithmetic -/

/-- A rounding increment of V 1.0 for a right shift by `d` of `v` (vxrm). -/
def vRound (vxrm v d : Nat) : Nat :=
  if d = 0 then 0
  else match vxrm with
  | 0 => (bit v (d - 1)).toNat
  | 1 => (bit v (d - 1) && (bits v 0 (d - 1) != 0 || bit v d)).toNat
  | 2 => 0
  | _ => (!bit v d && bits v 0 d != 0).toNat

/-- An arithmetic right shift with a rounding increment, of a signed number whose low bits are `v`. -/
def roundRight (vxrm : Nat) (i : Int) (d : Nat) : Int := i / 2 ^ d + vRound vxrm (toU 160 i) d

/-- Single-width OPI/OPM operations on `b`-bit operands: `x` is vs2's element, `y` vs1's, the scalar or the immediate. -/
def vIntOp (f6 : Nat) (m : Bool) (b x y : Nat) : Option Nat :=
  let sx := sext b x
  let sy := sext b y
  if m then
    match f6 with
    | 0x20 => some (divRem b false x y).1
    | 0x21 => some (divRem b true x y).1
    | 0x22 => some (divRem b false x y).2
    | 0x23 => some (divRem b true x y).2
    | 0x24 => some (x * y / 2 ^ b)
    | 0x25 => some (x * y)
    | 0x26 => some (toU b (sx * y / 2 ^ b))
    | 0x27 => some (toU b (sx * sy / 2 ^ b))
    | _ => none
  else
    match f6 with
    | 0x00 => some (x + y)
    | 0x02 => some (toU b ((x : Int) - y))
    | 0x03 => some (toU b ((y : Int) - x))
    | 0x04 => some (min x y)
    | 0x05 => some (if sx < sy then x else y)
    | 0x06 => some (max x y)
    | 0x07 => some (if sx < sy then y else x)
    | 0x09 => some (x &&& y)
    | 0x0A => some (x ||| y)
    | 0x0B => some (x ^^^ y)
    | 0x25 => some (x <<< (y % b))
    | 0x28 => some (x >>> (y % b))
    | 0x29 => some (toU b (sx / 2 ^ (y % b)))
    | _ => none

/-- Fixed-point operations: the result and whether it saturated. -/
def vFixOp (f6 : Nat) (m : Bool) (vxrm b x y : Nat) : Option (Nat × Bool) :=
  let sx := sext b x
  let sy := sext b y
  let satI := fun (i : Int) => (toU b (satS b i), !fitsS b i)
  if m then
    match f6 with
    | 0x08 => some (toU b (roundRight vxrm ((x : Int) + y) 1), false)
    | 0x09 => some (toU b (roundRight vxrm (sx + sy) 1), false)
    | 0x0A => some (toU b (roundRight vxrm ((x : Int) - y) 1), false)
    | 0x0B => some (toU b (roundRight vxrm (sx - sy) 1), false)
    | _ => none
  else
    match f6 with
    | 0x20 => some (min (x + y) (2 ^ b - 1), decide (2 ^ b ≤ x + y))
    | 0x21 => some (satI (sx + sy))
    | 0x22 => some (x - y, decide (x < y))
    | 0x23 => some (satI (sx - sy))
    | 0x27 => some (satI (roundRight vxrm (sx * sy) (b - 1)))
    | 0x2A => some ((x >>> (y % b)) + vRound vxrm x (y % b), false)
    | 0x2B => some (toU b (roundRight vxrm sx (y % b)), false)
    | _ => none

/-- Integer comparisons. -/
def vCmp (f6 b x y : Nat) : Option Bool :=
  match f6 with
  | 0x18 => some (x == y)
  | 0x19 => some (x != y)
  | 0x1A => some (decide (x < y))
  | 0x1B => some (decide (sext b x < sext b y))
  | 0x1C => some (decide (x ≤ y))
  | 0x1D => some (decide (sext b x ≤ sext b y))
  | 0x1E => some (decide (y < x))
  | 0x1F => some (decide (sext b y < sext b x))
  | _ => none

/-- Integer multiply-add on `b` bits: `d` the destination's element. -/
def vMacc (f6 b d x y : Nat) : Option Nat :=
  match f6 with
  | 0x29 => some ((y * d + x) % 2 ^ b)
  | 0x2B => some (toU b ((x : Int) - (y * d : Nat)))
  | 0x2D => some ((y * x + d) % 2 ^ b)
  | 0x2F => some (toU b ((d : Int) - (y * x : Nat)))
  | _ => none

/-- Widening operations on `b`-bit operands into 2b bits; `wide` says that vs2 is already wide; `d` the destination. -/
def vWide (f6 b x y d : Nat) : Option Nat :=
  let sx := sext b x
  let sy := sext b y
  let o := fun (i : Int) => some (toU (2 * b) i)
  match f6 with
  | 0x30 => o (x + y)
  | 0x31 => o (sx + sy)
  | 0x32 => o ((x : Int) - y)
  | 0x33 => o (sx - sy)
  | 0x34 => o (x + y)
  | 0x35 => o (sext (2 * b) x + sy)
  | 0x36 => o ((x : Int) - y)
  | 0x37 => o (sext (2 * b) x - sy)
  | 0x38 => o (x * y)
  | 0x3A => o (sx * y)
  | 0x3B => o (sx * sy)
  | 0x3C => o ((x * y : Nat) + (d : Int))
  | 0x3D => o (sx * sy + d)
  | 0x3E => o (sx * y + d)
  | 0x3F => o (sy * x + d)
  | _ => none

/-- An integer reduction step. -/
def vRedOp (f6 b a x : Nat) : Nat :=
  match f6 with
  | 0 => (a + x) % 2 ^ b
  | 1 => a &&& x
  | 2 => a ||| x
  | 3 => a ^^^ x
  | 4 => min a x
  | 5 => if sext b a < sext b x then a else x
  | 6 => max a x
  | _ => if sext b a < sext b x then x else a

/-- A whole vector instruction's second operand per element: vs1, the scalar, or the immediate. -/
def vOperand (k : CoreSt) (w n f3 : Nat) (signedImm : Bool) (i : Nat) : Nat :=
  match f3 with
  | 0 => k.el (iRs1 w) n i
  | 2 => k.el (iRs1 w) n i
  | 3 => if signedImm then toU (8 * n) (sext 5 (iRs1 w)) else iRs1 w
  | _ => k.xr (iRs1 w) % 2 ^ (8 * n)

/-- Slides, gathers and compress: the source element for destination `i`, zero beyond VLMAX. -/
def VCtx.pick (x : VCtx) (vs2 j : Nat) : Nat := if j < 64 * x.m8 / (8 * x.n) then x.k.el vs2 x.n j else 0

/-- Integer vector arithmetic: OPIVV, OPIVX, OPIVI (funct3 0, 4, 3). -/
def State.runVi (s : State) (p c w : Nat) : Did :=
  let x := s.vctx p c w
  let k := x.k
  let f6 := bits w 26 6
  let f3 := iF3 w
  let vd := iRd w
  let vs2 := iRs2 w
  let n := x.n
  let b := 8 * n
  let vv := f3 == 0
  let vi := f3 == 3
  let y := vOperand k w n f3 true
  let yu := vOperand k w n f3 false
  let vxrm := bits (k.csrVal 0x00F) 1 2
  let v1ok := !vv || groupOk (iRs1 w) x.m8
  let plain := groupOk vd x.m8 && groupOk vs2 x.m8 && v1ok && (x.vm || vd != 0)
  if f6 = 0x27 ∧ vi then
    let nr := iRs1 w + 1
    if !x.vm || !(nr == 1 || nr == 2 || nr == 4 || nr == 8) || vd % nr != 0 || vs2 % nr != 0 then .trap 2 0
    else
      let cnt := nr * 64 / n
      vdone s (((List.range cnt).filter (fun i => decide (x.vstart ≤ i))).foldl (fun q i => q.putEl vd n i (k.el vs2 n i)) k)
  else if k.vill then .trap 2 0
  else if f6 = 0x0C then
    let v1 := iRs1 w
    let bad := overlap vd (groupRegs x.m8) vs2 (groupRegs x.m8) || (vv && overlap vd (groupRegs x.m8) v1 (groupRegs x.m8))
    if !plain || bad then .trap 2 0
    else
      let idx := fun i => if vv then k.el v1 n i else if vi then v1 else k.xr v1
      vdone s (x.write vd n x.m8 x.on (fun i => x.pick vs2 (idx i)))
  else if f6 = 0x0E ∧ vv then
    -- vrgatherei16
    let m16 := 2 * x.m8 / n
    let v1 := iRs1 w
    if !(groupOk vd x.m8 && groupOk vs2 x.m8 && (x.vm || vd != 0)) || 2 * x.m8 % n != 0 || !groupOk v1 m16 ||
       overlap vd (groupRegs x.m8) vs2 (groupRegs x.m8) || overlap vd (groupRegs x.m8) v1 (groupRegs m16) then .trap 2 0
    else vdone s (x.write vd n x.m8 x.on (fun i => x.pick vs2 (k.el v1 2 i)))
  else if (f6 = 0x0E ∨ f6 = 0x0F) ∧ !vv then
    let ofs := if vi then iRs1 w else k.xr (iRs1 w)
    if !plain || (f6 == 0x0E && overlap vd (groupRegs x.m8) vs2 (groupRegs x.m8)) then .trap 2 0
    else if f6 = 0x0E then
      vdone s (x.write vd n x.m8 (fun i => x.on i || decide (i < ofs)) (fun i => if i < ofs then k.el vd n i else k.el vs2 n (i - ofs)))
    else vdone s (x.write vd n x.m8 x.on (fun i => x.pick vs2 (i + ofs)))
  else if f6 = 0x10 ∨ f6 = 0x12 then
    if x.vm || vd = 0 || !groupOk vd x.m8 || !groupOk vs2 x.m8 || !v1ok || (f6 == 0x12 && vi) then .trap 2 0
    else vdone s (x.write vd n x.m8 (fun _ => true) (fun i =>
      let q := (k.mbit 0 i).toNat
      toU b (if f6 = 0x10 then (k.el vs2 n i : Int) + y i + q else (k.el vs2 n i : Int) - y i - q)))
  else if f6 = 0x11 ∨ f6 = 0x13 then
    if !groupOk vs2 x.m8 || !v1ok || (f6 == 0x13 && vi) || !overlapOk vd 8 0 vs2 x.m8 1 || (vv && !overlapOk vd 8 0 (iRs1 w) x.m8 1)
    then .trap 2 0
    else vdone s (x.writeMask vd (fun _ => true) (fun i =>
      let q := if x.vm then 0 else (k.mbit 0 i).toNat
      if f6 = 0x11 then decide (2 ^ b ≤ k.el vs2 n i + y i + q) else decide (k.el vs2 n i < y i + q)))
  else if f6 = 0x17 then
    if x.vm then
      (if vs2 ≠ 0 || !groupOk vd x.m8 || !v1ok then .trap 2 0 else vdone s (x.write vd n x.m8 (fun _ => true) y))
    else if vd = 0 || !groupOk vd x.m8 || !groupOk vs2 x.m8 || !v1ok then .trap 2 0
    else vdone s (x.write vd n x.m8 (fun _ => true) (fun i => if k.mbit 0 i then y i else k.el vs2 n i))
  else if 0x18 ≤ f6 ∧ f6 ≤ 0x1F then
    if ((f6 == 0x1A || f6 == 0x1B) && vi) || ((f6 == 0x1E || f6 == 0x1F) && vv) || !groupOk vs2 x.m8 || !v1ok ||
       !overlapOk vd 8 0 vs2 x.m8 1 || (vv && !overlapOk vd 8 0 (iRs1 w) x.m8 1) then .trap 2 0
    else vdone s (x.writeMask vd x.on (fun i => (vCmp f6 b (k.el vs2 n i) (y i)).getD false))
  else if 0x2C ≤ f6 ∧ f6 ≤ 0x2F then
    -- narrowing shifts and clips: vs2 has twice SEW
    if 4 < n || !groupOk vd x.m8 || !groupOk vs2 (2 * x.m8) || !v1ok || (!x.vm && vd == 0) ||
       !overlapOk vd x.m8 1 vs2 (2 * x.m8) 2 then .trap 2 0
    else
      let sh := fun i => yu i % (2 * b)
      let wide := fun i => k.el vs2 (2 * n) i
      if f6 ≤ 0x2D then
        vdone s (x.write vd n x.m8 x.on (fun i =>
          if f6 = 0x2C then wide i >>> sh i else toU b (sext (2 * b) (wide i) / 2 ^ sh i)))
      else
        let r := fun i => if f6 = 0x2E then (((wide i >>> sh i) + vRound vxrm (wide i) (sh i) : Nat) : Int)
                          else roundRight vxrm (sext (2 * b) (wide i)) (sh i)
        let ok := fun i => if f6 = 0x2E then decide (r i < 2 ^ b) else fitsS b (r i)
        let out := fun i => if f6 = 0x2E then (min (r i) (2 ^ b - 1)).toNat else toU b (satS b (r i))
        vdone s ((x.write vd n x.m8 x.on out).satIf (x.body.any (fun i => !ok i)))
  else if f6 = 0x30 ∨ f6 = 0x31 then
    -- widening reductions
    if !vv || 4 < n || !groupOk vs2 x.m8 then .trap 2 0
    else if x.vl = 0 then vdone s k
    else
      let start := k.el (iRs1 w) (2 * n) 0
      let sum := x.body.foldl (fun a i => a + (if f6 = 0x30 then k.el vs2 n i else toU (2 * b) (sext b (k.el vs2 n i)))) start
      vdone s (x.writeScalar vd (2 * n) (sum % 2 ^ (2 * b)))
  else
    let immShift := f6 == 0x25 || f6 == 0x28 || f6 == 0x29 || f6 == 0x2A || f6 == 0x2B
    let q := if immShift then yu else y
    let formOk := match f6 with
      | 0x02 => !vi
      | 0x03 => !vv
      | 0x04 => !vi
      | 0x05 => !vi
      | 0x06 => !vi
      | 0x07 => !vi
      | 0x22 => !vi
      | 0x23 => !vi
      | _ => true
    if !plain || !formOk then .trap 2 0
    else if (vIntOp f6 false b 0 0).isSome then
      vdone s (x.write vd n x.m8 x.on (fun i => (vIntOp f6 false b (k.el vs2 n i) (q i)).getD 0))
    else if (vFixOp f6 false vxrm b 0 0).isSome then
      let r := fun i => (vFixOp f6 false vxrm b (k.el vs2 n i) (q i)).getD (0, false)
      vdone s ((x.write vd n x.m8 x.on (fun i => (r i).1)).satIf (x.body.any (fun i => (r i).2)))
    else .trap 2 0

/-- Mask register logic by funct6. -/
def maskLogic (f6 : Nat) (a b : Bool) : Bool :=
  match f6 with
  | 0x18 => a && !b
  | 0x19 => a && b
  | 0x1A => a || b
  | 0x1B => a != b
  | 0x1C => a || !b
  | 0x1D => !(a && b)
  | 0x1E => !(a || b)
  | _ => a == b

/-- OPMVV and OPMVX (funct3 2, 6). -/
def State.runVm (s : State) (p c w : Nat) : Did :=
  let x := s.vctx p c w
  let k := x.k
  let f6 := bits w 26 6
  let vv := iF3 w == 2
  let vd := iRd w
  let vs2 := iRs2 w
  let v1 := iRs1 w
  let n := x.n
  let b := 8 * n
  let y := vOperand k w n (iF3 w) true
  let v1ok := !vv || groupOk v1 x.m8
  let plain := groupOk vd x.m8 && groupOk vs2 x.m8 && v1ok && (x.vm || vd != 0)
  let vxrm := bits (k.csrVal 0x00F) 1 2
  if k.vill then .trap 2 0
  else if vv && decide (f6 ≤ 7) then
    if !groupOk vs2 x.m8 || x.vstart != 0 then .trap 2 0
    else if x.vl = 0 then vdone s k
    else vdone s (x.writeScalar vd n (x.body.foldl (fun a i => vRedOp f6 b a (k.el vs2 n i)) (k.el v1 n 0)))
  else if f6 = 0x10 then
    if vv then
      match v1 with
      | 0 => if x.vm then vdone s (k.setX vd (toU 64 (sext b (k.el vs2 n 0)))) else .trap 2 0
      | 16 => if x.vstart ≠ 0 then .trap 2 0 else vdone s (k.setX vd (x.body.filter (fun i => k.mbit vs2 i)).length)
      | 17 => if x.vstart ≠ 0 then .trap 2 0
              else vdone s (k.setX vd (match x.body.find? (fun i => k.mbit vs2 i) with | some i => i | none => 2 ^ 64 - 1))
      | _ => .trap 2 0
    else if vs2 ≠ 0 || !x.vm then .trap 2 0
    else vdone s (if x.vl ≤ x.vstart then k else x.writeScalar vd n (k.xr v1 % 2 ^ b))
  else if f6 = 0x12 then
    let d := match v1 with | 2 => 8 | 3 => 8 | 4 => 4 | 5 => 4 | 6 => 2 | 7 => 2 | _ => 0
    if !vv || d = 0 || n % d != 0 || x.m8 % d != 0 then .trap 2 0
    else if !groupOk vd x.m8 || !groupOk vs2 (x.m8 / d) || (!x.vm && vd == 0) || !overlapOk vd x.m8 2 vs2 (x.m8 / d) 1 then .trap 2 0
    else vdone s (x.write vd n x.m8 x.on (fun i =>
      let e := k.el vs2 (n / d) i
      if v1 % 2 = 0 then e else toU b (sext (b / d) e)))
  else if f6 = 0x14 then
    if !vv then .trap 2 0
    else
      let before := fun i => ((List.range i).filter (fun j => x.on j && k.mbit vs2 j)).length
      match v1 with
      | 16 =>
        if x.vstart ≠ 0 || !groupOk vd x.m8 || (!x.vm && vd == 0) || overlap vd (groupRegs x.m8) vs2 1 then .trap 2 0
        else vdone s (x.write vd n x.m8 x.on before)
      | 17 => if vs2 ≠ 0 || !groupOk vd x.m8 || (!x.vm && vd == 0) then .trap 2 0 else vdone s (x.write vd n x.m8 x.on (fun i => i))
      | _ =>
        if x.vstart ≠ 0 || vd = vs2 || (!x.vm && vd == 0) then .trap 2 0
        else match v1 with
        | 1 => vdone s (x.writeMask vd x.on (fun i => before i == 0 && !k.mbit vs2 i))
        | 2 => vdone s (x.writeMask vd x.on (fun i => before i == 0 && k.mbit vs2 i))
        | 3 => vdone s (x.writeMask vd x.on (fun i => before i == 0))
        | _ => .trap 2 0
  else if f6 = 0x17 then
    if !vv || !x.vm || x.vstart != 0 || !groupOk vd x.m8 || !groupOk vs2 x.m8 || overlap vd (groupRegs x.m8) vs2 (groupRegs x.m8) ||
       overlap vd (groupRegs x.m8) v1 1 then .trap 2 0
    else
      let l := (List.range x.vl).filter (fun i => k.mbit v1 i)
      let y : VCtx := { x with vl := l.length }
      vdone s (if x.vl = 0 then k else y.write vd n x.m8 (fun _ => true) (fun i => k.el vs2 n (l.getD i 0)))
  else if vv && decide (0x18 ≤ f6 ∧ f6 ≤ 0x1F) then
    if !x.vm then .trap 2 0 else vdone s (x.writeMask vd (fun _ => true) (fun i => maskLogic f6 (k.mbit vs2 i) (k.mbit v1 i)))
  else if (f6 = 0x0E ∨ f6 = 0x0F) ∧ !vv then
    let v := k.xr v1 % 2 ^ b
    if !plain || (f6 == 0x0E && overlap vd (groupRegs x.m8) vs2 (groupRegs x.m8)) then .trap 2 0
    else if f6 = 0x0E then vdone s (x.write vd n x.m8 x.on (fun i => if i = 0 then v else k.el vs2 n (i - 1)))
    else vdone s (x.write vd n x.m8 x.on (fun i => if i + 1 = x.vl then v else x.pick vs2 (i + 1)))
  else if 0x30 ≤ f6 then
    let wide2 := decide (0x34 ≤ f6 ∧ f6 ≤ 0x37)
    let bad := 4 < n || !groupOk vd (2 * x.m8) || !v1ok || (!x.vm && vd == 0) || (f6 == 0x3E && vv) ||
      (vv && !overlapOk vd (2 * x.m8) 2 v1 x.m8 1) ||
      (if wide2 then !groupOk vs2 (2 * x.m8) else !groupOk vs2 x.m8 || !overlapOk vd (2 * x.m8) 2 vs2 x.m8 1)
    if bad || (vWide f6 b 0 0 0).isNone then .trap 2 0
    else vdone s (x.write vd (2 * n) (2 * x.m8) x.on (fun i =>
      (vWide f6 b (k.el vs2 (if wide2 then 2 * n else n) i) (y i) (k.el vd (2 * n) i)).getD 0))
  else if !plain then .trap 2 0
  else if (vMacc f6 b 0 0 0).isSome then
    vdone s (x.write vd n x.m8 x.on (fun i => (vMacc f6 b (k.el vd n i) (k.el vs2 n i) (y i)).getD 0))
  else if (vIntOp f6 true b 0 0).isSome then
    vdone s (x.write vd n x.m8 x.on (fun i => (vIntOp f6 true b (k.el vs2 n i) (y i)).getD 0))
  else match vFixOp f6 true vxrm b 0 0 with
  | some _ => vdone s (x.write vd n x.m8 x.on (fun i => ((vFixOp f6 true vxrm b (k.el vs2 n i) (y i)).getD (0, false)).1))
  | none => .trap 2 0

/-! ### Floating point -/

/-- Two-operand FP operations by funct6. -/
def vFpOp (f6 rm x y : Nat) : Option (Nat × Nat) :=
  match f6 with
  | 0x00 => some (fpAdd rm x y)
  | 0x02 => some (fpSub rm x y)
  | 0x04 => some (fpMin x y)
  | 0x06 => some (fpMax x y)
  | 0x08 => some (fpSgnj 0 x y, 0)
  | 0x09 => some (fpSgnj 1 x y, 0)
  | 0x0A => some (fpSgnj 2 x y, 0)
  | 0x20 => some (fpDiv rm x y)
  | 0x21 => some (fpDiv rm y x)
  | 0x24 => some (fpMul rm x y)
  | 0x27 => some (fpSub rm y x)
  | _ => none

/-- Fused operations by funct6: `d` the destination's element. -/
def vFpFma (f6 rm d x y : Nat) : Option (Nat × Nat) :=
  match f6 with
  | 0x28 => some (fpFma rm false false y d x)
  | 0x29 => some (fpFma rm true true y d x)
  | 0x2A => some (fpFma rm false true y d x)
  | 0x2B => some (fpFma rm true false y d x)
  | 0x2C => some (fpFma rm false false y x d)
  | 0x2D => some (fpFma rm true true y x d)
  | 0x2E => some (fpFma rm false true y x d)
  | 0x2F => some (fpFma rm true false y x d)
  | _ => none

/-- FP comparisons by funct6. -/
def vFpCmp (f6 x y : Nat) : Option (Bool × Nat) :=
  match f6 with
  | 0x18 => some (fpEq x y)
  | 0x19 => some (fpLe x y)
  | 0x1B => some (fpLt x y)
  | 0x1C => some (!(fpEq x y).1, (fpEq x y).2)
  | 0x1D => some (fpLt y x)
  | 0x1F => some (fpLe y x)
  | _ => none

/-- Conversions of VFUNARY0 by vs1: source bytes, destination bytes as multiples of SEW's quarter, and the function. -/
def vFpCvt (v1 n rm e : Nat) : Option (Nat × Nat) :=
  let int := fun (w : Nat) (signed : Bool) (m : Nat) =>
    let r := if signed then fpToInt m (-(2 ^ (w - 1))) (2 ^ (w - 1) - 1) e else fpToInt m 0 (2 ^ w - 1) e
    some (toU w r.1, r.2)
  match v1 with
  | 0 => if n = 4 then int 32 false rm else none
  | 1 => if n = 4 then int 32 true rm else none
  | 2 => if n = 4 then some (fpOfInt rm e) else none
  | 3 => if n = 4 then some (fpOfInt rm (sext 32 e)) else none
  | 6 => if n = 4 then int 32 false 1 else none
  | 7 => if n = 4 then int 32 true 1 else none
  | 8 => if n = 4 then int 64 false rm else none
  | 9 => if n = 4 then int 64 true rm else none
  | 10 => if n = 2 then some (fpOfInt rm e) else none
  | 11 => if n = 2 then some (fpOfInt rm (sext 16 e)) else none
  | 13 => if n = 2 then some (bf16To32 e) else none
  | 14 => if n = 4 then int 64 false 1 else none
  | 15 => if n = 4 then int 64 true 1 else none
  | 16 => if n = 2 then int 16 false rm else none
  | 17 => if n = 2 then int 16 true rm else none
  | 18 => if n = 4 then some (fpOfInt rm e) else none
  | 19 => if n = 4 then some (fpOfInt rm (sext 64 e)) else none
  | 22 => if n = 2 then int 16 false 1 else none
  | 23 => if n = 2 then int 16 true 1 else none
  | 29 => if n = 2 then some (bf16Of32 rm e) else none
  | _ => none

/-- An FP reduction in order over the active elements. -/
def fpFold (f : Nat → Nat → Nat × Nat) (start : Nat) (l : List Nat) : Nat × Nat :=
  l.foldl (fun a e => let r := f a.1 e; (r.1, a.2 ||| r.2)) (start, 0)

/-- The BF16 operand in the low half of an f register; a pattern that is not NaN-boxed is the canonical NaN. -/
def bf16Scalar (v : Nat) : Nat := if v / 2 ^ 16 = 0xFFFF then v % 2 ^ 16 else 0x7FC0

/-- OPFVV and OPFVF (funct3 1, 5). -/
def State.runVf (s : State) (p c w : Nat) : Did :=
  let x := s.vctx p c w
  let k := x.k
  let f6 := bits w 26 6
  let vv := iF3 w == 1
  let vd := iRd w
  let vs2 := iRs2 w
  let v1 := iRs1 w
  let n := x.n
  let y := fun i => if vv then k.el v1 4 i else k.fr v1
  let v1ok := !vv || groupOk v1 x.m8
  let plain := groupOk vd x.m8 && groupOk vs2 x.m8 && v1ok && (x.vm || vd != 0)
  let put := fun (r : Nat → Nat × Nat) => vdone s ((x.write vd 4 x.m8 x.on (fun i => (r i).1)).flagAll (x.body.map (fun i => (r i).2)))
  match k.vill, k.rm 7 with
  | false, some rm =>
    if f6 = 0x12 ∧ vv then
      -- conversions: widths of source and destination by group of eight codes
      let sn := if 16 ≤ v1 then 2 * n else n
      let dn := if 8 ≤ v1 ∧ v1 < 16 then 2 * n else n
      let sm := if 16 ≤ v1 then 2 * x.m8 else x.m8
      let dm := if 8 ≤ v1 ∧ v1 < 16 then 2 * x.m8 else x.m8
      if (vFpCvt v1 n rm 0).isNone || !groupOk vd dm || !groupOk vs2 sm || (!x.vm && vd == 0) || !overlapOk vd dm dn vs2 sm sn then .trap 2 0
      else
        let r := fun i => (vFpCvt v1 n rm (k.el vs2 sn i)).getD (0, 0)
        vdone s ((x.write vd dn dm x.on (fun i => (r i).1)).flagAll (x.body.map (fun i => (r i).2)))
    else if f6 = 0x3B then
      -- vfwmaccbf16
      if n ≠ 2 || !groupOk vd (2 * x.m8) || !groupOk vs2 x.m8 || !v1ok || (!x.vm && vd == 0) ||
         !overlapOk vd (2 * x.m8) 2 vs2 x.m8 1 || (vv && !overlapOk vd (2 * x.m8) 2 v1 x.m8 1) then .trap 2 0
      else
        let z := fun i => if vv then k.el v1 2 i else bf16Scalar (k.fr v1)
        let widen := fun e => e * 2 ^ 16
        let r := fun i => fpFma rm false false (widen (z i)) (widen (k.el vs2 2 i)) (k.el vd 4 i)
        vdone s ((x.write vd 4 (2 * x.m8) x.on (fun i => (r i).1)).flagAll (x.body.map (fun i => (r i).2)))
    else if n ≠ 4 then .trap 2 0
    else if f6 = 0x13 ∧ vv then
      let r := fun i =>
        let e := k.el vs2 4 i
        match v1 with
        | 0 => some (fpSqrt rm e)
        | 4 => some (fpRsqrt7 e)
        | 5 => some (fpRec7 rm e)
        | 16 => some (fpClass e, 0)
        | _ => none
      if !(groupOk vd x.m8 && groupOk vs2 x.m8 && (x.vm || vd != 0)) || (r 0).isNone then .trap 2 0 else put (fun i => (r i).getD (0, 0))
    else if f6 = 0x10 then
      if vv then (if v1 = 0 ∧ x.vm then vdone s (k.setF vd (k.el vs2 4 0)) else .trap 2 0)
      else if vs2 = 0 ∧ x.vm then vdone s (if x.vl ≤ x.vstart then k else x.writeScalar vd 4 (k.fr v1))
      else .trap 2 0
    else if (f6 = 0x0E ∨ f6 = 0x0F) ∧ !vv then
      if !plain || (f6 == 0x0E && overlap vd (groupRegs x.m8) vs2 (groupRegs x.m8)) then .trap 2 0
      else if f6 = 0x0E then vdone s (x.write vd 4 x.m8 x.on (fun i => if i = 0 then k.fr v1 else k.el vs2 4 (i - 1)))
      else vdone s (x.write vd 4 x.m8 x.on (fun i => if i + 1 = x.vl then k.fr v1 else x.pick vs2 (i + 1)))
    else if f6 = 0x17 ∧ !vv then
      if x.vm then (if vs2 ≠ 0 || !groupOk vd x.m8 then .trap 2 0 else vdone s (x.write vd 4 x.m8 (fun _ => true) (fun _ => k.fr v1)))
      else if vd = 0 || !groupOk vd x.m8 || !groupOk vs2 x.m8 then .trap 2 0
      else vdone s (x.write vd 4 x.m8 (fun _ => true) (fun i => if k.mbit 0 i then k.fr v1 else k.el vs2 4 i))
    else if 0x18 ≤ f6 ∧ f6 ≤ 0x1F then
      if (vFpCmp f6 0 0).isNone || ((f6 == 0x1D || f6 == 0x1F) && vv) || !groupOk vs2 x.m8 || !v1ok || !overlapOk vd 8 0 vs2 x.m8 1 ||
         (vv && !overlapOk vd 8 0 v1 x.m8 1) then .trap 2 0
      else
        let r := fun i => (vFpCmp f6 (k.el vs2 4 i) (y i)).getD (false, 0)
        vdone s ((x.writeMask vd x.on (fun i => (r i).1)).flagAll (x.body.map (fun i => (r i).2)))
    else if vv && (f6 == 1 || f6 == 3 || f6 == 5 || f6 == 7) then
      if !groupOk vs2 x.m8 || x.vstart != 0 then .trap 2 0
      else if x.vl = 0 then vdone s k
      else
        let l := x.body.map (fun i => k.el vs2 4 i)
        let start := k.el v1 4 0
        let r := match f6 with
          | 1 => let u := Config.unorderedSum rm start l; (u % 2 ^ 32, u / 2 ^ 32 % 32)
          | 3 => fpFold (fpAdd rm) start l
          | 5 => fpFold fpMin start l
          | _ => fpFold fpMax start l
        vdone s ((x.writeScalar vd 4 r.1).addFlags r.2)
    else if !plain || ((f6 == 0x21 || f6 == 0x27) && vv) then .trap 2 0
    else if (vFpFma f6 rm 0 0 0).isSome then put (fun i => (vFpFma f6 rm (k.el vd 4 i) (k.el vs2 4 i) (y i)).getD (0, 0))
    else if (vFpOp f6 rm 0 0).isSome then put (fun i => (vFpOp f6 rm (k.el vs2 4 i) (y i)).getD (0, 0))
    else .trap 2 0
  | _, _ => .trap 2 0

/-- OP-V by funct3. -/
def State.runOpV (s : State) (p c w : Nat) : Did :=
  match iF3 w with
  | 0 => s.runVi p c w
  | 1 => s.runVf p c w
  | 2 => s.runVm p c w
  | 3 => s.runVi p c w
  | 4 => s.runVi p c w
  | 5 => s.runVf p c w
  | 6 => s.runVm p c w
  | _ => s.runVset p c w

end Sys2Proof.Machine
end

