-- ==== Sys2Proof/Machine/Needle.lean ====
section
/-! DEFINITION. Needle-core commands: standard instructions, exit, and the Xneedle extension (R205 to R227). -/

namespace Sys2Proof.Machine

/-! ### Exit (R194, R212) -/

/-- ECALL: a plate program's core ends with its exit value, or raises exception 8 (R212); in the runtime it is the standard
exception 11. -/
def State.ecall (s : State) (p c : Nat) : State :=
  let k := s.core p c
  if k.machine then s.trap p c 11
  else if k.xr 17 ≠ 0 then s.trap p c 8
  else
    let s := (s.setCore p c { k with running := false, exited := true, exitVal := k.xr 10, hold := none }).bump
      Reg.NDL_CORE_CNT_RETIRED (s.ndl p c)
    (s.showCore p c).showCores p

/-- The launch that runs on a plate may use a sync object (R369). -/
def State.coreMayUse (s : State) (p o : Nat) : Bool :=
  match s.runningOn p with | some (j, _) => s.mayUse j.part o | none => false

/-- The exception of an object not granted (R369, Table NDL-2). -/
def State.trapObject (s : State) (p c o : Nat) : State := (s.bump Reg.SYN_CNT_GRANT_REFUSALS).trap p c 26 o

/-! ### Sync instructions (R219, R369) -/

/-- xn.sig adds x[rs2][31:0] to object x[rs1][15:0] once the core's earlier accesses are visible (R210). -/
def State.xnSig (s : State) (p c rs1 rs2 : Nat) : State :=
  let k := s.core p c
  let o := k.xr rs1 % 65536
  if !s.coreMayUse p o then s.trapObject p c o
  else
    let taint := match s.runningOn p with | some (j, _) => j.taint | none => []
    (s.retire p c k 4).signal o (k.xr rs2 % 2 ^ 32) taint

/-- xn.sread (Table NDL-5). -/
def State.xnSread (s : State) (p c rd rs1 : Nat) : State :=
  let k := s.core p c
  let o := k.xr rs1 % 65536
  if !s.coreMayUse p o then s.trapObject p c o else s.retire p c (k.setX rd (s.obj o).value) 4

/-- An xn.wait on object `o` is satisfied: the launch of plate `p` absorbs the object's taint (R433). -/
def State.waited (s : State) (p o : Nat) : State :=
  match s.runningOn p with
  | some (j, _) => s.absorb j.id (s.obj o).taint
  | none => s

/-- A held xn.wait completes with 0 once the object has reached the value, with 1 once its deadline has come (R219). -/
def State.waitEnd (s : State) (p c : Nat) : State :=
  let k := s.core p c
  match k.hold with
  | some (.wait o v d rd) =>
    if s.reached o v then (s.retire p c (k.setX rd 0) 4).waited p o
    else match d with
    | some t => if t ≤ s.dt64 then s.retire p c (k.setX rd 1) 4 else s
    | none => s
  | _ => s

/-- xn.wait: a timeout field of zero tests once; otherwise the core is held until the value or the deadline, which stands
from the first execution: executed again from the start after a trap or a pre-emption, it keeps that deadline (R214, R219).
Bits [63:48] of x[rs1] that are not zero make the instruction illegal (log entry 41). -/
def State.xnWait (s : State) (p c rd rs1 rs2 : Nat) : State :=
  let k := s.core p c
  let a := k.xr rs1
  let o := a % 65536
  let us := bits a 16 32
  let till := match k.waitTill with
    | some (pc, d) => if pc = k.pc then d else s.dt64 + us * 1000
    | none => s.dt64 + us * 1000
  if bits a 48 16 ≠ 0 then s.trap p c 2
  else if !s.coreMayUse p o then s.trapObject p c o
  else match k.hold with
  | some _ => s.waitEnd p c
  | none =>
    if s.reached o (k.xr rs2) then (s.retire p c (k.setX rd 0) 4).waited p o
    else if us = 0 ∨ till ≤ s.dt64 then s.retire p c (k.setX rd 1) 4
    else (s.setCore p c { k with waitTill := some (k.pc, till) }).holdCore p c (.wait o (k.xr rs2) (some till) rd)

/-- A core is held in xn.wait. -/
def isWait (h : Hold) : Bool := match h with | .wait _ _ _ _ => true | _ => false

/-! ### CRC, curves, softmax helpers (R216, R217, R221 to R224) -/

/-- The conditions of R216 hold: vm = 1, vstart = 0, vill = 0, and SEW = 32 unless `any`. -/
def CoreSt.vecOk (k : CoreSt) (vm any : Bool) : Bool :=
  vm && k.vstart == 0 && !k.vill && (any || sewOf k.vtype == 32)

/-- Elements 0 to vl - 1 of an FP32 group. -/
def CoreSt.elems (k : CoreSt) (r : Nat) : List Nat := (List.range k.vl).map (k.el r 4)

/-- FP32 results into a group; elements from vl on are undisturbed (R217). -/
def CoreSt.putElems (k : CoreSt) (r : Nat) (l : List Nat) : CoreSt := l.zipIdx.foldl (fun q e => q.putEl r 4 e.2 e.1) k

/-- xn.vcrc (R221). -/
def State.xnVcrc (s : State) (p c : Nat) (vm : Bool) (rd vs2 rs1 : Nat) : State :=
  let k := s.core p c
  let n := sewOf k.vtype / 8
  if !k.vecOk vm true || !groupOk vs2 (lmul8 k.vtype) then s.trap p c 2
  else if k.vl = 0 then s.retire p c (k.setX rd (k.xr rs1)) 4
  else s.retire p c (k.setX rd (crc64Ext (k.xr rs1) ((List.range k.vl).flatMap (fun i => le n (k.el vs2 n i))))) 4

/-- xn.vexpd (R223). -/
def State.xnVexpd (s : State) (p c : Nat) (vm : Bool) (vd vs2 rs1 : Nat) : State :=
  let k := s.core p c
  if !k.vecOk vm false || !groupOk vs2 (lmul8 k.vtype) || !groupOk vd (lmul8 k.vtype) then s.trap p c 2
  else s.retire p c (k.putElems vd ((k.elems vs2).map (fun e => xexp (sub32 e (k.fr rs1))))) 4

/-- xn.vcurve (R222). -/
def State.xnVcurve (s : State) (p c : Nat) (vm : Bool) (vd vs2 rs1 : Nat) : State :=
  let k := s.core p c
  if !k.vecOk vm false || !groupOk vs2 (lmul8 k.vtype) || !groupOk vd (lmul8 k.vtype) then s.trap p c 2
  else match s.ownLm p c (k.xr rs1) 8 2064 with
  | none => s.trap p c 5 (k.xr rs1)
  | some o =>
    let t := s.plateRead p (s.lmOfs p c o) 2064
    s.retire p c (k.putElems vd ((k.elems vs2).map (curve t))) 4

/-- The larger of two FP32 patterns, -0 below +0; a NaN gives the canonical NaN (R224). -/
def maxNan (a b : Nat) : Nat := if isNaN a || isNaN b then qnan else if fpLtZero a b then b else a

/-- xn.vrmax (R216, R224). -/
def State.xnVrmax (s : State) (p c : Nat) (vm : Bool) (rd vs2 rs1 : Nat) : State :=
  let k := s.core p c
  if !k.vecOk vm false || !groupOk vs2 (lmul8 k.vtype) then s.trap p c 2
  else s.retire p c (k.setF rd ((k.elems vs2).foldl maxNan (k.fr rs1))) 4

/-! ### Conversions (R225 to R227) -/

/-- Bits of an element of format F. -/
def fmtBits (f : Nat) : Nat := match f with | 0 => 16 | 3 => 4 | _ => 8

/-- s of a conversion: x[rs1][7:0], or 127 when rs1 is x0. -/
def CoreSt.scaleOf (k : CoreSt) (rs1 : Nat) : Nat := if rs1 = 0 then 127 else k.xr rs1 % 256

/-- An FP32 pattern narrowed to format F under scale s, and whether NV is set (R225). -/
def narrowTo (f sc v : Nat) : Nat × Bool :=
  let x := (f32 v).scale (127 - (sc : Int))
  let nan := isNaN v
  if sc = 255 then (match f with | 0 => bf16.nanCode | 1 => e4m3.nanCode | 2 => e5m2.nanCode | _ => 0, false)
  else match f with
  | 0 => (bf16.encode x, false)
  | 1 => (e4m3.encode x, false)
  | 2 => (e5m2.encode x, false)
  | 3 => if nan then (0, true) else (e2m1.encode x, false)
  | _ =>
    match x with
    | .nan => (0, true)
    | .inf neg => (if neg then 0x80 else 0x7F, false)
    | y => (toU 8 (satS 8 (((y.scale 6).roundInt).getD 0)), false)

/-- An element of format F widened to FP32 under scale s (R226). -/
def widenFrom (f sc v : Nat) : Nat :=
  if sc = 255 then qnan
  else
    let x := match f with
      | 0 => bf16.decode v
      | 1 => e4m3.decode v
      | 2 => e5m2.decode v
      | 3 => e2m1.decode v
      | _ => (ofInt (sext 8 v)).scale (-6)
    rne32 (x.scale ((sc : Int) - 127))

/-- Element `i` of a packed group of `b`-bit elements, low nibble first (R166). -/
def CoreSt.packed (k : CoreSt) (r b i : Nat) : Nat := if b = 4 then bits (k.el r 1 (i / 2)) (i % 2 * 4) 4 else k.el r (b / 8) i
def CoreSt.putPacked (k : CoreSt) (r b i v : Nat) : CoreSt :=
  if b = 4 then k.putEl r 1 (i / 2) (putBits (k.el r 1 (i / 2)) (i % 2 * 4) 4 v) else k.putEl r (b / 8) i v

/-- The group of a packed operand. -/
def packedOk (r m8 b : Nat) : Bool := r % groupRegs (m8 * b / 32) == 0

/-- xn.vncvt.F (R225). -/
def State.xnVncvt (s : State) (p c : Nat) (vm : Bool) (f vd vs2 rs1 : Nat) : State :=
  let k := s.core p c
  let m8 := lmul8 k.vtype
  if !k.vecOk vm false || !groupOk vs2 m8 || !packedOk vd m8 (fmtBits f) then s.trap p c 2
  else
    let r := (k.elems vs2).map (narrowTo f (k.scaleOf rs1))
    let q := r.zipIdx.foldl (fun q e => q.putPacked vd (fmtBits f) e.2 e.1.1) k
    s.retire p c (q.addFlags (if r.any (·.2) then fNV else 0)) 4

/-- xn.vwcvt.F (R226). -/
def State.xnVwcvt (s : State) (p c : Nat) (vm : Bool) (f vd vs2 rs1 : Nat) : State :=
  let k := s.core p c
  let m8 := lmul8 k.vtype
  if !k.vecOk vm false || !groupOk vd m8 || !packedOk vs2 m8 (fmtBits f) then s.trap p c 2
  else s.retire p c (k.putElems vd ((List.range k.vl).map (fun i => widenFrom f (k.scaleOf rs1) (k.packed vs2 (fmtBits f) i)))) 4

/-- emax of a format (R227). -/
def emaxOf (f : Nat) : Int := match f with | 1 => 8 | 2 => 15 | 3 => 2 | _ => 0

/-- The floor of log2 of a finite non-zero magnitude. -/
def floorLog2 (v : Nat) : Int := match f32 v with | .fin _ m e => (Nat.log2 m : Int) + e | _ => 0

/-- The E8M0 scale of a block (R227). -/
def mxScale (f : Nat) (l : List Nat) : Nat :=
  let mags := l.map (fun v => bits v 0 31)
  let amax := mags.foldl max 0
  if 0x7F800000 ≤ amax then 0xFF
  else if amax = 0 then 0x7F
  else (clampI 0 254 (floorLog2 amax - emaxOf f + 127)).toNat

/-- xn.vmxscale.F (R227). -/
def State.xnVmxscale (s : State) (p c : Nat) (vm : Bool) (f rd vs2 : Nat) : State :=
  let k := s.core p c
  if !k.vecOk vm false || !groupOk vs2 (lmul8 k.vtype) || decide (32 < k.vl) then s.trap p c 2
  else s.retire p c (k.setX rd (mxScale f (k.elems vs2))) 4

/-! ### The commands -/

/-- A command's instruction runs on a core once it has been fetched. -/
def State.onCore (s : State) (p c len : Nat) (held : Hold → Bool) (f : State → State) : Res :=
  match s.issue p c len held with
  | (s, true) => .next (f s)
  | (s, false) => .next s

/-- Nothing may be held. -/
def noHold (_ : Hold) : Bool := false

/-- ECALL (R212). -/
def execEcallExit (plate : Fin 34) (core : Fin 64) (s : State) : Res :=
  s.onCore plate core 4 noHold (fun s => s.ecall plate core)

/-- xn.sig (R210, R369). -/
def execXnSig (plate : Fin 34) (core : Fin 64) (rs1 rs2 : Fin 32) (s : State) : Res :=
  s.onCore plate core 4 noHold (fun s => s.xnSig plate core rs1 rs2)

/-- xn.wait (R219). -/
def execXnWait (plate : Fin 34) (core : Fin 64) (rd rs1 rs2 : Fin 32) (s : State) : Res :=
  s.onCore plate core 4 isWait (fun s => s.xnWait plate core rd rs1 rs2)

/-- A held xn.wait completes (R219). -/
def execXnWaitDone (plate : Fin 34) (core : Fin 64) (s : State) : Res :=
  if s.coreRuns plate core then .next (s.waitEnd plate core) else .next s

/-- xn.sread (R369). -/
def execXnSread (plate : Fin 34) (core : Fin 64) (rd rs1 : Fin 32) (s : State) : Res :=
  s.onCore plate core 4 noHold (fun s => s.xnSread plate core rd rs1)

/-- xn.crc (R221). -/
def execXnCrc (plate : Fin 34) (core : Fin 64) (rd rs1 rs2 : Fin 32) (s : State) : Res :=
  s.onCore plate core 4 noHold (fun s =>
    let k := s.core plate core
    s.retire plate core (k.setX rd (crc64Ext (k.xr rs1) (le 8 (k.xr rs2)))) 4)

/-- xn.vcrc (R221). -/
def execXnVcrc (plate : Fin 34) (core : Fin 64) (vm : Bool) (rd vs2 rs1 : Fin 32) (s : State) : Res :=
  s.onCore plate core 4 noHold (fun s => s.xnVcrc plate core vm rd vs2 rs1)

/-- xn.fexpd (R223). -/
def execXnFexpd (plate : Fin 34) (core : Fin 64) (rd rs1 rs2 : Fin 32) (s : State) : Res :=
  s.onCore plate core 4 noHold (fun s =>
    let k := s.core plate core
    s.retire plate core (k.setF rd (xexp (sub32 (k.fr rs1) (k.fr rs2)))) 4)

/-- xn.vexpd (R223). -/
def execXnVexpd (plate : Fin 34) (core : Fin 64) (vm : Bool) (vd vs2 rs1 : Fin 32) (s : State) : Res :=
  s.onCore plate core 4 noHold (fun s => s.xnVexpd plate core vm vd vs2 rs1)

/-- xn.vcurve (R222). -/
def execXnVcurve (plate : Fin 34) (core : Fin 64) (vm : Bool) (vd vs2 rs1 : Fin 32) (s : State) : Res :=
  s.onCore plate core 4 noHold (fun s => s.xnVcurve plate core vm vd vs2 rs1)

/-- xn.vrmax (R224). -/
def execXnVrmax (plate : Fin 34) (core : Fin 64) (vm : Bool) (rd vs2 rs1 : Fin 32) (s : State) : Res :=
  s.onCore plate core 4 noHold (fun s => s.xnVrmax plate core vm rd vs2 rs1)

/-- xn.vncvt.F (R225). -/
def execXnVncvt (plate : Fin 34) (core : Fin 64) (vm : Bool) (fmt : Fin 5) (vd vs2 rs1 : Fin 32) (s : State) : Res :=
  s.onCore plate core 4 noHold (fun s => s.xnVncvt plate core vm fmt vd vs2 rs1)

/-- xn.vwcvt.F (R226). -/
def execXnVwcvt (plate : Fin 34) (core : Fin 64) (vm : Bool) (fmt : Fin 5) (vd vs2 rs1 : Fin 32) (s : State) : Res :=
  s.onCore plate core 4 noHold (fun s => s.xnVwcvt plate core vm fmt vd vs2 rs1)

/-- xn.vmxscale.F (R227). -/
def execXnVmxscale (plate : Fin 34) (core : Fin 64) (vm : Bool) (fmt : Fin 5) (rd vs2 : Fin 32) (s : State) : Res :=
  s.onCore plate core 4 noHold (fun s => s.xnVmxscale plate core vm fmt rd vs2)

/-- MRET and WFI, the runtime's privileged instructions: MRET goes back from a trap, WFI retires; both are illegal in a plate
program (Table NDL-1; log entry 37). -/
def State.runPrivileged (s : State) (p c w : Nat) : State :=
  if !(s.core p c).machine then s.trap p c 2
  else
    let s := s.retire p c (s.core p c) 4
    if w = 0x30200073 then s.leaveM p c else s

/-- A word of the standard instruction sets, or the ECALL; anything else is illegal (R205). -/
def State.runWord (s : State) (p c w len : Nat) : State :=
  if w = 0x00000073 then s.ecall p c
  else if w = 0x30200073 ∨ w = 0x10500073 then s.runPrivileged p c w
  else if bits w 0 7 = 0x57 then s.settle p c len (s.runOpV p c w)
  else if bits w 0 7 = 0x07 ∧ iF3 w ≠ 2 then
    (if iF3 w = 0 ∨ 5 ≤ iF3 w then s.settle p c len (s.runVmem p c w false) else s.trap p c 2)
  else if bits w 0 7 = 0x27 ∧ iF3 w ≠ 2 then
    (if iF3 w = 0 ∨ 5 ≤ iF3 w then s.settle p c len (s.runVmem p c w true) else s.trap p c 2)
  else s.settle p c len (s.runScalar p c w len)

/-- A word of the custom spaces is an Xneedle instruction (Table NDL-5 and the text after it). -/
def isXneedle (w : Nat) : Bool :=
  let f3 := iF3 w
  let f6 := bits w 26 6
  if bits w 0 7 = 0x0B then (iF7 w == 0 && decide (f3 ≤ 5)) || (iF7 w == 1 && f3 == 0)
  else (f6 == 0 && f3 == 0) || (f6 == 1 && f3 == 1) || (f6 == 2 && f3 == 2) || (f6 == 3 && f3 == 3) ||
    (f3 == 0 && ((decide (0x10 ≤ f6 ∧ f6 ≤ 0x14)) || (decide (0x18 ≤ f6 ∧ f6 ≤ 0x1C)))) ||
    (f3 == 3 && decide (0x20 ≤ f6 ∧ f6 ≤ 0x24) && iRs1 w == 0)

/-- A standard RV64 or vector instruction word executes; a 16-bit one is a compressed instruction (R205). The Xneedle words
have commands of their own and are not taken here; the reserved words of their spaces are illegal. -/
def execNeedleInstruction (plate : Fin 34) (core : Fin 64) (ins : NeedleInstr) (s : State) : Res :=
  let w := ins.word.toNat
  if w % 4 = 3 then
    (if (bits w 0 7 = 0x0B ∨ bits w 0 7 = 0x2B) ∧ isXneedle w then .next s
     else s.onCore plate core 4 noHold (fun s => s.runWord plate core w 4))
  else s.onCore plate core 2 noHold (fun s =>
    match expandC (w % 65536) with
    | some v => s.runWord plate core v 2
    | none => s.trap plate core 2)

end Sys2Proof.Machine
end

