-- ==== Sys2Proof/Machine/Power.lean ====
section
/-! DEFINITION. Clock islands, the power limiter and monitor, and the power domains (R2, R16 to R21, R504, R517, R584, R592,
Tables ARC-2, ARC-3). -/

namespace Sys2Proof.Machine

/-! ### Clocks (R2, R17, R18, R504, R505, R584, Table MOD-4) -/

/-- Every plate is held at its lowest clock: by the power monitor, the thermal limit, or a supply between 6.5 V and 9.0 V. -/
def State.forcedLow (s : State) : Bool :=
  s.sup.trippedAt.isSome || s.flag Reg.SUP_THERM_THROTTLE || (s.flag Reg.PWR_STAT_UNDERVOLT && decide (6500 ≤ s.pwr.vin))

/-- The clock of plate `p` in kHz: never above the fused maximum (R2), the maximum unless it was changed (R584). -/
def State.plateKhz (s : State) (p : Nat) : Nat :=
  let k := min (s.pwr.clock.get s.part.clockKhz p) s.part.clockKhz
  if s.forcedLow then min Config.lowestKhz k else k

/-- PLT_CLK and PWR_STAT.LIMITING follow the clocks in force; a plate whose domain is off has none. -/
def State.showClocks (s : State) : State :=
  let s := (List.range 34).foldl (fun s p =>
    s.wr Reg.PLT_CLK_KHZ (if bit s.pwr.domains (1 + p) then s.plateKhz p else 0) p) s
  s.wr Reg.PWR_STAT_LIMITING
    ((List.range 34).any (fun p => bit s.pwr.domains (1 + p) && decide (s.plateKhz p < s.part.clockKhz))).toNat

/-- The time clock and the other parts of island AON keep their frequency (R18). -/
def islandAon : Nat := 43

/-- The tick at which a gate that closes now opens: at most 20 µs ahead, how far is left open (R17; log entry 4). -/
def State.gateEnd (s : State) : Nat := s.ticks + Config.free s.free % (usTicks 20 + 1)

/-- The clock of an island is gated while its generator relocks (R17). -/
def State.gate (s : State) (island : Nat) : State :=
  { s with pwr := { s.pwr with gateUntil := s.pwr.gateUntil.set island s.gateEnd } }

/-- The plate clocks of `s` come into force after those of `old`: a plate whose frequency changes is gated (R17). -/
def State.reclock (s old : State) : State :=
  (((List.range 34).filter (fun p => s.plateKhz p != old.plateKhz p)).foldl State.gate s).usedFree.showClocks

/-- The clock that a relock of an island may set: a plate never goes above its fused maximum, nor up while the input power is
above its limit (R2). -/
def State.relockKhz (s : State) (i khz : Nat) : Nat :=
  if i < 34 then
    let k := min khz s.part.clockKhz
    if s.pwr.overLimit.isSome then min k (s.pwr.clock.get s.part.clockKhz i) else k
  else khz

/-- An island changes frequency; its clock is gated for at most 20 µs, and what its crossings hold waits for the gate (R16, R17). The
islands stand in the order of Table ARC-2. -/
def execIslandRelock (island : Fin 44) (khz : Nat) (s : State) : Res :=
  let i := island.val
  if !s.alive ∨ i = islandAon then .next s
  else
    let t := { s with pwr := { s.pwr with clock := s.pwr.clock.set i (s.relockKhz i khz) } }
    .next (t.gate i).usedFree.showClocks

/-- The input power averaged over 10 ms is shown (R575). -/
def State.showInput (s : State) (dw : Nat) : State :=
  let v := satU 16 dw
  (s.wr Reg.PWR_INPUT_POWER_DW v).wr Reg.PWR_INPUT_PEAK_DW (max v (s.rd Reg.PWR_INPUT_PEAK_DW))

/-- The averaged input power has been above the limit for 10 ms (R2). -/
def State.overLong (s : State) : Bool := match s.pwr.overLimit with | some t => s.passed t (msTicks 10) | none => false

/-- The clock that the limiter gives plate `p`: `khz`, its choice, within the fused maximum; above the limit less than the plate
has now, and after 10 ms the lowest clock (R2; log entry 91). -/
def State.limiterKhz (s : State) (above : Bool) (khz p : Nat) : Nat :=
  let now := s.pwr.clock.get s.part.clockKhz p
  let k := min khz s.part.clockKhz
  if !above then k else if s.overLong then min Config.lowestKhz (now - 1) else min k (now - 1)

/-- The power limiter sets the clock of every plate so that the input power, averaged over 10 ms, stays at or below the fused
limit: above the limit it lowers every one (R2). `khz` is the clock it chooses. -/
def execPowerLimitAdjust (powerDw khz : Nat) (s : State) : Res :=
  if !s.alive then .next s
  else
    let above := decide (10 * s.part.limitW < powerDw)
    let new := s.limiterKhz above khz
    let t := s.showInput powerDw
    let t := if above ∧ s.sup.trippedAt.isSome then { t with sup := { s.sup with trippedAt := some s.ticks } } else t
    let since := if above then some (s.pwr.overLimit.getD s.ticks) else none
    .next (({ t with pwr := { s.pwr with
      overLimit := since, clock := s.platesOn.foldl (fun m p => m.set p (new p)) s.pwr.clock } } : State).reclock s)

/-- The power monitor forces every plate to its lowest clock when the input power exceeds the limit by more than 10 % (R504). -/
def execPowerMonitorTrip (powerDw : Nat) (s : State) : Res :=
  if !s.alive ∨ powerDw ≤ 11 * s.part.limitW then .next s
  else
    .next (({ s.showInput powerDw with
      sup := { s.sup with trippedAt := some s.ticks }, pwr := { s.pwr with overLimit := some (s.pwr.overLimit.getD s.ticks) } } :
        State).reclock s)

/-- After 100 ms below the limit the power monitor releases the plate clocks (R504). -/
def execPowerMonitorRelease (powerDw : Nat) (s : State) : Res :=
  match s.sup.trippedAt with
  | some t =>
    if s.passed t (msTicks 100) ∧ powerDw < 10 * s.part.limitW then
      .next (({ s.showInput powerDw with
        sup := { s.sup with trippedAt := none }, pwr := { s.pwr with overLimit := none } } : State).reclock s)
    else .next s
  | none => .next s

/-! ### Power domains (R19 to R21, R517, R592) -/

/-- The units of a power domain that can be taken offline one by one. -/
def domainUnits (d : Nat) : List Nat := plainUnits.filter (fun u => domainOf u == d)

/-- The DMA channels of a domain (Table MEM-5). -/
def domainChans (d : Nat) : List Nat :=
  if d = 0 then [] else if d ≤ 34 then [d - 1, 0x40 + (d - 1)]
  else if d = 35 then [0x28, 0x29, 0x2A, 0x2B] else if d = 36 then [0x2C, 0x2D, 0x2E, 0x2F]
  else if d = 37 then [0x30] else if d = 38 then [0x31] else if d = 39 then [0x32] else if d = 40 then [0x33] else []

/-- A channel has a transfer outstanding. -/
def State.chanBusy (s : State) (c : Nat) : Bool := s.chan c == chRunning || s.chan c == chFaulted

/-- The domains that one side of a plate's transfer is addressed to, beside the plate's own; a virtual address is taken to reach both
halves of DDR4 and, through a window, of the commons. -/
def State.sideDomains (s : State) (l : Launch) (space a n : Nat) : List Nat :=
  match space with
  | 1 => [35, 36, 41, 42]
  | 2 => match s.otherPlate l a with | some q => [1 + q] | none => []
  | 3 => match commonsSide a n with
    | .commons o => [35 + o / 0xA00000]
    | .port t _ => [35 + t]
    | .evidence _ => [37]
    | _ => []
  | _ => []

/-- The domains that the transfer outstanding on a channel outside domain's own is addressed to (R19, Table MEM-5). -/
def State.chanDomains (s : State) (c : Nat) : List Nat :=
  if c ≤ 33 then
    match (s.plate c).dma.head?, s.runningOn c with
    | some q, some (_, l) =>
      s.sideDomains l (dmSrcSpace q.bytes) (dmSrc q.bytes) (dmRowBytes q.bytes) ++
      s.sideDomains l (dmDstSpace q.bytes) (dmDst q.bytes) (dmRowBytes q.bytes)
    | _, _ => []
  else [35, 36, 41, 42]

/-- Every transfer addressed to the domain has completed or been refused (R19). -/
def State.domainIdle (s : State) (d : Nat) : Bool :=
  ((List.range 98).all (fun c => !(s.chanBusy c && (s.chanDomains c).contains d))) &&
  !((d == 41 || d == 42) && (s.stp.run.isSome || s.brn.cur.isSome)) &&
  (domainChans d).all (fun c => s.chan c == chIdle || s.chan c == chSaved || s.chan c == chOffline) &&
  !(decide (1 ≤ d ∧ d ≤ 34) && s.plateHeld (d - 1)) && !(d == 38 && s.stp.run.isSome) && !(d == 39 && s.brn.cur.isSome)

/-- The memory of a domain: start and size; DDR4 keeps its contents in self-refresh (R21). -/
def domainMem (d : Nat) : Nat × Nat :=
  if 1 ≤ d ∧ d ≤ 34 then (plateAddr (d - 1) 0, 2 ^ 22)
  else if d = 35 ∨ d = 36 then (gaddr spCommons ((d - 35) * 10485760), 10485760)
  else if d = 37 then (gaddr spHatch 0, 4194304)
  else if d = 39 then (gaddr spBurnisher 0, 4194304) else (0, 0)

/-- A domain is switched off once nothing is addressed to it: at bring-up, or when its units are offline, under test, bad or
spare (R19, R31). What its memory holds afterwards is left open (log entry 75). -/
def execDomainSwitchOff (dom : Fin 43) (s : State) : Res :=
  let d := dom.val
  let down := (domainUnits d).all (fun u => !s.unitFit u || (u / 2 ^ 24 == 1 && !bit s.plateMap (bits u 0 24)))
  if !s.alive ∨ d = 0 ∨ !bit s.pwr.domains d ∨ !(s.power == .starting || down) ∨ !s.domainIdle d then .next s
  else
    let (a, n) := domainMem d
    let s := { s with pwr := { s.pwr with domains := s.pwr.domains - 2 ^ d } }
    let s := if n = 0 then s else s.eraseRange a n
    let s := if 1 ≤ d ∧ d ≤ 34 then s.wr Reg.PLT_STAT_STATE 0 (d - 1)
      else if d = 35 ∨ d = 36 then s.wr Reg.TRC_STAT_RUN 0 (d - 35) else s
    .next s.showClocks

/-- A wave of domains is switched on: no more than 4 in any 250 µs, and none before the fuses are read. A commons half then holds
zero; the channels of a DDR4 domain begin their training (R517, R518, R530, R592). -/
def execDomainSwitchOn (doms : List (Fin 43)) (s : State) : Res :=
  let ds := ((doms.map (·.val)).eraseDups).filter (fun d => d != 0 && !bit s.pwr.domains d)
  let recent := s.pwr.switched.filter (fun t => decide (s.ticks < t + usTicks 250))
  if !s.alive ∨ 4 < recent.length + ds.length then .next s
  else
    let s := { s with pwr := { s.pwr with domains := ds.foldl (fun m d => m ||| 2 ^ d) s.pwr.domains,
                                          switched := ds.map (fun _ => s.ticks) ++ recent } }
    let s := ds.foldl (fun s d =>
      let s := if d = 35 ∨ d = 36 then s.eraseRange (gaddr spCommons ((d - 35) * 10485760)) 10485760 else s
      if d = 41 ∨ d = 42 then
        (List.range 4).foldl (fun s i =>
          let fn := 0x200 + (4 * (d - 41) + i)
          if s.fnState fn = rdWaiting then s.setFn fn rdProgress 0 else s) s
      else s) s
    .next s.showClocks

end Sys2Proof.Machine
end

