-- ==== Sys2Proof/Machine/Operands.lean ====
section
/-! DEFINITION. What a register address names: blocks, table windows and the fields of a word (R6, R10, R25, Table ARC-6). -/

namespace Sys2Proof.Machine

/-! ### Blocks -/

/-- The fields of the block that holds a register address, by Table ARC-6; none outside every block and for a spill queue that is
not built (R25). -/
def blockOf (a : Nat) : Option (List RegField) :=
  if a < 0x130000 then
    if a / 65536 = 8 ∧ !queueBuilt (a % 65536 / 64) then none
    else some (([Reg.blockEas, [], Reg.blockSec, Reg.blockSup, Reg.blockMgd, Reg.blockPwr, Reg.blockRul, Reg.blockIng, Reg.blockSpq,
      Reg.blockHat, Reg.blockStp, Reg.blockBrn, Reg.blockTrc, Reg.blockMem, Reg.blockPar, Reg.blockSyn, Reg.blockHtp, Reg.blockRng,
      Reg.blockPrf] : List (List RegField)).getD (a / 65536) [])
  else if 0x1000000 ≤ a ∧ a < 0x1000000 + 34 * 65536 then some Reg.blockPlt
  else if 0x2000000 ≤ a ∧ a < 0x2000000 + 34 * 65536 then (if a % 65536 < 66 * 512 then some Reg.blockNdl else none)
  else none

/-- An address lies in a block (R25). -/
def inBlock (a : Nat) : Bool := (blockOf a).isSome

/-! ### Table windows -/

/-- Tables read and written by register access: first address, bytes, and whether they may be written: the readiness table, the
certificate, report and token windows, the ruling and sensor banks, the schedule banks, and the partition, task, chain and
reaction tables. -/
def tableWindows : List (Nat × Nat × Bool) :=
  [(0x1000, 2048, false), (0x21000, 2048, false), (0x22000, 1024, false), (0x23000, 512, true), (0x61000, 16384, true),
   (0x71000, 8192, true), (0xE1000, 2080, true), (0xE2000, 2080, true), (0xE3000, 480, true), (0xE4000, 8192, false),
   (0xE6000, 512, false), (0xE7000, 512, true)]

/-- The table window that holds an address, and whether it may be written. -/
def tableOf (a : Nat) : Option Bool :=
  (tableWindows.find? (fun w => decide (w.1 ≤ a) && decide (a < w.1 + w.2.1))).map (·.2.2)

/-! ### Fields of a word -/

/-- The element of a field that has bits in the word at `a`. -/
def elemAt (a : Nat) (f : RegField) : Option Nat :=
  if a < f.addr then none
  else
    let i := if f.stride = 0 then 0 else (a - f.addr) / f.stride
    let start := regKey f i
    if i < f.count ∧ start < a * 8 + 32 ∧ a * 8 < start + f.width then some i else none

/-- The fields with bits in the word at `a`, with their elements. -/
def fieldsAt (a : Nat) : List (RegField × Nat) :=
  ((blockOf a).getD []).filterMap (fun f => (elemAt a f).map (fun i => (f, i)))

/-- The bits that element `i` of a field with value `v` puts into the word at `a` (R6). -/
def wordPart (a : Nat) (f : RegField) (i v : Nat) : Nat :=
  let start := regKey f i
  if a * 8 ≤ start then (v % 2 ^ f.width) <<< (start - a * 8) % 2 ^ 32 else bits (v % 2 ^ f.width) (a * 8 - start) 32

/-- The value `v` of element `i` of a field with the bits that the word `w` at `a` holds of it (R6). -/
def elemPut (a w : Nat) (f : RegField) (i v : Nat) : Nat :=
  let start := regKey f i
  let lo := max start (a * 8)
  let hi := min (start + f.width) (a * 8 + 32)
  putBits v (lo - start) (hi - lo) (bits w (lo - a * 8) (hi - lo))

/-- The value of element `i` of a field after the words `ws` from `a` are written over `v`. -/
def elemAfter (f : RegField) (i : Nat) : Nat → List Nat → Nat → Nat
  | _, [], v => v
  | a, w :: ws, v => elemAfter f i (a + 4) ws (if elemAt a f = some i then elemPut a w f i v else v)

/-- The words `ws` from `a` write into element `i` of a field. -/
def touches (f : RegField) (i a n : Nat) : Bool := (List.range n).any (fun k => elemAt (a + 4 * k) f == some i)

end Sys2Proof.Machine
end

