-- ==== Sys2Proof/Machine/Safe.lean ====
section
/-! DEFINITION. The safe-state input and lines, the supervision of clock and lines, and the thermal limit and trip (R483 to R488,
R505, R582, Table SAF-3). -/

namespace Sys2Proof.Machine

/-- The supervisor works: the module is supplied. -/
def State.supplied (s : State) : Bool := s.power != .off

/-! ### SAFE_IN (R484, R486, R487) -/

/-- SAFE_IN has been asserted for 100 µs: source SAFE_IN is requested. In the state of R476 the supervisor ignores it (R488). -/
def execSafeInAssert (s : State) : Res :=
  let since := match s.sup.safeInAt with | some t => t | none => s.ticks - usTicks 100
  let s := ({ s with sup := { s.sup with safeInAt := some since } } : State).wr Reg.SUP_STAT_SAFE_IN 1
  .next (if s.supplied ∧ !s.flag Reg.SUP_STAT_LOCKED then s.requestHeld srcSafeIn else s)

/-- Source `n` is latched: LATCH mode, its cause cleared, and it still holds a line (R486). -/
def State.latched (s : State) (n : Nat) : Bool := (s.policy n).2.1 && !(s.source n).cause && (s.source n).lines != 0

/-- SAFE_IN is released: its source's cause clears, and after at least 10 ms of assertion every latched source whose cause has
cleared is freed (R486, R488). -/
def execSafeInRelease (s : State) : Res :=
  match s.sup.safeInAt with
  | none => .next (s.wr Reg.SUP_STAT_SAFE_IN 0)
  | some t =>
    let long := s.passed t (msTicks 10)
    let s := ({ s with sup := { s.sup with safeInAt := none } } : State).wr Reg.SUP_STAT_SAFE_IN 0
    if !s.supplied ∨ s.flag Reg.SUP_STAT_LOCKED then .next s
    else
      let s := s.clearCause srcSafeIn
      .next (if long then (List.range 9).foldl (fun s n => if s.latched n then s.releaseSource n else s) s else s)

/-- hold_ms after its cause cleared, a source in HOLD mode releases its lines (R485). -/
def execSafeHoldExpiry (src : Fin 9) (s : State) : Res :=
  .next (if s.supplied ∧ s.holdOver src.val then s.releaseSource src.val else s)

/-! ### Supervision of the clock and of the lines (R582, Table SAF-3) -/

/-- The cause of source CLOCK clears once the clock and the rail are within tolerance and no line reads back wrong. -/
def State.clockCured (s : State) : State :=
  if s.sup.clockBad || s.sup.lineBad != 0 then s else s.clearCause srcClock

/-- The time clock or an AON-S rail goes out of tolerance, or comes back within (Table SAF-3). -/
def execClockSupervision (ok : Bool) (s : State) : Res :=
  if !s.supplied then .next s
  else
    let s := { s with sup := { s.sup with clockBad := !ok } }
    .next (if ok then s.clockCured else s.requestHeld srcClock)

/-- A safe-state line has read back wrong for 1 ms: SAFE_LINE_FAULT is raised, and the other line asserted under source CLOCK (R582). -/
def execSafeLineFault (line : Fin 2) (mv : BitVec 16) (s : State) : Res :=
  let k := line.val
  if !s.supplied ∨ bit s.sup.lineBad k then .next s
  else
    let s := { s with sup := { s.sup with lineBad := s.sup.lineBad + 2 ^ k } }
    let s := s.raise 0x0D03 (unitId 0x12 0) (le 1 k ++ le 2 mv.toNat)
    .next (s.requestLines srcClock (2 - k) true)

/-- The line reads back correctly again (R582). -/
def execSafeLineFaultCured (line : Fin 2) (s : State) : Res :=
  let k := line.val
  if !s.supplied ∨ !bit s.sup.lineBad k then .next s
  else .next ({ s with sup := { s.sup with lineBad := s.sup.lineBad - 2 ^ k } } : State).clockCured

/-! ### Thermal limit and trip (R505) -/

/-- The data of a THERMAL event: junction temperature as int16 and whether it tripped (Table SAF-10). -/
def thermalData (tj : Int) (tripped : Bool) : List Byte := le 2 (toU 16 tj) ++ le 1 tripped.toNat

/-- The junction temperature in 0.1 °C: from 115 °C every plate is held at its lowest clock, below it no longer (R505). -/
def execThermalThrottle (tj : Int) (s : State) : Res :=
  if !s.alive then .next s
  else
    let hot := decide (1150 ≤ tj)
    let old := s.flag Reg.SUP_THERM_THROTTLE
    let s := ((s.wr Reg.SUP_THERM_TJ (toU 12 tj)).wr Reg.SUP_THERM_THROTTLE hot.toNat).reclock s
    .next (if hot && !old then s.raise 0x0A06 (unitId 0x12 0) (thermalData tj false) else s)

/-- At 125 °C the supervisor requests source THERMAL, puts DDR4 into self-refresh, and holds Birril in reset (R505). -/
def execThermalTrip (tj : Int) (s : State) : Res :=
  if !s.alive ∨ tj < 1250 then .next s
  else
    let s := ((s.requestHeld srcThermal).wr Reg.SUP_THERM_TJ (toU 12 tj)).wr Reg.SUP_THERM_TRIPPED 1
    let s := s.warmStart startThermal true
    .next { s with power := .held, sup := { s.sup with thermalHold := true } }

/-- The junction falls to 105 °C: the restart proceeds, the cause of THERMAL clears, and the trip is told (R470 to R473, R505; log
entry 77). -/
def execThermalRecover (tj : Int) (s : State) : Res :=
  if s.power ≠ .held ∨ !s.sup.thermalHold ∨ s.prf.heldReset ∨ 1050 < tj then .next s
  else
    let peak := sext 12 (s.rd Reg.SUP_THERM_TJ)
    let s := { s with power := .starting, sup := { s.sup with thermalHold := false } }
    let s := (s.wr Reg.SUP_THERM_TJ (toU 12 tj)).wr Reg.SUP_THERM_THROTTLE 0
    .next ((s.raise 0x0A06 (unitId 0x12 0) (thermalData peak true)).clearCause srcThermal)

end Sys2Proof.Machine
end

