-- ==== Sys2Proof/Machine/Security.lean ====
section
/-! DEFINITION. Attestation, anti-rollback, debug unlock and MACsec keys (R553 to R568, R589, Tables SEC-1 to SEC-5). -/

namespace Sys2Proof.Machine

/-! ### Attestation (R555, R562, R563, Table SEC-4) -/

/-- SEC_CTRL.ATTEST: a report with the nonce of SEC_NONCE is asked for (R562). -/
def State.attest (s : State) : State :=
  { s with sec := { s.sec with reports := s.sec.reports ++ [le 32 (s.rd Reg.SEC_NONCE_NONCE)] } }

def execAttest (s : State) : Res := .next (if s.alive ∧ !s.flag Reg.HTP_CTRL_SETUP_DONE then s.attest else s)

/-- The content type of a report, in ASCII: application/vnd.vothava.attest+cbor. -/
def attestType : List Byte :=
  [0x61#8, 0x70#8, 0x70#8, 0x6C#8, 0x69#8, 0x63#8, 0x61#8, 0x74#8, 0x69#8, 0x6F#8, 0x6E#8, 0x2F#8, 0x76#8, 0x6E#8, 0x64#8, 0x2E#8] ++
  [0x76#8, 0x6F#8, 0x74#8, 0x68#8, 0x61#8, 0x76#8, 0x61#8, 0x2E#8, 0x61#8, 0x74#8, 0x74#8, 0x65#8, 0x73#8, 0x74#8, 0x2B#8] ++
  [0x63#8, 0x62#8, 0x6F#8, 0x72#8]

/-- The protected header of a report: the algorithm and the content type (text before Table SEC-4). -/
def attestProtected : List Byte :=
  cborHead 5 2 ++ cborInt 1 ++ cborInt (-35) ++ cborInt 3 ++ cborHead 3 attestType.length ++ attestType

/-- What the signature of a report covers (RFC 9052). -/
def attestToSign (payload : List Byte) : List Byte :=
  cborHead 4 4 ++ (cborHead 3 10 ++ [0x53#8, 0x69#8, 0x67#8, 0x6E#8, 0x61#8, 0x74#8, 0x75#8, 0x72#8, 0x65#8, 0x31#8]) ++
  cborBytes attestProtected ++ cborBytes [] ++ cborBytes payload

/-- The calibration set as bytes: each cell's address and byte (log entry 72). -/
def CalSet.bytes (c : CalSet) : List Byte := c.cells.flatMap (fun x => le 8 x.1 ++ [x.2])

/-- The report map (Table SEC-4). -/
def State.attestMap (s : State) (nonce : List Byte) : List Byte :=
  let h := s.boot.fwHeader
  let uint := fun (k v : Nat) => cborInt k ++ cborHead 0 v
  let bstr := fun (k : Nat) (l : List Byte) => cborInt k ++ cborBytes l
  let fw := if h.isEmpty then [] else
    [bstr 7 (Config.sha384 h), uint 8 (s.rd Reg.SEC_BOOT_SVN), uint 9 (s.rd Reg.SEC_BOOT_FW_VERSION),
     bstr 10 ((Config.sha384 (slice h 72 96)).take 8)]
  let limits := if s.locked then [bstr 11 (Config.sha384 s.mgd.raw)] else []
  let cal := match s.boot.calSet with
    | some c => if s.flag Reg.EAS_BOOT_CALSET then [bstr 12 (Config.sha384 c.bytes)] else []
    | none => []
  let items := [uint 1 s.part.serial, uint 2 s.part.ordering, uint 3 s.part.stepping, uint 4 (s.rd Reg.SEC_STAT_UNLOCKED),
      uint 5 (s.rd Reg.SEC_ROLLBACK_COUNTER), bstr 6 Config.romDigest] ++ fw ++ limits ++ cal ++
    [bstr 13 nonce, uint 14 s.dt64, uint 15 s.dev, uint 16 (s.rd Reg.EAS_BOOT_KIND)]
  cborHead 5 items.length ++ items.flatten

/-- A report: a COSE_Sign1 structure with tag 18, signed with the identity key (R555, R589). -/
def State.attestReport (s : State) (nonce : List Byte) : List Byte :=
  let u := s.flag Reg.SEC_STAT_UNLOCKED
  let payload := s.attestMap nonce
  cborHead 6 18 ++ cborHead 4 4 ++ cborBytes attestProtected ++ (cborHead 5 1 ++ cborInt 4 ++ cborBytes (le 8 (Config.keyId u))) ++
  cborBytes payload ++ cborBytes (padTo 96 (Config.signEs384 u (attestToSign payload)))

/-- The oldest report asked for is published: the generation goes odd, length and report are written, the generation goes even, and
ATTEST_READY is raised (R562, R563). -/
def execAttestPublish (s : State) : Res :=
  match s.sec.reports with
  | [] => .next s
  | nonce :: rest =>
    if !s.alive then .next s
    else
      let l := s.attestReport nonce
      let gen := (s.rd Reg.SEC_ATTEST_GEN_GENERATION + 2) % 2 ^ 32
      let s := ({ s with sec := { s.sec with reports := rest } } : State).store (winAddr 0x22000) (l.take 1024)
      let s := (s.wr Reg.SEC_ATTEST_LEN_LENGTH l.length).wr Reg.SEC_ATTEST_GEN_GENERATION gen
      .next (s.raise 0x0C01 0 (le 4 gen ++ le 2 l.length))

/-! ### Anti-rollback (R560, R561) -/

/-- Why a write of SEC_CTRL.ADVANCE is refused: in ROM, and while an advance is in progress (R560). -/
def State.advanceError (s : State) : Option Nat :=
  if s.dev = stRom ∨ s.boot.fwHeader.isEmpty ∨ s.sec.target.isSome then some stWrongState else none

/-- SEC_CTRL.ADVANCE: the counter begins to rise to the running image's security version; nothing when it is already there (R560). -/
def State.advance (s : State) : State :=
  let n := s.rd Reg.SEC_ROLLBACK_COUNTER
  let svn := s.rd Reg.SEC_BOOT_SVN
  if svn ≤ n then s
  else ({ s with sec := { s.sec with target := some svn } } : State).wr Reg.SEC_ROLLBACK_LEFT (svn - n)

def execAdvance (s : State) : Res :=
  .next (if s.alive ∧ !s.flag Reg.HTP_CTRL_SETUP_DONE ∧ s.advanceError = none then s.advance else s)

/-- The next bit of the fuse field is blown. -/
def State.blowBit (s : State) : State :=
  let s := { s with part := { s.part with rollback := s.part.rollback ||| 2 ^ rollbackCount s.part.rollback } }
  s.wr Reg.SEC_ROLLBACK_COUNTER (rollbackCount s.part.rollback)

/-- One bit is blown and read back; the last one raises ROLLBACK (R560). -/
def execFuseBitBlown (s : State) : Res :=
  match s.sec.target with
  | none => .next s
  | some t =>
    if !s.alive then .next s
    else
      let s := s.blowBit
      let n := s.rd Reg.SEC_ROLLBACK_COUNTER
      let s := s.wr Reg.SEC_ROLLBACK_LEFT (t - n)
      if t ≤ n then .next (({ s with sec := { s.sec with target := none } } : State).raise 0x0C02 0 (le 1 n)) else .next s

/-! ### Debug lock (R553, R567, R568) -/

/-- The payload of a debug token: serial, challenge and scope, in deterministic encoding. -/
def tokenPayload (serial : Nat) (challenge : List Byte) (scope : Nat) : List Byte :=
  cborHead 5 3 ++ cborInt 1 ++ cborHead 0 serial ++ cborInt 2 ++ cborBytes challenge ++ cborInt 3 ++ cborHead 0 scope

/-- The scope that the token in the window unlocks: its signature is of a vendor root key, its serial and challenge are this
module's (R567, R589; log entry 76). -/
def State.tokenScope (s : State) : Option Nat :=
  match coseRead (s.bytes (winAddr 0x23000) 512) with
  | none => none
  | some (payload, sig, _) =>
    if (List.range 2).any (fun k => coseGood (Config.vendorKey k) payload sig) then
      (List.range 4).find? (fun sc => payload == tokenPayload s.part.serial (le 16 (s.rd Reg.SEC_CHAL_CHALLENGE)) sc)
    else none

/-- Why a write of SEC_CTRL.UNLOCK is refused (R568). -/
def State.unlockError (s : State) : Option Nat :=
  if s.flag Reg.HTP_CTRL_SETUP_DONE ∨ s.locked then some stWrongState else none

/-- SEC_CTRL.UNLOCK: the token is verified; debug is UNLOCKED and the identity key changes, or TOKEN_ERR is set. Either way a new
challenge is drawn (R553, R567, R568). -/
def State.unlock (s : State) : State :=
  let t := match s.tokenScope with
    | some sc =>
      let t := ((s.wr Reg.SEC_STAT_UNLOCKED 1).wr Reg.SEC_STAT_SCOPE sc).wr Reg.SEC_KID_KID (Config.keyId true)
      t.raise 0x0C03 0 (le 1 sc)
    | none => s.wr Reg.SEC_STAT_TOKEN_ERR 1
  ({ t with sec := { t.sec with draws := t.sec.draws + 1 } } : State).wr Reg.SEC_CHAL_CHALLENGE (Config.random 128 t.sec.draws)

def execUnlock (s : State) : Res := .next (if s.alive ∧ s.unlockError = none then s.unlock else s)

/-! ### MACsec keys (R564 to R566) -/

/-- A list with item `n` replaced. -/
def setItem {α : Type} (l : List α) (n : Nat) (x : α) : List α := l.take n ++ [x] ++ l.drop (n + 1)

/-- A write of SEC_MACSEC of a port: LOAD takes the key in SEC_CAK into use, both directions starting at association 0; with SAVE
set the key is kept in the store (R565, R566). -/
def State.macsecWrite (s : State) (p : Nat) (load save : Bool) : State :=
  let s := (s.wr Reg.SEC_MACSEC_SAVE save.toNat p)
  let s := if load then
      let s := { s with sec := { s.sec with cak := s.sec.cak.set p (s.rd Reg.SEC_CAK_KEY p), sent := s.sec.sent.erase p,
                                            txAssoc := s.sec.txAssoc.erase p, rxAssoc := s.sec.rxAssoc.erase p } }
      ((s.wr Reg.SEC_MACSEC_TX_AN 0 p).wr Reg.SEC_MACSEC_RX_AN 0 p).wr Reg.SEC_STAT_CAK (mapBits 2 (fun n => (s.sec.cak.find n).isSome))
    else s
  { s with nv := { s.nv with macsecSave := setItem s.nv.macsecSave p save,
                             cak := setItem s.nv.cak p (if save then s.sec.cak.find p else none) } }

def execMacsecLoad (port : Fin 2) (save : Bool) (s : State) : Res :=
  .next (if s.alive ∧ !s.flag Reg.HTP_CTRL_SETUP_DONE then s.macsecWrite port.val true save else s)

end Sys2Proof.Machine
end

