-- ==== Sys2Proof/Machine/Supply.lean ====
section
/-! DEFINITION. Supply bands, brown-out, wake, camera power, the base plate and the mission profile (R571 to R587, Tables MOD-4,
MOD-14). -/

namespace Sys2Proof.Machine

/-! ### Supply (R571 to R574, Table MOD-4) -/

/-- A SUPPLY event of a kind, with the operating seconds of now. -/
def State.tellSupply (s : State) (kind : Nat) : State :=
  if s.supplied then s.raise 0x0D01 0 (s.supplyData kind s.nv.seconds) else s

/-- UNDERVOLT at `mv`, held for `us`: below 6.5 V after 100 µs, below 9.0 V after 1 ms; it ends 0.3 V above 9.0 V (R571). -/
def underNow (old : Bool) (mv us : Nat) : Bool :=
  if mv < 6500 then old || decide (100 ≤ us) else if mv < 9000 then old || decide (1000 ≤ us)
  else old && decide (mv < 9300)

/-- OVERVOLT at `mv`: above 60 V; it ends 0.3 V below (R571). -/
def overNow (old : Bool) (mv : Nat) : Bool := decide (60000 < mv) || (old && decide (59700 ≤ mv))

/-- Since when VIN has been beyond a threshold, `held` µs ago at the latest; once beyond, it stays so within the hysteresis (R571). -/
def State.sinceBand (s : State) (held : Nat) (old : Option Nat) (beyond within : Prop) [Decidable beyond] [Decidable within] :
    Option Nat :=
  match old with
  | some t => if within then some t else none
  | none => if beyond then some (s.ticks - usTicks held) else none

/-- VIN is in a band: `vinMv`, held for `heldUs` (R571, R572). -/
def execSupplyBandChange (vinMv heldUs : Nat) (s : State) : Res :=
  let old := s
  let oldU := s.flag Reg.PWR_STAT_UNDERVOLT
  let oldO := s.flag Reg.PWR_STAT_OVERVOLT
  let u := underNow oldU vinMv heldUs
  let o := overNow oldO vinMv
  let s := { s with pwr := { s.pwr with
    vin := vinMv, wakeOff := s.pwr.wakeOff && decide (6500 ≤ vinMv),
    underSince := s.sinceBand heldUs s.pwr.underSince (vinMv < 6500) (vinMv < 6800),
    overSince := s.sinceBand heldUs s.pwr.overSince (60000 < vinMv) (59700 ≤ vinMv),
    surgeSince := s.sinceBand heldUs s.pwr.surgeSince (72000 < vinMv) (71700 ≤ vinMv) } }
  let s := ((s.wr Reg.PWR_SUPPLY_VIN_MV (satU 16 vinMv)).wr Reg.PWR_STAT_UNDERVOLT u.toNat).wr Reg.PWR_STAT_OVERVOLT o.toNat
  let s := if s.supplied && decide (vinMv < 6500) && u then s.wr Reg.PWR_STAT_RIDE_THROUGH 1 else s
  let s := if u && !oldU then s.tellSupply 1 else s
  let s := if o && !oldO then s.tellSupply 2 else s
  .next (if s.alive then s.reclock old else s)

/-- The module is without power: both safe-state lines read asserted, and only the store, the fuses and the inputs keep a state
(R573, R581). -/
def State.powerOff (s : State) : State := s.cleared

/-- VIN has been below 6.5 V for 2 ms, or the input switch has opened: above 72 V for 10 µs, or above 60 V for more than 400 ms
(R571, R573). -/
def State.brownOutDue (s : State) : Bool :=
  (match s.pwr.underSince with | some t => s.passed t (msTicks 2) | none => false) || 
  (match s.pwr.surgeSince with | some t => s.passed t (usTicks 10) | none => false) ||
  (match s.pwr.overSince with | some t => decide (t + msTicks 400 < s.ticks) | none => false)

/-- An advance of the anti-rollback counter that is cut short leaves the bits blown, or one more: which, is left open (R561). -/
def State.cutAdvance (s : State) : State :=
  if s.sec.target.isSome then (if s.freeVal 1 = 1 then s.blowBit else s).usedFree else s

/-- A brown-out: SAFE_A and SAFE_B are asserted, Birril is reset, the brown-out is recorded, and every rail is switched off (R573). -/
def execBrownOut (s : State) : Res :=
  if !s.supplied ∨ !s.brownOutDue then .next s
  else
    let s := s.cutAdvance
    .next ({ s with nv := { s.nv with brownOut := some s.nv.seconds } } : State).powerOff

/-! ### Wake (R578) -/

/-- WAKE has been low for 100 ms: SUPPLY of kind 4 (R578). -/
def execWakeLow (s : State) : Res :=
  if !s.flag Reg.PWR_STAT_WAKE then .next s
  else
    let s := ({ s with pwr := { s.pwr with wakeLow := some s.ticks } } : State).wr Reg.PWR_STAT_WAKE 0
    .next (s.tellSupply 4)

/-- WAKE stays low for DELAY_S after that: the module powers off without the brown-out record (R578). -/
def execWakePowerOff (s : State) : Res :=
  match s.pwr.wakeLow with
  | none => .next s
  | some t =>
    if s.supplied ∧ s.passed t (msTicks (1000 * s.rd Reg.PWR_WAKE_DELAY_S)) then
      let s := s.cutAdvance.powerOff
      .next { s with nv := { s.nv with brownOut := none }, pwr := { s.pwr with wakeOff := true } }
    else .next s

/-- WAKE rises: a pending power-off is cancelled, and a module that WAKE switched off powers up (R578). -/
def execWakeRise (s : State) : Res :=
  let s := ({ s with pwr := { s.pwr with wakeLow := none } } : State).wr Reg.PWR_STAT_WAKE 1
  .next (if s.power = .off ∧ s.pwr.wakeOff then s.coldStart else s)

/-! ### Camera power (R579) -/

/-- The switch of a camera port passes VCAM to its coax. -/
def State.pocOn (s : State) (n : Nat) : Bool :=
  bit (s.rd Reg.PWR_POC_ENABLE) n && !bit (s.rd Reg.PWR_POC_FAULT) n && !s.flag Reg.PWR_STAT_VCAM_BAD

/-- A camera loses its link when its switch opens (text after R579). -/
def State.pocDark (s : State) (n : Nat) : State := if s.pocOn n then s else s.sensorLinkDown n

/-- A switch opens on overcurrent; the third fault within 60 s locks it open (R579). -/
def execCameraOvercurrent (port : Fin 12) (mA : BitVec 16) (s : State) : Res :=
  let n := port.val
  if !s.alive ∨ !s.pocOn n then .next s
  else
    let faults := s.ticks :: (s.pwr.pocFaults.get [] n).filter (fun t => decide (s.ticks < t + msTicks 60000))
    let s := { s with pwr := { s.pwr with
      pocFaults := s.pwr.pocFaults.set n faults, pocOpen := s.pwr.pocOpen.set n s.ticks,
      pocLocked := s.pwr.pocLocked.set n (decide (3 ≤ faults.length)) } }
    let s := s.wr Reg.PWR_POC_FAULT (s.rd Reg.PWR_POC_FAULT + 2 ^ n)
    .next ((s.raise 0x0D02 (unitId 0x0A n) (le 1 n ++ le 1 faults.length ++ le 2 mA.toNat)).pocDark n)

/-- 1 s after it opened, a switch that is not locked open closes again (R579). -/
def execCameraReclose (port : Fin 12) (s : State) : Res :=
  let n := port.val
  if !s.alive ∨ !bit (s.rd Reg.PWR_POC_FAULT) n ∨ s.pwr.pocLocked.get false n ∨ !s.passed (s.pwr.pocOpen.get 0 n) (msTicks 1000) then .next s
  else .next (s.wr Reg.PWR_POC_FAULT (s.rd Reg.PWR_POC_FAULT - 2 ^ n))

/-- PWR_POC.ENABLE is written: writing 1 clears a lock-out, and a port whose bit is 0 has no power (R579). -/
def State.pocWrite (s : State) (v : Nat) : State :=
  let s := s.wr Reg.PWR_POC_ENABLE v
  (List.range 12).foldl (fun s n =>
    let s := if bit v n && s.pwr.pocLocked.get false n then
        ({ s with pwr := { s.pwr with pocLocked := s.pwr.pocLocked.set n false } } : State).wr Reg.PWR_POC_FAULT
          (s.rd Reg.PWR_POC_FAULT - 2 ^ n)
      else s
    s.pocDark n) s

def execPwrPocWrite (enable : BitVec 12) (s : State) : Res :=
  .next (if s.alive ∧ !s.flag Reg.HTP_CTRL_SETUP_DONE then s.pocWrite enable.toNat else s)

/-- VCAM leaves, or is within, 9 V to 16 V (R579). -/
def execVcamRange (mv : BitVec 16) (s : State) : Res :=
  let v := mv.toNat
  let s := (s.wr Reg.PWR_SUPPLY_VCAM_MV v).wr Reg.PWR_STAT_VCAM_BAD (decide (v < 9000 ∨ 16000 < v)).toNat
  .next (if s.alive then (List.range 12).foldl State.pocDark s else s)

/-! ### Base plate and mission (R585, R587) -/

/-- The base plate, in 0.1 °C, has been out of -40 °C to 95 °C for 10 s, or is back within (R585). -/
def execBaseRange (temp : Int) (s : State) : Res :=
  let out := decide (950 < temp ∨ temp < -400)
  let old := s.flag Reg.PWR_STAT_BASE_RANGE
  let s := (s.wr Reg.PWR_TEMP_BASE (toU 16 temp)).wr Reg.PWR_STAT_BASE_RANGE out.toNat
  .next (if out && !old then s.tellSupply 5 else s)

/-- The operating seconds have reached 45,000 hours: MISSION_END is raised once after each start (R587). -/
def execMissionEnd (s : State) : Res :=
  if !s.alive ∨ s.nv.seconds < 162000000 ∨ s.pwr.missionTold then .next s
  else .next (({ s with pwr := { s.pwr with missionTold := true } } : State).raise 0x0D04 0 (le 8 s.nv.seconds))

end Sys2Proof.Machine
end

