-- ==== Sys2Proof/Machine/RegAccess.lean ====
section
/-! DEFINITION. Register access by the host: reads with their side effects, the checks of a write, and what each write does
(R10, R25, R78, R87, R390 to R392, R590, R591). -/

namespace Sys2Proof.Machine

/-! ### Reads -/

/-- The object that SYN_SEL selects; 0xFFFF is none. -/
def State.selObj (s : State) : SyncObj := if s.rd Reg.SYN_SEL_OBJECT = 0xFFFF then .reset else s.obj (s.rd Reg.SYN_SEL_OBJECT)

/-- The logical number of a physical core in use: how many cores in use lie below it (R206). -/
def State.logicalCore (s : State) (p c : Nat) : Nat :=
  let m := s.rd Reg.PLT_SPARE_CORE_MAP p
  if bit m c then popBits c m else 0

/-- What a read finds in element `i` of a field: the value in force, for a field that follows the machine as it stands. -/
def State.shown (s : State) (f : RegField) (i : Nat) : Nat :=
  let u := s.rd Reg.PRF_UNIT_SEL_UNIT
  if f.acc = .wo then 0
  else if f = Reg.RUL_TIME_FRAC then s.tm.dt96 % 2 ^ 32
  else if f = Reg.RUL_TIME_NS then s.tm.latch
  else if f = Reg.RUL_EPOCH_NUM_NUM then s.epochOf s.dt64
  else if f = Reg.SYN_VAL_VALUE then s.selObj.value
  else if f = Reg.SYN_INFO_WAITERS then s.waiters (s.rd Reg.SYN_SEL_OBJECT)
  else if f = Reg.SYN_INFO_SATURATED then s.selObj.sat.toNat
  else if f = Reg.SYN_INFO_HELD then s.heldWaits
  else if f = Reg.PAR_FRAME_NUM then s.frameNum
  else if f = Reg.PAR_STAT_LOCKED then s.rd Reg.HTP_CTRL_SETUP_DONE
  else if f = Reg.STP_STAT_QUEUED then (s.jobs.filter (fun j => j.opcode == 0x11)).length
  else if f = Reg.BRN_STAT_QUEUED then (s.jobs.filter brnOp).length
  else if (f = Reg.BRN_STAT_BUSY ∨ f = Reg.BRN_STAT_PROBLEM ∨ f = Reg.BRN_STAT_STEP) ∧ (!s.unitUp brnUnit || s.sliced brnUnit) then 0
  else if f = Reg.PRF_SECONDS_SECONDS then s.nv.seconds
  else if f = Reg.PRF_UNIT_STATE then (s.history u).state
  else if f = Reg.PRF_UNIT_OFFLINE then (s.unitOff u).toNat
  else if f = Reg.PRF_UNIT_TEST then (s.unit u).test.toNat
  else if f = Reg.PRF_UNIT_EVENTS then s.recentEvents u
  else if f = Reg.PLT_STAT_STATE ∧ (s.unit (unitId 1 i)).test then 5
  else if f = Reg.NDL_CORE_STAT_STATE then
    (if s.rd Reg.PLT_STAT_STATE (i / 128) = 0 ∨ !bit (s.rd Reg.PLT_SPARE_CORE_MAP (i / 128)) (i % 128) then 0 else max 1 (s.rd f i))
  else if f = Reg.NDL_CORE_STAT_LOGICAL then s.logicalCore (i / 128) (i % 128)
  else if f = Reg.NDL_CORE_CNT_HELD then (if s.rd f i = 0 then 0 else s.freeVal 32)
  else if f = Reg.MEM_CH_STATE then s.chanState i
  else s.rd f i

/-- The word at `a` as a read finds it; zero outside every block (R25). -/
def State.wordAt (s : State) (a : Nat) : Nat :=
  if !inBlock a then 0
  else if 0x10000 ≤ a ∧ a < 0x10100 then fld s.ddt (a - 0x10000) 4
  else match tableOf a with
    | some _ => s.num (winAddr a) 4
    | none => ((fieldsAt a).map (fun e => wordPart a e.1 e.2 (s.shown e.1 e.2))).sum

/-- A read of one word: RUL_TIME is latched by a read of its first word, SPQ_POP pops, and RC fields are cleared (R10, R87). `bad` and
`upset` are the queues whose popped word fails its code and whose pointers have been upset (R84, R86). -/
def State.readWord (s : State) (bad upset : List Nat) (a : Nat) : State × Nat :=
  let s := if a = 0x60010 then { s with tm := { s.tm with latch := s.dt64 } } else s
  let s := if a / 65536 = 8 ∧ a % 64 = 16 ∧ inBlock a then
      let q := a % 65536 / 64
      s.spqPop q (bad.contains q) (upset.contains q)
    else s
  let w := s.wordAt a
  let s := if (fieldsAt a).any (fun e => decide (e.1 = Reg.NDL_CORE_CNT_HELD)) then s.usedFree else s
  ((fieldsAt a).foldl (fun s e => if e.1.acc = .rc then s.wr e.1 0 e.2 else s) s, w)

/-- `n` words read from `a` on, in order. -/
def State.readWords (bad upset : List Nat) : Nat → Nat → State → State × List Nat
  | 0, _, s => (s, [])
  | n + 1, a, s =>
    let (s, w) := s.readWord bad upset a
    let (s, ws) := State.readWords bad upset n (a + 4) s
    (s, w :: ws)

/-! ### Checks of a write (R25, R48, R78, R390 to R392, R500, R590, R591) -/

/-- A register write: its first address and its words. -/
structure RegWrite where
  addr : Nat
  words : List Nat
  deriving DecidableEq, Repr

/-- The addresses of the words written. -/
def RegWrite.addrs (r : RegWrite) : List Nat := (List.range r.words.length).map (fun k => r.addr + 4 * k)

def RegWrite.hits (r : RegWrite) (f : RegField) (i : Nat := 0) : Bool := touches f i r.addr r.words.length

/-- A field as it would stand after the whole request (R590). -/
def State.after (s : State) (r : RegWrite) (f : RegField) (i : Nat := 0) : Nat := elemAfter f i r.addr r.words (s.rd f i)

/-- The bits written into a field that keeps nothing. -/
def RegWrite.given (r : RegWrite) (f : RegField) (i : Nat := 0) : Nat := elemAfter f i r.addr r.words 0

/-- `n` bytes of a table window as they would stand after the whole request. -/
def State.tableAfter (s : State) (r : RegWrite) (a n : Nat) : List Byte :=
  (List.range n).map (fun k =>
    let b := a + k
    if r.addr ≤ b ∧ b < r.addr + 4 * r.words.length then
      BitVec.ofNat 8 (bits (r.words.getD ((b - r.addr) / 4) 0) ((b - r.addr) % 4 * 8) 8)
    else s.byte (winAddr b))

/-- The entries of a table window that a write reaches: `n` entries of `size` bytes from `base`. -/
def RegWrite.entries (r : RegWrite) (base size n : Nat) : List Nat :=
  (List.range n).filter (fun i => decide (r.addr < base + size * (i + 1)) && decide (base + size * i < r.addr + 4 * r.words.length))

/-- A value outside the range that a field's description states (R590). -/
def rangeBad (f : RegField) (v : Nat) : Bool :=
  if f = Reg.HAT_GRID_CELL then decide (v < 500 ∨ 20000 < v)
  else if f = Reg.ING_CAN_BIT_MODE then v == 3
  else if f = Reg.HTP_CFG_HOSTLOSS_MS then decide (v < 10 ∨ 10000 < v)
  else if f = Reg.HTP_SQ_LOG2_SIZE ∨ f = Reg.HTP_CQ_LOG2_SIZE then decide (v < 4 ∨ 16 < v)
  else if f = Reg.RNG_CHECK_PERIOD_US then decide (v < 100 ∨ 50000 < v)
  else if f = Reg.RNG_CHECK_LIMIT_US then decide (v < 100 ∨ 60000 < v)
  else if f = Reg.PRF_CFG_DIGEST_WAIT_MS then decide (v < 1 ∨ 60000 < v)
  else if f = Reg.MGD_LOAD_LENGTH then decide (v < 1 ∨ 16384 < v)
  else if f = Reg.PWR_WAKE_DELAY_S then decide (600 < v)
  else false

/-- The rings that a write enables (R392). -/
def State.enables (s : State) (r : RegWrite) : List Nat :=
  (List.range 64).filter (fun q => !s.flag Reg.HTP_SQ_EN q && s.after r Reg.HTP_SQ_EN q == 1)

/-- Enabling a submission ring is refused: its completion ring is not enabled, or the rings would hold more than 262,144 entries
(R392). -/
def State.enableBad (s : State) (r : RegWrite) : Bool :=
  let l := s.enables r
  l.any (fun q => s.after r Reg.HTP_CQ_EN (s.after r Reg.HTP_SQ_CQ q) == 0) ||
  (!l.isEmpty && decide (262144 < (((List.range 64).filter (fun q => s.after r Reg.HTP_SQ_EN q == 1)).map
    (fun q => 2 ^ s.after r Reg.HTP_SQ_LOG2_SIZE q)).sum))

/-- The spill queues whose control or middle a write reaches, with the refusal of R78 and R534. -/
def State.spqBad (s : State) (r : RegWrite) : Option Nat :=
  let t := fun (q : Nat) =>
    let size := s.after r Reg.SPQ_CTRL_LOG2_SIZE q
    let base := s.after r Reg.SPQ_MID_BASE_BASE q
    if !r.hits Reg.SPQ_CTRL_EN q && !r.hits Reg.SPQ_MID_BASE_BASE q then none
    else if size < 16 ∨ 26 < size ∨ 0x10000000 < base * 65536 + 2 ^ size + 2 ^ size / 16 then some stBadField
    else if s.flag Reg.SPQ_CTRL_EN q ∧ (r.hits Reg.SPQ_MID_BASE_BASE q ∨ size ≠ s.rd Reg.SPQ_CTRL_LOG2_SIZE q) then some stWrongState
    else none
  let l := if r.addrs.any (fun a => a / 65536 == 8) then (List.range 51).filterMap t else []
  if l.contains stBadField then some stBadField else l.head?

/-- RUL_EPOCH or RUL_EPOCH_OFS is written: what R48 refuses. -/
def State.epochBad (s : State) (r : RegWrite) : Option Nat :=
  if r.hits Reg.RUL_EPOCH_LEN_MS || r.hits Reg.RUL_EPOCH_OFS_OFS_NS then
    s.epochWriteError (s.after r Reg.RUL_EPOCH_LEN_MS) (s.after r Reg.RUL_EPOCH_OFS_OFS_NS)
  else none

/-- STEP_GO is written: what R42 refuses, judged by RUN and the step as they would stand. -/
def State.stepBad (s : State) (r : RegWrite) : Option Nat :=
  if r.given Reg.RUL_CTRL_STEP_GO = 1 then
    (s.wr Reg.RUL_STEP_DELTA_NS (s.after r Reg.RUL_STEP_DELTA_NS)).stepGoError (s.after r Reg.RUL_CTRL_RUN == 1)
  else none

/-- BAD_FIELD under R590. -/
def State.writeRangeBad (s : State) (r : RegWrite) : Bool :=
  r.addrs.any (fun a => (fieldsAt a).any (fun e => e.1.acc == .rw && rangeBad e.1 (s.after r e.1 e.2))) ||
  ((r.hits Reg.HAT_GRID_NX || r.hits Reg.HAT_GRID_NY) &&
    decide (262144 < s.after r Reg.HAT_GRID_NX * s.after r Reg.HAT_GRID_NY)) ||
  ((r.hits Reg.HAT_EGO_REF_MS || r.hits Reg.RUL_EPOCH_LEN_MS) && decide (2 * s.after r Reg.RUL_EPOCH_LEN_MS < s.after r Reg.HAT_EGO_REF_MS)) ||
  s.epochBad r == some stBadField || s.stepBad r == some stBadField || s.spqBad r == some stBadField || s.enableBad r ||
  (r.entries 0xE3000 32 15).any (fun p => (partError (s.tableAfter r (0xE3000 + 32 * p) 32)).isSome) ||
  (r.entries 0xE7000 8 64).any (fun e => !reactionOk (s.tableAfter r (0xE7000 + 8 * e) 8))

/-- A word of the active bank of the ruling table, the sensor table or the schedule, or of the inactive bank while a swap pends
(R591). -/
def State.bankBusy (s : State) (a : Nat) : Bool :=
  if 0x61000 ≤ a ∧ a < 0x65000 then (a - 0x61000) / 0x2000 == s.rd Reg.RUL_STAT_BANK || s.flag Reg.RUL_STAT_SWAP_PENDING
  else if 0x71000 ≤ a ∧ a < 0x73000 then (a - 0x71000) / 0x1000 == s.rd Reg.ING_ST_CTRL_BANK || s.flag Reg.ING_ST_CTRL_SWAP_PENDING
  else if 0xE1000 ≤ a ∧ a < 0xE3000 then (a - 0xE1000) / 0x1000 == s.rd Reg.PAR_STAT_BANK || s.flag Reg.PAR_STAT_SWAP_PENDING
  else false

/-- An entry of the partition table changes while it may not (R591). -/
def State.partLocked (s : State) (r : RegWrite) : Bool :=
  (r.entries 0xE3000 32 15).any (fun p =>
    let l := s.tableAfter r (0xE3000 + 32 * p) 32
    l != s.bytes (winAddr (0xE3000 + 32 * p)) 32 &&
    (s.jobs.any (fun j => j.part == p) || (s.partDefined p && !bit (fld l 0 1) 0 && s.partNamed p)))

/-- LOG2_SIZE or CQ of an enabled ring changes, or a completion ring in use is disabled (R392). -/
def State.ringLocked (s : State) (r : RegWrite) : Bool :=
  (List.range 64).any (fun q =>
    (s.flag Reg.HTP_SQ_EN q && (s.after r Reg.HTP_SQ_LOG2_SIZE q != s.rd Reg.HTP_SQ_LOG2_SIZE q ||
      s.after r Reg.HTP_SQ_CQ q != s.rd Reg.HTP_SQ_CQ q)) ||
    (s.flag Reg.HTP_CQ_EN q && (s.after r Reg.HTP_CQ_LOG2_SIZE q != s.rd Reg.HTP_CQ_LOG2_SIZE q ||
      (s.after r Reg.HTP_CQ_EN q == 0 &&
        (List.range 64).any (fun k => s.after r Reg.HTP_SQ_EN k == 1 && s.after r Reg.HTP_SQ_CQ k == q)))))

/-- WRONG_STATE by a field's own rule (R391, R392, R500, R560, R566, R568, R591). -/
def State.writeStateBad (s : State) (r : RegWrite) : Bool :=
  s.epochBad r == some stWrongState || s.stepBad r == some stWrongState || s.spqBad r == some stWrongState ||
  r.addrs.any s.bankBusy || s.partLocked r ||
  (r.given Reg.RUL_CTRL_SWAP == 1 && s.flag Reg.RUL_STAT_SWAP_PENDING) ||
  (r.given Reg.ING_ST_CTRL_SWAP == 1 && s.flag Reg.ING_ST_CTRL_SWAP_PENDING) ||
  (r.given Reg.PAR_CTRL_SWAP == 1 && s.flag Reg.PAR_STAT_SWAP_PENDING) ||
  (r.addrs.any (fun a => a / 256 == 0x1001 || a / 256 == 0x1002) && s.ringLocked r) ||
  (s.after r Reg.RNG_CHECK_PERIOD_US != s.rd Reg.RNG_CHECK_PERIOD_US && s.flag Reg.RNG_STAT_FORMED) ||
  (r.given Reg.HTP_CTRL_SETUP_DONE == 1 && s.dev != stSetup) ||
  (List.range 2).any (fun p => r.given Reg.HTP_PORT_MACSEC p == 1 && (s.sec.cak.find p).isNone) ||
  (r.given Reg.SEC_CTRL_ADVANCE == 1 && s.advanceError.isSome) || (r.given Reg.SEC_CTRL_UNLOCK == 1 && s.unlockError.isSome) ||
  (s.locked && r.addrs.any (fun a => decide (0x40004 ≤ a ∧ a < 0x40018)))

/-- The status of a register write in the order of R390, R25 and R590 first; 0 = it is carried out. -/
def State.writeError (s : State) (r : RegWrite) : Nat :=
  if r.addr % 4 ≠ 0 then stBadField
  else if r.addrs.any (fun a => !inBlock a) then stBadField
  else if s.writeRangeBad r then stBadField
  else if s.flag Reg.HTP_CTRL_SETUP_DONE ∧ r.addrs.any (fun a => a / 65536 != 0x12) then stWrongState
  else if s.writeStateBad r then stWrongState
  else stOk

/-! ### What a write does -/

/-- The word `w` written at `a` into its RW and W1C fields, and into the key words of SEC_CAK (R10, R201, R566). -/
def State.putFields (s : State) (a w : Nat) : State :=
  (fieldsAt a).foldl (fun s e =>
    let v := elemPut a w e.1 e.2 (s.rd e.1 e.2)
    match e.1.acc with
    | .rw => s.wr e.1 (if e.1 = Reg.PLT_PRE_TB_NS then min v 2500 else v) e.2
    | .w1c => s.wr e.1 (s.rd e.1 e.2 - (s.rd e.1 e.2 &&& elemPut a w e.1 e.2 0)) e.2
    | .wo => if e.1 = Reg.SEC_CAK_KEY then s.wr e.1 v e.2 else s
    | _ => s) s

/-- What is kept in the non-volatile store follows its registers (R526, R541, R548). -/
def State.keepSettings (s : State) : State :=
  { s with nv := { s.nv with memLevel := s.rd Reg.EAS_MEMTEST_LEVEL, aphyMin := s.rd Reg.EAS_LINKCHK_APHY_MIN,
                             sqiMin := s.rd Reg.EAS_LINKCHK_SQI_MIN,
                             ms := [s.flag Reg.HTP_PORT_MS 0, s.flag Reg.HTP_PORT_MS 1] } }

/-- RUL_CTRL: RUN takes its value first, then the reference is selected, a swap requested and a step applied (R36, R42, R50). -/
def State.rulCtrl (s : State) (w : Nat) : State :=
  let s := s.setRun (bit w 0)
  let s := if bits w 1 2 = s.rd Reg.RUL_CTRL_REF_SEL then s else (s.wr Reg.RUL_CTRL_REF_SEL (bits w 1 2)).reselect
  let s := if bit w 3 then s.wr Reg.RUL_STAT_SWAP_PENDING 1 else s
  if bit w 4 then s.stepGo else s

/-- SEC_CTRL (R560, R562, R567). -/
def State.secCtrl (s : State) (w : Nat) : State :=
  let s := if bit w 0 then s.attest else s
  let s := if bit w 1 then s.advance else s
  if bit w 2 then s.unlock else s

/-- One word of a write that passed its checks. The restart of EAS_CTRL follows the reply. -/
def State.writeWord (s : State) (a w : Nat) : State :=
  match tableOf a with
  | some true => s.storeNum (winAddr a) 4 w
  | some false => s
  | none =>
    if a = 0x0 then (if bit w 1 then s.nvSave else s)
    else if a = 0x8 ∨ a = 0xC ∨ a = 0x100020 ∨ a = 0x100028 then (s.putFields a w).keepSettings
    else if a = 0x20004 then s.secCtrl w
    else if a = 0x20080 ∨ a = 0x20084 then s.macsecWrite ((a - 0x20080) / 4) (bit w 0) (bit w 1)
    else if a = 0x40004 then (if bit w 0 then s.mgdGo else s)
    else if a = 0x50010 then s.pocWrite (bits w 0 12)
    else if a = 0x60000 then s.rulCtrl w
    else if a = 0x60020 then
      (s.wr Reg.RUL_EPOCH_SYNC_OBJ (bits w 16 16)).epochWrite (bits w 0 10) (s.rd Reg.RUL_EPOCH_OFS_OFS_NS)
    else if a = 0x60024 then s.epochWrite (s.rd Reg.RUL_EPOCH_LEN_MS) w
    else if a = 0x70300 then
      let s := s.putFields a w
      if bit w 0 then s.wr Reg.ING_ST_CTRL_SWAP_PENDING 1 else s
    else if a / 65536 = 8 ∧ a % 64 < 8 then s.spqWrite (a % 65536 / 64) (a % 64 / 4) w
    else if a = 0xE0000 then (if bit w 0 then s.wr Reg.PAR_STAT_SWAP_PENDING 1 else s)
    else if a = 0x100000 then s.setupDone (bit w 0)
    else s.putFields a w

/-- The words of a write with their addresses, in the order in which they take effect: by address, RUL_CTRL last, because a step is
judged and made with RUL_STEP as the request leaves it (R42, R590; log entry 98). -/
def RegWrite.ordered (r : RegWrite) : List (Nat × Nat) :=
  let l := r.addrs.zip r.words
  l.filter (fun e => e.1 != 0x60000) ++ l.filter (fun e => e.1 == 0x60000)

/-- The words of a write take effect. -/
def State.writeWords (s : State) (l : List (Nat × Nat)) : State := l.foldl (fun s e => s.writeWord e.1 e.2) s

/-- A register write: its status, and the state after it (R390). -/
def State.regWrite (s : State) (r : RegWrite) : State × Nat :=
  match s.writeError r with
  | 0 => (s.writeWords r.ordered, stOk)
  | e => (s, e)

/-! ### Requests and replies (R390) -/

/-- The status that the form of a request gives, BAD_LENGTH before the address; 0 = none (R390). -/
def requestError (write : Bool) (p : List Byte) : Nat :=
  let n := fld p 4 2
  if p.length < 8 ∨ n = 0 ∨ 64 < n ∨ p.length ≠ 8 + (if write then 4 * n else 0) then stBadLength
  else if fld p 0 4 % 4 ≠ 0 then stBadField else stOk

/-- A reply: status, three zero bytes and the words read. -/
def regReply (status : Nat) (ws : List Nat) : List Byte := le 1 status ++ zeros 3 ++ ws.flatMap (le 4)

/-- REG_READ: the request is checked whole, then its words are read and sent (R390). -/
def execRegRead (port : Fin 2) (r : ReadRequest) (s : State) : Res :=
  .next (s.reliable false port.val r.frame 0x10 (fun s p =>
    if requestError false p ≠ stOk then s.sendReliable false 0x10 (regReply (requestError false p) [])
    else
      let (s, ws) := State.readWords r.bad r.upset (fld p 4 2) (fld p 0 4) s
      s.sendReliable false 0x10 (regReply stOk ws)))

/-- The write that a request makes. -/
def requestWrite (p : List Byte) : RegWrite := ⟨fld p 0 4, (List.range (fld p 4 2)).map (fun k => fld p (8 + 4 * k) 4)⟩

/-- The write sets EAS_CTRL.RESTART (R546). -/
def RegWrite.restarts (r : RegWrite) : Bool := r.given Reg.EAS_CTRL_RESTART == 1

/-- REG_WRITE: the request is checked whole, then written and answered; a restart follows the answer (R390, R546). -/
def execRegWrite (port : Fin 2) (f : HostFrame) (s : State) : Res :=
  .next (s.reliable false port.val f 0x11 (fun s p =>
    if requestError true p ≠ stOk then s.sendReliable false 0x11 (regReply (requestError true p) [])
    else
      let r := requestWrite p
      let (s, st) := s.regWrite r
      let s := s.sendReliable false 0x11 (regReply st [])
      if st = stOk ∧ r.restarts then s.coldStart else s))

end Sys2Proof.Machine
end

