-- ==== Sys2Proof/Machine/Dispatch.lean ====
section
/-! DEFINITION. The dispatch of commands to their meanings: one arm per constructor. -/

namespace Sys2Proof.Machine

/-- The effect of one command on the state (all but the queue of waiting commands). -/
def exec (i : Instr) (s : State) : Host.Outcome State Fault Refusal :=
  match i with
  | .timeTick => Sys2Proof.Machine.execTimeTick s
  | .islandRelock island khz => Sys2Proof.Machine.execIslandRelock island khz s
  | .powerLimitAdjust powerDw khz => Sys2Proof.Machine.execPowerLimitAdjust powerDw khz s
  | .powerMonitorTrip powerDw => Sys2Proof.Machine.execPowerMonitorTrip powerDw s
  | .powerMonitorRelease powerDw => Sys2Proof.Machine.execPowerMonitorRelease powerDw s
  | .domainSwitchOff dom => Sys2Proof.Machine.execDomainSwitchOff dom s
  | .domainSwitchOn doms => Sys2Proof.Machine.execDomainSwitchOn doms s
  | .gptpEventRx port msg => Sys2Proof.Machine.execGptpEventRx port msg s
  | .ppsEdge => Sys2Proof.Machine.execPpsEdge s
  | .servoUpdate m => Sys2Proof.Machine.execServoUpdate m s
  | .referenceLost => Sys2Proof.Machine.execReferenceLost s
  | .gptpSyncTx port seqId gm => Sys2Proof.Machine.execGptpSyncTx port seqId gm s
  | .stepGo runNew => Sys2Proof.Machine.execStepGo runNew s
  | .rulSwap => Sys2Proof.Machine.execRulSwap s
  | .rulEpochWrite lenMs ofsNs => Sys2Proof.Machine.execRulEpochWrite lenMs ofsNs s
  | .epochBoundary => Sys2Proof.Machine.execEpochBoundary s
  | .triggerFire entry => Sys2Proof.Machine.execTriggerFire entry s
  | .backChannelTrigger entry => Sys2Proof.Machine.execBackChannelTrigger entry s
  | .phaseCommand entry => Sys2Proof.Machine.execPhaseCommand entry s
  | .csi2PacketRx port p => Sys2Proof.Machine.execCsi2PacketRx port p s
  | .ethFrameRx port f => Sys2Proof.Machine.execEthFrameRx port f s
  | .canFrameRx chan f => Sys2Proof.Machine.execCanFrameRx chan f s
  | .dataReadyEdge port d => Sys2Proof.Machine.execDataReadyEdge port d s
  | .ingestLinkDown link => Sys2Proof.Machine.execIngestLinkDown link s
  | .linkCheckPass link quality => Sys2Proof.Machine.execLinkCheckPass link quality s
  | .linkCheckLost link => Sys2Proof.Machine.execLinkCheckLost link s
  | .idReadAttempt sensor read => Sys2Proof.Machine.execIdReadAttempt sensor read s
  | .lldpRx port chassis => Sys2Proof.Machine.execLldpRx port chassis s
  | .sensorTimeout sensor => Sys2Proof.Machine.execSensorTimeout sensor s
  | .ingSwap => Sys2Proof.Machine.execIngSwap s
  | .spqCtrlWrite queue word value => Sys2Proof.Machine.execSpqCtrlWrite queue word value s
  | .queueRead queue codeBad upset => Sys2Proof.Machine.execQueueRead queue codeBad upset s
  | .spqPop queue codeBad upset => Sys2Proof.Machine.execSpqPop queue codeBad upset s
  | .hatchInputClose => Sys2Proof.Machine.execHatchInputClose s
  | .h1FrameDone port => Sys2Proof.Machine.execH1FrameDone port s
  | .h2PacketDecode port => Sys2Proof.Machine.execH2PacketDecode port s
  | .h3TrackDone env => Sys2Proof.Machine.execH3TrackDone env s
  | .h4TransformDone => Sys2Proof.Machine.execH4TransformDone s
  | .evidencePlaneWrite plate ofs data => Sys2Proof.Machine.execEvidencePlaneWrite plate ofs data s
  | .evidenceWaitExpiry => Sys2Proof.Machine.execEvidenceWaitExpiry s
  | .h5VoteDone => Sys2Proof.Machine.execH5VoteDone s
  | .h6EpochRecord => Sys2Proof.Machine.execH6EpochRecord s
  | .hatchWatchdog stage late => Sys2Proof.Machine.execHatchWatchdog stage late s
  | .goldenInstant => Sys2Proof.Machine.execGoldenInstant s
  | .testStarved => Sys2Proof.Machine.execTestStarved s
  | .goldenRunDone upsets => Sys2Proof.Machine.execGoldenRunDone upsets s
  | .stippleJobStart => Sys2Proof.Machine.execStippleJobStart s
  | .voxelise det => Sys2Proof.Machine.execVoxelise det s
  | .sort det => Sys2Proof.Machine.execSort det s
  | .neighbours det => Sys2Proof.Machine.execNeighbours det s
  | .rulebook det => Sys2Proof.Machine.execRulebook det s
  | .xnBurin plate core rd rs1 => Sys2Proof.Machine.execXnBurin plate core rd rs1 s
  | .loadw plate upset => Sys2Proof.Machine.execLoadw plate upset s
  | .matmul plate upset => Sys2Proof.Machine.execMatmul plate upset s
  | .drain plate upset => Sys2Proof.Machine.execDrain plate upset s
  | .loadc plate upset => Sys2Proof.Machine.execLoadc plate upset s
  | .burinNop plate => Sys2Proof.Machine.execBurinNop plate s
  | .tileRecompute plate => Sys2Proof.Machine.execTileRecompute plate s
  | .xnDmaq plate core rd rs1 => Sys2Proof.Machine.execXnDmaq plate core rd rs1 s
  | .dmaRows plate go => Sys2Proof.Machine.execDmaRows plate go s
  | .dmaGather plate go => Sys2Proof.Machine.execDmaGather plate go s
  | .dmaScatter plate go => Sys2Proof.Machine.execDmaScatter plate go s
  | .plateLaunch sq d => Sys2Proof.Machine.execPlateLaunch sq d s
  | .launchStart job => Sys2Proof.Machine.execLaunchStart job s
  | .launchComplete job => Sys2Proof.Machine.execLaunchComplete job s
  | .needleInstruction plate core ins => Sys2Proof.Machine.execNeedleInstruction plate core ins s
  | .ecallExit plate core => Sys2Proof.Machine.execEcallExit plate core s
  | .xnSig plate core rs1 rs2 => Sys2Proof.Machine.execXnSig plate core rs1 rs2 s
  | .xnWait plate core rd rs1 rs2 => Sys2Proof.Machine.execXnWait plate core rd rs1 rs2 s
  | .xnWaitDone plate core => Sys2Proof.Machine.execXnWaitDone plate core s
  | .xnSread plate core rd rs1 => Sys2Proof.Machine.execXnSread plate core rd rs1 s
  | .xnCrc plate core rd rs1 rs2 => Sys2Proof.Machine.execXnCrc plate core rd rs1 rs2 s
  | .xnVcrc plate core vm rd vs2 rs1 => Sys2Proof.Machine.execXnVcrc plate core vm rd vs2 rs1 s
  | .xnFexpd plate core rd rs1 rs2 => Sys2Proof.Machine.execXnFexpd plate core rd rs1 rs2 s
  | .xnVexpd plate core vm vd vs2 rs1 => Sys2Proof.Machine.execXnVexpd plate core vm vd vs2 rs1 s
  | .xnVcurve plate core vm vd vs2 rs1 => Sys2Proof.Machine.execXnVcurve plate core vm vd vs2 rs1 s
  | .xnVrmax plate core vm rd vs2 rs1 => Sys2Proof.Machine.execXnVrmax plate core vm rd vs2 rs1 s
  | .xnVncvt plate core vm fmt vd vs2 rs1 => Sys2Proof.Machine.execXnVncvt plate core vm fmt vd vs2 rs1 s
  | .xnVwcvt plate core vm fmt vd vs2 rs1 => Sys2Proof.Machine.execXnVwcvt plate core vm fmt vd vs2 rs1 s
  | .xnVmxscale plate core vm fmt rd vs2 => Sys2Proof.Machine.execXnVmxscale plate core vm fmt rd vs2 s
  | .trcCommit tracer => Sys2Proof.Machine.execTrcCommit tracer s
  | .deferredFlush tracer cache seq layer => Sys2Proof.Machine.execDeferredFlush tracer cache seq layer s
  | .trcScore tracer => Sys2Proof.Machine.execTrcScore tracer s
  | .trcMap tracer => Sys2Proof.Machine.execTrcMap tracer s
  | .labMissWalk plate cache seq layer page det => Sys2Proof.Machine.execLabMissWalk plate cache seq layer page det s
  | .slotRelease tracer cache slot => Sys2Proof.Machine.execSlotRelease tracer cache slot s
  | .cacheRegister job => Sys2Proof.Machine.execCacheRegister job s
  | .cacheUnregister job => Sys2Proof.Machine.execCacheUnregister job s
  | .cacheCreate job => Sys2Proof.Machine.execCacheCreate job s
  | .cacheFork job => Sys2Proof.Machine.execCacheFork job s
  | .cacheTruncate job => Sys2Proof.Machine.execCacheTruncate job s
  | .cacheFree job => Sys2Proof.Machine.execCacheFree job s
  | .cachePlace job remoteSlots => Sys2Proof.Machine.execCachePlace job remoteSlots s
  | .brnRegister job => Sys2Proof.Machine.execBrnRegister job s
  | .brnValues job => Sys2Proof.Machine.execBrnValues job s
  | .brnUpdate job => Sys2Proof.Machine.execBrnUpdate job s
  | .brnRun job => Sys2Proof.Machine.execBrnRun job s
  | .brnArm job => Sys2Proof.Machine.execBrnArm job s
  | .brnDisarm job => Sys2Proof.Machine.execBrnDisarm job s
  | .brnRelease job => Sys2Proof.Machine.execBrnRelease job s
  | .brnTrigger prob => Sys2Proof.Machine.execBrnTrigger prob s
  | .brnRunStart det => Sys2Proof.Machine.execBrnRunStart det s
  | .brnSolve env => Sys2Proof.Machine.execBrnSolve env s
  | .brnSpmv det => Sys2Proof.Machine.execBrnSpmv det s
  | .brnAxpby det => Sys2Proof.Machine.execBrnAxpby det s
  | .brnClamp det => Sys2Proof.Machine.execBrnClamp det s
  | .brnStepCopy det => Sys2Proof.Machine.execBrnStepCopy det s
  | .brnLoop => Sys2Proof.Machine.execBrnLoop s
  | .brnTest det => Sys2Proof.Machine.execBrnTest det s
  | .brnOut => Sys2Proof.Machine.execBrnOut s
  | .brnUpdateIn => Sys2Proof.Machine.execBrnUpdateIn s
  | .brnEnd => Sys2Proof.Machine.execBrnEnd s
  | .brnDeadline => Sys2Proof.Machine.execBrnDeadline s
  | .ctxOpen job => Sys2Proof.Machine.execCtxOpen job s
  | .ctxClose job => Sys2Proof.Machine.execCtxClose job s
  | .invalidate job => Sys2Proof.Machine.execInvalidate job s
  | .resume job => Sys2Proof.Machine.execResume job s
  | .abort job => Sys2Proof.Machine.execAbort job s
  | .memCopy job go => Sys2Proof.Machine.execMemCopy job go s
  | .channelSelfResume chan => Sys2Proof.Machine.execChannelSelfResume chan s
  | .nrTimeout chan => Sys2Proof.Machine.execNrTimeout chan s
  | .refreshRateChange chan report => Sys2Proof.Machine.execRefreshRateChange chan report s
  | .ddrChannelOnline chan => Sys2Proof.Machine.execDdrChannelOnline chan s
  | .preemptRequest plate late => Sys2Proof.Machine.execPreemptRequest plate late s
  | .launchResume job => Sys2Proof.Machine.execLaunchResume job s
  | .majorFrameBoundary => Sys2Proof.Machine.execMajorFrameBoundary s
  | .windowStart => Sys2Proof.Machine.execWindowStart s
  | .parSwap => Sys2Proof.Machine.execParSwap s
  | .schedLoad job => Sys2Proof.Machine.execSchedLoad job s
  | .partSet job => Sys2Proof.Machine.execPartSet job s
  | .taskSet job => Sys2Proof.Machine.execTaskSet job s
  | .taskClear job => Sys2Proof.Machine.execTaskClear job s
  | .chainSet job => Sys2Proof.Machine.execChainSet job s
  | .chainClear job => Sys2Proof.Machine.execChainClear job s
  | .lateArrival task => Sys2Proof.Machine.execLateArrival task s
  | .budgetViolation task => Sys2Proof.Machine.execBudgetViolation task s
  | .deadlineViolation task => Sys2Proof.Machine.execDeadlineViolation task s
  | .chainLate chain => Sys2Proof.Machine.execChainLate chain s
  | .syncSet job => Sys2Proof.Machine.execSyncSet job s
  | .syncRead job => Sys2Proof.Machine.execSyncRead job s
  | .syncGrant job => Sys2Proof.Machine.execSyncGrant job s
  | .descriptorStart job => Sys2Proof.Machine.execDescriptorStart job s
  | .waitTimeout job => Sys2Proof.Machine.execWaitTimeout job s
  | .hello port f => Sys2Proof.Machine.execHello port f s
  | .heartbeat port f => Sys2Proof.Machine.execHeartbeat port f s
  | .regRead port r => Sys2Proof.Machine.execRegRead port r s
  | .regWrite port f => Sys2Proof.Machine.execRegWrite port f s
  | .setupDone value => Sys2Proof.Machine.execSetupDone value s
  | .doorbell port f => Sys2Proof.Machine.execDoorbell port f s
  | .nop job => Sys2Proof.Machine.execNop job s
  | .tableLoad job => Sys2Proof.Machine.execTableLoad job s
  | .readmit job => Sys2Proof.Machine.execReadmit job s
  | .completion cq => Sys2Proof.Machine.execCompletion cq s
  | .event => Sys2Proof.Machine.execEvent s
  | .epochStream queue => Sys2Proof.Machine.execEpochStream queue s
  | .bulkPush port f det => Sys2Proof.Machine.execBulkPush port f det s
  | .bulkPull port f det => Sys2Proof.Machine.execBulkPull port f det s
  | .bulkCredit port f => Sys2Proof.Machine.execBulkCredit port f s
  | .ackHeartbeat => Sys2Proof.Machine.execAckHeartbeat s
  | .retransmit bulk => Sys2Proof.Machine.execRetransmit bulk s
  | .hostLinkDown port => Sys2Proof.Machine.execHostLinkDown port s
  | .deviceHeartbeat => Sys2Proof.Machine.execDeviceHeartbeat s
  | .hostLost => Sys2Proof.Machine.execHostLost s
  | .sessionlessHello port => Sys2Proof.Machine.execSessionlessHello port s
  | .flitRx port flit => Sys2Proof.Machine.execFlitRx port flit s
  | .flitReplay port => Sys2Proof.Machine.execFlitReplay port s
  | .laneRetrain lane cause => Sys2Proof.Machine.execLaneRetrain lane cause s
  | .prbsRunDone lane errors => Sys2Proof.Machine.execPrbsRunDone lane errors s
  | .ringHello port => Sys2Proof.Machine.execRingHello port s
  | .neighbourLoss port => Sys2Proof.Machine.execNeighbourLoss port s
  | .censusTimeout => Sys2Proof.Machine.execCensusTimeout s
  | .roleLoad job => Sys2Proof.Machine.execRoleLoad job s
  | .allGather go => Sys2Proof.Machine.execAllGather go s
  | .reduceScatter go => Sys2Proof.Machine.execReduceScatter go s
  | .ringPass go => Sys2Proof.Machine.execRingPass go s
  | .joinTimeout job => Sys2Proof.Machine.execJoinTimeout job s
  | .collectiveStall job => Sys2Proof.Machine.execCollectiveStall job s
  | .checkEpochClose => Sys2Proof.Machine.execCheckEpochClose s
  | .checkLimitExpiry => Sys2Proof.Machine.execCheckLimitExpiry s
  | .containment code unit => Sys2Proof.Machine.execContainment code unit s
  | .supervisorMismatch => Sys2Proof.Machine.execSupervisorMismatch s
  | .proofCheck plate slot upset => Sys2Proof.Machine.execProofCheck plate slot upset s
  | .proofArbitrate plate slot upset => Sys2Proof.Machine.execProofArbitrate plate slot upset s
  | .digestCompute region => Sys2Proof.Machine.execDigestCompute region s
  | .digestWaitExpiry region => Sys2Proof.Machine.execDigestWaitExpiry region s
  | .fieldTest job => Sys2Proof.Machine.execFieldTest job s
  | .fieldTestDone unit failSub => Sys2Proof.Machine.execFieldTestDone unit failSub s
  | .offline job => Sys2Proof.Machine.execOffline job s
  | .online job => Sys2Proof.Machine.execOnline job s
  | .regionSet job => Sys2Proof.Machine.execRegionSet job s
  | .regionClear job => Sys2Proof.Machine.execRegionClear job s
  | .reload job => Sys2Proof.Machine.execReload job s
  | .history job => Sys2Proof.Machine.execHistory job s
  | .eventAgeout unit => Sys2Proof.Machine.execEventAgeout unit s
  | .regionVerify region => Sys2Proof.Machine.execRegionVerify region s
  | .safeInAssert => Sys2Proof.Machine.execSafeInAssert s
  | .safeInRelease => Sys2Proof.Machine.execSafeInRelease s
  | .safeHoldExpiry src => Sys2Proof.Machine.execSafeHoldExpiry src s
  | .clockSupervision ok => Sys2Proof.Machine.execClockSupervision ok s
  | .safeLineFault line mv => Sys2Proof.Machine.execSafeLineFault line mv s
  | .marginFrame path f => Sys2Proof.Machine.execMarginFrame path f s
  | .mgdGo => Sys2Proof.Machine.execMgdGo s
  | .thermalThrottle tj => Sys2Proof.Machine.execThermalThrottle tj s
  | .thermalTrip tj => Sys2Proof.Machine.execThermalTrip tj s
  | .thermalRecover tj => Sys2Proof.Machine.execThermalRecover tj s
  | .selftestSlice unit durNs => Sys2Proof.Machine.execSelftestSlice unit durNs s
  | .sliceDone unit pass => Sys2Proof.Machine.execSliceDone unit pass s
  | .selftestLapsed unit => Sys2Proof.Machine.execSelftestLapsed unit s
  | .powerGood vinMv => Sys2Proof.Machine.execPowerGood vinMv s
  | .startupBist fails => Sys2Proof.Machine.execStartupBist fails s
  | .romBootDone => Sys2Proof.Machine.execRomBootDone s
  | .ddrTrainingDone chan restored full => Sys2Proof.Machine.execDdrTrainingDone chan restored full s
  | .regionRelease unit badGranules => Sys2Proof.Machine.execRegionRelease unit badGranules s
  | .regionTestFail region kind addr => Sys2Proof.Machine.execRegionTestFail region kind addr s
  | .retentionPause half abandoned => Sys2Proof.Machine.execRetentionPause half abandoned s
  | .firmwareVerify readFail => Sys2Proof.Machine.execFirmwareVerify readFail s
  | .needleFwMulticast => Sys2Proof.Machine.execNeedleFwMulticast s
  | .unitReady fn => Sys2Proof.Machine.execUnitReady fn s
  | .nvsave => Sys2Proof.Machine.execNvsave s
  | .nvsaveDone => Sys2Proof.Machine.execNvsaveDone s
  | .restart => Sys2Proof.Machine.execRestart s
  | .attest => Sys2Proof.Machine.execAttest s
  | .attestPublish => Sys2Proof.Machine.execAttestPublish s
  | .advance => Sys2Proof.Machine.execAdvance s
  | .fuseBitBlown => Sys2Proof.Machine.execFuseBitBlown s
  | .unlock => Sys2Proof.Machine.execUnlock s
  | .macsecLoad port save => Sys2Proof.Machine.execMacsecLoad port save s
  | .supplyBandChange vinMv heldUs => Sys2Proof.Machine.execSupplyBandChange vinMv heldUs s
  | .brownOut => Sys2Proof.Machine.execBrownOut s
  | .wakeLow => Sys2Proof.Machine.execWakeLow s
  | .wakePowerOff => Sys2Proof.Machine.execWakePowerOff s
  | .cameraOvercurrent port mA => Sys2Proof.Machine.execCameraOvercurrent port mA s
  | .cameraReclose port => Sys2Proof.Machine.execCameraReclose port s
  | .pwrPocWrite enable => Sys2Proof.Machine.execPwrPocWrite enable s
  | .vcamRange mv => Sys2Proof.Machine.execVcamRange mv s
  | .baseRange temp => Sys2Proof.Machine.execBaseRange temp s
  | .missionEnd => Sys2Proof.Machine.execMissionEnd s
  | .wakeRise => Sys2Proof.Machine.execWakeRise s
  | .safeLineFaultCured line => Sys2Proof.Machine.execSafeLineFaultCured line s
  | .gptpGeneralRx port msg => Sys2Proof.Machine.execGptpGeneralRx port msg s
  | .pdelayReqTx port => Sys2Proof.Machine.execPdelayReqTx port s
  | .imuSelfCheckDone pass => Sys2Proof.Machine.execImuSelfCheckDone pass s
  | .hostFrameDiscarded port f => Sys2Proof.Machine.execHostFrameDiscarded port f s

end Sys2Proof.Machine
end

