-- ==== Sys2Proof/Safety.lean ====
section
/-! DEFINITION. What counts as a safe run of the block, in the terms that claims use. -/

namespace Sys2Proof.Safety

open Sys2Proof.Machine

/-- The invariant of every state: memory is in its canonical form (log entry 3). -/
def Inv (s : State) : Prop := Memory.wf s.mem = true

/-- A step is safe when it answers a next state. -/
def Completes (s : State) : Prop := ∃ t, step s = .next t

/-- Safe-state line A (mask 1) or B (mask 2) is asserted (R483). -/
def LineAsserted (s : State) (m : Nat) : Prop := s.lineHeld m = true

end Sys2Proof.Safety
end

