-- ==== Sys2Proof/Certificates/Slice0/Obligations.lean ====
section
/-! DEFINITION. The statements for the provers: what each family of commands leaves when it completes, the rules of the spec that say
what the machine does, and what every step keeps. -/

open Sys2Proof Sys2Proof.Machine

/-- Under conditions on the state and the operands alone, each of the seven commands answers a next state, with these effects (R2, R17,
R19, R32, R504, R517, R592). timeTick: device time grows by RUL_INC modulo 2^96, the ticks by 1 and the operating seconds at whole
seconds. islandRelock: the island's clock becomes the chosen frequency, for a plate at most the fused one and, above the power limit, at
most its present one; its gate closes until a free tick at most 20 µs ahead, and no other gate changes. powerLimitAdjust at or below the
limit: every enabled plate's clock becomes the chosen frequency capped by the fused one; above the limit: a clock below the present one,
and the lowest one or less once the excess has lasted 10 ms. powerMonitorTrip: above 11/10 of the limit the trip is dated at this tick and
the excess stays dated. powerMonitorRelease: from 100 ms after the trip's date and below the limit both are forgotten. domainSwitchOff: the
domain's bit is cleared, its memory reads as memory that nothing has written, and every other byte stays. domainSwitchOn of one domain
with none switched on in the last 250 µs: its bit is set, this tick is kept, and a commons half reads zero. -/
def Obligations.PowerCommandsComplete : Prop :=
  (∀ s : State, s.power ≠ .off →
    exec .timeTick s = .next ({ s with
      tm := { s.tm with dt96 := (s.tm.dt96 + s.inc) % 2 ^ 96 }, ticks := s.ticks + 1,
      nv := { s.nv with seconds := s.nv.seconds + (if (s.ticks + 1) % 250000000 = 0 then 1 else 0) } } : State).flushGathers) ∧
  (∀ (s : State) (i : Fin 44) (khz : Nat), s.alive = true → i.val ≠ islandAon →
    ∃ t, exec (.islandRelock i khz) s = .next t ∧
      t.pwr.clock = s.pwr.clock.set i.val (if i.val < 34 then
        (if s.pwr.overLimit.isSome then min (min khz s.part.clockKhz) (s.pwr.clock.get s.part.clockKhz i.val) else min khz s.part.clockKhz)
        else khz) ∧
      t.pwr.gateUntil.get 0 i.val ≤ s.ticks + usTicks 20 ∧
      ∀ j : Nat, j ≠ i.val → t.pwr.gateUntil.get 0 j = s.pwr.gateUntil.get 0 j) ∧
  (∀ (s : State) (powerDw khz : Nat), s.alive = true → powerDw ≤ 10 * s.part.limitW →
    ∃ t, exec (.powerLimitAdjust powerDw khz) s = .next t ∧ t.pwr.overLimit = none ∧
      t.pwr.clock = s.platesOn.foldl (fun m p => m.set p (min khz s.part.clockKhz)) s.pwr.clock) ∧
  (∀ (s : State) (powerDw khz : Nat), s.alive = true → 10 * s.part.limitW < powerDw →
    ∃ t, exec (.powerLimitAdjust powerDw khz) s = .next t ∧ t.pwr.overLimit = some (s.pwr.overLimit.getD s.ticks) ∧
      t.pwr.clock = s.platesOn.foldl (fun m p => m.set p
        (if s.overLong then min Config.lowestKhz (s.pwr.clock.get s.part.clockKhz p - 1)
         else min (min khz s.part.clockKhz) (s.pwr.clock.get s.part.clockKhz p - 1))) s.pwr.clock) ∧
  (∀ (s : State) (powerDw : Nat), s.alive = true → 11 * s.part.limitW < powerDw →
    ∃ t, exec (.powerMonitorTrip powerDw) s = .next t ∧ t.sup = { s.sup with trippedAt := some s.ticks } ∧
      t.pwr.overLimit = some (s.pwr.overLimit.getD s.ticks) ∧ t.pwr.clock = s.pwr.clock) ∧
  (∀ (s : State) (powerDw t : Nat), s.sup.trippedAt = some t → t + msTicks 100 ≤ s.ticks → powerDw < 10 * s.part.limitW →
    ∃ u, exec (.powerMonitorRelease powerDw) s = .next u ∧ u.sup = { s.sup with trippedAt := none } ∧ u.pwr.overLimit = none ∧
      u.pwr.clock = s.pwr.clock) ∧
  (∀ (s : State) (d : Fin 43), s.power = .starting → d.val ≠ 0 → bit s.pwr.domains d.val = true → s.domainIdle d.val = true →
    ∃ t, exec (.domainSwitchOff d) s = .next t ∧ t.pwr.domains = s.pwr.domains - 2 ^ d.val ∧
      (∀ a, (domainMem d.val).1 ≤ a → a < (domainMem d.val).1 + (domainMem d.val).2 → t.byte a = memDefault a) ∧
      (∀ a, (a < (domainMem d.val).1 ∨ (domainMem d.val).1 + (domainMem d.val).2 ≤ a) → t.byte a = s.byte a)) ∧
  (∀ (s : State) (d : Fin 43), s.alive = true → d.val ≠ 0 → bit s.pwr.domains d.val = false → s.pwr.switched = [] →
    ∃ t, exec (.domainSwitchOn [d]) s = .next t ∧ t.pwr.domains = s.pwr.domains ||| 2 ^ d.val ∧ t.pwr.switched = [s.ticks] ∧
      ((d.val = 35 ∨ d.val = 36) → ∀ o, o < 10485760 → t.byte (gaddr spCommons ((d.val - 35) * 10485760 + o)) = 0#8))

/-- Under conditions on the state and the operands alone, each of the ten commands answers the next state that the clause writes out
(R32 to R46, R48, R50, R51, R591). servoUpdate: RUL_OFFSET takes the clamped offset; within STEP_THR the rate is loaded from offset and rate
error, beyond it (local time behind, or RUN 0) device time steps by minus the offset and the rate is loaded without it; the lock is judged
and the rate saved. referenceLost: PPS is given up 1.5 s after its edge, the gPTP port after three sync intervals, and the reference is
chosen anew. ppsEdge: the edge is dated, and good when it came 1 s within 100 ppm after the one before. stepGo, rulSwap, rulEpochWrite:
before SETUP_DONE and without an error they step, set SWAP_PENDING, write the epoch. gptpEventRx: a stamp is kept, less the port's receive
latency, of a two-step Sync on the slave port and of a Pdelay_Resp. gptpGeneralRx: a Follow_Up uses its Sync's stamp. gptpSyncTx: the
grandmaster's Sync keeps a stamp and leaves with the departure time. pdelayReqTx: the next sequence number leaves and its stamp is kept. -/
def Obligations.TimeCommandsComplete : Prop :=
  (∀ (s : State) (m : ServoMeas), s.alive = true → s.tm.ref = (if m.pps then .pps else .gptp) → m.oDen ≠ 0 → m.updNs ≠ 0 → m.rDen ≠ 0 →
      0 < (m.rDen : Int) + m.rNum → m.oNum.natAbs ≤ s.rd Reg.RUL_SERVO_STEP_STEP_THR * m.oDen →
    ∃ t u, t = (s.wr Reg.RUL_OFFSET_O (toU 32 (clampI (-(2 ^ 31 - 1)) (2 ^ 31 - 1) (roundDiv m.oNum m.oDen)))).loadInc (servoInc m m.oNum) ∧
      u = (if m.pps then t else t.secondsKnown) ∧
      exec (.servoUpdate m) s = .next (u.lockUpdate (decide (m.oNum.natAbs ≤ s.rd Reg.RUL_SERVO_LOCK_THR * m.oDen))
        (decide (4 * (s.rd Reg.RUL_SERVO_LOCK_THR * m.oDen) < m.oNum.natAbs))).saveRate) ∧
  (∀ (s : State) (m : ServoMeas), s.alive = true → s.tm.ref = (if m.pps then .pps else .gptp) → m.oDen ≠ 0 → m.updNs ≠ 0 → m.rDen ≠ 0 →
      0 < (m.rDen : Int) + m.rNum → s.rd Reg.RUL_SERVO_STEP_STEP_THR * m.oDen < m.oNum.natAbs →
      (m.oNum < 0 ∨ s.flag Reg.RUL_CTRL_RUN = false) →
    ∃ t u, t = ((s.wr Reg.RUL_OFFSET_O (toU 32 (clampI (-(2 ^ 31 - 1)) (2 ^ 31 - 1) (roundDiv m.oNum m.oDen)))).stepTime
        (roundDiv (-m.oNum * 2 ^ 32) m.oDen)).loadInc (servoInc m 0) ∧
      u = (if m.pps then t else t.secondsKnown) ∧
      exec (.servoUpdate m) s = .next (u.lockUpdate (decide (m.oNum.natAbs ≤ s.rd Reg.RUL_SERVO_LOCK_THR * m.oDen))
        (decide (4 * (s.rd Reg.RUL_SERVO_LOCK_THR * m.oDen) < m.oNum.natAbs))).saveRate) ∧
  (∀ s : State, s.alive = true → s.tm.ref = .pps → (s.tm.ppsAt.getD 0) + 375000000 ≤ s.ticks →
    exec .referenceLost s = .next (s.setTm { s.tm with ppsOk := false }).reselect) ∧
  (∀ (s : State) (p : Nat), s.alive = true → s.tm.ref = .gptp → s.tm.gptpSlave = some p → s.tm.refAt + 3 * s.tm.syncNs / 4 ≤ s.ticks →
    exec .referenceLost s = .next (s.setTm { s.tm with gptpSlave := none, best := s.tm.best.erase p }).reselect) ∧
  (∀ (s : State) (t : Nat), s.alive = true → s.tm.ppsAt = some t →
    exec .ppsEdge s = .next (s.setTm { s.tm with
      ppsAt := some s.ticks, ppsOk := decide (249975000 ≤ s.ticks - t ∧ s.ticks - t ≤ 250025000) }).reselect) ∧
  (∀ s : State, s.alive = true → s.tm.ppsAt = none →
    exec .ppsEdge s = .next (s.setTm { s.tm with ppsAt := some s.ticks, ppsOk := false }).reselect) ∧
  (∀ (s : State) (r : Option Bool), s.alive = true → s.flag Reg.HTP_CTRL_SETUP_DONE = false →
      s.stepGoError (r.getD (s.flag Reg.RUL_CTRL_RUN)) = none →
    exec (.stepGo r) s = .next ((s.setRun (r.getD (s.flag Reg.RUL_CTRL_RUN))).stepGo)) ∧
  (∀ s : State, s.flag Reg.RUL_STAT_SWAP_PENDING = false → s.flag Reg.HTP_CTRL_SETUP_DONE = false →
    exec .rulSwap s = .next (s.wr Reg.RUL_STAT_SWAP_PENDING 1)) ∧
  (∀ (s : State) (len : BitVec 10) (ofs : BitVec 32), s.flag Reg.HTP_CTRL_SETUP_DONE = false → s.flag Reg.RUL_CTRL_RUN = false →
      10 ≤ len.toNat → len.toNat ≤ 1000 → ofs.toNat < len.toNat * 1000000 →
    exec (.rulEpochWrite (some len) (some ofs)) s = .next (s.epochWrite len.toNat ofs.toNat)) ∧
  (∀ (s : State) (p : Fin 8) (m : GptpEvent), s.alive = true → s.unitUp (stampUnit p.val) = true → m.msgType.val = 0 → m.twoStep = true →
      ((s.tm.rx.get [] p.val).length < 16) → s.tm.gptpSlave = some p.val →
    exec (.gptpEventRx p m) s = .next ((s.setTm { s.tm with
      rx := s.tm.rx.set p.val (s.tm.rx.get [] p.val ++ [⟨s.tm.dt96 / 2 ^ 29 - s.rd Reg.RUL_PLAT_RX_LAT p.val, 0, m.seqId.toNat⟩]),
      refAt := s.ticks }).syncInterval p.val m.logInterval)) ∧
  (∀ (s : State) (p : Fin 8) (m : GptpEvent), s.alive = true → s.unitUp (stampUnit p.val) = true → m.msgType.val = 3 →
      ((s.tm.rx.get [] p.val).length < 16) →
    exec (.gptpEventRx p m) s = .next (s.setTm { s.tm with
      rx := s.tm.rx.set p.val (s.tm.rx.get [] p.val ++ [⟨s.tm.dt96 / 2 ^ 29 - s.rd Reg.RUL_PLAT_RX_LAT p.val, 3, m.seqId.toNat⟩]),
      pdelayAt := s.tm.pdelayAt.set p.val s.ticks }).discoverAll) ∧
  (∀ (s : State) (p : Fin 8) (m : GptpGeneral), s.alive = true → s.unitUp (stampUnit p.val) = true → m.msgType.val = 8 →
      s.hasStamp p.val 0 m.seqId.toNat = true →
    exec (.gptpGeneralRx p m) s = .next ((s.syncUsed p.val m.originNs).useStamp false p.val 0 m.seqId.toNat)) ∧
  (∀ (s : State) (p : Fin 8) (q : BitVec 16), s.alive = true → s.unitUp (stampUnit p.val) = true → s.tm.gptpSlave = none →
      (s.tm.tx.get [] p.val).length < 16 →
    exec (.gptpSyncTx p q true) s = .next (((s.setTm { s.tm with
      tx := s.tm.tx.set p.val (s.tm.tx.get [] p.val ++ [⟨s.departure p.val / 2 ^ 29, 0, q.toNat⟩]) }).useStamp true p.val 0 q.toNat).sendGptp
        p.val 0 q.toNat (s.departure p.val / 2 ^ 32) (s.departure p.val / 2 ^ 16 % 2 ^ 16 : Nat))) ∧
  (∀ (s : State) (p : Fin 8), s.alive = true → s.unitUp (stampUnit p.val) = true → (s.tm.tx.get [] p.val).length < 16 →
    exec (.pdelayReqTx p) s = .next ((s.setTm { s.tm with
      txSeq := s.tm.txSeq.set p.val ((s.tm.txSeq.get 0 p.val + 1) % 65536),
      tx := s.tm.tx.set p.val (s.tm.tx.get [] p.val ++ [⟨s.departure p.val / 2 ^ 29, 2, s.tm.txSeq.get 0 p.val⟩]) }).sendGptp
        p.val 2 (s.tm.txSeq.get 0 p.val) 0 0))

/-- Under conditions on the state and the operands alone, each of the four commands answers the next state that the clause writes out
(R47, R49 to R51, R54 to R57, R61). epochBoundary: with RUN set and the boundary reached, the pending swaps are made, the readmissions and
the quotas follow, the epoch's start, number and next boundary are kept, each of the 64 sensors is relocked and re-armed, Hatch begins the
epoch, and the epoch's sync object is signalled by 1. triggerFire: a line whose limits the pulse keeps pulses now, for the width in whole
ticks. backChannelTrigger and phaseCommand: the trigger due within the port's latency, or the frame due within lead_ns, leaves now. A
trigger that has been served is kept as served. -/
def Obligations.EpochAndTriggerCommandsComplete : Prop :=
  (∀ s : State, s.alive = true → s.flag Reg.RUL_CTRL_RUN = true → s.tm.nextEpoch ≤ s.dt64 →
    ∃ u, exec .epochBoundary s = .next (u.signal (u.rd Reg.RUL_EPOCH_SYNC_OBJ) 1 []) ∧
      ∃ v : State, u = ((List.range 64).foldl (fun x i => (x.relock i).rearm i) (v.setTm { v.tm with
          epochStart := some s.tm.nextEpoch, epochNo := v.epochOf s.tm.nextEpoch, nextEpoch := s.tm.nextEpoch + v.epochLen })).beginEpoch
            (v.epochOf s.tm.nextEpoch) s.tm.nextEpoch ∧
        v = (((List.range 64).foldl State.revote s.swapRuling.swapSensing.swapHatch).endReadmits).freshQuotas) ∧
  (∀ (s : State) (e : Fin 256) (t : Nat), s.power = .up → s.rulKind e.val = rkLine → s.dueTrig e.val 0 = some t →
      (s.served e.val t).linePast (s.rulIndex e.val) s.dt64 ((s.rul e.val 12 4 + 3) / 4 * 4) = false →
    exec (.triggerFire e) s = .next (((s.served e.val t).setTm { (s.served e.val t).tm with
      lines := s.tm.lines.set (s.rulIndex e.val) ⟨s.dt64 + (s.rul e.val 12 4 + 3) / 4 * 4, some s.dt64⟩ }).emit .trigger (s.rulIndex e.val)
        (le 8 s.dt64 ++ le 4 ((s.rul e.val 12 4 + 3) / 4 * 4) ++ le 1 (bits (s.rul e.val 3 1) 1 1)))) ∧
  (∀ (s : State) (e : Fin 256) (t : Nat), s.power = .up → s.rulKind e.val = rkBack → s.unitUp (unitId 0x0A (s.rulIndex e.val)) = true →
      s.dueTrig e.val (s.rd Reg.RUL_BCLAT_LAT_NS (s.rulIndex e.val)) = some t →
    exec (.backChannelTrigger e) s = .next ((s.served e.val t).emit .backChannel (s.rulIndex e.val) (le 8 t ++ le 4 (s.rul e.val 12 4)))) ∧
  (∀ (s : State) (e : Fin 256) (t : Nat), s.power = .up → s.rulKind e.val = rkPhase → s.unitUp (unitId 0x0B (s.rulIndex e.val)) = true →
      s.dueTrig e.val (s.rul e.val 28 4) = some t →
    exec (.phaseCommand e) s = .next ((s.served e.val t).emitPoliced .phaseCommand (s.rulIndex e.val) (s.rulIndex e.val)
      ((s.phaseFrame (s.rulTemplate e.val) t).length + 4) (s.phaseFrame (s.rulTemplate e.val) t)))

/-- Under conditions on the state and the operands alone, each of the four commands answers the next state that the clause writes out
(R64, R65, R71, R75, R92, R93). csi2PacketRx of a known, PRESENT entry: an image line within the quota extends the frame and enters the
port's queue with the port's stamp; a Frame Start begins the frame with its number and stamp; a Frame End closes it, enters the queue with
the frame's status and starts H1. ethFrameRx on a lidar port, and on an auxiliary port without and with a matching entry: the frame enters
the queue, charged to the entry's quota at its stamp. canFrameRx: a frame that no entry matches is counted as unmatched; one that a PRESENT
entry alone matches is charged, judged and enters the queue with its identifier and flags. dataReadyEdge of the IMU port: the burst, cut to
64 bytes, is charged, judged and enters queue 0x22. -/
def Obligations.SensorDataCommandsComplete : Prop :=
  (∀ (s : State) (port : Fin 12) (p : Csi2Packet) (i : Nat), s.power = .up → s.unitUp (unitId 0x0A port.val) = true → p.headerBad = false →
      dataTypeImage p.dataType.toNat = true → s.cameraEntry port.val p.vc.val = some i → (s.charge i p.payload.length (s.cameraStamp port.val)).2 = true →
    ∃ u : State, u = (s.charge i p.payload.length (s.cameraStamp port.val)).1.setSens i (fun x => { x with lines := x.lines ++ [p.payload] }) ∧
      exec (.csi2PacketRx port p) s = .next (u.receivePacket port.val
        ⟨if p.crcBad then stDataError else 0, i, p.vc.val * 64 + p.dataType.toNat, (u.sensSt i).frameNo, s.cameraStamp port.val⟩ p.payload p.cutAt)) ∧
  (∀ (s : State) (port : Fin 12) (p : Csi2Packet) (i : Nat), s.power = .up → s.unitUp (unitId 0x0A port.val) = true → p.headerBad = false →
      p.dataType.toNat = 0 → s.cameraEntry port.val p.vc.val = some i →
    ∃ u : State, u = s.frameStart i (fld p.payload 1 2) (s.cameraStamp port.val) ∧
      exec (.csi2PacketRx port p) s = .next (u.receivePacket port.val ⟨0, i, p.vc.val * 64, (u.sensSt i).frameNo, s.cameraStamp port.val⟩
        (p.payload.take 4) none)) ∧
  (∀ (s : State) (port : Fin 12) (p : Csi2Packet) (i : Nat), s.power = .up → s.unitUp (unitId 0x0A port.val) = true → p.headerBad = false →
      p.dataType.toNat = 1 → s.cameraEntry port.val p.vc.val = some i →
    ∃ u : State, u = (s.frameEnd i).1 ∧
      exec (.csi2PacketRx port p) s = .next (u.receivePacket port.val
        ⟨(s.frameEnd i).2, i, p.vc.val * 64 + 1, (u.sensSt i).frameNo, s.cameraStamp port.val⟩ (p.payload.take 4) none).startH1) ∧
  (∀ (s : State) (port : Fin 6) (f : EthFrame) (i : Nat), s.power = .up → s.unitUp (unitId 0x0B port.val) = true →
      etherType f.bytes ≠ 0x88F7 → etherType f.bytes ≠ 0x88CC → port.val < 4 →
      (s.sensorsOn 2 port.val).find? (fun i => s.rd Reg.ING_SENS_STATE i == 3) = some i → (s.charge i f.bytes.length (s.etherStamp port.val)).2 = true →
    exec (.ethFrameRx port f) s = .next ((s.charge i f.bytes.length (s.etherStamp port.val)).1.ethPacket port.val f (some i))) ∧
  (∀ (s : State) (port : Fin 6) (f : EthFrame), s.power = .up → s.unitUp (unitId 0x0B port.val) = true →
      etherType f.bytes ≠ 0x88F7 → etherType f.bytes ≠ 0x88CC → 4 ≤ port.val → s.auxEntry (port.val - 4) f.bytes = none →
    exec (.ethFrameRx port f) s = .next (s.ethPacket port.val f none)) ∧
  (∀ (s : State) (port : Fin 6) (f : EthFrame) (i : Nat), s.power = .up → s.unitUp (unitId 0x0B port.val) = true →
      etherType f.bytes ≠ 0x88F7 → etherType f.bytes ≠ 0x88CC → 4 ≤ port.val → s.auxEntry (port.val - 4) f.bytes = some i →
      (s.charge i f.bytes.length (s.etherStamp port.val)).2 = true →
    ∃ u : State, u = (s.charge i f.bytes.length (s.etherStamp port.val)).1 ∧
      exec (.ethFrameRx port f) s = .next ((u.packetFrame i (u.etherStamp port.val) f.bytes).ethPacket port.val f (some i))) ∧
  (∀ (s : State) (chan : Fin 6) (f : CanFrame), s.power = .up → (f.fdf && s.rd Reg.ING_CAN_BIT_MODE chan.val == 1) = false →
      (s.sensorsOn 4 chan.val).filter (fun i => s.canMatches i f) = [] →
    exec (.canFrameRx chan f) s = .next (s.bump Reg.ING_PORT_STAT_UNMATCHED (0x18 + chan.val))) ∧
  (∀ (s : State) (chan : Fin 6) (f : CanFrame) (i : Nat), s.power = .up → (f.fdf && s.rd Reg.ING_CAN_BIT_MODE chan.val == 1) = false →
      (s.sensorsOn 4 chan.val).filter (fun i => s.canMatches i f) = [i] → s.rd Reg.ING_SENS_STATE i = 3 →
      (s.charge i f.bytes.length s.dt64).2 = true →
    ∃ u : State, u = (s.charge i f.bytes.length s.dt64).1 ∧
      exec (.canFrameRx chan f) s = .next ((u.packetFrame i u.dt64 f.bytes).receivePacket (0x18 + chan.val)
        ⟨if f.crcBad then stDataError else 0, i, f.fdf.toNat + 2 * f.brs.toNat + 4 * f.ide.toNat + 8 * f.esi.toNat, f.ident.toNat, u.dt64⟩
        f.bytes none)) ∧
  (∀ (s : State) (d : Burst) (i : Nat), s.power = .up → d.identity = none →
      (s.sensorsOn 6 0).find? (fun i => s.rd Reg.ING_SENS_STATE i == 3) = some i → (s.charge i (d.bytes.take 64).length s.dt64).2 = true →
    ∃ u : State, u = (s.charge i (d.bytes.take 64).length s.dt64).1 ∧
      exec (.dataReadyEdge 2 d) s = .next ((u.packetFrame i u.dt64 (d.bytes.take 64)).receivePacket 0x22 ⟨0, i, 0, 0, u.dt64⟩ (d.bytes.take 64) none))

/-- Under conditions on the state and the operands alone, each of the eight commands answers the next state that the clause writes out
(R67, R69 to R72, R76, R383, R550). linkCheckPass of a host, Ethernet and camera link of enough quality: the link and its quality are shown
(for a camera also a gear, a free value of 1 to 3), the link's function is READY, and discovery or a due move of the stream follows.
linkCheckLost and ingestLinkDown: the link's loss, of sensors or of a host port. idReadAttempt: the first attempt of a DISCOVERING camera
entry with ID_CHECK judges the identity read. lldpRx: the chassis ID is kept for the port and discovery follows. imuSelfCheckDone: the
result is kept and discovery follows. sensorTimeout: a PRESENT entry that has sent nothing for timeout_ms becomes ABSENT. ingSwap: before
SETUP_DONE, SWAP_PENDING is set. -/
def Obligations.LinkAndDiscoveryCommandsComplete : Prop :=
  (∀ (s : State) (k : Fin 20) (q : BitVec 8), s.alive = true → 18 ≤ k.val → s.rd Reg.EAS_LINKCHK_SQI_MIN ≤ q.toNat → q.toNat ≤ 7 →
      s.unitUp (unitId 0x0F (k.val - 18)) = true →
    exec (.linkCheckPass k q) s = .next (((((s.setLink (k.val - 18) true).wr Reg.HTP_PORT_LINK 1 (k.val - 18)).wr Reg.HTP_PORT_SQI
      q.toNat (k.val - 18)).fnReady (0x700 + (k.val - 18))).failoverDue)) ∧
  (∀ (s : State) (k : Fin 20) (q : BitVec 8), s.alive = true → 12 ≤ k.val → k.val < 18 → s.rd Reg.EAS_LINKCHK_SQI_MIN ≤ q.toNat →
      q.toNat ≤ 7 → s.unitUp (unitId 0x0B (k.val - 12)) = true →
    exec (.linkCheckPass k q) s = .next ((((s.wr Reg.ING_PORT_STAT_LINK 1 (linkQueue k.val)).wr Reg.ING_PORT_STAT_QUALITY q.toNat
      (linkQueue k.val)).fnReady (linkFn k.val)).discoverAll)) ∧
  (∀ (s : State) (k : Fin 20) (q : BitVec 8), s.alive = true → k.val < 12 → s.rd Reg.EAS_LINKCHK_APHY_MIN ≤ q.toNat →
      s.unitUp (unitId 0x0A k.val) = true → bit (s.rd Reg.PWR_POC_FAULT) k.val = false → bit (s.rd Reg.PWR_POC_ENABLE) k.val = true →
      s.flag Reg.PWR_STAT_VCAM_BAD = false →
    ∃ t, exec (.linkCheckPass k q) s = .next t ∧ ∃ u : State, t = (u.usedFree.fnReady (0x400 + k.val)).discoverAll ∧
      u = ((s.wr Reg.ING_PORT_STAT_LINK 1 k.val).wr Reg.ING_PORT_STAT_QUALITY q.toNat k.val).wr Reg.ING_PORT_STAT_GEAR
        (1 + s.freeVal 16 % 3) k.val) ∧
  (∀ (s : State) (k : Fin 20), k.val < 18 → s.flag Reg.ING_PORT_STAT_LINK (linkQueue k.val) = true →
    exec (.linkCheckLost k) s = .next (s.sensorLinkDown k.val)) ∧
  (∀ (s : State) (k : Fin 20), 18 ≤ k.val → exec (.linkCheckLost k) s = .next (s.hostLinkDown (k.val - 18))) ∧
  (∀ (s : State) (k : Fin 18), exec (.ingestLinkDown k) s = .next (s.sensorLinkDown k.val)) ∧
  (∀ (s : State) (i : Fin 64) (r : Option (BitVec 64)), s.sensFlag i.val 0 = true → (s.sensSt i.val).idTries = 0 →
      s.sensor i.val 0 1 = 1 → s.rd Reg.ING_SENS_STATE i.val = 2 →
    exec (.idReadAttempt i r) s = .next (s.identityRead i.val (r.map (·.toNat)))) ∧
  (∀ (s : State) (p : Fin 6) (c : BitVec 64), s.unitUp (unitId 0x0B p.val) = true →
    exec (.lldpRx p c) s = .next ({ s with ing := { s.ing with chassis := s.ing.chassis.set p.val c.toNat } } : State).discoverAll) ∧
  (∀ (s : State) (pass : Bool), exec (.imuSelfCheckDone pass) s = .next ({ s with ing := { s.ing with imuOk := pass } } : State).discoverAll) ∧
  (∀ (s : State) (i : Fin 64), s.rd Reg.ING_SENS_STATE i.val = 3 → (s.sensSt i.val).lastAt + msTicks (s.sensor i.val 16 2) ≤ s.ticks →
    exec (.sensorTimeout i) s = .next (s.setIngest i.val 1)) ∧
  (∀ s : State, s.flag Reg.ING_ST_CTRL_SWAP_PENDING = false → s.flag Reg.HTP_CTRL_SETUP_DONE = false →
    exec .ingSwap s = .next (s.wr Reg.ING_ST_CTRL_SWAP_PENDING 1))

/-- Under conditions on the state and the operands alone, each of the three commands answers a next state with these effects (R78, R80,
R83, R86, R87, R534). spqCtrlWrite: a write that the rules allow is the state that the clause writes out. queueRead by the hardware
consumer of a queue whose pointer copies agree: the head word leaves the queue for the consumer's hands and the head pointer advances; on
an empty queue nothing leaves; with a pointer copy upset, the queue is empty afterwards. spqPop with CONS 1: likewise the head word leaves
the queue, and SPQ_POP shows the IDLE tag when the queue is empty. No byte of memory changes. -/
def Obligations.QueueCommandsComplete : Prop :=
  (∀ (s : State) (q : Fin 51) (w : Fin 2) (v : BitVec 32), queueBuilt q.val = true → s.spqWriteError q.val w.val v.toNat = none →
    exec (.spqCtrlWrite q w v) s = .next (s.spqWrite q.val w.val v.toNat)) ∧
  (∀ (s : State) (q : Fin 51) (bad : Bool), s.hardwareRead q.val = true →
    ∃ t, exec (.queueRead q bad true) s = .next t ∧ (t.queue q.val).items = [] ∧ t.mem = s.mem) ∧
  (∀ (s : State) (q : Fin 51) (bad : Bool), s.hardwareRead q.val = true → (s.queue q.val).torn = false → (s.queue q.val).items = [] →
    exec (.queueRead q bad false) s = .next s) ∧
  (∀ (s : State) (q : Fin 51) (i : QItem) (r : List QItem), s.hardwareRead q.val = true → (s.queue q.val).torn = false →
      (s.queue q.val).items = i :: r →
    ∃ t, exec (.queueRead q false false) s = .next t ∧ (t.queue q.val).items = r ∧
      (t.queue q.val).inbox = (s.queue q.val).inbox ++ [i] ∧ (t.queue q.val).head = (s.queue q.val).head + 1 ∧ t.mem = s.mem) ∧
  (∀ (s : State) (q : Fin 51) (bad : Bool), queueBuilt q.val = true → s.flag Reg.SPQ_CTRL_CONS q.val = true →
      (s.queue q.val).torn = false → (s.queue q.val).items = [] →
    exec (.spqPop q bad false) s = .next (s.wr Reg.SPQ_POP_TAG 0 q.val)) ∧
  (∀ (s : State) (q : Fin 51) (i : QItem) (r : List QItem), queueBuilt q.val = true → s.flag Reg.SPQ_CTRL_CONS q.val = true →
      (s.queue q.val).torn = false → (s.queue q.val).items = i :: r →
    ∃ t, exec (.spqPop q false false) s = .next t ∧ (t.queue q.val).items = r ∧ (t.queue q.val).head = (s.queue q.val).head + 1 ∧
      t.mem = s.mem)

/-- Under conditions on the state and the operands alone (Hatch on and not gated, the epoch or packet there), each of the ten commands answers a
next state with these effects (R95, R101, R102, R107 to R128). hatchInputClose: the input of the first epoch in that stage closes once every frame
has come or is past its deadline. h1FrameDone: the packets of the frame leave their queue, and the frame is processed. h2PacketDecode: a
packet leaves its queue; a good one is decoded. h3TrackDone: the epoch gets its poses, marks and the next stage. h4TransformDone: the
epoch's points, at most 1,048,576, are counted in the buffer of its number. evidencePlaneWrite: an enabled plate's bytes land in the evidence
area. evidenceWaitExpiry: after EVID_WAIT the wait of the epoch ends. h5VoteDone: the epoch in that stage becomes voted. h6EpochRecord: the
epoch leaves the open ones. hatchWatchdog: an early or late stage's failure is taken once. -/
def Obligations.HatchCommandsComplete : Prop :=
  (∀ (s : State) (e : HEpoch), s.hatchRuns = true → s.epochAtStage .input = some e → (∀ f ∈ e.frames, f.state ≠ .expected ∨ f.due < s.dt64) →
    exec .hatchInputClose s = .next (s.closeInput e.no)) ∧
  (∀ (s u : State) (port : Fin 12) (l : List CamPkt), s.hatchRuns = true → s.flag Reg.HAT_CTRL_RUN = true →
      s.flag Reg.SPQ_CTRL_CONS port.val = false →
      State.takeFrame port.val ((s.queue port.val).stream.length + 1) (s.hat.camBuf.get [] port.val) s = some (l, u) →
    exec (.h1FrameDone port) s = .next (((({ u with hat := { u.hat with
      camBuf := u.hat.camBuf.set port.val (l.filter (fun p => pktVc p != pktVc (l.getLastD ([], [], false)))) } } : State).cameraFrame
        (fld (l.getLastD ([], [], false)).1 9 1) (sinceStart (l.filter (fun p => pktVc p == pktVc (l.getLastD ([], [], false)))))).stageDone
          1 true).startH1)) ∧
  (∀ (s u : State) (port : Fin 4) (h : QItem) (ws : List QItem), s.hatchRuns = true → s.flag Reg.HAT_CTRL_RUN = true →
      s.flag Reg.SPQ_CTRL_CONS (0x10 + port.val) = false → s.dequeue (0x10 + port.val) = some (h, ws, u) →
    ∃ v : State, v = u.stageDone 2 (u.hat.epochs.any (fun e => e.no == u.hat.stageEpoch.get 0 2 && e.pointsIn != 0)) ∧
      exec (.h2PacketDecode port) s = .next (if packetBad h ws ∨ 64 ≤ fld h.data 9 1 then v
        else v.lidarPacket port.val (fld h.data 9 1) (packetBytes h ws) (fld h.data 16 8))) ∧
  (∀ (s v : State) (env : EgoEnv) (e : HEpoch), s.hatchRuns = true → s.epochAtStage .closed = some e →
      v = ((List.range 64).foldl (fun x i => x.newWindow e.bank e.no i) s).takeEgoQueues e.bank → v.stageUp 3 = true →
    ∃ (u : State) (l : List EgoSample) (d : Bool), State.egoTrack e env (2 * (e.lenNs / 1000000)) 0 v = (u, l, d) ∧
      exec (.h3TrackDone env) s = .next (((u.modEpoch e.no (fun x => { x with
        poses := trackPoses l (u.rd Reg.HAT_EGO_REF_MS), egoDegraded := d, egoLost := decide (u.rd Reg.HAT_EGO_HOLD_MS < heldRun l),
        stage := .tracked, noGrid := x.noGrid || !u.stageUp 3 })).stageDone 3 (hadInput e)).startStage 4 e.no)) ∧
  (∀ (s : State) (e : HEpoch), s.hatchRuns = true → s.epochAtStage .tracked = some e → s.stageUp 4 = true →
    ∃ t, exec .h4TransformDone s = .next t ∧ t.hat.fused =
      (e.no, min (s.transformAll e e.sweeps).1.length 1048576) :: s.hat.fused.filter (fun f => f.1 % 4 != e.no % 4)) ∧
  (∀ (s : State) (p : Fin 34) (o : Nat) (d : List Byte), s.plateOnline p.val = true → o + d.length ≤ 0xCC000 →
    exec (.evidencePlaneWrite p o d) s = .next (s.evidenceWrite o d).waitDone) ∧
  (∀ (s : State) (e : HEpoch), s.epochAtStage .placed = some e → e.closeTick + usTicks (s.rd Reg.HAT_VOTE_EVID_WAIT) ≤ s.ticks →
    exec .evidenceWaitExpiry s = .next (s.endWait e.no)) ∧
  (∀ (s u : State) (e : HEpoch), u = s.waitDone → u.hatchRuns = true → u.epochAtStage .waited = some e →
      (u.hitRecords e u.free).flatten.length ≤ 0x1800000 →
    ∃ t, exec .h5VoteDone s = .next t ∧ ∃ x ∈ t.hat.epochs, x.no = e.no ∧ x.stage = .voted) ∧
  (∀ (s : State) (e : HEpoch), s.hatchRuns = true → s.epochAtStage .voted = some e → e.grid.length ≤ 0x40000 →
    ∃ t, exec .h6EpochRecord s = .next t ∧ t.hat.epochs = s.hat.epochs.filter (fun x => x.no != e.no)) ∧
  (∀ (s : State) (k : Fin 6), s.hat.early.contains (k.val + 1) = true →
    exec (.hatchWatchdog k false) s = .next (({ s with hat := { s.hat with
      early := s.hat.early.filter (· != k.val + 1) } } : State).watchdogFail (k.val + 1) false)) ∧
  (∀ (s : State) (k : Fin 6) (t : Nat), s.hat.running.find (k.val + 1) = some t →
      t + usTicks (s.rd Reg.HAT_WD_LATE_US k.val) ≤ s.ticks → s.hat.lateHit.contains (k.val + 1) = false →
    exec (.hatchWatchdog k true) s = .next (({ s with hat := { s.hat with
      lateHit := s.hat.lateHit ++ [k.val + 1] } } : State).watchdogFail (k.val + 1) true))

/-- Under conditions on the state and the operands alone, each of the six commands answers a next state with these effects (R506 to R516).
goldenInstant: a forced run starts once nothing collides; a due run is served and attempted. testStarved: a forced run that still collides
after FORCE_US is counted and abandoned, the event raised and the self-test source requested. goldenRunDone: without a reference the run
ends and REF_VALID is set; with one, a first mismatch makes the run repeat and keeps exactly the stages whose CRC differs. selftestSlice: a
slice that fits begins, one that does not is counted as skipped. sliceDone: the slice ends and is counted; a pass advances or completes the
unit's pass, a failure is taken as such. selftestLapsed: after INTERVAL_S the pass starts again and the event is raised. -/
def Obligations.SelfTestCommandsComplete : Prop :=
  (∀ s : State, s.power = .up → s.hatchRuns = true → s.gold.running = false → s.gold.forcedAt ≠ none → s.goldenCollides = false →
      s.stagesUp = true →
    exec .goldenInstant s = .next s.goldenStart) ∧
  (∀ (s : State) (t e : Nat), s.power = .up → s.hatchRuns = true → s.gold.running = false → s.gold.forcedAt = none → s.goldenDue = some t →
      s.goldenEntry = some e → s.stagesUp = true →
    exec .goldenInstant s = .next (((s.served e t).setGold { s.gold with deferred := none }).goldenAttempt t)) ∧
  (∀ (s : State) (t : Nat), s.gold.forcedAt = some t → t + usTicks (s.rd Reg.SUP_GOLD_FORCE_US) ≤ s.ticks → s.goldenCollides = true →
    exec .testStarved s = .next ((((((s.setGold { s.gold with forcedAt := none }).wr Reg.SUP_GOLD_DEFERRED 0).bump
      Reg.SUP_GOLD_CNT_STARVED).raise 0x0A04 0 (le 4 s.tm.epochNo)).requestOnce srcSelfTest))) ∧
  (∀ (s : State) (upsets : List (BitVec 64)), s.gold.running = true → s.hatchRuns = true → s.flag Reg.SUP_GOLD_REF_VALID = false →
    ∃ t, exec (.goldenRunDone upsets) s = .next t ∧ t.gold = { s.gold with running := false } ∧ t.flag Reg.SUP_GOLD_REF_VALID = true) ∧
  (∀ (s : State) (upsets : List (BitVec 64)), s.gold.running = true → s.hatchRuns = true → s.flag Reg.SUP_GOLD_REF_VALID = true →
      s.gold.repeated = false →
      (∃ k, 1 ≤ k ∧ k ≤ 6 ∧ crc64 (s.goldenOutput k) ^^^ (upsets.getD (k - 1) 0).toNat ≠ s.goldenRef k) →
    ∃ t, exec (.goldenRunDone upsets) s = .next t ∧ t.gold.running = true ∧ t.gold.repeated = true ∧
      ∀ k, k ∈ t.gold.mismatched ↔ 1 ≤ k ∧ k ≤ 6 ∧ crc64 (s.goldenOutput k) ^^^ (upsets.getD (k - 1) 0).toNat ≠ s.goldenRef k) ∧
  (∀ (s : State) (u : BitVec 32) (d : Nat), s.power = .up → sliceCount u.toNat ≠ 0 → unitBuilt u.toNat = true → s.unitUp u.toNat = true →
      s.sliced u.toNat = false → d ≤ 200000 → s.sliceOk u.toNat d = true →
    exec (.selftestSlice u d) s = .next (s.setGold { s.gold with slices := s.gold.slices ++ [(u.toNat, s.ticks, d)] })) ∧
  (∀ (s : State) (u : BitVec 32) (d : Nat), s.power = .up → sliceCount u.toNat ≠ 0 → unitBuilt u.toNat = true → s.unitUp u.toNat = true →
      s.sliced u.toNat = false → d ≤ 200000 → s.sliceOk u.toNat d = false →
    exec (.selftestSlice u d) s = .next (s.bump Reg.SUP_BIST_CNT_SKIPPED)) ∧
  (∀ (s : State) (u : BitVec 32) (x : Nat × Nat × Nat), s.gold.slices.find? (fun x => x.1 == u.toNat) = some x →
      sliceCount u.toNat ≤ s.gold.passed.get 0 u.toNat + 1 →
    exec (.sliceDone u true) s = .next ((s.setGold { s.gold with
      slices := s.gold.slices.filter (fun y => y.1 != u.toNat), passed := s.gold.passed.set u.toNat 0,
      since := s.gold.since.set u.toNat s.ticks }).bump Reg.SUP_BIST_CNT_SLICES)) ∧
  (∀ (s : State) (u : BitVec 32) (x : Nat × Nat × Nat), s.gold.slices.find? (fun x => x.1 == u.toNat) = some x →
      s.gold.passed.get 0 u.toNat + 1 < sliceCount u.toNat →
    exec (.sliceDone u true) s = .next ((s.setGold { s.gold with
      slices := s.gold.slices.filter (fun y => y.1 != u.toNat),
      passed := s.gold.passed.set u.toNat (s.gold.passed.get 0 u.toNat + 1) }).bump Reg.SUP_BIST_CNT_SLICES)) ∧
  (∀ (s : State) (u : BitVec 32) (x : Nat × Nat × Nat), s.gold.slices.find? (fun x => x.1 == u.toNat) = some x →
    exec (.sliceDone u false) s = .next (((s.setGold { s.gold with
      slices := s.gold.slices.filter (fun y => y.1 != u.toNat) }).bump Reg.SUP_BIST_CNT_SLICES).sliceFailed u.toNat x.2.2)) ∧
  (∀ (s : State) (u : BitVec 32), s.power = .up → sliceCount u.toNat ≠ 0 → unitBuilt u.toNat = true → s.unitUp u.toNat = true →
      s.gold.since.get s.gold.begun u.toNat + s.rd Reg.SUP_BIST_INTERVAL_S * 250000000 ≤ s.ticks →
    exec (.selftestLapsed u) s = .next ((s.setGold { s.gold with
      passed := s.gold.passed.set u.toNat 0, since := s.gold.since.set u.toNat s.ticks }).raise 0x0A05 u.toNat (le 4 u.toNat)))

/-- Under conditions on the state and the operands alone, each of the five commands answers the next state that the clause writes out (R132 to
R134, R139 to R163). stippleJobStart: on an idle engine that may run, the first started job with a parameter block, whose Hatch points are
still held, begins: BUSY, its operation and RETRY 0 are shown. voxelise, sort, neighbours and rulebook: the running job of that operation
has read its sources and been computed; without a detection its outputs are written and it completes, and with a parity error it runs
again. -/
def Obligations.StippleCommandsComplete : Prop :=
  (∀ (s : State) (j : Job), s.stpFirst = some j → s.stp.run = none → j.phase = .started → (s.unit stpUnit).offline = false →
      s.flag Reg.STP_CTRL_HOLD = false → s.unitUp stpUnit = true → s.sliced stpUnit = false → j.param ≠ [] →
      (j.arg 32 1 = 1 → s.srcGone j.param = none) →
    exec .stippleJobStart s = .next ((((({ s with stp := { StpSt.reset with run := some j.id } } : State).wr Reg.STP_STAT_BUSY 1).wr
      Reg.STP_STAT_OP (j.arg 32 1)).wr Reg.STP_STAT_RETRY 0).beginJob j .running)) ∧
  (∀ (s u : State) (j : Job) (o : StpOut) (k : Fin 4) (c : StpDet → Instr) (f : State → Job → SRead StpOut),
      (c, f) = (match k.val with
        | 0 => (Instr.voxelise, State.voxelise) | 1 => (Instr.sort, State.sortJob)
        | 2 => (Instr.neighbours, State.neighbours) | _ => (Instr.rulebook, State.ruleBook)) →
      s.stpRunning (k.val + 1) = some j → s.stp.out = none → f s j = (u, .ok o) →
    (u.stp.hit = false → exec (c .none) s = .next (({ u with stp := { u.stp with readDone := true } } : State).stpPut j o)) ∧
    ∃ v : State, v = { u with stp := { u.stp with readDone := true } } ∧
      exec (c .parity) s = .next ((v.sramDetect stpUnit 1 (v.freeVal 22) false).usedFree.stpAgain j))

/-- Under conditions on the state and the operands alone, each of the seven commands answers a next state with these effects (R173, R174,
R176 to R184, R198, R199). The command at the head of the array queue executes and is then done as burinDone says: it leaves the queue and
signals under SIG. loadw: the weights and scales fill the shadow weight registers. matmul with rows: the shadow set becomes active, and the
rows' dot products are added to the accumulators, cleared first under ZERO. drain: the accumulators stay, CRC ends the tile, and one row
without SCATTER or GATHER lies converted in the array buffer. loadc: the table fills its curve slot. burinNop: nothing more. xnBurin: a
command without an error enters the queue, of fewer than 32, and rd takes their number. tileRecompute: with interrupt 16 pending on a core,
no core of the plate has it pending afterwards and no failure waits; the launch is marked for DATA_ERROR if the tile was tried twice. -/
def Obligations.ArrayCommandsComplete : Prop :=
  (∀ (s : State) (p : Fin 34) (up : ArrUpset) (q : Queued) (j : Job), s.arrayHead p.val 1 = some (q, j) →
    ∃ u : State, exec (.loadw p up) s = .next (u.burinDone p.val q j) ∧
      (u.arr p.val).shadow = some (s.plateRead p.val (s.abufOfs p.val (bcA q.bytes)) (kindTile (bcKind q.bytes)) ++
        s.plateRead p.val (s.abufOfs p.val (bcB q.bytes)) (kindWScale (bcKind q.bytes))) ∧
      (u.arr p.val).active = (s.arr p.val).active ∧ (u.arr p.val).acc = (s.arr p.val).acc ∧ u.mem = s.mem) ∧
  (∀ (s : State) (p : Fin 34) (up : ArrUpset) (q : Queued) (j : Job), s.arrayHead p.val 2 = some (q, j) → s.proofHeld p.val q j = false →
      bcRows q.bytes ≠ 0 →
    ∃ u : State, exec (.matmul p up) s = .next (u.burinDone p.val q j) ∧
      (u.arr p.val).active = (s.arr p.val).shadow.getD (s.arr p.val).active ∧ (u.arr p.val).shadow = none ∧
      (u.arr p.val).accType = kindAcc (bcKind q.bytes) ∧ (u.arr p.val).accExp = bcExp q.bytes ∧
      (u.arr p.val).accN = kindN (bcKind q.bytes) ∧
      (u.arr p.val).acc = ((s.arr p.val).multiply q.bytes (s.matOps p.val q.bytes)).1.acc ∧ u.mem = s.mem) ∧
  (∀ (s : State) (p : Fin 34) (up : ArrUpset) (q : Queued) (j : Job), s.arrayHead p.val 3 = some (q, j) → bcRows q.bytes = 1 →
      bcGather q.bytes = false → bcScatter q.bytes = false → outBytes (bcOut q.bytes) ≠ 0 →
    ∃ u : State, exec (.drain p up) s = .next (u.burinDone p.val q j) ∧ (u.arr p.val).acc = (s.arr p.val).acc ∧
      (bcCrc q.bytes = true → (u.arr p.val).inTile = false) ∧
      ∀ i, i < (s.arr p.val).accN * outBytes (bcOut q.bytes) →
        u.byte (plateAddr p.val (s.abufOfs p.val (bcA q.bytes)) + i) =
          (((s.arr p.val).drained q.bytes (s.drainOps p.val q.bytes) 0).flatMap (le (outBytes (bcOut q.bytes)))).getD i 0) ∧
  (∀ (s : State) (p : Fin 34) (up : ArrUpset) (q : Queued) (j : Job), s.arrayHead p.val 3 = some (q, j) →
    ∃ u : State, exec (.drain p up) s = .next (u.burinDone p.val q j) ∧ (u.arr p.val).acc = (s.arr p.val).acc ∧
      (bcCrc q.bytes = true → (u.arr p.val).inTile = false)) ∧
  (∀ (s : State) (p : Fin 34) (up : ArrUpset) (q : Queued) (j : Job), s.arrayHead p.val 4 = some (q, j) →
    ∃ u : State, exec (.loadc p up) s = .next (u.burinDone p.val q j) ∧
      (u.arr p.val).curves = (s.arr p.val).curves.set (bcSlot q.bytes) (s.plateRead p.val (s.abufOfs p.val (bcA q.bytes)) 2064) ∧
      (u.arr p.val).acc = (s.arr p.val).acc ∧ u.mem = s.mem) ∧
  (∀ (s : State) (p : Fin 34) (q : Queued) (j : Job), s.arrayHead p.val 0 = some (q, j) →
    exec (.burinNop p) s = .next (s.burinDone p.val q j)) ∧
  (∀ (s u : State) (p : Fin 34) (c : Fin 64) (rd rs1 : Fin 32) (o : Nat), s.issue p.val c.val 4 (fun h => h == .burin) = (u, true) →
      u.ownLm p.val c.val ((u.core p.val c.val).xr rs1) 32 32 = some o →
      burinError (u.plateRead p.val (u.lmOfs p.val c.val o) 32) (u.plate p.val).arr (u.abufLimit p.val) = 0 →
      (u.plate p.val).arr.entries < 32 →
    ∃ (v : State) (x : ArrSt), x = { burinTail (u.plateRead p.val (u.lmOfs p.val c.val o) 32) (u.plate p.val).arr with
        queue := (u.plate p.val).arr.queue ++ [⟨u.plateRead p.val (u.lmOfs p.val c.val o) 32, c.val⟩] } ∧
      v = (u.setPlate p.val { u.plate p.val with arr := x }).showPlate p.val ∧
      exec (.xnBurin p c rd rs1) s = .next (v.retire p.val c.val { (u.core p.val c.val).setX rd x.entries with
        lastTile := bcTile (u.plateRead p.val (u.lmOfs p.val c.val o) 32) } 4)) ∧
  (∀ (s : State) (p : Fin 34) (j : Job) (l : Launch), s.runningOn p.val = some (j, l) →
      (∃ c, c < 64 ∧ bit (s.core p.val c).irq 16 = true) →
    ∃ t : State, exec (.tileRecompute p) s = .next t ∧ (∀ c, c < 64 → bit (t.core p.val c).irq 16 = false) ∧ (t.arr p.val).fails = [] ∧
      ((∃ f ∈ (s.arr p.val).fails, ∃ x ∈ (s.arr p.val).tiles, some x.id = f.log ∧ 2 ≤ x.tries) →
        ∃ l' : Launch, t.launches.find j.id = some l' ∧ l'.dataErr.isSome = true))

/-- Under conditions on the state and the operands alone, each of the nine commands answers a next state with these effects (R186 to R196,
R331 to R336, R346, R347). xnDmaq: a descriptor without an error enters the plate's DMA queue, of fewer than 64, and rd takes their number.
dmaRows, dmaGather, dmaScatter: once all bytes of the head descriptor have moved it leaves the queue, is counted, and signals under SIG;
one with rows of 0 bytes moves nothing. plateLaunch: the descriptor enters its shadow ring. launchStart: a launch whose turn has come takes
its free plates. launchComplete: its plates stop and it completes, OK with the first exit value that is not 0, or DATA_ERROR naming the
tile. preemptRequest: at a tile boundary, or when TB_NS has passed, with the DMA stopped, the plate is saved and runs nothing.
launchResume: every plate is restored and the launch runs again, counted when it backfills. -/
def Obligations.PlateDmaAndLaunchCommandsComplete : Prop :=
  (∀ (s u : State) (p : Fin 34) (c : Fin 64) (rd rs1 : Fin 32) (o : Nat) (j : Job) (l : Launch),
      s.issue p.val c.val 4 (fun h => h == .dmaq) = (u, true) → s.runningOn p.val = some (j, l) →
      u.ownLm p.val c.val ((u.core p.val c.val).xr rs1) 32 32 = some o →
      u.dmaError p.val l (u.plateRead p.val (u.lmOfs p.val c.val o) 32) = 0 → (u.plate p.val).dma.length < 64 →
    exec (.xnDmaq p c rd rs1) s = .next (((u.setPlate p.val { u.plate p.val with
      dma := (u.plate p.val).dma ++ [⟨u.plateRead p.val (u.lmOfs p.val c.val o) 32, c.val⟩] }).showPlate p.val).retire p.val c.val
        ((u.core p.val c.val).setX rd ((u.plate p.val).dma.length + 1)) 4)) ∧
  (∀ (s : State) (p : Fin 34) (det : ReadFault) (upTo : Option Nat) (q : Queued) (j : Job) (l : Launch), s.dmaHead p.val 0 = some (q, j, l) →
      s.portFull q.bytes = false → dmRowBytes q.bytes = 0 → dmSig q.bytes = false →
    ∃ t : State, exec (.dmaRows p ⟨det, upTo⟩) s = .next t ∧ (t.plate p.val).dma = (s.plate p.val).dma.drop 1 ∧
      (t.plate p.val).dmaDone = (s.plate p.val).dmaDone + 1 ∧ t.mem = s.mem) ∧
  (∀ (s v : State) (p : Fin 34) (det : ReadFault) (upTo : Option Nat) (q : Queued) (j : Job) (l : Launch) (m : Fin 3) (c : Instr) (k n : Nat),
      c = (match m.val with | 0 => .dmaRows p ⟨det, upTo⟩ | 1 => .dmaGather p ⟨det, upTo⟩ | _ => .dmaScatter p ⟨det, upTo⟩) →
      s.dmaHead p.val m.val = some (q, j, l) → s.portFull q.bytes = false → dmRowBytes q.bytes ≠ 0 →
      State.moveRows p.val j.context j.id l q det (s.dmaStop p.val q.bytes upTo) (dmRows q.bytes + 1)
        (s.chanStart p.val j.context (s.plate p.val).dmaDone (s.rd Reg.MEM_CH_BYTES_DONE p.val) j.tag false)
        (s.rd Reg.MEM_CH_BYTES_DONE p.val / dmRowBytes q.bytes) (s.rd Reg.MEM_CH_BYTES_DONE p.val % dmRowBytes q.bytes) = (v, k, .did n) →
      dmRows q.bytes * dmRowBytes q.bytes ≤ k →
    ∃ t u : State, exec c s = .next t ∧ (u.plate p.val).dma = (v.plate p.val).dma.drop 1 ∧
      (u.plate p.val).dmaDone = (v.plate p.val).dmaDone + 1 ∧ u.mem = v.mem ∧
      t = if dmSig q.bytes then u.signal (dmSync q.bytes) 1 j.taint else u) ∧
  (∀ (s : State) (sq : Fin 64) (d : List Byte), s.alive = true → s.inSession = true → s.flag Reg.HTP_SQ_EN sq.val = true →
      (s.rd Reg.HTP_SQ_IDX_TAIL sq.val + 2 ^ 32 - s.rd Reg.HTP_SQ_IDX_FREED sq.val) % 2 ^ 32 < 2 ^ s.rd Reg.HTP_SQ_LOG2_SIZE sq.val →
      d.length = 64 → fld d 0 2 = 0x10 → exec (.plateLaunch sq d) s = .next (s.putShadow sq.val [d])) ∧
  (∀ (s u : State) (job : Nat) (j : Job), s.startedJob job 0x10 = some j → j.param ≠ [] →
      (∀ p ∈ s.launchPlates j, s.plateUsable p = true ∧ s.plateFree p = true ∧ s.sliced (unitId 1 p) = false) → s.mayRun j = true →
      s.launchFirst j = true → s.makeRoom (s.launchPlates j) j.part j.id = (u, true) →
    exec (.launchStart job) s = .next (u.startLaunch j (s.launchPlates j))) ∧
  (∀ (s : State) (job : Nat) (j : Job) (l : Launch), s.job job = some j → s.launches.find job = some l → j.phase = .running →
      s.launchOver l = true → l.dataErr = none →
    exec (.launchComplete job) s = .next ((s.stopLaunch job).finish j stOk
      ((((s.launchCores l).find? (fun k => k.exitVal != 0)).map (·.exitVal)).getD 0 % 2 ^ 32) (s.launchDetail j l))) ∧
  (∀ (s : State) (job : Nat) (j : Job) (l : Launch) (tile unit cause : Nat), s.job job = some j → s.launches.find job = some l →
      j.phase = .running → s.launchOver l = true → l.dataErr = some (tile, unit, cause) →
    exec (.launchComplete job) s = .next ((s.stopLaunch job).finish j stDataErr tile (unit + cause * 2 ^ 32))) ∧
  (∀ (s : State) (p : Fin 34) (late : Bool) (j : Job) (l : Launch), s.runningOn p.val = some (j, l) → s.rd Reg.PLT_STAT_STATE p.val = 3 →
      s.dmaStopped p.val = true → (s.flag Reg.PLT_ARR_STAT_AT_TB p.val = true ∨ s.tbOver p.val l = true) →
    ∃ t : State, exec (.preemptRequest p late) s = .next t ∧ (t.plate p.val).run = none ∧
      ∃ l' : Launch, t.launches.find j.id = some l' ∧ (l'.saved.find p.val).isSome = true) ∧
  (∀ (s u v : State) (job : Nat) (j : Job) (l : Launch), s.job job = some j → s.launches.find job = some l → j.phase = .saved →
      s.mayRun j = true → s.launchFirst j = true →
      (∀ p ∈ l.plates, s.plateUsable p = true ∧ (s.rd Reg.PLT_STAT_STATE p = 1 ∨ s.rd Reg.PLT_STAT_STATE p = 4)) →
      s.makeRoom l.plates j.part j.id = (u, true) →
      u.restoreAll j l = (v, true) →
    ∃ w : State, w = (({ v with launches := v.launches.set job ({ l with saved := .empty, preempt := none } : Launch) } : State).setJob
          { j with phase := .running, startTick := v.ticks }).showCtx j.context ∧
      exec (.launchResume job) s = .next (if u.assignedAll j.part l.plates then w else w.bump Reg.PAR_CNT_BACKFILL_STARTS))

/-- Under conditions on the state and the operands alone (the core issues, which issue says), each of the nine commands answers a next state
with these effects (R205, R210, R212, R219 to R221, R223, R369). needleInstruction: a 32-bit word that is no Xneedle instruction runs as
runWord says, a compressed word runs as its expansion, and addition of an immediate writes rd and retires. ecallExit outside machine mode
with a7 0: the core stops, exited with a0, and neither memory nor a job changes. xnSig: the core retires and the object is signalled by
rs2 with the launch's taint. xnWait: with the object at its value, rd is 0, the core retires and its launch takes the object's taint; a
first wait with a time-out otherwise holds the core until that time. xnWaitDone: the same end, and rd 1 at the time-out. xnSread: rd is the
object's value. xnCrc and xnFexpd: rd is the CRC-64 and the exponential of the difference. -/
def Obligations.NeedleScalarCommandsComplete : Prop :=
  (∀ (s u : State) (p : Fin 34) (c : Fin 64) (w : BitVec 32), s.issue p.val c.val 4 noHold = (u, true) → bits w.toNat 0 7 = 0x13 →
      iF3 w.toNat = 0 →
    exec (.needleInstruction p c ⟨w⟩) s = .next (u.retire p.val c.val ((u.core p.val c.val).setX (iRd w.toNat)
      (((u.core p.val c.val).xr (iRs1 w.toNat) + immI w.toNat) % 2 ^ 64)) 4)) ∧
  (∀ (s u : State) (p : Fin 34) (c : Fin 64) (w : BitVec 32), s.issue p.val c.val 4 noHold = (u, true) → w.toNat % 4 = 3 →
      (bits w.toNat 0 7 = 0x0B ∨ bits w.toNat 0 7 = 0x2B → isXneedle w.toNat = false) →
    exec (.needleInstruction p c ⟨w⟩) s = .next (u.runWord p.val c.val w.toNat 4)) ∧
  (∀ (s u : State) (p : Fin 34) (c : Fin 64) (w : BitVec 32) (v : Nat), s.issue p.val c.val 2 noHold = (u, true) → w.toNat % 4 ≠ 3 →
      expandC (w.toNat % 65536) = some v → exec (.needleInstruction p c ⟨w⟩) s = .next (u.runWord p.val c.val v 2)) ∧
  (∀ (s u : State) (p : Fin 34) (c : Fin 64), s.issue p.val c.val 4 noHold = (u, true) → (u.core p.val c.val).xr 17 = 0 →
      (u.core p.val c.val).machine = false →
    ∃ t, exec (.ecallExit p c) s = .next t ∧ (t.core p.val c.val).exited = true ∧ (t.core p.val c.val).running = false ∧
      (t.core p.val c.val).exitVal = (u.core p.val c.val).xr 10 ∧ t.mem = u.mem ∧ t.jobs = u.jobs) ∧
  (∀ (s u : State) (p : Fin 34) (c : Fin 64) (rs1 rs2 : Fin 32) (j : Job) (l : Launch), s.issue p.val c.val 4 noHold = (u, true) →
      u.coreMayUse p.val ((u.core p.val c.val).xr rs1 % 65536) = true → u.runningOn p.val = some (j, l) →
    exec (.xnSig p c rs1 rs2) s = .next ((u.retire p.val c.val (u.core p.val c.val) 4).signal ((u.core p.val c.val).xr rs1 % 65536)
      ((u.core p.val c.val).xr rs2 % 2 ^ 32) j.taint)) ∧
  (∀ (s u : State) (p : Fin 34) (c : Fin 64) (rd rs1 rs2 : Fin 32), s.issue p.val c.val 4 isWait = (u, true) →
      (u.core p.val c.val).hold = none → bits ((u.core p.val c.val).xr rs1) 48 16 = 0 →
      u.coreMayUse p.val ((u.core p.val c.val).xr rs1 % 65536) = true →
      u.reached ((u.core p.val c.val).xr rs1 % 65536) ((u.core p.val c.val).xr rs2) = true →
    exec (.xnWait p c rd rs1 rs2) s = .next ((u.retire p.val c.val ((u.core p.val c.val).setX rd 0) 4).waited p.val
      ((u.core p.val c.val).xr rs1 % 65536))) ∧
  (∀ (s u : State) (p : Fin 34) (c : Fin 64) (rd rs1 rs2 : Fin 32), s.issue p.val c.val 4 isWait = (u, true) →
      (u.core p.val c.val).hold = none → bits ((u.core p.val c.val).xr rs1) 48 16 = 0 →
      u.coreMayUse p.val ((u.core p.val c.val).xr rs1 % 65536) = true →
      u.reached ((u.core p.val c.val).xr rs1 % 65536) ((u.core p.val c.val).xr rs2) = false →
      bits ((u.core p.val c.val).xr rs1) 16 32 ≠ 0 → (u.core p.val c.val).waitTill = none →
    ∃ (v : State) (d : Nat), d = u.dt64 + bits ((u.core p.val c.val).xr rs1) 16 32 * 1000 ∧
      v = u.setCore p.val c.val { u.core p.val c.val with waitTill := some ((u.core p.val c.val).pc, d) } ∧
      exec (.xnWait p c rd rs1 rs2) s = .next (v.holdCore p.val c.val (.wait ((u.core p.val c.val).xr rs1 % 65536)
        ((u.core p.val c.val).xr rs2) (some d) rd))) ∧
  (∀ (s : State) (p : Fin 34) (c : Fin 64) (o v rd : Nat) (d : Option Nat), s.coreRuns p.val c.val = true →
      (s.core p.val c.val).hold = some (.wait o v d rd) → s.reached o v = true →
    exec (.xnWaitDone p c) s = .next ((s.retire p.val c.val ((s.core p.val c.val).setX rd 0) 4).waited p.val o)) ∧
  (∀ (s : State) (p : Fin 34) (c : Fin 64) (o v rd t : Nat), s.coreRuns p.val c.val = true →
      (s.core p.val c.val).hold = some (.wait o v (some t) rd) → s.reached o v = false → t ≤ s.dt64 →
    exec (.xnWaitDone p c) s = .next (s.retire p.val c.val ((s.core p.val c.val).setX rd 1) 4)) ∧
  (∀ (s u : State) (p : Fin 34) (c : Fin 64) (rd rs1 : Fin 32), s.issue p.val c.val 4 noHold = (u, true) →
      u.coreMayUse p.val ((u.core p.val c.val).xr rs1 % 65536) = true →
    exec (.xnSread p c rd rs1) s = .next (u.retire p.val c.val ((u.core p.val c.val).setX rd
      (u.obj ((u.core p.val c.val).xr rs1 % 65536)).value) 4)) ∧
  (∀ (s u : State) (p : Fin 34) (c : Fin 64) (rd rs1 rs2 : Fin 32), s.issue p.val c.val 4 noHold = (u, true) →
    exec (.xnCrc p c rd rs1 rs2) s = .next (u.retire p.val c.val ((u.core p.val c.val).setX rd
      (crc64Ext ((u.core p.val c.val).xr rs1) (le 8 ((u.core p.val c.val).xr rs2)))) 4)) ∧
  (∀ (s u : State) (p : Fin 34) (c : Fin 64) (rd rs1 rs2 : Fin 32), s.issue p.val c.val 4 noHold = (u, true) →
    exec (.xnFexpd p c rd rs1 rs2) s = .next (u.retire p.val c.val ((u.core p.val c.val).setF rd
      (xexp (sub32 ((u.core p.val c.val).fr rs1) ((u.core p.val c.val).fr rs2)))) 4))

/-- Under conditions on the state and the operands alone (the core issues, its vector state and registers allow the instruction), each of the
seven vector commands of Xneedle answers the next state that the clause writes out and retires (R221 to R227): xnVcrc extends the CRC-64
by the source's elements, xnVexpd writes the exponentials of the differences, xnVcurve the values of the curve in local memory, xnVrmax the
maximum, xnVncvt the narrowed elements with the invalid flag, xnVwcvt the widened ones, and xnVmxscale the shared scale. -/
def Obligations.NeedleVectorCommandsComplete : Prop :=
  ∀ (s u : State) (p : Fin 34) (c : Fin 64) (vm : Bool) (fmt : Fin 5) (d vs2 rs1 : Fin 32) (k : CoreSt),
      s.issue p.val c.val 4 noHold = (u, true) → k = u.core p.val c.val → groupOk vs2 (lmul8 k.vtype) = true →
    (k.vecOk vm true = true → k.vl ≠ 0 →
      exec (.xnVcrc p c vm d vs2 rs1) s = .next (u.retire p.val c.val (k.setX d (crc64Ext (k.xr rs1)
        ((List.range k.vl).flatMap (fun i => le (sewOf k.vtype / 8) (k.el vs2 (sewOf k.vtype / 8) i))))) 4)) ∧
    (k.vecOk vm false = true → groupOk d (lmul8 k.vtype) = true →
      exec (.xnVexpd p c vm d vs2 rs1) s = .next (u.retire p.val c.val
        (k.putElems d ((k.elems vs2).map (fun e => xexp (sub32 e (k.fr rs1))))) 4)) ∧
    (∀ o, k.vecOk vm false = true → groupOk d (lmul8 k.vtype) = true → u.ownLm p.val c.val (k.xr rs1) 8 2064 = some o →
      exec (.xnVcurve p c vm d vs2 rs1) s = .next (u.retire p.val c.val
        (k.putElems d ((k.elems vs2).map (curve (u.plateRead p.val (u.lmOfs p.val c.val o) 2064)))) 4)) ∧
    (k.vecOk vm false = true →
      exec (.xnVrmax p c vm d vs2 rs1) s = .next (u.retire p.val c.val (k.setF d ((k.elems vs2).foldl maxNan (k.fr rs1))) 4)) ∧
    (k.vecOk vm false = true → packedOk d (lmul8 k.vtype) (fmtBits fmt) = true →
      exec (.xnVncvt p c vm fmt d vs2 rs1) s = .next (u.retire p.val c.val
        ((((k.elems vs2).map (narrowTo fmt (k.scaleOf rs1))).zipIdx.foldl (fun q e => q.putPacked d (fmtBits fmt) e.2 e.1.1) k).addFlags
          (if ((k.elems vs2).map (narrowTo fmt (k.scaleOf rs1))).any (·.2) then fNV else 0)) 4)) ∧
    (k.vecOk vm false = true → groupOk d (lmul8 k.vtype) = true → packedOk vs2 (lmul8 k.vtype) (fmtBits fmt) = true →
      exec (.xnVwcvt p c vm fmt d vs2 rs1) s = .next (u.retire p.val c.val (k.putElems d ((List.range k.vl).map (fun i =>
        widenFrom fmt (k.scaleOf rs1) (k.packed vs2 (fmtBits fmt) i)))) 4)) ∧
    (k.vecOk vm false = true → k.vl ≤ 32 →
      exec (.xnVmxscale p c vm fmt d vs2) s = .next (u.retire p.val c.val (k.setX d (mxScale fmt (k.elems vs2))) 4))

/-- Under conditions on the state and the operands alone, each of the six commands answers the next state that the clause writes out (R244,
R245, R247, R250 to R252, R257). trcCommit, trcScore, trcMap: a tracer that runs takes its oldest command, of an ACTIVE sequence of a
registered cache whose layer state reads without a detection, performs it and reports its status and value. deferredFlush: a full buffer
held by the tracer is flushed. labMissWalk: a page not in the plate's look-aside buffer is walked. slotRelease: a quarantined slot of count
0, with no pin left on the tracer, becomes FREE, leaves quarantine and is counted. -/
def Obligations.TracerCommandsComplete : Prop :=
  (∀ (s v w : State) (t : Fin 2) (cmd : List Byte) (ch st n : Nat) (r : List (List Byte × Nat)) (c : KvCache),
      (s.tracer t).queue = (cmd, ch) :: r → s.tracerUp t = true → v = s.setTracer t { s.tracer t with queue := r } →
      v.caches.find (fld cmd 1 1) = some c → tracerBadField c t cmd = false → v.seqState (fld cmd 1 1) (fld cmd 4 4) = some sqActive →
      v.stBad (fld cmd 1 1) (fld cmd 4 4) (fld cmd 8 2) 0 64 = false → st ≠ stDataErr →
    (fld cmd 0 1 = 1 → commitRun v cmd (fld cmd 1 1) (fld cmd 4 4) (fld cmd 8 2) = some (w, st, n) →
      exec (.trcCommit t) s = .next (w.trcDone cmd st n)) ∧
    (fld cmd 0 1 = 2 → scoreRun v cmd (fld cmd 1 1) (fld cmd 4 4) (fld cmd 8 2) = some (w, st, n) →
      exec (.trcScore t) s = .next (w.trcDone cmd st n)) ∧
    (fld cmd 0 1 = 3 → mapRun v cmd (fld cmd 1 1) (fld cmd 4 4) (fld cmd 8 2) = some (w, st, n) →
      exec (.trcMap t) s = .next (w.trcDone cmd st n))) ∧
  (∀ (s w : State) (t : Fin 2) (ci : Fin 4) (q l : Nat) (b : Bool), (s.kv ci).held.contains (q, l) = true → q % 2 = t.val →
      s.flush ci q l = some (w, b) → exec (.deferredFlush t ci q l) s = .next w) ∧
  (∀ (s w : State) (p : Fin 34) (ci : Fin 4) (q l pg : Nat) (m : LabMap), (s.caches.find ci).isSome = true → q < (s.kv ci).maxSeqs →
      l < (s.kv ci).layers → s.tracerUp (q % 2) = true →
      (s.labs.get [] p.val).any (fun e => e.cache == ci.val && e.seq == q && e.layer == l && e.page == pg) = false →
      s.labWalk p ci q l pg = some (w, m) → exec (.labMissWalk p ci q l pg false) s = .next w) ∧
  (∀ (s v w : State) (t : Fin 2) (ci : Fin 4) (slot n tag : Nat), (s.kv ci).quar.find? (fun x => x.1 == slot) = some (n, tag) →
      n % 2 = t.val → (∀ r ∈ (s.tracer t).pins.rows, r.2 = 0) → s.slotCount ci n = some 0 → s.setSlot ci n 0 slFree = some v →
      w = v.setKv ci { v.kv ci with quar := (s.kv ci).quar.filter (fun y => y.1 != n) } →
    exec (.slotRelease t ci slot) s = .next (w.bump Reg.TRC_CNT_RELEASES t))

/-- Under conditions on the state and the operands alone, each of the seven CACHE operations answers the next state that the clause writes out
(R238, R249, R258, R259, R261). cacheRegister with a block that fits: the tables are cleared and half of the slots counted free for each
tracer. cacheUnregister of a cache whose sequences are all FREE and with no slot in quarantine: it is gone, with its look-aside entries.
cacheCreate: a FREE sequence becomes ACTIVE with its budget and an opened buffer per layer. cacheFork: the child becomes ACTIVE with the
parent's budget and every layer's pages. cacheTruncate: every layer is cut. cacheFree: every page's count drops and the sequence is FREE.
cachePlace: the pages go to the module named. Fork, truncate and place of 0 tokens complete at once; all complete OK. -/
def Obligations.CacheCommandsComplete : Prop :=
  (∀ (s u : State) (job : Nat) (j : Job) (c : KvCache), s.startedOp job 0x13 1 = some j → j.param ≠ [] → c = ⟨j.param, .empty, [], [], .empty⟩ →
      s.kvFits c = true → s.caches.find (j.arg 33 1) = none →
      (s.setKv (j.arg 33 1) c).kvClear (j.arg 33 1) (c.b 40 8 / 4096 + 2) c.tables (8 * c.maxSeqs + 16 * c.entries + 64 * c.slots) = some u →
    exec (.cacheRegister job) s = .next (((((u.trcSet Reg.TRC_CACHE_REGISTERED0 (j.arg 33 1) 1).trcSet Reg.TRC_CACHE_FREE_SLOTS0
      (j.arg 33 1) (c.slots / 2)).trcSet Reg.TRC_CACHE_QUAR_SLOTS0 (j.arg 33 1) 0).trcSet Reg.TRC_CACHE_ACTIVE_SEQS0 (j.arg 33 1) 0).finishOk
        j)) ∧
  (∀ (s : State) (job : Nat) (j : Job) (ci : Nat), s.startedOp job 0x13 2 = some j → ci = j.arg 33 1 → (s.caches.find ci).isSome = true →
      s.sliced (unitId 5 0) = false → s.sliced (unitId 5 1) = false → (∀ q, q < (s.kv ci).maxSeqs → s.seqState ci q = some sqFree) →
      (s.kv ci).quar = [] →
    exec (.cacheUnregister job) s = .next ((((({ s with caches := s.caches.erase ci } : State).dropLabs (fun e => e.cache == ci)).trcSet
      Reg.TRC_CACHE_REGISTERED0 ci 0).trcSet Reg.TRC_CACHE_FREE_SLOTS0 ci 0).finishOk j)) ∧
  (∀ (s u v w : State) (job : Nat) (j : Job) (ci q : Nat) (l : List Nat), s.startedOp job 0x13 3 = some j → ci = j.arg 33 1 → q = j.arg 36 4 →
      (s.caches.find ci).isSome = true → q < (s.kv ci).maxSeqs → s.tracerUp (q % 2) = true → s.sliced (unitId 5 0) = false →
      s.sliced (unitId 5 1) = false → j.arg 40 4 = 0 ∨ (s.kv ci).recent + 2 ≤ j.arg 40 4 → j.arg 40 4 ≤ 65535 → s.seqState ci q = some sqFree → s.freeBufs ci (q % 2) (s.kv ci).layers = some l →
      ((s.dropSeqLabs ci q).setKv ci { s.kv ci with bufs := (s.kv ci).bufs.set q l }).setSeq ci q sqActive = some u →
      u.setTab ci (q % 2) (dirOfs q + 2) 2 (j.arg 40 4) = some v →
      (List.range (s.kv ci).layers).foldlM (fun (x : State) ly => x.openBuffer ci q ly 0) v = some w →
    exec (.cacheCreate job) s = .next (w.finish j stOk 0 0)) ∧
  (∀ (s : State) (job : Nat) (j : Job) (ci q : Nat), s.startedOp job 0x13 4 = some j → ci = j.arg 33 1 → q = j.arg 36 4 →
      (s.caches.find ci).isSome = true → q < (s.kv ci).maxSeqs → s.tracerUp (q % 2) = true → s.sliced (unitId 5 0) = false →
      s.sliced (unitId 5 1) = false → j.arg 40 4 < (s.kv ci).maxSeqs → j.arg 40 4 % 2 = q % 2 → j.arg 44 4 = 0 →
    exec (.cacheFork job) s = .next (s.finishOk j)) ∧
  (∀ (s u v w : State) (job : Nat) (j : Job) (ci q n len budget : Nat) (bufs lens : List Nat) (fs : List (Option (Option Nat))), s.startedOp job 0x13 4 = some j →
      ci = j.arg 33 1 → q = j.arg 36 4 → (s.caches.find ci).isSome = true → q < (s.kv ci).maxSeqs → s.tracerUp (q % 2) = true →
      s.sliced (unitId 5 0) = false → s.sliced (unitId 5 1) = false → j.arg 40 4 < (s.kv ci).maxSeqs → j.arg 40 4 % 2 = q % 2 →
      len = j.arg 44 4 → len ≠ 0 → s.seqState ci q = some sqFree → s.seqState ci (j.arg 40 4) = some sqActive →
      (List.range (s.kv ci).layers).mapM (fun l => s.layerLen ci (j.arg 40 4) l) = some lens → (∀ x ∈ lens, x = lens.getD 0 0) →
      len ≤ lens.getD 0 0 →
      (if len % 64 = 0 then [] else (List.range (s.kv ci).layers).map (fun l => (l, len / 64))).mapM
        (fun p => s.pageFails ci (j.arg 40 4) p.1 p.2) = some fs → fs.findSome? id = none → s.freeBufs ci (q % 2) (s.kv ci).layers = some bufs →
      ((s.dropSeqLabs ci q).setKv ci { s.kv ci with bufs := (s.kv ci).bufs.set q bufs }).setSeq ci q sqActive = some u →
      u.tab ci (dirOfs (j.arg 40 4) + 2) 2 = some budget → u.setTab ci (q % 2) (dirOfs q + 2) 2 budget = some v →
      (List.range (s.kv ci).layers).foldlM (State.forkLayer ci q (j.arg 40 4) len) (v, 0) = some (w, n) →
    exec (.cacheFork job) s = .next (w.finish j stOk n 0)) ∧
  (∀ (s : State) (job : Nat) (j : Job) (ci q : Nat), s.startedOp job 0x13 5 = some j → ci = j.arg 33 1 → q = j.arg 36 4 →
      (s.caches.find ci).isSome = true → q < (s.kv ci).maxSeqs → s.tracerUp (q % 2) = true → s.sliced (unitId 5 0) = false →
      s.sliced (unitId 5 1) = false → j.arg 44 4 = 0 → exec (.cacheTruncate job) s = .next (s.finishOk j)) ∧
  (∀ (s w : State) (job : Nat) (j : Job) (ci q n : Nat) (l : List (Bool × Bool)) (cut : List (List (Nat × Nat)))
      (fs : List (Option (Option Nat))), s.startedOp job 0x13 5 = some j → ci = j.arg 33 1 →
      q = j.arg 36 4 → (s.caches.find ci).isSome = true → q < (s.kv ci).maxSeqs → s.tracerUp (q % 2) = true →
      s.sliced (unitId 5 0) = false → s.sliced (unitId 5 1) = false → j.arg 44 4 ≠ 0 → s.seqState ci q = some sqActive →
      (List.range (s.kv ci).layers).mapM (s.truncCheck ci q (j.arg 44 4)) = some l → (∀ x ∈ l, x = (false, false)) →
      (List.range (s.kv ci).layers).mapM (s.truncReads ci q (j.arg 44 4)) = some cut →
      (cut.flatMap id).mapM (fun p => s.pageFails ci q p.1 p.2) = some fs → fs.findSome? id = none →
      (List.range (s.kv ci).layers).foldlM (State.truncStep ci q (j.arg 44 4)) (s, 0) = some (w, n) →
    exec (.cacheTruncate job) s = .next (w.finish j stOk n 0)) ∧
  (∀ (s v w : State) (job : Nat) (j : Job) (ci q st n : Nat), s.startedOp job 0x13 6 = some j → ci = j.arg 33 1 → q = j.arg 36 4 →
      (s.caches.find ci).isSome = true → q < (s.kv ci).maxSeqs → s.tracerUp (q % 2) = true → s.sliced (unitId 5 0) = false →
      s.sliced (unitId 5 1) = false → s.seqState ci q = some st → st ≠ sqFree →
      ((List.range (s.kv ci).layers).flatMap (fun l => (List.range (s.kv ci).maxPages).map (fun p => (l, p)))).foldlM
        (State.freePage ci q) (s.dropSeqLabs ci q, 0) = some (v, n) → v.setSeq ci q sqFree = some w →
    exec (.cacheFree job) s = .next ((w.setKv ci { w.kv ci with
      bufs := (w.kv ci).bufs.erase q, held := (w.kv ci).held.filter (fun h => h.1 != q) }).finish j stOk n 0)) ∧
  (∀ (s : State) (job : Nat) (j : Job) (ci q : Nat) (rs : List Nat), s.startedOp job 0x13 7 = some j → ci = j.arg 33 1 → q = j.arg 36 4 →
      (s.caches.find ci).isSome = true → q < (s.kv ci).maxSeqs → s.tracerUp (q % 2) = true → s.sliced (unitId 5 0) = false →
      s.sliced (unitId 5 1) = false → j.arg 44 4 = 0 → exec (.cachePlace job rs) s = .next (s.finishOk j)) ∧
  (∀ (s w : State) (job : Nat) (j : Job) (ci q n top : Nat) (rs : List Nat) (pages : List (Nat × Nat × Nat)) (x : Member)
      (fs : List (Option (Option Nat))),
      s.startedOp job 0x13 7 = some j → ci = j.arg 33 1 → q = j.arg 36 4 → (s.caches.find ci).isSome = true → q < (s.kv ci).maxSeqs →
      s.tracerUp (q % 2) = true → s.sliced (unitId 5 0) = false → s.sliced (unitId 5 1) = false → j.arg 44 4 ≠ 0 →
      s.seqState ci q = some sqActive → s.layerLen ci q 0 = some top → s.placeable ci q (j.arg 44 4) = some pages → j.arg 44 4 ≤ top →
      s.moduleIn (j.arg 40 4) = some x → 3 ≤ x.role → j.arg 40 4 ≠ s.rd Reg.RNG_STAT_MODULE → pages.length ≤ rs.length →
      (pages.map (fun e => (e.1, e.2.1))).mapM (fun p => s.pageFails ci q p.1 p.2) = some fs → fs.findSome? id = none →
      (pages.zip rs).foldlM (State.placePage ci q (j.arg 40 4)) (s, 0) = some (w, n) →
    exec (.cachePlace job rs) s = .next (w.finish j stOk n 0))

/-- Under conditions on the state and the operands alone (the burnisher on, the operation's turn come), each of the eight commands answers the
next state that the clause writes out (R270 to R273, R283 to R286). brnRegister of a free problem whose units fit: record, program, structure
signature and, unless streamed, structure are kept, the units leave the free memory, nothing is queued, armed or run. brnValues of the right
length, read: the problem is READY with a stale preconditioner. brnUpdate: the words named replace the slot's, and the slot takes the
block's signature. brnRun: the run is queued. brnArm: the problem is armed from its v_next. brnDisarm: triggering ends. brnRelease: the
problem is gone and its units are free. brnTrigger at v_next: one run is queued under the next job number. -/
def Obligations.BurnisherTableCommandsComplete : Prop :=
  (∀ (s : State) (job : Nat) (j : Job) (i : Nat), i = j.arg 33 1 → (s.unit brnUnit).offline = false → s.unitUp brnUnit = true →
    s.brnTurn i job = true →
  (∀ (r prog rp cols : List Byte) (units left : Nat), s.startedOp job 0x12 1 = some j → j.param ≠ [] → s.prob i = none →
      r = j.param.take 256 → prog = slice j.param 256 (16 * recSteps r) →
      rp = slice j.param (256 + 16 * recSteps r) (4 * (recN r + 1)) → cols = j.param.drop (256 + 16 * recSteps r + 4 * (recN r + 1)) →
      units = memUnits r (csrRows (leList 4 (recN r + 1) rp) (leList 2 (recNnz r) cols)) → left = s.rd Reg.BRN_MEM_FREE_4K →
      units ≤ left →
    ∃ x : BrnProb, x.state = 1 ∧ x.record = r ∧ x.program = prog ∧ x.sig = structSig (recN r) rp cols ∧
      (recStreamed r = false → x.rowptr = rp ∧ x.cols = cols) ∧ x.queued = [] ∧ x.armed = none ∧ x.run = none ∧ x.runs = 0 ∧
      exec (.brnRegister job) s = .next ((((({ s with
        free := s.free + recUser r } : State).setProb i x).wr Reg.BRN_PROB_ALLOC_4K units i).wr Reg.BRN_MEM_FREE_4K
        (left - units)).finishOk j)) ∧
  (∀ (v : State) (p : BrnProb) (l : List Byte) (bad : Bool), s.startedOp job 0x12 2 = some j → s.brnTaken job = false → j.arg 36 4 ≠ 0 →
      s.prob i = some p → j.arg 36 4 = 4 * recNnz p.record → recCommons p.record = false → recStreamed p.record = false →
      s.brnRead false j.context job (j.arg 40 8) (j.arg 36 4) = (v, .ok (l, bad)) →
    exec (.brnValues job) s = .next ((v.brnFree.setProb i { p with
      vals := l, valsAt := (j.context, j.arg 40 8), stale := true, state := 2,
      poison := p.poison.filter (· != 8) ++ (if bad then [8] else []) }).finishOk j)) ∧
  (∀ (p : BrnProb) (slot first count : Nat), s.startedOp job 0x12 3 = some j → j.param ≠ [] → s.prob i = some p →
      slot = fld j.param 0 1 → first = fld j.param 4 4 → count = fld j.param 8 4 → first + count ≤ recN p.record →
      slot < recUser p.record → p.state ≠ 3 → count ≠ 0 →
    exec (.brnUpdate job) s = .next ((s.setProb i { p with
      slots := p.slots.set slot ((p.slots.get [] slot).take first ++ wordList count (j.param.drop 32) ++
        (p.slots.get [] slot).drop (first + count)),
      poison := if count = recN p.record then p.poison.filter (· != slot) else p.poison,
      sigs := p.sigs.set slot (fld j.param 16 4 + 2 ^ 32 * fld j.param 24 8) }).finishOk j)) ∧
  (∀ (p : BrnProb), s.startedOp job 0x12 4 = some j → s.prob i = some p → p.state = 2 → p.queued.contains job = false →
    exec (.brnRun job) s = .next (s.setProb i { p with queued := p.queued ++ [job] })) ∧
  (∀ (p : BrnProb), s.startedOp job 0x12 5 = some j → s.prob i = some p → p.state = 2 → p.armed = none →
    exec (.brnArm job) s = .next ((s.setProb i { p with armed := some j, vNext := j.arg 48 8 }).finishOk j)) ∧
  (∀ (p : BrnProb), s.startedOp job 0x12 6 = some j → s.prob i = some p → p.armed.isSome = true → p.trigRun = none →
      (s.brnAhead i job).any (fun k => !k.freed) = false →
    exec (.brnDisarm job) s = .next ((s.setProb i { p with
      armed := none, trigRun := none, queued := p.queued.filter (fun q => decide (some q ≠ p.trigRun)) }).finishOk j)) ∧
  (∀ (p : BrnProb), s.startedOp job 0x12 7 = some j → s.prob i = some p → p.armed = none →
      (s.brnAhead i job).any (fun k => k.arg 32 1 == 4) = false →
    exec (.brnRelease job) s = .next ((((({ s with brn := { s.brn with probs := s.brn.probs.erase i } } : State).showProb i).wr
      Reg.BRN_PROB_ALLOC_4K 0 i).wr Reg.BRN_MEM_FREE_4K (s.rd Reg.BRN_MEM_FREE_4K + s.rd Reg.BRN_PROB_ALLOC_4K i)).finishOk j))) ∧
  (∀ (s : State) (prob : Fin 8) (p : BrnProb) (a k : Job), s.unitUp brnUnit = true → s.prob prob = some p → p.armed = some a →
      recTrig p.record ≠ 0xFFFF → (s.obj (recTrig p.record)).value = p.vNext → p.trigRun = none → k = s.trigJob a (s.obj (recTrig p.record)).taint → s.retractedIn k.taint = none →
    exec (.brnTrigger prob) s = .next ((({ s with jobs := s.jobs ++ [k], nextJob := s.nextJob + 1 } : State).showCtx k.context).setProb
      prob { p with vNext := p.vNext + 1, queued := p.queued ++ [k.id], trigRun := some k.id }))

/-- Under conditions on the state and the operands alone, each of the thirteen commands answers the next state that the clause writes out
(R280 to R282, R287 to R293, R298). brnRunStart: with no current run, the first ready run starts and, unless its deadline has passed, reads
its inputs. For the current run, its inputs read, its grant held, no deadline due and nothing poisoned: brnSpmv, brnAxpby, brnClamp and
brnStepCopy write their result into the destination slot; brnSolve runs the solver from where it stands and takes its end or its pause;
brnLoop counts a pass or goes on; brnTest takes its branch; brnOut is skipped when its policy does not name the stop reason, and writes its
words into the commons and signals when it does; brnUpdateIn of an empty input goes on; brnEnd completes the run. brnDeadline: a due run
between two steps goes on only with the steps that the deadline leaves. -/
def Obligations.BurnisherRunCommandsComplete : Prop :=
  (∀ (s : State) (i id : Nat) (p : BrnProb) (j : Job) (rk : Nat), (s.unit brnUnit).offline = false → s.brnTaken s.nextJob = false →
      s.gated islBrn = false → s.unitUp brnUnit = true → s.sliced brnUnit = false → s.brn.cur = none → brnFirst s.brnReady = some (i, rk, id) →
      s.prob i = some p → s.job id = some j → p.run = none → s.flag Reg.BRN_CTRL_HOLD = false → p.state = 2 →
    ∃ t, exec (.brnRunStart .none) s = .next t ∧
      ∀ (q : BrnProb) (r : BrnRun) (k : Job) (n : Nat), (s.brnStartRun i p j).brnCur = some (n, q, r, k) →
        t = if r.late then s.brnStartRun i p j else (s.brnStartRun i p j).brnBegin i .none) ∧
  (∀ (s v : State) (i : Nat) (p : BrnProb) (r : BrnRun) (j : Job) (op : Nat) (a : Mat) (l : List Int) (g : Prog) (env : SolveEnv)
      (m : Brn Bool) (yes : Bool),
      s.brnCur = some (i, p, r, j) → (s.unit brnUnit).offline = false → s.brnTaken j.id = false → s.gated islBrn = false → s.unitUp brnUnit = true →
      s.brnGranted j.part = true → s.brnDue r = false → r.inputs = 4 → r.refetch = false → p.poison = [] →
      op = (if r.step < recSteps p.record then stOp p.program r.step else opEnd) →
    (op = opSpmv → s.brnMat p j = (v, .ok (a, false)) →
      (a.mul (p.slot (stA p.program r.step)) (p.q (stA p.program r.step)) (p.q (stDst p.program r.step))).run.run ⟨0, 0, [], 0⟩ =
        (.ok l, g) →
      exec (.brnSpmv .none) s = .next ((v.brnFree.brnSats j.id g.sats).brnNext i (p.put r (stDst p.program r.step) l)
        { r with touched := stDst p.program r.step :: r.touched } (r.step + 1))) ∧
    (op = opAxpby → (do
        let x ← scConst (stS1 p.program r.step)
        let y ← scConst (stS2 p.program r.step)
        comb (recN p.record) (p.q (stDst p.program r.step)) [(x, p.slot (stA p.program r.step), p.q (stA p.program r.step)),
          (y, p.slot (stB p.program r.step), p.q (stB p.program r.step))] : Brn (List Int)).run.run (⟨0, 0, [], 0⟩ : Prog) = (.ok l, g) →
      exec (.brnAxpby .none) s = .next ((s.brnFree.brnSats j.id g.sats).brnNext i (p.put r (stDst p.program r.step) l)
        { r with touched := stDst p.program r.step :: r.touched } (r.step + 1))) ∧
    (op = opClamp → ((List.range (recN p.record)).mapM (fun e => fixWord (p.q (stDst p.program r.step))
        [fixMin (fixMax (vec (p.slot (stA p.program r.step)) e, p.q (stA p.program r.step))
          (vec (p.slot (stB p.program r.step)) e, p.q (stB p.program r.step)))
          (vec (p.slot (stAux p.program r.step)) e, p.q (stAux p.program r.step))]) : Brn (List Int)).run.run (⟨0, 0, [], 0⟩ : Prog) = (.ok l, g) →
      exec (.brnClamp .none) s = .next ((s.brnFree.brnSats j.id g.sats).brnNext i (p.put r (stDst p.program r.step) l)
        { r with touched := stDst p.program r.step :: r.touched } (r.step + 1))) ∧
    (op = opCopy → ((p.slot (stA p.program r.step)).mapM (fun w => fixWord (p.q (stDst p.program r.step))
        [(w, p.q (stA p.program r.step))]) : Brn (List Int)).run.run (⟨0, 0, [], 0⟩ : Prog) = (.ok l, g) →
      exec (.brnStepCopy .none) s = .next ((s.brnFree.brnSats j.id g.sats).brnNext i (p.put r (stDst p.program r.step) l)
        { r with touched := stDst p.program r.step :: r.touched } (r.step + 1))) ∧
    (∀ (u w : State) (st : SolveSt) (r' : BrnRun) (p' : BrnProb) (x : Solved), op = opSolve → env.det = .none →
        (u, st) = s.brnSolveBegin p r j → r' = { r with solve := some st } → p' = { p with run := some r' } →
        (u.setProb i p').brnMat p' j = (v, .ok (a, false)) → x = runSolve (p'.solve r' a st.x0 env) p'.stale st →
        v.brnFactor p' j a x.built.isSome = (w, none) →
      exec (.brnSolve env) s = .next (w.brnFree.brnSolved i p' r' j st x)) ∧
    (op = opLoop → r.passes.get 0 r.step < stCount p.program r.step →
      exec .brnLoop s = .next (s.brnNext i p { r with passes := r.passes.set r.step (r.passes.get 0 r.step + 1) }
        (stAux p.program r.step))) ∧
    (op = opLoop → stCount p.program r.step ≤ r.passes.get 0 r.step → exec .brnLoop s = .next (s.brnNext i p r (r.step + 1))) ∧
    (op = opTest → m = (do
        let n ← testNorms p (stA p.program r.step) (stB p.program r.step)
        let t ← threshold (stS1 p.program r.step) n.2
        return scLe n.1 t) → m.run.run ⟨0, 0, [], 0⟩ = (.ok yes, g) →
      exec (.brnTest .none) s = .next ((s.brnSats j.id g.sats).brnNext i p r (if yes then stAux p.program r.step else r.step + 1))) ∧
    (op = opOut → bit (outPolicy p.record (stB p.program r.step)) r.reason = false → r.late = false →
      exec .brnOut s = .next (s.brnNext i p r (r.step + 1))) ∧
    (op = opOut → bit (outPolicy p.record (stB p.program r.step)) r.reason = true → r.late = false →
        outKind p.record (stB p.program r.step) = 2 →
      exec .brnOut s = .next ((((s.store (gaddr spCommons (outAddr p.record (stB p.program r.step) + 4 * (stAux p.program r.step * 32)))
        ((((p.slot (stA p.program r.step)).drop (stAux p.program r.step * 32)).take (stCount p.program r.step)).flatMap
          (fun w => le 4 (toU 32 w)))).brnFree.wroteOut j.id).signal (outSync p.record (stB p.program r.step)) 1 j.taint).brnNext i p r
            (r.step + 1))) ∧
    (op = opUpdateIn → inKind p.record (stA p.program r.step) = 0 →
      exec .brnUpdateIn s = .next (s.brnFree.brnNext i p r (r.step + 1))) ∧
    (op = opEnd → r.late = false → exec .brnEnd s = .next (s.brnComplete i p { r with stopStep := r.step }))) ∧
  (∀ (s : State) (i : Nat) (p : BrnProb) (r : BrnRun), i < 8 → s.brn.cur = some i → s.prob i = some p → p.run = some r →
      s.brnDue r = true → r.solve = none → s.chanJob.find brnChan ≠ some r.job → r.inputs = 4 →
    exec .brnDeadline s = .next ((s.setProb i { p with run := some { r with
      late := true, reason := srDeadline, stopStep := r.step, step := lateStep p.record p.program r.step, inputs := 4,
      refetch := false } }).stoppedAt r.job))

/-- Under conditions on the state and the operands alone, each of the ten commands answers the next state that the clause writes out (R303,
R305, R312, R315, R317, R318, R320, R324, R327, R328). ctxOpen of a closed context installs its four fields. ctxClose of a context that no
other job names and nothing holds, and invalidate with ALL or of a range that no pinned range meets, drop the cached walks. resume and
abort act on a faulted channel of the caller's context. memCopy: of no bytes it completes at once; once all bytes are copied it completes OK.
channelSelfResume: a channel held at a page not released or offline that is now ready goes on. nrTimeout: the owner of a channel whose time
is over ends NOT_READY. refreshRateChange: the device's temperature is kept, and HOT is shown while a device of the channel is above 85 °C.
ddrChannelOnline: an offline channel that is not bad is copied back and comes online. -/
def Obligations.MemoryCommandsComplete : Prop :=
  (∀ (s : State) (job : Nat) (j : Job),
    (s.startedOp job 1 1 = some j → s.ctxs.find j.context = none →
      exec (.ctxOpen job) s = .next ((({ s with
        ctxs := s.ctxs.set j.context ⟨j.arg 40 8, j.arg 48 8, j.arg 36 4, j.arg 34 2⟩ } : State).wr Reg.MEM_CTX_OPEN 1
          j.context).finishOk j)) ∧
    (∀ u : State, s.startedOp job 1 2 = some j → (∀ k ∈ s.jobs, k.context = j.context → k.id = job) → s.ctxHeld j.context = false →
        u = s.dropWalks (fun w => w.context == j.context) →
      exec (.ctxClose job) s = .next ((({ u with
        ctxs := u.ctxs.erase j.context } : State).wr Reg.MEM_CTX_OPEN 0 j.context).finishOk j)) ∧
    (s.startedOp job 1 3 = some j → bit (j.arg 34 2) 0 = true →
      exec (.invalidate job) s = .next (((s.dropWalks (fun w => w.context == j.context)).bump Reg.MEM_CNT_INVALIDATES).finishOk j)) ∧
    (s.startedOp job 1 3 = some j → bit (j.arg 34 2) 0 = false → j.arg 48 8 ≠ 0 →
        (∀ r ∈ s.pinnedRanges j.context, rangesMeet r.1 r.2 (j.arg 40 8) (j.arg 48 8) = false) →
      exec (.invalidate job) s = .next (((s.dropWalks (fun w => w.context == j.context &&
        rangesMeet w.va w.size (j.arg 40 8) (j.arg 48 8))).bump Reg.MEM_CNT_INVALIDATES).finishOk j)) ∧
    (s.startedOp job 1 4 = some j → s.chan (j.arg 33 1) = chFaulted → s.chanMine (j.arg 33 1) j.context = true →
        resumable (s.rd Reg.MEM_CH_KIND (j.arg 33 1)) = true →
      exec (.resume job) s = .next (((s.bump Reg.MEM_CNT_RESUMES).chanResume (j.arg 33 1)).finishOk j)) ∧
    (s.startedOp job 1 5 = some j → s.chan (j.arg 33 1) = chFaulted → s.chanMine (j.arg 33 1) j.context = true →
      exec (.abort job) s = .next (((s.bump Reg.MEM_CNT_ABORTS).endOwner (j.arg 33 1) stAborted).finishOk j)) ∧
    (s.startedOp job 1 6 = some j → j.arg 36 4 = 0 → ∀ det upTo, exec (.memCopy job ⟨det, upTo⟩) s = .next (s.finishOk j)) ∧
    (∀ (det : ReadFault) (upTo : Option Nat) (c k n from' : Nat) (mine : Bool) (u w : State), s.startedOp job 1 6 = some j → n = j.arg 36 4 →
        n ≠ 0 → s.copyChan j = some c → s.chan c ≠ chFaulted → mine = (s.chanJob.find c == some job) →
        (mine = true → s.copyWanted c = false) → u = (if mine then s else s.copyLeave c) →
        from' = (if mine then s.rd Reg.MEM_CH_BYTES_DONE c else u.copyDone.get 0 job) →
        State.copyLoop c j.context job (j.arg 40 8) (j.arg 48 8) n (upTo.getD n) det (n / 16 + 16) (({ u with
          chanJob := u.chanJob.set c job, copyDone := u.copyDone.erase job } : State).chanStart c j.context 0 from' j.tag false) from' =
            (w, k, none) → n ≤ k →
      exec (.memCopy job ⟨det, upTo⟩) s = .next (((w.freeChans job).wroteOut job).finishNow job stOk 0 0))) ∧
  (∀ (s : State) (c : Fin 98), s.chan c = chFaulted →
    ((s.rd Reg.MEM_CH_KIND c = fkNotReleased ∨ s.rd Reg.MEM_CH_KIND c = fkOffline) → s.nowReady c = true →
      exec (.channelSelfResume c) s = .next ((s.bump Reg.MEM_CNT_SELF_RESUMES).chanResume c)) ∧
    (s.flag Reg.MEM_CH_PHYSICAL c = false → s.recOver (s.chanRec c) = true →
      exec (.nrTimeout c) s = .next ((s.bump Reg.MEM_CNT_NR_TIMEOUTS).endOwner c stNotReady))) ∧
  (∀ (s : State) (c : Fin 8), bit s.chanMap c = true →
    (∀ (d : Fin 5) (temp : Int),
      ∃ u : State, u = { s with boot := { s.boot with caseTemp := s.boot.caseTemp.set (8 * c.val + d.val) temp } } ∧
        exec (.refreshRateChange c ⟨d, temp⟩) s = .next (u.wr Reg.MEM_DDR_STAT_HOT
          (u.boot.caseTemp.rows.any (fun r => decide (r.1 / 8 = c.val) && decide (850 < r.2))).toNat c)) ∧
    ((s.unit (unitId 7 c)).offline = true → (s.unit (unitId 7 c)).bad = false →
      exec (.ddrChannelOnline c) s = .next ((s.copyBack c).onlineNow (unitId 7 c))))

/-- Under conditions on the state and the operands alone, each of the three commands answers the next state that the clause writes out (R376).
syncSet: an object with no waiter and no bound trigger takes the value given, with no taint, and a digest region of that step object
follows it. syncRead: the value and the number of waiters are reported. syncGrant: a group that nothing waits on goes to the partition. -/
def Obligations.SyncCommandsComplete : Prop :=
  ∀ (s : State) (job : Nat) (j : Job),
    (s.startedOp job 2 1 = some j → s.waiters (j.arg 34 2) = 0 → s.objBound (j.arg 34 2) = false →
      exec (.syncSet job) s = .next (((s.setObj (j.arg 34 2) ⟨j.arg 40 8, false, []⟩).stepsSet (j.arg 34 2) (j.arg 40 8)).finishOk j)) ∧
    (s.startedOp job 2 2 = some j → j.arg 34 2 ≠ 0xFFFF →
      exec (.syncRead job) s = .next (s.finish j stOk (s.waiters (j.arg 34 2)) (s.obj (j.arg 34 2)).value)) ∧
    (s.startedOp job 2 3 = some j → s.groupWaited (j.arg 34 1) = false →
      exec (.syncGrant job) s = .next ((s.setOwner (j.arg 34 1) (j.arg 33 1)).finishOk j))

/-- Under conditions on the state and the operands alone, each of the nine commands answers the next state that the clause writes out (R340,
R342, R349, R354; Tables PAR-1, PAR-2, PAR-4, PAR-6). schedLoad with no swap pending fills the inactive bank and asks for the swap. partSet of
a partition that nothing keeps busy or, when it clears the record, names; taskSet of a task that is not VALID; chainSet of a chain that is not
VALID between VALID tasks: the record is written and, for task and chain, supervision starts afresh. taskClear of a task that no chain names,
and chainClear, empty the record. parSwap before SETUP_DONE asks for the swap. majorFrameBoundary at a new boundary, or at one that a step has
left to begin, makes the swap and begins window 0. windowStart: the next window begins in its turn. -/
def Obligations.PartitionCommandsComplete : Prop :=
  (∀ (s : State) (job : Nat) (j : Job),
    (s.startedOp job 3 1 = some j → j.param ≠ [] → s.flag Reg.PAR_STAT_SWAP_PENDING = false →
      exec (.schedLoad job) s = .next (((s.store (schedAddr (1 - s.rd Reg.PAR_STAT_BANK)) j.param).wr
        Reg.PAR_STAT_SWAP_PENDING 1).finishOk j)) ∧
    (s.startedOp job 3 2 = some j → j.param ≠ [] → s.partBusy (j.arg 33 1) j.id = false →
        (bit (fld j.param 0 1) 0 = true ∨ s.partNamed (j.arg 33 1) = false) →
      exec (.partSet job) s = .next ((s.store (winAddr (0xE3000 + 32 * j.arg 33 1)) j.param).finishOk j)) ∧
    (s.startedOp job 3 3 = some j → j.param ≠ [] → s.taskValid (j.arg 33 1) = false →
      exec (.taskSet job) s = .next (((s.store (winAddr (0xE4000 + 32 * j.arg 33 1)) j.param).setTask (j.arg 33 1) { TaskSt.reset with
        base := ((s.store (winAddr (0xE4000 + 32 * j.arg 33 1)) j.param).obj (fld j.param 4 2)).value }).finishOk j)) ∧
    (s.startedOp job 3 4 = some j → s.chainsWith (fun c => s.chainRec c 1 1 == j.arg 33 1 || s.chainRec c 2 1 == j.arg 33 1) = [] →
      exec (.taskClear job) s = .next (((s.store (winAddr (0xE4000 + 32 * j.arg 33 1)) (zeros 32)).setTask (j.arg 33 1)
        .reset).finishOk j)) ∧
    (s.startedOp job 3 5 = some j → j.param ≠ [] → s.taskValid (fld j.param 1 1) = true → s.taskValid (fld j.param 2 1) = true →
        s.chainValid (j.arg 33 1) = false →
      exec (.chainSet job) s = .next (((s.store (winAddr (0xE6000 + 16 * j.arg 33 1)) j.param).setChain (j.arg 33 1)
        ⟨(s.taskSt (fld j.param 1 1)).count, (s.taskSt (fld j.param 2 1)).count, []⟩).finishOk j)) ∧
    (s.startedOp job 3 6 = some j →
      exec (.chainClear job) s = .next (((s.store (winAddr (0xE6000 + 16 * j.arg 33 1)) (zeros 16)).setChain (j.arg 33 1)
        .reset).finishOk j))) ∧
  (∀ s : State, s.flag Reg.PAR_STAT_SWAP_PENDING = false → s.flag Reg.HTP_CTRL_SETUP_DONE = false →
    exec .parSwap s = .next (s.wr Reg.PAR_STAT_SWAP_PENDING 1)) ∧
  (∀ (s : State) (b : Nat), b = s.frameFloor (schedFrameUs s.activeSched * 1000) →
      (b ≠ s.par.frameStart ∨ (s.par.hold = true ∧ b = s.dt64)) →
    exec .majorFrameBoundary s = .next ((({ s with
      par := { frameStart := b, hold := false, withdrawn := [] } } : State).swapSchedule b).beginWindow 0)) ∧
  (∀ (s : State), s.window + 1 < schedWindows s.activeSched → s.par.hold = false →
      s.par.frameStart + winStartUs s.activeSched (s.window + 1) * 1000 ≤ s.dt64 →
    exec .windowStart s = .next (s.beginWindow (s.window + 1)))

/-- Under conditions on the state and the operands alone, each of the four commands answers the next state that the clause writes out (R356,
R358 to R361). lateArrival: a VALID task with nothing come for its longest interval raises violation 2, and the interval starts anew.
budgetViolation: the first activation, complete or not, whose charged time in whole microseconds exceeds the budget raises violation 3 and is
marked. deadlineViolation: the first activation past its deadline raises violation 4 and is marked. chainLate: the first armed activation of
a VALID chain past its limit raises violation 2 and is marked. -/
def Obligations.TaskSupervisionComplete : Prop :=
  (∀ (s : State) (t : Fin 256) (x : TaskSt) (a : Nat), x = s.taskSt t → s.taskValid t = true → x.lateFrom = some a →
      s.taskRec t 12 4 ≠ 0 → s.taskRec t 12 4 ≤ usBetween a s.dt64 →
    exec (.lateArrival t) s = .next ((s.setTask t { x with lateFrom := some s.dt64 }).taskViolation t 2 x.count (usBetween a s.dt64))) ∧
  (∀ (s : State) (t : Fin 256) (x : TaskSt) (a : Activation), x = s.taskSt t → s.taskValid t = true →
    (s.taskRec t 16 4 ≠ 0 → (x.acts ++ x.past).find? (fun a => !a.budgetHit && decide (s.taskRec t 16 4 < s.actTicks t a / 250)) = some a →
      ∃ mark : Activation → Activation, mark = (fun y => if y.num = a.num then { y with budgetHit := true } else y) ∧
        exec (.budgetViolation t) s = .next ((s.setTask t { x with acts := x.acts.map mark, past := x.past.map mark }).taskViolation t 3 a.num
          (s.actTicks t a / 250))) ∧
    (s.taskRec t 20 4 ≠ 0 → x.acts.find? (fun a => !a.deadHit && decide (a.arriveNs + s.taskRec t 20 4 * 1000 ≤ s.dt64)) = some a →
      exec (.deadlineViolation t) s = .next ((s.setTask t { x with
        acts := x.acts.map (fun y => if y.num = a.num then { y with deadHit := true } else y) }).taskViolation t 4 a.num
          (usBetween a.arriveNs s.dt64)))) ∧
  (∀ (s : State) (c : Fin 32) (x : ChainSt) (a : ChainAct), x = s.chainSt c → s.chainValid c = true →
      x.armed.find? (fun a => !a.lateHit && decide (s.chainRec c 8 4 ≤ usBetween a.armNs s.dt64)) = some a →
    exec (.chainLate c) s = .next ((s.setChain c { x with
      armed := x.armed.map (fun y => if y.num = a.num then { y with lateHit := true } else y) }).chainViolation c 2 a.num
        (usBetween a.armNs s.dt64)))

/-- Under conditions on the state and the operands alone, each of the nine commands answers the next state that the clause writes out (R378,
R381, R382, R383, R385, R386, R387, R526). A frame that is taken first moves the association and the host's address along. hello, with a
session ID while no session is open, opens one, grants credits, asks for the attestation report and is answered; a host that was lost is back.
heartbeat: in RESTART it is answered; in a session its acknowledgements take effect and its time is kept. hostFrameDiscarded: a bad frame is
counted. deviceHeartbeat: when due with both ports up it leaves on both. hostLost: a host silent for HOSTLOSS_MS is lost. sessionlessHello
leaves when due. hostLinkDown: a port whose link is up goes down and the streams on it move. ackHeartbeat: an acknowledgement of the control
stream that is due leaves. retransmit: a stream whose port is up, in a period before the sixteenth, is sent again. -/
def Obligations.SessionCommandsComplete : Prop :=
  (∀ (s v : State) (port : Fin 2) (f : HostFrame), s.rxOf port f = .taken →
      v = { s.rollAssoc port f with
        ht := { (s.rollAssoc port f).ht with hostMac := (s.rollAssoc port f).ht.hostMac.set port f.src.toNat } } →
    (∀ (u w : State) (sid : Nat), frType f = 1 → sid = fld (frPayload f) 0 4 → sid ≠ 0 → v.dev ≠ stRestart → v.inSession = false →
        u = v.openSession sid → w = (if v.dev = stHostLost then u.hostBack else u).grantCredits →
      exec (.hello port f) s = .next (({ w with
        sec := { w.sec with reports := w.sec.reports ++ [le 4 sid ++ zeros 28] } } : State).sendStatus port 1)) ∧
    (frType f = 2 → v.dev = stRestart → exec (.heartbeat port f) s = .next (v.sendStatus port 2)) ∧
    (frType f = 2 → v.dev ≠ stRestart → (v.takeAcks f).inSession = true →
      exec (.heartbeat port f) s = .next { v.takeAcks f with ht := { (v.takeAcks f).ht with lastHb := (v.takeAcks f).ticks } })) ∧
  (∀ (s : State) (port : Fin 2) (f : HostFrame), s.rxOf port f = .bad →
    exec (.hostFrameDiscarded port f) s = .next (s.bump Reg.HTP_CNT_DISCARDED)) ∧
  (∀ s v : State, s.alive = true → s.inSession = true → s.passed s.ht.devHb (msTicks 10) = true →
      v = { s with ht := { s.ht with devHb := s.ticks } } → s.portUp 0 = true → (v.sendStatus 0 2).portUp 1 = true →
    exec .deviceHeartbeat s = .next ((v.sendStatus 0 2).sendStatus 1 2)) ∧
  (∀ s : State, s.alive = true → s.inSession = true → s.dev ≠ stHostLost → s.dev ≠ stRestart →
      s.passed s.ht.lastHb (msTicks (s.rd Reg.HTP_CFG_HOSTLOSS_MS)) = true →
    exec .hostLost s = .next ((((s.wr Reg.HTP_STAT_STATE stHostLost).bump Reg.HTP_CNT_HOST_LOSSES).raise 0x0701 0 []).requestHeld
      srcHostLost)) ∧
  (∀ (s : State) (port : Fin 2), s.alive = true → s.inSession = false → s.dev ≠ stRestart → s.fnState 1 = rdReady → s.portUp port = true →
      (∀ t, s.ht.lastHello.find port = some t → s.passed t (msTicks 100) = true) →
    exec (.sessionlessHello port) s = .next (({ s with
      ht := { s.ht with lastHello := s.ht.lastHello.set port s.ticks } } : State).sendStatus port 1)) ∧
  (∀ (s : State) (port : Fin 2), s.flag Reg.HTP_PORT_LINK port = true →
      (((s.setLink port false).wr Reg.HTP_PORT_LINK 0 port).wr Reg.HTP_PORT_SQI 0 port).fnState (0x700 + port) ≠ rdReady →
    exec (.hostLinkDown port) s = .next ((((s.setLink port false).wr Reg.HTP_PORT_LINK 0 port).wr Reg.HTP_PORT_SQI 0 port).failoverDue)) ∧
  (∀ (s : State) (t : Nat), (s.stream false).ackDue = some t → s.passed t (usTicks 50) = true →
    exec .ackHeartbeat s = .next (s.sendStatus (s.streamPort false) 2)) ∧
  (∀ (s v : State) (bulk : Bool) (x : Stream) (f : TxFrame) (r : List TxFrame), x = s.stream bulk → x.unacked = f :: r → s.alive = true →
      s.dev ≠ stHostLost → s.passed f.sentAt (usTicks 200) = true → v = s.setStream bulk { x with periods := x.periods + 1 } →
      x.periods < 15 → v.portUp (v.streamPort bulk) = true → (v.stream bulk).periods = x.periods + 1 →
    exec (.retransmit bulk) s = .next (v.resend bulk))

/-- Under conditions on the state and the operands alone, each of the seven commands answers the next state that the clause writes out (R390,
R391, R393, R408, R409, R411). A frame that is taken and in sequence on its stream: regRead replies with the words read, regWrite (no refusal,
no restart) writes its words and replies status 0, doorbell puts its descriptors into the shadow, bulkPush within the credit takes the push,
bulkPull queues a pull and bulkCredit sets the credit, either letting the bulk transfers go on. setupDone(1) in SETUP starts RUN. -/
def Obligations.RequestCommandsComplete : Prop :=
  (∀ (s v : State) (port : Fin 2) (f : HostFrame) (p : List Byte), s.rxOf port f = .taken → p = frPayload f →
      v = ({ s.rollAssoc port f with
        ht := { (s.rollAssoc port f).ht with hostMac := (s.rollAssoc port f).ht.hostMac.set port f.src.toNat } } : State).takeAcks f →
    (∀ w : State, v.sequence false port f = (w, true) →
      (frType f = 0x10 → requestError false p = stOk → ∀ bad upset,
        exec (.regRead port ⟨f, bad, upset⟩) s = .next ((State.readWords bad upset (fld p 4 2) (fld p 0 4) w).1.sendReliable false 0x10
          (regReply stOk (State.readWords bad upset (fld p 4 2) (fld p 0 4) w).2))) ∧
      (frType f = 0x11 → requestError true p = stOk → w.writeError (requestWrite p) = 0 → (requestWrite p).restarts = false →
        exec (.regWrite port f) s = .next ((w.writeWords (requestWrite p).ordered).sendReliable false 0x11
          (regReply stOk []))) ∧
      (∀ u : State, frType f = 0x20 → fld p 2 2 ≠ 0 → w.bellError p ≠ some 5 →
          u = (if fld p 1 1 ≠ 0xFF then w.setCqHead (fld p 1 1) (fld p 12 4) else w).takeReady → u.bellError p = none →
        exec (.doorbell port f) s = .next (u.putShadow (fld p 0 1) ((List.range (fld p 2 2)).map (fun i => slice p (32 + 64 * i) 64))))) ∧
    (∀ w : State, v.sequence true port f = (w, true) →
      (frType f = 0x30 → s.inSession = true → s.ht.usedIn < s.ht.creditIn → ∀ det,
        exec (.bulkPush port f det) s = .next (w.takePush p det)) ∧
      (frType f = 0x31 → pullError p = none → w.inSession = true → ∀ det,
        exec (.bulkPull port f det) s = .next (({ w with
          ht := { w.ht with bulk := w.ht.bulk ++ [⟨fld p 0 4, true, fld p 4 1, fld p 6 1, fld p 8 8, [], true, fld p 16 4, 0, 0⟩] } } : State).bulkGo det)) ∧
      (frType f = 0x32 → w.inSession = true →
        exec (.bulkCredit port f) s = .next (({ w with
          ht := { w.ht with creditOut := fld p 0 4 } } : State).bulkGo ⟨0, 0⟩)))) ∧
  (∀ s : State, s.dev = stSetup →
    exec (.setupDone true) s = .next ((s.wr Reg.HTP_CTRL_SETUP_DONE 1).wr Reg.HTP_STAT_STATE stRun))

/-- Under conditions on the state and the operands alone, each of the eight commands answers the next state that the clause writes out (R371,
R396, R399, R400, R402, R406, R407, R413; Table HST-9). descriptorStart of a descriptor whose wait is met and whose taint is not retracted
begins it, or, for an opcode that waits for an engine, marks it started (and claims its plates for a launch). waitTimeout: one that waited
longer than its partition allows ends WAIT_TIMEOUT. nop completes. tableLoad of a good block without SWAP writes its entries and completes.
readmit of a sensor with a state runs until the next boundary. completion sends the oldest records of a queue that may leave. event, with
nothing left over from an earlier session, sends the events gathered. epochStream: the next packet of queue 0x32 leaves, marked damaged where it
is, and a copied packet of another queue leaves or is counted as dropped. -/
def Obligations.DescriptorCommandsComplete : Prop :=
  (∀ (s : State) (job : Nat) (j : Job), s.job job = some j → s.waitMet j = true → j.phase = .waiting → s.alive = true →
      s.retractedIn (s.startTaint j) = none → (s.startTaint j = [] ∨ s.taints.length < 1024) →
    (waitsForEngine j = false → exec (.descriptorStart job) s = .next (s.beginJob { j with taint := s.startTaint j } .started)) ∧
    (waitsForEngine j = true → j.opcode ≠ 0x10 →
      exec (.descriptorStart job) s = .next (s.setJob { j with taint := s.startTaint j, phase := .started })) ∧
    (j.opcode = 0x10 → waitsForEngine j = true →
      exec (.descriptorStart job) s = .next ((s.setJob { j with taint := s.startTaint j, phase := .started }).claimPlates
        { j with taint := s.startTaint j }))) ∧
  (∀ (s : State) (job : Nat) (j : Job), s.job job = some j → s.waitMet j = false → j.phase = .waiting → s.partRec j.part 2 2 ≠ 0 →
      s.passed j.atTick (msTicks (s.partRec j.part 2 2)) = true →
    exec (.waitTimeout job) s = .next (((s.stopJob j).bump Reg.SYN_CNT_WAIT_TIMEOUTS).finishQuiet j stWaitTimeout 0 0)) ∧
  (∀ (s : State) (job : Nat) (j : Job),
    (s.startedJob job 0 = some j → exec (.nop job) s = .next (s.finishOk j)) ∧
    (∀ t : State, s.startedJob job 0x20 = some j → loadLen j ≠ 0 → s.loadPending j = false →
        (loadFamily j = 2 → s.oldBusy = false) → t = s.store (loadAddr j (s.loadBank j) (loadFirst j)) j.param → loadSwap j = false →
        (blockBad (loadEntryBad j s.epochLen) (loadSize j) (loadCount j) j.param).bind blockField = none →
      exec (.tableLoad job) s = .next ((t.wroteOut j.id).finishNow j.id 0 0 0)) ∧
    (s.startedOp job 0x21 1 = some j → s.rd Reg.HAT_VSTATE_STATE (j.arg 33 1) ≠ 0 →
      exec (.readmit job) s = .next (s.setJob { j with phase := .running }))) ∧
  (∀ (s : State) (c : Fin 64) (l : List (List Byte)) (n : Nat), s.alive = true → s.inSession = true → l = s.ht.cq.get [] c →
      n = s.sendable c → n ≠ 0 → s.canSend false = true →
    exec (.completion c) s = .next ((({ s with
      ht := { s.ht with cq := s.ht.cq.set c (l.drop n) } } : State).sendReliable false 0x21 (le 1 c ++ le 1 0 ++ le 2 n ++
        le 4 ((s.rd Reg.HTP_CQ_IDX_PROD c + 2 ^ 32 - l.length) % 2 ^ 32) ++ le 8 0 ++ (l.take n).flatten)).takeReady)) ∧
  (∀ (s t : State) (l : List Byte), s.alive = true → s.inSession = true → s.canSend false = true → s.ht.againEvents = [] →
      State.gatherEvents ((s.queue 0x30).stream.length + (s.queue 0x31).stream.length) s [] = (t, l) → l ≠ [] →
    exec .event s = .next (t.sendReliable false 0x22 l)) ∧
  (∀ (s t : State) (h : QItem) (ws p : List QItem), s.alive = true → s.dev ≠ stRestart → s.ht.againEpochs = [] →
      s.dequeue 0x32 = some (h, ws, t) → p = (if packetBad h ws then h.damaged else h) :: ws → s.canStream (streamPacket 0x32 p) = true →
    exec (.epochStream 50) s = .next (t.sendStream (streamPacket 0x32 p))) ∧
  (∀ (s v : State) (q : Fin 51) (c : List QItem) (r : List (List QItem)), s.alive = true → s.dev ≠ stRestart → q.val ≠ 0x32 →
      (s.queue q).copies = c :: r → v = s.setQueue q { s.queue q with copies := r } →
    exec (.epochStream q) s = .next (if v.canStream (streamPacket q c) then v.sendStream (streamPacket q c) else
      v.bump Reg.HTP_CNT_STREAM_DROPS))

/-- Under conditions on the state and the operands alone, each of the seven commands answers the next state that the clause writes out (R416,
R417, R418, R419, R422, R423). flitRx on a port that is up: a flit of a wrong length or CRC is refused; an acknowledgement takes effect and
may ask for a replay; a control or data flit in order has its buffer returned and its payload used. flitReplay: flits kept 4 µs are sent again.
laneRetrain(lost): a lane that had passed its run leaves the striping while no other lane of its port retrains. prbsRunDone without an error:
the lane is announced and serves again, and a lane without lock may retrain next. ringHello leaves when due. neighbourLoss: a silent neighbour
is dropped. censusTimeout: an unanswered census starts again. -/
def Obligations.RingLinkCommandsComplete : Prop :=
  (∀ (s v w : State) (port : Fin 2) (fl : Flit), s.alive = true → s.ringUp port = true →
    (fl.bytes.length ≠ 144 → exec (.flitRx port fl) s = .next (s.refuseFlit port)) ∧
    (fld fl.bytes 136 4 ≠ crc32c (fl.bytes.take 136) → exec (.flitRx port fl) s = .next (s.refuseFlit port)) ∧
    (fl.bytes.length = 144 → fld fl.bytes 136 4 = crc32c (fl.bytes.take 136) →
        v = (s.flitAck port (fld fl.bytes 4 2)).flitCredit port (fld fl.bytes 6 1) (fld fl.bytes 7 1) →
      (fld fl.bytes 0 1 = 0 → exec (.flitRx port fl) s = .next (if bit (fld fl.bytes 1 1) 0 then v.replay port else v)) ∧
      (fld fl.bytes 0 1 = 1 → fld fl.bytes 2 2 = (s.rx port).expect →
          w = v.setRx port { v.rx port with expect := ((v.rx port).expect + 1) % 65536, nak := false } →
        exec (.flitRx port fl) s = .next ((w.idleFlit port 0 1 false).useFlit port 1 (fld fl.bytes 1 1) ((fl.bytes.drop 8).take 128))) ∧
      (fld fl.bytes 0 1 = 2 → fld fl.bytes 2 2 = (s.rx port).expect →
          w = v.setRx port { v.rx port with expect := ((v.rx port).expect + 1) % 65536, nak := false } →
        exec (.flitRx port fl) s = .next ((w.idleFlit port 1 0 false).useFlit port 2 (fld fl.bytes 1 1)
          ((fl.bytes.drop 8).take 128))))) ∧
  (∀ (s : State) (port : Fin 2), s.alive = true → s.ringUp port = true → (s.tx port).kept ≠ [] →
      s.passed (s.tx port).keptAt (usTicks 4) = true → exec (.flitReplay port) s = .next (s.replay port)) ∧
  (∀ (s : State) (i : Fin 8), s.alive = true → s.lanePassed i = true → s.rd Reg.RNG_LANE_STATE i ≠ 3 →
      s.rd Reg.RNG_LANE_STATE i ≠ laneFailed →
      (∀ l, l < 4 → i.val / 4 * 4 + l ≠ i.val → s.rd Reg.RNG_LANE_STATE (i / 4 * 4 + l) ≠ laneRetrain) →
    exec (.laneRetrain i .lost) s = .next ((({ s with
      ring := { s.ring with locked := putBit s.ring.locked i false } } : State).dropLane i).showPort (i / 4))) ∧
  (∀ (s v : State) (i : Fin 8), s.alive = true → s.rd Reg.RNG_LANE_STATE i = laneRetrain → (s.unit (laneUnit i)).offline = false →
      v = { s with
        ring := { s.ring with passed := putBit s.ring.passed i true, locked := putBit s.ring.locked i true } } →
    exec (.prbsRunDone i 0) s = .next (((((v.setLane i laneActive).wr Reg.RNG_LANE_RUNS 0 i).sendCtrl (i / 4) ctLaneAdd
      (le 1 (i % 4))).nextRetrain (i / 4)).showPort (i / 4))) ∧
  (∀ (s : State) (port : Fin 2), s.alive = true → s.ringUp port = true →
    ((∀ t, s.ring.helloAt.find port = some t → s.passed t (msTicks 1) = true) →
      exec (.ringHello port) s = .next (({ s with
        ring := { s.ring with helloAt := s.ring.helloAt.set port s.ticks } } : State).sendCtrl port ctHello s.ringHello)) ∧
    (∀ n, s.ring.neigh.find port = some n → s.passed n.lastAt (msTicks 3) = true →
      exec (.neighbourLoss port) s = .next (s.dropNeigh port))) ∧
  (∀ (s : State) (t : Nat), s.ring.census.map (·.2) = some t → s.alive = true → s.passed t (usTicks 100) = true →
    exec .censusTimeout s = .next s.beginCensus)

/-- Under conditions on the state and the operands alone, each of the eight commands answers the next state that the clause writes out (R427,
R428, R430, R431, R435). roleLoad of a table while no collective runs (and no page is placed, for a module that would lose its cache) stores it
and begins a census. allGather, reduceScatter and ringPass: a collective with data at the head of the queue that nothing refuses takes the
transfers that came early and runs. joinTimeout and collectiveStall: one that nobody joins, or that stands still, ends NOT_READY.
checkEpochClose: an epoch covered by its comparisons closes. checkLimitExpiry: one past its limit closes as failed. -/
def Obligations.CollectiveCommandsComplete : Prop :=
  (∀ (s : State) (job : Nat) (j : Job), s.startedOp job 0x30 1 = some j → j.param ≠ [] →
      (∀ c ∈ s.ring.colls, c.startAt = none) → (((roleEntry j.param s.part.serial).getD (0xFF, 0)).2 < 3 → s.ring.placed = []) →
    exec (.roleLoad job) s = .next ((({ s with
      ring := { s.ring with roles := j.param } } : State).wr Reg.RNG_STAT_ROLES_LOADED 1).beginCensus.finishOk j)) ∧
  (∀ (s u v : State) (job op : Nat) (j : Job) (c : Coll) (r : List Coll), s.job job = some j → j.opcode = 0x30 → j.arg 32 1 = op →
      j.phase = .started → s.gated islRng = false → j.arg 36 4 ≠ 0 → s.ring.colls = c :: r → c.job = job → s.collRefusal j = none →
      u = ({ s with ring := { s.ring with early := s.ring.early.filter (fun x => x.coll != c.number) } } : State).modColl job (fun y => { y with
        startAt := some s.ticks, progressAt := s.ticks, received := s.ring.early.filter (fun x => x.coll == c.number) }) →
      v = ({ u.setJob { j with phase := .running } with
        chanJob := (u.setJob { j with phase := .running }).chanJob.set ringChan job } : State).chanStart ringChan j.context 0 0 j.tag false →
    ∀ det : ReadFault,
    (op = 2 → exec (.allGather ⟨job, det⟩) s = .next (State.collRun job 20 v det)) ∧
    (op = 3 → exec (.reduceScatter ⟨job, det⟩) s = .next (State.collRun job 20 v det)) ∧
    (op = 4 → exec (.ringPass ⟨job, det⟩) s = .next (State.collRun job 20 v det))) ∧
  (∀ (s : State) (job t : Nat) (c : Coll), s.ring.colls.find? (fun c => c.job == job) = some c → c.startAt = some t →
    (s.passed t (msTicks (s.rd Reg.RNG_CFG_JOIN_MS)) = true → c.step = 0 → c.received = [] →
      exec (.joinTimeout job) s = .next (s.endColl job stNotReady 0)) ∧
    (s.chan ringChan ≠ chFaulted → s.passed c.progressAt (msTicks (s.rd Reg.RNG_CFG_JOIN_MS)) = true →
      exec (.collectiveStall job) s = .next (s.endColl job stNotReady 0))) ∧
  (∀ (s : State) (e : Nat × List Nat × List Nat) (r : List (Nat × List Nat × List Nat)), s.ring.sent = e :: r → s.alive = true →
      s.epochOver e.1 = true →
    (s.covered e = true → exec .checkEpochClose s = .next (s.closeEpoch e (s.ring.badJobs.any (fun j => e.2.1.contains j)))) ∧
    (s.rd Reg.RNG_CHECK_PERIOD_US * 1000 + s.rd Reg.RNG_CHECK_LIMIT_US * 1000 ≤
        ((s.checkEpoch + 2 ^ 32 - e.1) % 2 ^ 32) * (s.rd Reg.RNG_CHECK_PERIOD_US * 1000) +
          toU 64 (((s.dt64 : Int) - s.rd Reg.RUL_EPOCH_OFS_OFS_NS) % ((s.rd Reg.RNG_CHECK_PERIOD_US * 1000 : Nat) : Int)) →
      exec .checkLimitExpiry s = .next (s.closeEpoch e true)))

/-- Under conditions on the state and the operands alone, each of the six commands answers the next state that the clause writes out (R26,
R453, R454, R457, R459, R469, R475; Table PRF-5). containment, naming a built unit or none: code 0x0B restarts cold, any other is
contained. supervisorMismatch restarts cold. proofCheck of a record not yet checked: one that agrees frees its slot; one that differs is counted
and waits for a third plate, or, with none, finds both arrays faulty. proofArbitrate: the third plate's result gives the verdict.
digestCompute: a VALID region in no group whose step has come agrees with its reference. digestWaitExpiry: a late group is compared
without the missing. -/
def Obligations.ProofCommandsComplete : Prop :=
  (∀ (s : State) (c : Fin 12) (u : BitVec 32), c.val ≠ 0 → (u.toNat = 0 ∨ unitBuilt u.toNat = true) →
    (c.val ≠ 0x0B → exec (.containment c u) s = .next (s.contain c u.toNat)) ∧
    (c.val = 0x0B → s.alive = true → exec (.containment c u) s = .next s.coldStart)) ∧
  (∀ s : State, s.alive = true → exec .supervisorMismatch s = .next s.coldStart) ∧
  (∀ (s v : State) (p : Fin 34) (k : Fin 2) (upset : BitVec 64) (r : ProofRec) (c crc : Nat) (others : List Nat),
      (s.plate p).slots[k.val]? = some r → s.checkers p = c :: others →
    (r.checkCrc = none → s.recordCrc c r upset = some crc → r.crc = some crc →
      exec (.proofCheck p k upset) s = .next ((s.bump Reg.PRF_CNT_PROOF_TILES).setSlots p ((s.plate p).slots.eraseIdx k))) ∧
    (r.checkCrc = none → s.recordCrc c r upset = some crc → r.crc ≠ some crc →
        v = (s.bump Reg.PRF_CNT_PROOF_TILES).bump Reg.PRF_CNT_PROOF_MISMATCH →
      exec (.proofCheck p k upset) s = .next (if others = [] then
        (v.setSlots p ((s.plate p).slots.eraseIdx k)).proofVerdict p r c none 2 else
        v.setSlots p ((s.plate p).slots.set k { r with checkCrc := some crc }))) ∧
    (∀ b a : Nat, r.checkCrc = some b → others.head? = some a → s.recordCrc a r upset = some crc →
      exec (.proofArbitrate p k upset) s = .next ((s.setSlots p ((s.plate p).slots.eraseIdx k)).proofVerdict p r c (some a)
        (if crc = b then 0 else if r.crc = some crc then 1 else 2)))) ∧
  (∀ (s u : State) (i : Fin 64) (step : Nat), s.alive = true → s.regionState i = rgValid →
      step = (s.obj (fld (s.region i).block 4 2)).value / max 1 (fld (s.region i).block 2 2) * max 1 (fld (s.region i).block 2 2) →
      (s.region i).lastStep < step → s.regionDigest i false = (s.region i).ref → fld (s.region i).block 0 1 = 0xFF →
      u = s.bump Reg.PRF_CNT_DIGESTS →
    exec (.digestCompute i) s = .next { u with
      prf := { u.prf with regions := u.prf.regions.set i { s.region i with lastStep := step } } }) ∧
  (∀ (s : State) (i : Fin 64) (w : Nat × Nat × Nat), s.prf.digestWait.find? (fun w => w.1 == i.val &&
      s.passed w.2.2 (msTicks (s.rd Reg.PRF_CFG_DIGEST_WAIT_MS))) = some w →
    exec (.digestWaitExpiry i) s = .next (s.compareDigests w.1 w.2.1))

/-- Under conditions on the state and the operands alone, each of the ten commands answers the next state that the clause writes out (R457,
R463, R467, R472, R478, R479, R481; Table PRF-9). fieldTest of units that are not under test and whose plates are free takes them into test.
fieldTestDone of a descriptor's only unit that passed ends the test and reports it. offline takes the units named offline. online brings the units
that may come back online, a lane to retraining in its turn. regionSet of an empty region stores the block and its digest. regionClear empties the
region. reload sets the reference from the present contents. history writes its records. eventAgeout: a unit whose class has aged falls
back. regionVerify: a kept region whose digest agrees is VERIFIED after a warm restart. -/
def Obligations.DiagCommandsComplete : Prop :=
  (∀ (s u : State) (job : Nat) (j : Job) (us : List Nat), s.startedOp job 0x40 1 = some j → us = targetUnits (j.arg 36 4) →
      (∀ x ∈ us, (s.unit x).test = false) → (∀ x ∈ us, x / 2 ^ 24 = 1 → s.plateHeld (bits x 0 24) = false) →
      u = us.foldl (fun s x => s.beginTest x) s →
    exec (.fieldTest job) s = .next (({ u with
      prf := { u.prf with tests := u.prf.tests ++ us.map (fun x => ⟨x, j.id, u.ticks, false, false⟩) } } : State).setJob { j with
        phase := .running })) ∧
  (∀ (s v : State) (u : BitVec 32) (t : FieldTest) (j : Job), s.prf.tests = [t] → t.ended = false → t.unit = u.toNat →
      v = (s.bump Reg.PRF_CNT_FIELD_TESTS).leaveTest t.unit true →
      v.prf.tests = [t] → v.job t.job = some j → unitBuilt u.toNat = true →
    exec (.fieldTestDone u none) s = .next (({ v with prf := { v.prf with tests := [] } } : State).finish j stOk 0
      (j.arg 36 4 + (s.ticks - t.startTick) / 250 * 2 ^ 32))) ∧
  (∀ (s : State) (job : Nat) (j : Job),
    (s.startedOp job 0x40 2 = some j → (∃ u ∈ targetUnits (j.arg 36 4), (s.unit u).offline = false) →
      exec (.offline job) s = .next (((targetUnits (j.arg 36 4)).foldl (fun s u => if (s.unit u).offline then s else (s.takeOffline u).afterOffline u)
        s).finishOk j)) ∧
    (∀ u : Nat, s.startedOp job 0x40 3 = some j → (targetUnits (j.arg 36 4)).filter s.canOnline = [u] →
      exec (.online job) s = .next ((if u / 2 ^ 24 = 0x0E then (s.onlineNow u).retrainLane (bits u 0 24)
        else s.onlineNow u).finishOk j)) ∧
    (∀ v : State, s.startedOp job 0x40 4 = some j → j.param ≠ [] → s.regionState (j.arg 36 1) = 0 →
        s.regionClash j.context (j.arg 36 1) j.param = none →
        s.vcheck j.context .read (fld j.param 16 8 / 4096 + 2) (fld j.param 8 8) (fld j.param 16 8) = none →
        v = s.putRegion (j.arg 36 1) j.context ⟨j.param, 0, ((s.ctxs.find j.context).map (·.root)).getD 0,
          (s.obj (fld j.param 4 2)).value / max 1 (fld j.param 2 2) * max 1 (fld j.param 2 2)⟩ →
      exec (.regionSet job) s = .next ((v.putRegion (j.arg 36 1) j.context ⟨j.param, v.regionDigest (j.arg 36 1) false,
        ((s.ctxs.find j.context).map (·.root)).getD 0,
        (s.obj (fld j.param 4 2)).value / max 1 (fld j.param 2 2) * max 1 (fld j.param 2 2)⟩).finishOk j)) ∧
    (s.startedOp job 0x40 5 = some j → s.regionState (j.arg 36 1) ≠ 0 →
      ∃ t : State, exec (.regionClear job) s = .next (((t.wr Reg.PRF_REGION_STATE 0 (j.arg 36 1)).wr Reg.PRF_REGION_CONTEXT 0
          (j.arg 36 1)).finishOk j) ∧ t.prf.regions = s.prf.regions.erase (j.arg 36 1) ∧
        t.nv.regions = s.nv.regions.erase (j.arg 36 1) ∧ t.regs = s.regs ∧ t.mem = s.mem ∧ t.jobs = s.jobs) ∧
    (s.startedOp job 0x40 6 = some j → s.regionState (j.arg 36 1) ≠ 0 →
        (bit (j.arg 33 1) 0 = true → bit (fld (s.region (j.arg 36 1)).block 1 1) 0 = true) →
      exec (.reload job) s = .next ((s.reload (j.arg 36 1) (bit (j.arg 33 1) 0)).finishOk j)) ∧
    (∀ (v : State) (n : Nat), s.startedOp job 0x40 7 = some j → s.chan 0x30 ≠ chFaulted → j.arg 40 4 ≠ 0 →
        s.vwrite 0x30 j.context (j.arg 48 8) ((s.nv.history.rows.take (j.arg 40 4 / 32)).flatMap (fun r => historyBytes r.1 r.2)) =
          (v, n, none) →
      exec (.history job) s = .next (((v.freeChans job).wroteOut job).finishNow job stOk
        (s.nv.history.rows.take (j.arg 40 4 / 32)).length 0))) ∧
  (∀ (s : State) (u : BitVec 32), s.power ≠ .off → s.classOf u.toNat < (s.history u.toNat).state →
    exec (.eventAgeout u) s = .next (s.setClass u.toNat (s.classOf u.toNat))) ∧
  (∀ (s v : State) (i : Fin 64) (g : Region) (ctx : Nat), s.nv.regions.find i = some (g, ctx) → s.boot.warm = true → s.power = .up →
      s.boot.fwHeader ≠ [] → s.regionState i = 0 →
      v = { s with prf := { s.prf with regions := s.prf.regions.set i { g with lastStep := 0 } } } → v.regionDigest i false = g.ref →
    exec (.regionVerify i) s = .next (((v.raise 0x0906 0 (le 1 i ++ le 1 1)).wr Reg.PRF_REGION_STATE rgVerified i).wr
      Reg.PRF_REGION_CONTEXT ctx i))

/-- Under conditions on the state and the operands alone, each of the nine commands answers the next state that the clause writes out (R484,
R485, R486, R505, R582). safeInAssert requests the safe state. safeInRelease clears the cause, and after 10 ms lets the latched sources go.
safeHoldExpiry: a hold that is over ends. clockSupervision: a bad clock holds the lines, a good one is cured. safeLineFault and
safeLineFaultCured: a line that reads wrong is reported and the other line driven, until it is cured. thermalThrottle at the limit throttles and
reports. thermalTrip at the trip value restarts warm and holds. thermalRecover at the recovery value starts again. -/
def Obligations.SafeCommandsComplete : Prop :=
  (∀ (s v : State), s.supplied = true → s.flag Reg.SUP_STAT_LOCKED = false →
      v = ({ s with sup := { s.sup with safeInAt := some (s.sup.safeInAt.getD (s.ticks - usTicks 100)) } } : State).wr
        Reg.SUP_STAT_SAFE_IN 1 →
    exec .safeInAssert s = .next (v.requestHeld srcSafeIn)) ∧
  (∀ (s v : State) (t : Nat), s.sup.safeInAt = some t → s.supplied = true → s.flag Reg.SUP_STAT_LOCKED = false →
      v = ({ s with sup := { s.sup with safeInAt := none } } : State).wr Reg.SUP_STAT_SAFE_IN 0 →
      v.supplied = true → v.flag Reg.SUP_STAT_LOCKED = false →
    (s.ticks < t + msTicks 10 → exec .safeInRelease s = .next (v.clearCause srcSafeIn)) ∧
    (t + msTicks 10 ≤ s.ticks → exec .safeInRelease s = .next ((List.range 9).foldl
      (fun s n => if s.latched n then s.releaseSource n else s) (v.clearCause srcSafeIn)))) ∧
  (∀ (s : State) (n : Fin 9), s.supplied = true → s.holdOver n = true →
    exec (.safeHoldExpiry n) s = .next (s.releaseSource n)) ∧
  (∀ s : State, s.supplied = true →
    exec (.clockSupervision false) s = .next (({ s with sup := { s.sup with clockBad := true } } : State).requestHeld srcClock) ∧
    exec (.clockSupervision true) s = .next (({ s with sup := { s.sup with clockBad := false } } : State).clockCured)) ∧
  (∀ (s : State) (k : Fin 2) (mv : BitVec 16), s.supplied = true →
    (bit s.sup.lineBad k = false →
      exec (.safeLineFault k mv) s = .next ((({ s with
        sup := { s.sup with lineBad := s.sup.lineBad + 2 ^ k.val } } : State).raise 0x0D03 (unitId 0x12 0) (le 1 k ++ le 2 mv.toNat)).requestLines
          srcClock (2 - k) true)) ∧
    (bit s.sup.lineBad k = true →
      exec (.safeLineFaultCured k) s = .next ({ s with
        sup := { s.sup with lineBad := s.sup.lineBad - 2 ^ k.val } } : State).clockCured)) ∧
  (∀ (s v : State) (tj : Int), s.alive = true → 1150 ≤ tj → s.flag Reg.SUP_THERM_THROTTLE = false →
      v = ((s.wr Reg.SUP_THERM_TJ (toU 12 tj)).wr Reg.SUP_THERM_THROTTLE 1).reclock s →
    exec (.thermalThrottle tj) s = .next (v.raise 0x0A06 (unitId 0x12 0) (thermalData tj false))) ∧
  (∀ (s v : State) (tj : Int), s.alive = true → 1250 ≤ tj →
      v = (((s.requestHeld srcThermal).wr Reg.SUP_THERM_TJ (toU 12 tj)).wr Reg.SUP_THERM_TRIPPED 1).warmStart startThermal true →
    exec (.thermalTrip tj) s = .next { v with power := .held, sup := { v.sup with thermalHold := true } }) ∧
  (∀ (s v : State) (tj : Int), s.power = .held → s.sup.thermalHold = true → s.prf.heldReset = false → tj ≤ 1050 →
      v = (({ s with power := .starting, sup := { s.sup with thermalHold := false } } : State).wr Reg.SUP_THERM_TJ (toU 12 tj)).wr
        Reg.SUP_THERM_THROTTLE 0 →
    exec (.thermalRecover tj) s = .next ((v.raise 0x0A06 (unitId 0x12 0) (thermalData (sext 12 (s.rd Reg.SUP_THERM_TJ)) true)).clearCause
      srcThermal))

/-- Under conditions on the state and the operands alone, each of the eleven commands answers the next state that the clause writes out
(R571, R573, R578, R579, R585, R587). supplyBandChange within 9.3 V to 59.6 V: the voltage is shown, both flags are clear, no threshold is
timed and the plate clocks follow. brownOut, when due: its time is recorded and the module is off. wakeLow: WAKE is shown low and SUPPLY of kind 4
told. wakePowerOff after the delay: off, without the record. wakeRise of a module that WAKE switched off: it starts cold. cameraOvercurrent: the
switch opens and is told. cameraReclose: after 1 s it closes unless locked. pwrPocWrite before SETUP_DONE takes effect. vcamRange within
9 V to 16 V is shown. baseRange: within its range, or newly beyond it, which is told. missionEnd is told once. -/
def Obligations.SupplyCommandsComplete : Prop :=
  (∀ (s v : State) (mv us : Nat), 9300 ≤ mv → mv ≤ 59600 →
      v = ((({ s with
        pwr := { s.pwr with vin := mv, underSince := none, overSince := none, surgeSince := none } } : State).wr Reg.PWR_SUPPLY_VIN_MV mv).wr
          Reg.PWR_STAT_UNDERVOLT 0).wr Reg.PWR_STAT_OVERVOLT 0 →
    exec (.supplyBandChange mv us) s = .next (if s.alive then v.reclock s else v)) ∧
  (∀ (s v : State), s.supplied = true → s.brownOutDue = true → v = s.cutAdvance →
    exec .brownOut s = .next ({ v with nv := { v.nv with brownOut := some v.nv.seconds } } : State).powerOff) ∧
  (∀ (s : State), s.flag Reg.PWR_STAT_WAKE = true →
    exec .wakeLow s = .next ((({ s with
      pwr := { s.pwr with wakeLow := some s.ticks } } : State).wr Reg.PWR_STAT_WAKE 0).tellSupply 4)) ∧
  (∀ (s v : State) (t : Nat), s.pwr.wakeLow = some t → s.supplied = true → t + msTicks (1000 * s.rd Reg.PWR_WAKE_DELAY_S) ≤ s.ticks →
      v = s.cutAdvance.powerOff →
    exec .wakePowerOff s = .next { v with nv := { v.nv with brownOut := none }, pwr := { v.pwr with wakeOff := true } }) ∧
  (∀ (s : State), s.power = .off → s.pwr.wakeOff = true →
    exec .wakeRise s = .next (({ s with pwr := { s.pwr with wakeLow := none } } : State).wr Reg.PWR_STAT_WAKE 1).coldStart) ∧
  (∀ (s v : State) (n : Fin 12) (mA : BitVec 16) (l : List Nat), s.alive = true → s.pocOn n = true →
      l = s.ticks :: (s.pwr.pocFaults.get [] n).filter (fun t => decide (s.ticks < t + msTicks 60000)) →
      v = ({ s with
        pwr := { s.pwr with
          pocFaults := s.pwr.pocFaults.set n l, pocOpen := s.pwr.pocOpen.set n s.ticks,
          pocLocked := s.pwr.pocLocked.set n (decide (3 ≤ l.length)) } } : State).wr Reg.PWR_POC_FAULT
            (s.rd Reg.PWR_POC_FAULT + 2 ^ n.val) →
    exec (.cameraOvercurrent n mA) s = .next ((v.raise 0x0D02 (unitId 0x0A n) (le 1 n ++ le 1 l.length ++ le 2 mA.toNat)).pocDark n)) ∧
  (∀ (s : State) (n : Fin 12), s.alive = true → bit (s.rd Reg.PWR_POC_FAULT) n = true → s.pwr.pocLocked.get false n = false →
      s.passed (s.pwr.pocOpen.get 0 n) (msTicks 1000) = true →
    exec (.cameraReclose n) s = .next (s.wr Reg.PWR_POC_FAULT (s.rd Reg.PWR_POC_FAULT - 2 ^ n.val))) ∧
  (∀ (s : State) (e : BitVec 12), s.alive = true → s.flag Reg.HTP_CTRL_SETUP_DONE = false →
    exec (.pwrPocWrite e) s = .next (s.pocWrite e.toNat)) ∧
  (∀ (s v : State) (mv : BitVec 16), 9000 ≤ mv.toNat → mv.toNat ≤ 16000 →
      v = (s.wr Reg.PWR_SUPPLY_VCAM_MV mv.toNat).wr Reg.PWR_STAT_VCAM_BAD 0 →
    exec (.vcamRange mv) s = .next (if v.alive then (List.range 12).foldl State.pocDark v else v)) ∧
  (∀ (s : State) (t : Int), t ≤ 950 → -400 ≤ t →
    exec (.baseRange t) s = .next ((s.wr Reg.PWR_TEMP_BASE (toU 16 t)).wr Reg.PWR_STAT_BASE_RANGE 0)) ∧
  (∀ (s : State) (t : Int), (950 < t ∨ t < -400) → s.flag Reg.PWR_STAT_BASE_RANGE = false →
    exec (.baseRange t) s = .next (((s.wr Reg.PWR_TEMP_BASE (toU 16 t)).wr Reg.PWR_STAT_BASE_RANGE 1).tellSupply 5)) ∧
  (∀ (s : State), s.alive = true → 162000000 ≤ s.nv.seconds → s.pwr.missionTold = false →
    exec .missionEnd s = .next (({ s with
      pwr := { s.pwr with missionTold := true } } : State).raise 0x0D04 0 (le 8 s.nv.seconds)))

/-- Under conditions on the state and the operands alone, each of the thirteen commands answers the next state that the clause writes out, and
startupBist with no unit failing one whose BIST is done, or, with a unit that the module cannot do without PERMANENT, one that is held (R24, R519, R527, R529, R530, R536, R537, R540, R546, R547, R550, R556, R574; log entry
4 for the test time left open). powerGood within 9.5 V to 60 V starts the module cold. romBootDone loads the calibration, sets each sensor's
state, becomes ready and discovers. ddrTrainingDone from saved settings: the channel is ready, while others still train. regionRelease: the boot
region, or a region in its turn, is released. regionTestFail: a region in its turn fails and its channel is recorded. retentionPause: a pause
ends. firmwareVerify of a staged image that can be read: it starts, or the step of Table SEC-3 that fails is reported. needleFwMulticast:
every enabled plate is reached and its readiness in progress. unitReady: Stipple, the burnisher, a commons half or a plate that holds the firmware
is ready. nvsave saves the settings unless a save runs; nvsaveDone ends it. restart before SETUP_DONE starts cold. -/
def Obligations.BringUpCommandsComplete : Prop :=
  (∀ (s : State) (mv : Nat), s.power = .off → s.flag Reg.PWR_STAT_WAKE = true → 9500 ≤ mv → mv ≤ 60000 →
    exec (.powerGood mv) s = .next (((({ s with
      pwr := { s.pwr with vin := mv, underSince := none, overSince := none, surgeSince := none } } : State).wr Reg.PWR_SUPPLY_VIN_MV mv).wr
        Reg.PWR_STAT_UNDERVOLT 0).wr Reg.PWR_STAT_OVERVOLT 0).coldStart) ∧
  (∀ s : State, s.power = .starting → s.boot.bistDone = false →
    ((∀ u ∈ coreUnits, s.permanent u = false) →
      ∃ t, exec (.startupBist []) s = .next t ∧ t.boot.bistDone = true ∧ t.power = .starting) ∧
    ((∃ u ∈ coreUnits, s.permanent u = true) →
      ∃ t, exec (.startupBist []) s = .next t ∧ t.power = .held ∧ t.prf.heldReset = true)) ∧
  (∀ (s v : State), s.power = .starting → s.boot.bistDone = true → s.nv.brownOut = none →
      v = (List.range 64).foldl (fun s i => s.setIngest i (if s.sensor i 0 1 = 0 then 0 else 1))
        ({ s with power := .up } : State).loadCal →
    exec .romBootDone s = .next ((v.wr Reg.HTP_STAT_STATE stRom).fnReady 1).discoverAll) ∧
  (∀ (s v : State) (c : Fin 8), s.alive = true → bit s.chanMap c = true → bit s.boot.trained c = false →
      bit s.pwr.domains (41 + c / 4) = true → bit s.nv.training c = true →
      v = (({ s with
        boot := { s.boot with trained := s.boot.trained ||| 2 ^ c.val } } : State).wr Reg.EAS_BOOT_TRAIN_SAVED
          (s.rd Reg.EAS_BOOT_TRAIN_SAVED ||| 2 ^ c.val)).fnReady (0x200 + c) → v.allTrained = false →
    exec (.ddrTrainingDone c true none) s = .next v.showTest) ∧
  (∀ (s : State) (l : List Nat), s.power = .up → s.allTrained = true → s.bootOver = false →
    exec (.regionRelease 16 l) s = .next ({ s with boot := { s.boot with badBoot := l } } : State).releaseBoot.showTest) ∧
  (∀ (s : State) (r : Fin 17) (l : List Nat), r.val ≠ 16 → s.regionTurn r = true →
    exec (.regionRelease r l) s = .next (s.releaseRegion r).showTest) ∧
  (∀ (s v : State) (r : Fin 17) (k : Fin 3) (addr : Nat), r.val ≠ 16 → s.regionTurn r = true →
      v = ((({ s with
        boot := { s.boot with failed := s.boot.failed.set r (3 + k) } } : State).wr Reg.EAS_MEMTEST_FAILED
          (s.rd Reg.EAS_MEMTEST_FAILED ||| 2 ^ r.val))).setFn (0x100 + r) rdFailed (3 + k) →
    ∃ us, exec (.regionTestFail r k addr) s = .next ((((v.histFailed (unitId 7 (v.chanOf (r * 2 ^ 32 + addr % 2 ^ 32)))).record
      (unitId 7 (v.chanOf (r * 2 ^ 32 + addr % 2 ^ 32))) 7 v.dt64 0 1 [(1, 1), (2, 0x11 + k), (3, us)]).usedFree).showTest)) ∧
  (∀ (s : State) (h : Fin 2), s.power = .up → s.allTrained = true → s.bootOver = true → s.regionOver 0 = true →
      s.retentionOver h = false →
    exec (.retentionPause h false) s = .next ({ s with
      boot := { s.boot with retained := s.boot.retained ||| 2 ^ (if bit s.boot.retained h then 2 + h.val else h.val) } } : State).showTest) ∧
  (∀ (s v : State) (x : Nat) (h : List Byte) (e : Option (Nat × Nat)), s.boot.verify = some x → s.power = .up → s.dev = stRom →
      h = s.staged 0 1024 → v = { s with boot := { s.boot with verify := none }, ht := { s.ht with pushed := s.ht.pushed.erase x } } →
      e = v.imageError h none →
    exec (.firmwareVerify none) s = .next (match e with
      | none => (v.startImage h).sendReport x stOk (s.pushOf x).2 (s.pushOf x).1
      | some (r, st) => ((v.wr Reg.SEC_BOOT_RESULT r).clearStaging).sendReport x st (s.pushOf x).2 (s.pushOf x).1)) ∧
  (∀ (s v : State) (got : List Nat), s.power = .up → s.boot.fwHeader ≠ [] → s.boot.needleFw = false → s.gated islFab = false →
      (∀ p ∈ s.platesOn, bit s.pwr.domains (1 + p) = true) →
      got = multicastFrom 13 aonNode (mapBits 48 (fun n => s.platesOn.any (fun p => plateNode p == n))) →
      v = { s with boot := { s.boot with needleFw := true, fwPlates := mapBits 34 (fun p => got.contains (plateNode p)) } } →
    exec .needleFwMulticast s = .next ((List.range s.platesOn.length).foldl (fun s i =>
      if s.fnState (0x300 + i) = rdWaiting then s.setFn (0x300 + i) rdProgress 0 else s) v)) ∧
  (∀ (s : State) (f : BitVec 16), s.power = .up → s.boot.fwHeader ≠ [] → s.unitUp (s.fnUnit f.toNat) = true →
      bit s.pwr.domains (domainOf (s.fnUnit f.toNat)) = true →
    ((f = 7 ∨ f = 8) → exec (.unitReady f) s = .next (s.fnReady f.toNat)) ∧
    ((f = 9 ∨ f = 10) → exec (.unitReady f) s = .next ((s.wr Reg.TRC_STAT_RUN 1 (f.toNat - 9)).fnReady f.toNat)) ∧
    (0x300 ≤ f.toNat → f.toNat < 0x300 + s.platesOn.length →
        bit s.boot.fwPlates (bits (s.fnUnit f.toNat) 0 24) = true →
        s.rd Reg.PLT_STAT_STATE (bits (s.fnUnit f.toNat) 0 24) = 0 →
      exec (.unitReady f) s = .next ((s.wr Reg.PLT_STAT_STATE 1 (bits (s.fnUnit f.toNat) 0 24)).fnReady f.toNat))) ∧
  (∀ s : State, s.power = .up → s.flag Reg.HTP_CTRL_SETUP_DONE = false → s.boot.saving = none → s.calNow.size ≤ 4194304 →
    exec .nvsave s = .next (({ s with
      boot := { s.boot with saving := some s.calNow } } : State).wr Reg.EAS_BOOT_NVSAVE_BUSY 1)) ∧
  (∀ (s : State) (c : CalSet), s.boot.saving = some c →
    exec .nvsaveDone s = .next (({ s with
      nv := { s.nv with cal := (c :: s.nv.cal).take 2 }, boot := { s.boot with saving := none } } : State).wr
        Reg.EAS_BOOT_NVSAVE_BUSY 0)) ∧
  (∀ s : State, s.alive = true → s.flag Reg.HTP_CTRL_SETUP_DONE = false → exec .restart s = .next s.coldStart)

/-- Under conditions on the state and the operands alone, each of the six commands answers the next state that the clause writes out (R560, R562,
R563, R566, R567; Tables SEC-2, SEC-5). attest, advance and macsecLoad before SETUP_DONE, and unlock while it is not refused, take effect.
attestPublish of the oldest report asked for stores it, advances the generation by 2 and raises ATTEST_READY. fuseBitBlown during an advance:
a further bit, or the last one, which raises ROLLBACK. -/
def Obligations.SecurityCommandsComplete : Prop :=
  (∀ s : State, s.alive = true →
    (s.flag Reg.HTP_CTRL_SETUP_DONE = false → exec .attest s = .next { s with
      sec := { s.sec with reports := s.sec.reports ++ [le 32 (s.rd Reg.SEC_NONCE_NONCE)] } }) ∧
    (s.flag Reg.HTP_CTRL_SETUP_DONE = false → s.advanceError = none → exec .advance s = .next s.advance) ∧
    (s.unlockError = none → exec .unlock s = .next s.unlock) ∧
    (∀ (port : Fin 2) (save : Bool), s.flag Reg.HTP_CTRL_SETUP_DONE = false →
      exec (.macsecLoad port save) s = .next (s.macsecWrite port true save))) ∧
  (∀ (s v : State) (n : List Byte) (r : List (List Byte)) (gen : Nat), s.alive = true → s.sec.reports = n :: r →
      gen = (s.rd Reg.SEC_ATTEST_GEN_GENERATION + 2) % 2 ^ 32 →
      v = (({ s with sec := { s.sec with reports := r } } : State).store (winAddr 0x22000) ((s.attestReport n).take 1024)) →
    exec .attestPublish s = .next (((v.wr Reg.SEC_ATTEST_LEN_LENGTH (s.attestReport n).length).wr Reg.SEC_ATTEST_GEN_GENERATION gen).raise
      0x0C01 0 (le 4 gen ++ le 2 (s.attestReport n).length))) ∧
  (∀ (s : State) (t n : Nat), s.alive = true → s.sec.target = some t → n = s.blowBit.rd Reg.SEC_ROLLBACK_COUNTER →
    (n < t → exec .fuseBitBlown s = .next (s.blowBit.wr Reg.SEC_ROLLBACK_LEFT (t - n))) ∧
    (t ≤ n → ∃ u, u = s.blowBit.wr Reg.SEC_ROLLBACK_LEFT (t - n) ∧
      exec .fuseBitBlown s = .next (({ u with sec := { u.sec with target := none } } : State).raise 0x0C02 0 (le 1 n))))

/-- Under conditions on the state and the operands alone, each of the two commands answers the next state that the clause writes out (R489,
R499; Table SAF-6). marginFrame while the module runs: the frame is judged as State.offerFrame says. mgdGo before SETUP_DONE with no table
LOCKED: the staged table's code is shown, and with code 2 the table is in force and the causes POWER_ON and CONTAINMENT are cured. -/
def Obligations.MarginCommandsComplete : Prop :=
  (∀ (s : State) (p : Fin 10) (f : EgressFrame), s.power = .up →
    exec (.marginFrame p f) s = .next (s.offerFrame p f.ident.toNat f.bytes)) ∧
  (∀ (s : State) (code : Nat) (t raw : List Byte), s.power = .up → s.locked = false → s.flag Reg.HTP_CTRL_SETUP_DONE = false →
      s.loadTable = (code, t, raw) →
    exec .mgdGo s = .next (if code = 2 then ((({ s.wr Reg.MGD_STAT_LOAD 2 with
      mgd := ⟨t, raw, .empty, .empty, .empty⟩ } : State).clearCause srcPowerOn).clearCause srcContainment).fnReady 6
      else s.wr Reg.MGD_STAT_LOAD code))

/-- A step of a state with a command at the front of its queue is that command on the state with the queue's rest. -/
def Obligations.FrontCommandRuns : Prop :=
  (∀ (c : Instr) (s : State), step { s with pending := c :: s.pending } = exec c s) ∧
  (∀ (c : Instr) (r : List Instr) (s : State), s.pending = c :: r → step s = exec c { s with pending := r })

/-- On an empty queue the block idles (the model's choice, log entry 6). -/
def Obligations.IdleOnEmptyQueue : Prop := ∀ s : State, s.pending = [] → step s = .next s

/-- After reset no command waits, memory has its canonical form, device time is zero with the nominal increment, no session is open,
memory is not released, and both safe-state lines are asserted. -/
def Obligations.ResetState : Prop :=
  Safety.Inv .reset ∧ State.reset.pending = [] ∧ State.reset.tm.dt96 = 0 ∧ State.reset.rd Reg.RUL_INC_INT = 4 ∧
  State.reset.rd Reg.RUL_INC_FRAC = 0 ∧ State.reset.rd Reg.RUL_STAT_TRACEABLE = 0 ∧ State.reset.rd Reg.HTP_STAT_SESSION = 0 ∧
  State.reset.rd Reg.MEM_RELEASE_BOOT = 0 ∧ Safety.LineAsserted .reset 1 ∧ Safety.LineAsserted .reset 2

/-- Every step keeps memory in its canonical form (log entry 3), whatever the command. -/
def Obligations.StepKeepsMemoryCanonical : Prop := ∀ s t : State, Safety.Inv s → step s = .next t → Safety.Inv t

/-- Every command answers a next state in every state: ordinary data never ends a run. -/
def Obligations.EveryCommandHasNextState : Prop := ∀ (c : Instr) (s : State), ∃ t, exec c s = .next t

/-- A step takes exactly the command at the front of its queue: no command changes the queue. -/
def Obligations.StepTakesTheFrontCommand : Prop := ∀ s t : State, step s = .next t → t.pending = s.pending.tail

/-- No fuse changes but the anti-rollback counter, and the counter never falls, whatever the command (R518, R560; Table BUP-2). -/
def Obligations.FusesKeptAndRollbackNeverFalls : Prop :=
  ∀ s t : State, step s = .next t →
    t.part = { s.part with rollback := t.part.rollback } ∧ rollbackCount s.part.rollback ≤ rollbackCount t.part.rollback

/-- A unit classified PERMANENT stays so for the life of the module, through every restart and loss of power (R467). -/
def Obligations.PermanentUnitsStayPermanent : Prop :=
  ∀ (s t : State) (u : Nat), step s = .next t → s.permanent u = true → t.permanent u = true

/-- The operating seconds and the tick count never fall, and what has left the module stays said. -/
def Obligations.OperatingSecondsNeverFall : Prop :=
  ∀ s t : State, step s = .next t → s.nv.seconds ≤ t.nv.seconds ∧ s.ticks ≤ t.ticks ∧ ∃ l, t.emitted = s.emitted ++ l

/-- No more than 4 power domains are switched on in any 250 µs, at start and at all other times (R517): every domain that a step turns on
is counted at the tick of that step, and the count within the latest 250 µs never passes 4. -/
def Obligations.AtMostFourDomainsSwitchOn : Prop :=
  ∀ s t : State, step s = .next t →
    ((s.pwr.switched.filter (fun k => decide (s.ticks < k + usTicks 250))).length ≤ 4 →
      (t.pwr.switched.filter (fun k => decide (t.ticks < k + usTicks 250))).length ≤ 4) ∧
    ((List.range 42).filter (fun d => bit t.pwr.domains (d + 1) && !bit s.pwr.domains (d + 1))).length ≤
      (t.pwr.switched.filter (fun k => k == t.ticks)).length

/-- On every tick of the time clock the ruling engine adds RUL_INC to DT96; RUL_INC has 8 integer and 32 fraction bits, nominally
0x04_0000_0000 (R32). -/
def Obligations.TickAddsIncrement : Prop :=
  (∀ s : State, s.power ≠ .off → ∃ t, exec .timeTick s = .next t ∧
    t.tm.dt96 = (s.tm.dt96 + (s.rd Reg.RUL_INC_INT * 2 ^ 32 + s.rd Reg.RUL_INC_FRAC)) % 2 ^ 96) ∧
  Reg.RUL_INC_INT.width = 8 ∧ Reg.RUL_INC_FRAC.width = 32 ∧
  State.reset.rd Reg.RUL_INC_INT * 2 ^ 32 + State.reset.rd Reg.RUL_INC_FRAC = 0x0400000000

/-- A trigger-line pulse that starts too soon after the line's previous one, or breaks its duty limit, is suppressed whole and counted; any
other is emitted (R57, R503). -/
def Obligations.BreakingPulsesAreSuppressed : Prop :=
  ∀ (s v : State) (e : Fin 256) (t u k w least duty : Nat), s.power = .up → s.rulKind e = rkLine → s.dueTrig e 0 = some t →
    k = s.rulIndex e → w = (s.rul e 12 4 + 3) / 4 * 4 → v = s.served e t → (s.tm.lines.get ⟨0, none⟩ k).lastStart = some u →
    (least, duty) = s.lineLimit k →
    ((s.dt64 - u < least ∨ duty * (s.dt64 - u) < w * 256) → exec (.triggerFire e) s = .next (v.bump Reg.RUL_TRGSUP_SUPPRESSED k)) ∧
    (least ≤ s.dt64 - u → w * 256 ≤ duty * (s.dt64 - u) → ∃ x, exec (.triggerFire e) s = .next x ∧
      x.emitted = s.emitted ++ [⟨.trigger, k, s.dt64, le 8 s.dt64 ++ le 4 w ++ le 1 (bits (s.rul e 3 1) 1 1)⟩] ∧
      x.regs = s.regs ∧ x.mem = s.mem)

/-- A read from a queue whose COUNT is 0 returns IDLE and changes nothing, for the hardware consumer and for software (R83); only where the two
copies of a pointer differ does the access first reset the queue, as R86 says. -/
def Obligations.EmptyQueueReadsIdle : Prop :=
  ∀ (s : State) (q : Fin 51) (bad : Bool), (s.queue q).items = [] → queueBuilt q = true →
    ((s.queue q).torn = false → s.hardwareRead q = true → exec (.queueRead q bad false) s = .next s) ∧
    ((s.queue q).torn = false → exec (.spqPop q bad false) s = .next (s.wr Reg.SPQ_POP_TAG 0 q)) ∧
    ((s.queue q).torn = true → s.hardwareRead q = true → exec (.queueRead q bad false) s = .next (s.resetQueue q))

/-- SET of an object with no waiter and no bound trigger or task gives it the value with no taint; with a waiter or a binding it is refused
WRONG_STATE, and SET naming the null object BAD_FIELD. READ reports value and waiters. GRANT of a group that nothing waits on gives it to the
partition, and of another is refused WRONG_STATE (R376). -/
def Obligations.SyncOperationsFollowTheirRule : Prop :=
  ∀ (s : State) (job : Nat) (j : Job),
    (s.startedOp job 2 1 = some j → s.waiters (j.arg 34 2) = 0 →
        (∀ r ∈ s.brn.probs.rows, r.2.armed.isSome = true → fld r.2.record 56 2 ≠ j.arg 34 2) →
        (∀ t, t < 256 → s.taskValid t = true → s.taskRec t 2 2 ≠ j.arg 34 2 ∧ s.taskRec t 4 2 ≠ j.arg 34 2) →
      exec (.syncSet job) s = .next (((s.setObj (j.arg 34 2) ⟨j.arg 40 8, false, []⟩).stepsSet (j.arg 34 2) (j.arg 40 8)).finishOk j)) ∧
    (s.startedOp job 2 1 = some j → (s.waiters (j.arg 34 2) ≠ 0 ∨
        (∃ r ∈ s.brn.probs.rows, r.2.armed.isSome = true ∧ fld r.2.record 56 2 = j.arg 34 2) ∨
        (∃ t, t < 256 ∧ s.taskValid t = true ∧ (s.taskRec t 2 2 = j.arg 34 2 ∨ s.taskRec t 4 2 = j.arg 34 2))) →
      ∃ d, exec (.syncSet job) s = .next (s.refuse j ⟨stWrongState, d⟩)) ∧
    (j.arg 32 1 = 1 → j.arg 34 2 = 0xFFFF → ∃ d, State.syncAccept j = .error ⟨stBadField, d⟩) ∧
    (s.startedOp job 2 2 = some j → j.arg 34 2 ≠ 0xFFFF →
      exec (.syncRead job) s = .next (s.finish j stOk (s.waiters (j.arg 34 2)) (s.obj (j.arg 34 2)).value)) ∧
    (s.startedOp job 2 3 = some j → s.groupWaited (j.arg 34 1) = false →
      exec (.syncGrant job) s = .next ((s.setOwner (j.arg 34 1) (j.arg 33 1)).finishOk j)) ∧
    (s.startedOp job 2 3 = some j → s.groupWaited (j.arg 34 1) = true →
      ∃ d, exec (.syncGrant job) s = .next (s.refuse j ⟨stWrongState, d⟩))

/-- Object 0xFFFF is the null object: a signal to it has no effect, a wait on it is satisfied at once, a read of it returns zero, so that
0xFFFF in a descriptor's wait or signal field means none (R368). -/
def Obligations.NullObject : Prop :=
  (∀ (s : State) (n : Nat) (l : List Taint), s.signal 0xFFFF n l = s) ∧
  (∀ (s : State) (j : Job), j.waitObj = 0xFFFF → s.waitMet j = true) ∧
  (∀ (s : State) (job : Nat) (j : Job), s.startedOp job 2 2 = some j → j.arg 34 2 = 0xFFFF →
    exec (.syncRead job) s = .next (s.finish j stOk 0 0)) ∧
  (∀ (s : State) (j : Job) (st r d : Nat), (j.confirm = false ∨ j.taint = []) → j.sigObj = 0xFFFF →
    s.finish j st r d = s.finishQuiet j st r d)

/-- A descriptor whose wait stays unsatisfied for its partition's non-zero limit completes WAIT_TIMEOUT; satisfaction wins (R371). -/
def Obligations.WaitTimeoutRule : Prop :=
  ∀ (s : State) (job : Nat) (j : Job), s.job job = some j → j.phase = .waiting →
    (s.waitMet j = false → s.partRec j.part 2 2 ≠ 0 → j.atTick + msTicks (s.partRec j.part 2 2) ≤ s.ticks →
      exec (.waitTimeout job) s = .next (((s.stopJob j).bump Reg.SYN_CNT_WAIT_TIMEOUTS).finishQuiet j stWaitTimeout 0 0)) ∧
    ((s.waitMet j = true ∨ s.partRec j.part 2 2 = 0 ∨ s.ticks < j.atTick + msTicks (s.partRec j.part 2 2)) →
      exec (.waitTimeout job) s = .next s)

/-- Under HOLD a source releases its lines hold_ms after its cause clears, and a new request restarts the hold (R485). -/
def Obligations.HoldReleasesAfterItsTime : Prop :=
  ∀ (s : State) (n : Fin 9), (s.policy n).2.1 = false → s.supplied = true → s.flag Reg.SUP_STAT_LOCKED = false →
    ((s.source n).cause = false → (s.source n).clearedAt + msTicks (s.policy n).2.2 ≤ s.ticks → (s.source n).lines ≠ 0 →
      ∃ t, exec (.safeHoldExpiry n) s = .next t ∧ (t.source n).lines = 0 ∧ ∀ m, m ≠ n.val → t.source m = s.source m) ∧
    ((s.source n).cause = false → s.ticks < (s.source n).clearedAt + msTicks (s.policy n).2.2 →
      exec (.safeHoldExpiry n) s = .next s) ∧
    (∀ l, ((s.requestLines n l false).source n).clearedAt = s.ticks)

/-- Under LATCH a source keeps its lines after its cause clears, until SAFE_IN is released after at least 10 ms; that release frees every
latched source whose cause has cleared (R486). -/
def Obligations.LatchKeepsUntilSafeIn : Prop :=
  (∀ (s : State) (n : Fin 9), (s.policy n).2.1 = true → exec (.safeHoldExpiry n) s = .next s) ∧
  (∀ (s : State) (t0 : Nat), s.sup.safeInAt = some t0 → s.supplied = true → s.flag Reg.SUP_STAT_LOCKED = false →
    ∃ t, exec .safeInRelease s = .next t ∧ ∀ n, n < 9 → (s.policy n).2.1 = true →
      (t0 + msTicks 10 ≤ s.ticks → (s.source n).cause = false → (t.source n).lines = 0) ∧
      (s.ticks < t0 + msTicks 10 → (t.source n).lines = (s.source n).lines))

/-- While SAFE_A is asserted a path with CLOSE_A drops every command frame, and CLOSE_B does the same under SAFE_B (R497). -/
def Obligations.ClosedPathsDropCommands : Prop :=
  ∀ (s : State) (p : Fin 10) (f : EgressFrame) (c : Nat), matchCmd s.mgd.table p f.ident.toNat f.bytes = some c →
    ((bit (s.pathFlags p) 2 = true ∧ s.flag Reg.SUP_STAT_SAFE_A = true) ∨ (bit (s.pathFlags p) 3 = true ∧ s.flag Reg.SUP_STAT_SAFE_B = true)) →
    exec (.marginFrame p f) s = .next s

/-- A commons half holds zero with valid parity from the moment its domain is switched on, and again after each field test of it; a byte
that no write has reached reads as zero (R592). -/
def Obligations.CommonsHalvesStartAtZero : Prop :=
  (∀ (s : State) (d : Fin 43), (d.val = 35 ∨ d.val = 36) → s.alive = true → bit s.pwr.domains d = false → s.pwr.switched = [] →
    ∃ t, exec (.domainSwitchOn [d]) s = .next t ∧ ∀ o, o < 10485760 →
      t.byte (gaddr spCommons ((d - 35) * 10485760 + o)) = 0#8 ∧ checkKey (gaddr spCommons ((d - 35) * 10485760 + o)) ∉ t.bad) ∧
  (∀ (s : State) (h : Nat) (pass : Bool) (o : Nat), h < 2 → o < 10485760 →
    (s.leaveTest (unitId 5 h) pass).byte (gaddr spCommons (h * 10485760 + o)) = 0#8 ∧
    checkKey (gaddr spCommons (h * 10485760 + o)) ∉ (s.leaveTest (unitId 5 h) pass).bad) ∧
  (∀ o, o < 2 * 10485760 → memDefault (gaddr spCommons o) = 0#8)

/-- A base plate above 95 °C or below −40 °C raises the SUPPLY event of kind 5 and sets BASE_RANGE; nothing else changes (R585). -/
def Obligations.BasePlateRange : Prop :=
  ∀ (s u : State) (t : Int), (950 < t ∨ t < -400) → s.flag Reg.PWR_STAT_BASE_RANGE = false → s.supplied = true →
    u = (s.wr Reg.PWR_TEMP_BASE (toU 16 t)).wr Reg.PWR_STAT_BASE_RANGE 1 →
    exec (.baseRange t) s = .next (u.raise 0x0D01 0 (u.supplyData 5 u.nv.seconds)) ∧ u.flag Reg.PWR_STAT_BASE_RANGE = true

/-- When the operating seconds first reach 162,000,000 the device raises MISSION_END once, and again after every restart (R587). -/
def Obligations.MissionEndOnce : Prop :=
  (∀ s : State, s.alive = true → 162000000 ≤ s.nv.seconds → s.pwr.missionTold = false →
    exec .missionEnd s = .next (({ s with
      pwr := { s.pwr with missionTold := true } } : State).raise 0x0D04 0 (le 8 s.nv.seconds))) ∧
  (∀ s : State, (s.pwr.missionTold = true ∨ s.nv.seconds < 162000000) → exec .missionEnd s = .next s) ∧
  (∀ s : State, s.coldStart.pwr.missionTold = false ∧ ∀ k b, (s.warmStart k b).pwr.missionTold = false)

/-- The frame of the partition table operations: SCHED LOAD, PART SET, TASK SET and CHAIN SET that complete without a signal store their
block at the address computed, TASK CLEAR and CHAIN CLEAR zeros, and every other byte of memory reads as before. -/
def Obligations.PartitionTableStoreFrame : Prop :=
  ∀ (s t : State) (job op a n : Nat) (j : Job) (l : List Byte) (c : Instr), s.startedOp job 3 op = some j → j.taint = [] →
    j.sigObj = 0xFFFF → n = l.length →
    ((op = 1 ∧ c = .schedLoad job ∧ a = schedAddr (1 - s.rd Reg.PAR_STAT_BANK) ∧ l = j.param ∧ s.flag Reg.PAR_STAT_SWAP_PENDING = false) ∨
      (op = 2 ∧ c = .partSet job ∧ a = winAddr (0xE3000 + 32 * j.arg 33 1) ∧ l = j.param ∧ s.partBusy (j.arg 33 1) j.id = false ∧
        s.partNamed (j.arg 33 1) = false) ∨
      (op = 3 ∧ c = .taskSet job ∧ a = winAddr (0xE4000 + 32 * j.arg 33 1) ∧ l = j.param ∧ s.taskValid (j.arg 33 1) = false) ∨
      (op = 4 ∧ c = .taskClear job ∧ a = winAddr (0xE4000 + 32 * j.arg 33 1) ∧ l = zeros 32) ∨
      (op = 5 ∧ c = .chainSet job ∧ a = winAddr (0xE6000 + 16 * j.arg 33 1) ∧ l = j.param ∧ s.chainValid (j.arg 33 1) = false ∧
        s.taskValid (fld j.param 1 1) = true ∧ s.taskValid (fld j.param 2 1) = true) ∨
      (op = 6 ∧ c = .chainClear job ∧ a = winAddr (0xE6000 + 16 * j.arg 33 1) ∧ l = zeros 16)) →
    (op = 4 → s.chainsWith (fun c => s.chainRec c 1 1 == j.arg 33 1 || s.chainRec c 2 1 == j.arg 33 1) = []) →
    exec c s = .next t →
    t.bytes a n = l ∧ (∀ b, (b < a ∨ a + n ≤ b) → t.byte b = s.byte b) ∧
    t.sync = s.sync ∧ t.units = s.units ∧ t.part = s.part ∧ t.tm = s.tm ∧ t.ctxs = s.ctxs ∧ t.plates = s.plates ∧ t.cores = s.cores ∧
    t.launches = s.launches ∧ t.brn = s.brn

/-- The frame of the clock, power, supply, thermal and supervisor inputs: they store nothing, end no job, and leave sync objects, contexts,
plates, cores, caches and the burnisher as they are. -/
def Obligations.InputCommandsFrame : Prop :=
  ∀ (s t : State) (c : Instr),
    (c = .timeTick ∨ (∃ i k, c = .islandRelock i k) ∨ (∃ d k, c = .powerLimitAdjust d k) ∨ (∃ d, c = .powerMonitorTrip d) ∨
      (∃ d, c = .powerMonitorRelease d) ∨ c = .safeInAssert ∨ c = .safeInRelease ∨ (∃ n, c = .safeHoldExpiry n) ∨
      (∃ b, c = .clockSupervision b) ∨ (∃ k m, c = .safeLineFault k m) ∨ (∃ k, c = .safeLineFaultCured k) ∨
      (∃ x, c = .thermalThrottle x) ∨ (∃ x, c = .baseRange x) ∨ c = .missionEnd ∨ c = .wakeLow ∨ (∃ m u, c = .supplyBandChange m u) ∨
      (∃ i x, c = .refreshRateChange i x) ∨ c = .parSwap) →
    exec c s = .next t →
    t.mem = s.mem ∧ t.bad = s.bad ∧ t.jobs = s.jobs ∧ t.sync = s.sync ∧ t.ctxs = s.ctxs ∧ t.plates = s.plates ∧ t.cores = s.cores ∧
    t.caches = s.caches ∧ t.brn = s.brn ∧ t.launches = s.launches ∧ t.part = s.part
end

