-- ==== Sys2Proof/Laws/State.lean ====
section
/-! SUPPORT. What each update of the state leaves in each field: one lemma per field and update. -/

namespace Sys2Proof.Machine

variable (s : State)


@[simp] theorem State.wr_pending (f : RegField) (v i : Nat) : (s.wr f v i).pending = s.pending := rfl
@[simp] theorem State.wr_regs (f : RegField) (v i : Nat) : (s.wr f v i).regs = s.regs.set (regKey f i) (v % 2 ^ f.width) := rfl
@[simp] theorem State.wr_mem (f : RegField) (v i : Nat) : (s.wr f v i).mem = s.mem := rfl
@[simp] theorem State.wr_bad (f : RegField) (v i : Nat) : (s.wr f v i).bad = s.bad := rfl
@[simp] theorem State.wr_free (f : RegField) (v i : Nat) : (s.wr f v i).free = s.free := rfl
@[simp] theorem State.wr_ticks (f : RegField) (v i : Nat) : (s.wr f v i).ticks = s.ticks := rfl
@[simp] theorem State.wr_emitted (f : RegField) (v i : Nat) : (s.wr f v i).emitted = s.emitted := rfl
@[simp] theorem State.wr_power (f : RegField) (v i : Nat) : (s.wr f v i).power = s.power := rfl
@[simp] theorem State.wr_part (f : RegField) (v i : Nat) : (s.wr f v i).part = s.part := rfl
@[simp] theorem State.wr_nv (f : RegField) (v i : Nat) : (s.wr f v i).nv = s.nv := rfl
@[simp] theorem State.wr_tm (f : RegField) (v i : Nat) : (s.wr f v i).tm = s.tm := rfl
@[simp] theorem State.wr_ing (f : RegField) (v i : Nat) : (s.wr f v i).ing = s.ing := rfl
@[simp] theorem State.wr_hat (f : RegField) (v i : Nat) : (s.wr f v i).hat = s.hat := rfl
@[simp] theorem State.wr_gold (f : RegField) (v i : Nat) : (s.wr f v i).gold = s.gold := rfl
@[simp] theorem State.wr_queues (f : RegField) (v i : Nat) : (s.wr f v i).queues = s.queues := rfl
@[simp] theorem State.wr_units (f : RegField) (v i : Nat) : (s.wr f v i).units = s.units := rfl
@[simp] theorem State.wr_ddtGen (f : RegField) (v i : Nat) : (s.wr f v i).ddtGen = s.ddtGen := rfl
@[simp] theorem State.wr_plateMap (f : RegField) (v i : Nat) : (s.wr f v i).plateMap = s.plateMap := rfl
@[simp] theorem State.wr_ddrBytes (f : RegField) (v i : Nat) : (s.wr f v i).ddrBytes = s.ddrBytes := rfl
@[simp] theorem State.wr_chanMap (f : RegField) (v i : Nat) : (s.wr f v i).chanMap = s.chanMap := rfl
@[simp] theorem State.wr_prf (f : RegField) (v i : Nat) : (s.wr f v i).prf = s.prf := rfl
@[simp] theorem State.wr_jobs (f : RegField) (v i : Nat) : (s.wr f v i).jobs = s.jobs := rfl
@[simp] theorem State.wr_nextJob (f : RegField) (v i : Nat) : (s.wr f v i).nextJob = s.nextJob := rfl
@[simp] theorem State.wr_ht (f : RegField) (v i : Nat) : (s.wr f v i).ht = s.ht := rfl
@[simp] theorem State.wr_sync (f : RegField) (v i : Nat) : (s.wr f v i).sync = s.sync := rfl
@[simp] theorem State.wr_tasks (f : RegField) (v i : Nat) : (s.wr f v i).tasks = s.tasks := rfl
@[simp] theorem State.wr_chains (f : RegField) (v i : Nat) : (s.wr f v i).chains = s.chains := rfl
@[simp] theorem State.wr_reacts (f : RegField) (v i : Nat) : (s.wr f v i).reacts = s.reacts := rfl
@[simp] theorem State.wr_par (f : RegField) (v i : Nat) : (s.wr f v i).par = s.par := rfl
@[simp] theorem State.wr_sup (f : RegField) (v i : Nat) : (s.wr f v i).sup = s.sup := rfl
@[simp] theorem State.wr_mgd (f : RegField) (v i : Nat) : (s.wr f v i).mgd = s.mgd := rfl
@[simp] theorem State.wr_ctxs (f : RegField) (v i : Nat) : (s.wr f v i).ctxs = s.ctxs := rfl
@[simp] theorem State.wr_tlbs (f : RegField) (v i : Nat) : (s.wr f v i).tlbs = s.tlbs := rfl
@[simp] theorem State.wr_chanJob (f : RegField) (v i : Nat) : (s.wr f v i).chanJob = s.chanJob := rfl
@[simp] theorem State.wr_copyDone (f : RegField) (v i : Nat) : (s.wr f v i).copyDone = s.copyDone := rfl
@[simp] theorem State.wr_plates (f : RegField) (v i : Nat) : (s.wr f v i).plates = s.plates := rfl
@[simp] theorem State.wr_cores (f : RegField) (v i : Nat) : (s.wr f v i).cores = s.cores := rfl
@[simp] theorem State.wr_mcsr (f : RegField) (v i : Nat) : (s.wr f v i).mcsr = s.mcsr := rfl
@[simp] theorem State.wr_launches (f : RegField) (v i : Nat) : (s.wr f v i).launches = s.launches := rfl
@[simp] theorem State.wr_stp (f : RegField) (v i : Nat) : (s.wr f v i).stp = s.stp := rfl
@[simp] theorem State.wr_boot (f : RegField) (v i : Nat) : (s.wr f v i).boot = s.boot := rfl
@[simp] theorem State.wr_sec (f : RegField) (v i : Nat) : (s.wr f v i).sec = s.sec := rfl
@[simp] theorem State.wr_pwr (f : RegField) (v i : Nat) : (s.wr f v i).pwr = s.pwr := rfl
@[simp] theorem State.wr_caches (f : RegField) (v i : Nat) : (s.wr f v i).caches = s.caches := rfl
@[simp] theorem State.wr_tracers (f : RegField) (v i : Nat) : (s.wr f v i).tracers = s.tracers := rfl
@[simp] theorem State.wr_labs (f : RegField) (v i : Nat) : (s.wr f v i).labs = s.labs := rfl
@[simp] theorem State.wr_ring (f : RegField) (v i : Nat) : (s.wr f v i).ring = s.ring := rfl
@[simp] theorem State.wr_brn (f : RegField) (v i : Nat) : (s.wr f v i).brn = s.brn := rfl

@[simp] theorem State.bump_pending (f : RegField) (i n : Nat) : (s.bump f i n).pending = s.pending := rfl
@[simp] theorem State.bump_mem (f : RegField) (i n : Nat) : (s.bump f i n).mem = s.mem := rfl
@[simp] theorem State.bump_bad (f : RegField) (i n : Nat) : (s.bump f i n).bad = s.bad := rfl
@[simp] theorem State.bump_free (f : RegField) (i n : Nat) : (s.bump f i n).free = s.free := rfl
@[simp] theorem State.bump_ticks (f : RegField) (i n : Nat) : (s.bump f i n).ticks = s.ticks := rfl
@[simp] theorem State.bump_emitted (f : RegField) (i n : Nat) : (s.bump f i n).emitted = s.emitted := rfl
@[simp] theorem State.bump_power (f : RegField) (i n : Nat) : (s.bump f i n).power = s.power := rfl
@[simp] theorem State.bump_part (f : RegField) (i n : Nat) : (s.bump f i n).part = s.part := rfl
@[simp] theorem State.bump_nv (f : RegField) (i n : Nat) : (s.bump f i n).nv = s.nv := rfl
@[simp] theorem State.bump_tm (f : RegField) (i n : Nat) : (s.bump f i n).tm = s.tm := rfl
@[simp] theorem State.bump_ing (f : RegField) (i n : Nat) : (s.bump f i n).ing = s.ing := rfl
@[simp] theorem State.bump_hat (f : RegField) (i n : Nat) : (s.bump f i n).hat = s.hat := rfl
@[simp] theorem State.bump_gold (f : RegField) (i n : Nat) : (s.bump f i n).gold = s.gold := rfl
@[simp] theorem State.bump_queues (f : RegField) (i n : Nat) : (s.bump f i n).queues = s.queues := rfl
@[simp] theorem State.bump_units (f : RegField) (i n : Nat) : (s.bump f i n).units = s.units := rfl
@[simp] theorem State.bump_ddtGen (f : RegField) (i n : Nat) : (s.bump f i n).ddtGen = s.ddtGen := rfl
@[simp] theorem State.bump_plateMap (f : RegField) (i n : Nat) : (s.bump f i n).plateMap = s.plateMap := rfl
@[simp] theorem State.bump_ddrBytes (f : RegField) (i n : Nat) : (s.bump f i n).ddrBytes = s.ddrBytes := rfl
@[simp] theorem State.bump_chanMap (f : RegField) (i n : Nat) : (s.bump f i n).chanMap = s.chanMap := rfl
@[simp] theorem State.bump_prf (f : RegField) (i n : Nat) : (s.bump f i n).prf = s.prf := rfl
@[simp] theorem State.bump_jobs (f : RegField) (i n : Nat) : (s.bump f i n).jobs = s.jobs := rfl
@[simp] theorem State.bump_nextJob (f : RegField) (i n : Nat) : (s.bump f i n).nextJob = s.nextJob := rfl
@[simp] theorem State.bump_ht (f : RegField) (i n : Nat) : (s.bump f i n).ht = s.ht := rfl
@[simp] theorem State.bump_sync (f : RegField) (i n : Nat) : (s.bump f i n).sync = s.sync := rfl
@[simp] theorem State.bump_tasks (f : RegField) (i n : Nat) : (s.bump f i n).tasks = s.tasks := rfl
@[simp] theorem State.bump_chains (f : RegField) (i n : Nat) : (s.bump f i n).chains = s.chains := rfl
@[simp] theorem State.bump_reacts (f : RegField) (i n : Nat) : (s.bump f i n).reacts = s.reacts := rfl
@[simp] theorem State.bump_par (f : RegField) (i n : Nat) : (s.bump f i n).par = s.par := rfl
@[simp] theorem State.bump_sup (f : RegField) (i n : Nat) : (s.bump f i n).sup = s.sup := rfl
@[simp] theorem State.bump_mgd (f : RegField) (i n : Nat) : (s.bump f i n).mgd = s.mgd := rfl
@[simp] theorem State.bump_ctxs (f : RegField) (i n : Nat) : (s.bump f i n).ctxs = s.ctxs := rfl
@[simp] theorem State.bump_tlbs (f : RegField) (i n : Nat) : (s.bump f i n).tlbs = s.tlbs := rfl
@[simp] theorem State.bump_chanJob (f : RegField) (i n : Nat) : (s.bump f i n).chanJob = s.chanJob := rfl
@[simp] theorem State.bump_copyDone (f : RegField) (i n : Nat) : (s.bump f i n).copyDone = s.copyDone := rfl
@[simp] theorem State.bump_plates (f : RegField) (i n : Nat) : (s.bump f i n).plates = s.plates := rfl
@[simp] theorem State.bump_cores (f : RegField) (i n : Nat) : (s.bump f i n).cores = s.cores := rfl
@[simp] theorem State.bump_mcsr (f : RegField) (i n : Nat) : (s.bump f i n).mcsr = s.mcsr := rfl
@[simp] theorem State.bump_launches (f : RegField) (i n : Nat) : (s.bump f i n).launches = s.launches := rfl
@[simp] theorem State.bump_stp (f : RegField) (i n : Nat) : (s.bump f i n).stp = s.stp := rfl
@[simp] theorem State.bump_boot (f : RegField) (i n : Nat) : (s.bump f i n).boot = s.boot := rfl
@[simp] theorem State.bump_sec (f : RegField) (i n : Nat) : (s.bump f i n).sec = s.sec := rfl
@[simp] theorem State.bump_pwr (f : RegField) (i n : Nat) : (s.bump f i n).pwr = s.pwr := rfl
@[simp] theorem State.bump_caches (f : RegField) (i n : Nat) : (s.bump f i n).caches = s.caches := rfl
@[simp] theorem State.bump_tracers (f : RegField) (i n : Nat) : (s.bump f i n).tracers = s.tracers := rfl
@[simp] theorem State.bump_labs (f : RegField) (i n : Nat) : (s.bump f i n).labs = s.labs := rfl
@[simp] theorem State.bump_ring (f : RegField) (i n : Nat) : (s.bump f i n).ring = s.ring := rfl
@[simp] theorem State.bump_brn (f : RegField) (i n : Nat) : (s.bump f i n).brn = s.brn := rfl

@[simp] theorem State.emit_pending (k : EmitKind) (p : Nat) (l : List Byte) : (s.emit k p l).pending = s.pending := rfl
@[simp] theorem State.emit_regs (k : EmitKind) (p : Nat) (l : List Byte) : (s.emit k p l).regs = s.regs := rfl
@[simp] theorem State.emit_mem (k : EmitKind) (p : Nat) (l : List Byte) : (s.emit k p l).mem = s.mem := rfl
@[simp] theorem State.emit_bad (k : EmitKind) (p : Nat) (l : List Byte) : (s.emit k p l).bad = s.bad := rfl
@[simp] theorem State.emit_free (k : EmitKind) (p : Nat) (l : List Byte) : (s.emit k p l).free = s.free := rfl
@[simp] theorem State.emit_ticks (k : EmitKind) (p : Nat) (l : List Byte) : (s.emit k p l).ticks = s.ticks := rfl
@[simp] theorem State.emit_emitted (k : EmitKind) (p : Nat) (l : List Byte) : (s.emit k p l).emitted = s.emitted ++ [⟨k, p, s.dt64, l⟩] := rfl
@[simp] theorem State.emit_power (k : EmitKind) (p : Nat) (l : List Byte) : (s.emit k p l).power = s.power := rfl
@[simp] theorem State.emit_part (k : EmitKind) (p : Nat) (l : List Byte) : (s.emit k p l).part = s.part := rfl
@[simp] theorem State.emit_nv (k : EmitKind) (p : Nat) (l : List Byte) : (s.emit k p l).nv = s.nv := rfl
@[simp] theorem State.emit_tm (k : EmitKind) (p : Nat) (l : List Byte) : (s.emit k p l).tm = s.tm := rfl
@[simp] theorem State.emit_ing (k : EmitKind) (p : Nat) (l : List Byte) : (s.emit k p l).ing = s.ing := rfl
@[simp] theorem State.emit_hat (k : EmitKind) (p : Nat) (l : List Byte) : (s.emit k p l).hat = s.hat := rfl
@[simp] theorem State.emit_gold (k : EmitKind) (p : Nat) (l : List Byte) : (s.emit k p l).gold = s.gold := rfl
@[simp] theorem State.emit_queues (k : EmitKind) (p : Nat) (l : List Byte) : (s.emit k p l).queues = s.queues := rfl
@[simp] theorem State.emit_units (k : EmitKind) (p : Nat) (l : List Byte) : (s.emit k p l).units = s.units := rfl
@[simp] theorem State.emit_ddtGen (k : EmitKind) (p : Nat) (l : List Byte) : (s.emit k p l).ddtGen = s.ddtGen := rfl
@[simp] theorem State.emit_plateMap (k : EmitKind) (p : Nat) (l : List Byte) : (s.emit k p l).plateMap = s.plateMap := rfl
@[simp] theorem State.emit_ddrBytes (k : EmitKind) (p : Nat) (l : List Byte) : (s.emit k p l).ddrBytes = s.ddrBytes := rfl
@[simp] theorem State.emit_chanMap (k : EmitKind) (p : Nat) (l : List Byte) : (s.emit k p l).chanMap = s.chanMap := rfl
@[simp] theorem State.emit_prf (k : EmitKind) (p : Nat) (l : List Byte) : (s.emit k p l).prf = s.prf := rfl
@[simp] theorem State.emit_jobs (k : EmitKind) (p : Nat) (l : List Byte) : (s.emit k p l).jobs = s.jobs := rfl
@[simp] theorem State.emit_nextJob (k : EmitKind) (p : Nat) (l : List Byte) : (s.emit k p l).nextJob = s.nextJob := rfl
@[simp] theorem State.emit_ht (k : EmitKind) (p : Nat) (l : List Byte) : (s.emit k p l).ht = s.ht := rfl
@[simp] theorem State.emit_sync (k : EmitKind) (p : Nat) (l : List Byte) : (s.emit k p l).sync = s.sync := rfl
@[simp] theorem State.emit_tasks (k : EmitKind) (p : Nat) (l : List Byte) : (s.emit k p l).tasks = s.tasks := rfl
@[simp] theorem State.emit_chains (k : EmitKind) (p : Nat) (l : List Byte) : (s.emit k p l).chains = s.chains := rfl
@[simp] theorem State.emit_reacts (k : EmitKind) (p : Nat) (l : List Byte) : (s.emit k p l).reacts = s.reacts := rfl
@[simp] theorem State.emit_par (k : EmitKind) (p : Nat) (l : List Byte) : (s.emit k p l).par = s.par := rfl
@[simp] theorem State.emit_sup (k : EmitKind) (p : Nat) (l : List Byte) : (s.emit k p l).sup = s.sup := rfl
@[simp] theorem State.emit_mgd (k : EmitKind) (p : Nat) (l : List Byte) : (s.emit k p l).mgd = s.mgd := rfl
@[simp] theorem State.emit_ctxs (k : EmitKind) (p : Nat) (l : List Byte) : (s.emit k p l).ctxs = s.ctxs := rfl
@[simp] theorem State.emit_tlbs (k : EmitKind) (p : Nat) (l : List Byte) : (s.emit k p l).tlbs = s.tlbs := rfl
@[simp] theorem State.emit_chanJob (k : EmitKind) (p : Nat) (l : List Byte) : (s.emit k p l).chanJob = s.chanJob := rfl
@[simp] theorem State.emit_copyDone (k : EmitKind) (p : Nat) (l : List Byte) : (s.emit k p l).copyDone = s.copyDone := rfl
@[simp] theorem State.emit_plates (k : EmitKind) (p : Nat) (l : List Byte) : (s.emit k p l).plates = s.plates := rfl
@[simp] theorem State.emit_cores (k : EmitKind) (p : Nat) (l : List Byte) : (s.emit k p l).cores = s.cores := rfl
@[simp] theorem State.emit_mcsr (k : EmitKind) (p : Nat) (l : List Byte) : (s.emit k p l).mcsr = s.mcsr := rfl
@[simp] theorem State.emit_launches (k : EmitKind) (p : Nat) (l : List Byte) : (s.emit k p l).launches = s.launches := rfl
@[simp] theorem State.emit_stp (k : EmitKind) (p : Nat) (l : List Byte) : (s.emit k p l).stp = s.stp := rfl
@[simp] theorem State.emit_boot (k : EmitKind) (p : Nat) (l : List Byte) : (s.emit k p l).boot = s.boot := rfl
@[simp] theorem State.emit_sec (k : EmitKind) (p : Nat) (l : List Byte) : (s.emit k p l).sec = s.sec := rfl
@[simp] theorem State.emit_pwr (k : EmitKind) (p : Nat) (l : List Byte) : (s.emit k p l).pwr = s.pwr := rfl
@[simp] theorem State.emit_caches (k : EmitKind) (p : Nat) (l : List Byte) : (s.emit k p l).caches = s.caches := rfl
@[simp] theorem State.emit_tracers (k : EmitKind) (p : Nat) (l : List Byte) : (s.emit k p l).tracers = s.tracers := rfl
@[simp] theorem State.emit_labs (k : EmitKind) (p : Nat) (l : List Byte) : (s.emit k p l).labs = s.labs := rfl
@[simp] theorem State.emit_ring (k : EmitKind) (p : Nat) (l : List Byte) : (s.emit k p l).ring = s.ring := rfl
@[simp] theorem State.emit_brn (k : EmitKind) (p : Nat) (l : List Byte) : (s.emit k p l).brn = s.brn := rfl

@[simp] theorem State.setUnit_pending (u : Nat) (f : UnitSt → UnitSt) : (s.setUnit u f).pending = s.pending := rfl
@[simp] theorem State.setUnit_regs (u : Nat) (f : UnitSt → UnitSt) : (s.setUnit u f).regs = s.regs := rfl
@[simp] theorem State.setUnit_mem (u : Nat) (f : UnitSt → UnitSt) : (s.setUnit u f).mem = s.mem := rfl
@[simp] theorem State.setUnit_bad (u : Nat) (f : UnitSt → UnitSt) : (s.setUnit u f).bad = s.bad := rfl
@[simp] theorem State.setUnit_free (u : Nat) (f : UnitSt → UnitSt) : (s.setUnit u f).free = s.free := rfl
@[simp] theorem State.setUnit_ticks (u : Nat) (f : UnitSt → UnitSt) : (s.setUnit u f).ticks = s.ticks := rfl
@[simp] theorem State.setUnit_emitted (u : Nat) (f : UnitSt → UnitSt) : (s.setUnit u f).emitted = s.emitted := rfl
@[simp] theorem State.setUnit_power (u : Nat) (f : UnitSt → UnitSt) : (s.setUnit u f).power = s.power := rfl
@[simp] theorem State.setUnit_part (u : Nat) (f : UnitSt → UnitSt) : (s.setUnit u f).part = s.part := rfl
@[simp] theorem State.setUnit_nv (u : Nat) (f : UnitSt → UnitSt) : (s.setUnit u f).nv = s.nv := rfl
@[simp] theorem State.setUnit_tm (u : Nat) (f : UnitSt → UnitSt) : (s.setUnit u f).tm = s.tm := rfl
@[simp] theorem State.setUnit_ing (u : Nat) (f : UnitSt → UnitSt) : (s.setUnit u f).ing = s.ing := rfl
@[simp] theorem State.setUnit_hat (u : Nat) (f : UnitSt → UnitSt) : (s.setUnit u f).hat = s.hat := rfl
@[simp] theorem State.setUnit_gold (u : Nat) (f : UnitSt → UnitSt) : (s.setUnit u f).gold = s.gold := rfl
@[simp] theorem State.setUnit_queues (u : Nat) (f : UnitSt → UnitSt) : (s.setUnit u f).queues = s.queues := rfl
@[simp] theorem State.setUnit_units (u : Nat) (f : UnitSt → UnitSt) : (s.setUnit u f).units = s.units.modify .reset u f := rfl
@[simp] theorem State.setUnit_ddtGen (u : Nat) (f : UnitSt → UnitSt) : (s.setUnit u f).ddtGen = s.ddtGen := rfl
@[simp] theorem State.setUnit_plateMap (u : Nat) (f : UnitSt → UnitSt) : (s.setUnit u f).plateMap = s.plateMap := rfl
@[simp] theorem State.setUnit_ddrBytes (u : Nat) (f : UnitSt → UnitSt) : (s.setUnit u f).ddrBytes = s.ddrBytes := rfl
@[simp] theorem State.setUnit_chanMap (u : Nat) (f : UnitSt → UnitSt) : (s.setUnit u f).chanMap = s.chanMap := rfl
@[simp] theorem State.setUnit_prf (u : Nat) (f : UnitSt → UnitSt) : (s.setUnit u f).prf = s.prf := rfl
@[simp] theorem State.setUnit_jobs (u : Nat) (f : UnitSt → UnitSt) : (s.setUnit u f).jobs = s.jobs := rfl
@[simp] theorem State.setUnit_nextJob (u : Nat) (f : UnitSt → UnitSt) : (s.setUnit u f).nextJob = s.nextJob := rfl
@[simp] theorem State.setUnit_ht (u : Nat) (f : UnitSt → UnitSt) : (s.setUnit u f).ht = s.ht := rfl
@[simp] theorem State.setUnit_sync (u : Nat) (f : UnitSt → UnitSt) : (s.setUnit u f).sync = s.sync := rfl
@[simp] theorem State.setUnit_tasks (u : Nat) (f : UnitSt → UnitSt) : (s.setUnit u f).tasks = s.tasks := rfl
@[simp] theorem State.setUnit_chains (u : Nat) (f : UnitSt → UnitSt) : (s.setUnit u f).chains = s.chains := rfl
@[simp] theorem State.setUnit_reacts (u : Nat) (f : UnitSt → UnitSt) : (s.setUnit u f).reacts = s.reacts := rfl
@[simp] theorem State.setUnit_par (u : Nat) (f : UnitSt → UnitSt) : (s.setUnit u f).par = s.par := rfl
@[simp] theorem State.setUnit_sup (u : Nat) (f : UnitSt → UnitSt) : (s.setUnit u f).sup = s.sup := rfl
@[simp] theorem State.setUnit_mgd (u : Nat) (f : UnitSt → UnitSt) : (s.setUnit u f).mgd = s.mgd := rfl
@[simp] theorem State.setUnit_ctxs (u : Nat) (f : UnitSt → UnitSt) : (s.setUnit u f).ctxs = s.ctxs := rfl
@[simp] theorem State.setUnit_tlbs (u : Nat) (f : UnitSt → UnitSt) : (s.setUnit u f).tlbs = s.tlbs := rfl
@[simp] theorem State.setUnit_chanJob (u : Nat) (f : UnitSt → UnitSt) : (s.setUnit u f).chanJob = s.chanJob := rfl
@[simp] theorem State.setUnit_copyDone (u : Nat) (f : UnitSt → UnitSt) : (s.setUnit u f).copyDone = s.copyDone := rfl
@[simp] theorem State.setUnit_plates (u : Nat) (f : UnitSt → UnitSt) : (s.setUnit u f).plates = s.plates := rfl
@[simp] theorem State.setUnit_cores (u : Nat) (f : UnitSt → UnitSt) : (s.setUnit u f).cores = s.cores := rfl
@[simp] theorem State.setUnit_mcsr (u : Nat) (f : UnitSt → UnitSt) : (s.setUnit u f).mcsr = s.mcsr := rfl
@[simp] theorem State.setUnit_launches (u : Nat) (f : UnitSt → UnitSt) : (s.setUnit u f).launches = s.launches := rfl
@[simp] theorem State.setUnit_stp (u : Nat) (f : UnitSt → UnitSt) : (s.setUnit u f).stp = s.stp := rfl
@[simp] theorem State.setUnit_boot (u : Nat) (f : UnitSt → UnitSt) : (s.setUnit u f).boot = s.boot := rfl
@[simp] theorem State.setUnit_sec (u : Nat) (f : UnitSt → UnitSt) : (s.setUnit u f).sec = s.sec := rfl
@[simp] theorem State.setUnit_pwr (u : Nat) (f : UnitSt → UnitSt) : (s.setUnit u f).pwr = s.pwr := rfl
@[simp] theorem State.setUnit_caches (u : Nat) (f : UnitSt → UnitSt) : (s.setUnit u f).caches = s.caches := rfl
@[simp] theorem State.setUnit_tracers (u : Nat) (f : UnitSt → UnitSt) : (s.setUnit u f).tracers = s.tracers := rfl
@[simp] theorem State.setUnit_labs (u : Nat) (f : UnitSt → UnitSt) : (s.setUnit u f).labs = s.labs := rfl
@[simp] theorem State.setUnit_ring (u : Nat) (f : UnitSt → UnitSt) : (s.setUnit u f).ring = s.ring := rfl
@[simp] theorem State.setUnit_brn (u : Nat) (f : UnitSt → UnitSt) : (s.setUnit u f).brn = s.brn := rfl

@[simp] theorem State.setQueue_pending (q : Nat) (x : Queue) : (s.setQueue q x).pending = s.pending := rfl
@[simp] theorem State.setQueue_regs (q : Nat) (x : Queue) : (s.setQueue q x).regs = s.regs := rfl
@[simp] theorem State.setQueue_mem (q : Nat) (x : Queue) : (s.setQueue q x).mem = s.mem := rfl
@[simp] theorem State.setQueue_bad (q : Nat) (x : Queue) : (s.setQueue q x).bad = s.bad := rfl
@[simp] theorem State.setQueue_free (q : Nat) (x : Queue) : (s.setQueue q x).free = s.free := rfl
@[simp] theorem State.setQueue_ticks (q : Nat) (x : Queue) : (s.setQueue q x).ticks = s.ticks := rfl
@[simp] theorem State.setQueue_emitted (q : Nat) (x : Queue) : (s.setQueue q x).emitted = s.emitted := rfl
@[simp] theorem State.setQueue_power (q : Nat) (x : Queue) : (s.setQueue q x).power = s.power := rfl
@[simp] theorem State.setQueue_part (q : Nat) (x : Queue) : (s.setQueue q x).part = s.part := rfl
@[simp] theorem State.setQueue_nv (q : Nat) (x : Queue) : (s.setQueue q x).nv = s.nv := rfl
@[simp] theorem State.setQueue_tm (q : Nat) (x : Queue) : (s.setQueue q x).tm = s.tm := rfl
@[simp] theorem State.setQueue_ing (q : Nat) (x : Queue) : (s.setQueue q x).ing = s.ing := rfl
@[simp] theorem State.setQueue_hat (q : Nat) (x : Queue) : (s.setQueue q x).hat = s.hat := rfl
@[simp] theorem State.setQueue_gold (q : Nat) (x : Queue) : (s.setQueue q x).gold = s.gold := rfl
@[simp] theorem State.setQueue_queues (q : Nat) (x : Queue) : (s.setQueue q x).queues = s.queues.set q x := rfl
@[simp] theorem State.setQueue_units (q : Nat) (x : Queue) : (s.setQueue q x).units = s.units := rfl
@[simp] theorem State.setQueue_ddtGen (q : Nat) (x : Queue) : (s.setQueue q x).ddtGen = s.ddtGen := rfl
@[simp] theorem State.setQueue_plateMap (q : Nat) (x : Queue) : (s.setQueue q x).plateMap = s.plateMap := rfl
@[simp] theorem State.setQueue_ddrBytes (q : Nat) (x : Queue) : (s.setQueue q x).ddrBytes = s.ddrBytes := rfl
@[simp] theorem State.setQueue_chanMap (q : Nat) (x : Queue) : (s.setQueue q x).chanMap = s.chanMap := rfl
@[simp] theorem State.setQueue_prf (q : Nat) (x : Queue) : (s.setQueue q x).prf = s.prf := rfl
@[simp] theorem State.setQueue_jobs (q : Nat) (x : Queue) : (s.setQueue q x).jobs = s.jobs := rfl
@[simp] theorem State.setQueue_nextJob (q : Nat) (x : Queue) : (s.setQueue q x).nextJob = s.nextJob := rfl
@[simp] theorem State.setQueue_ht (q : Nat) (x : Queue) : (s.setQueue q x).ht = s.ht := rfl
@[simp] theorem State.setQueue_sync (q : Nat) (x : Queue) : (s.setQueue q x).sync = s.sync := rfl
@[simp] theorem State.setQueue_tasks (q : Nat) (x : Queue) : (s.setQueue q x).tasks = s.tasks := rfl
@[simp] theorem State.setQueue_chains (q : Nat) (x : Queue) : (s.setQueue q x).chains = s.chains := rfl
@[simp] theorem State.setQueue_reacts (q : Nat) (x : Queue) : (s.setQueue q x).reacts = s.reacts := rfl
@[simp] theorem State.setQueue_par (q : Nat) (x : Queue) : (s.setQueue q x).par = s.par := rfl
@[simp] theorem State.setQueue_sup (q : Nat) (x : Queue) : (s.setQueue q x).sup = s.sup := rfl
@[simp] theorem State.setQueue_mgd (q : Nat) (x : Queue) : (s.setQueue q x).mgd = s.mgd := rfl
@[simp] theorem State.setQueue_ctxs (q : Nat) (x : Queue) : (s.setQueue q x).ctxs = s.ctxs := rfl
@[simp] theorem State.setQueue_tlbs (q : Nat) (x : Queue) : (s.setQueue q x).tlbs = s.tlbs := rfl
@[simp] theorem State.setQueue_chanJob (q : Nat) (x : Queue) : (s.setQueue q x).chanJob = s.chanJob := rfl
@[simp] theorem State.setQueue_copyDone (q : Nat) (x : Queue) : (s.setQueue q x).copyDone = s.copyDone := rfl
@[simp] theorem State.setQueue_plates (q : Nat) (x : Queue) : (s.setQueue q x).plates = s.plates := rfl
@[simp] theorem State.setQueue_cores (q : Nat) (x : Queue) : (s.setQueue q x).cores = s.cores := rfl
@[simp] theorem State.setQueue_mcsr (q : Nat) (x : Queue) : (s.setQueue q x).mcsr = s.mcsr := rfl
@[simp] theorem State.setQueue_launches (q : Nat) (x : Queue) : (s.setQueue q x).launches = s.launches := rfl
@[simp] theorem State.setQueue_stp (q : Nat) (x : Queue) : (s.setQueue q x).stp = s.stp := rfl
@[simp] theorem State.setQueue_boot (q : Nat) (x : Queue) : (s.setQueue q x).boot = s.boot := rfl
@[simp] theorem State.setQueue_sec (q : Nat) (x : Queue) : (s.setQueue q x).sec = s.sec := rfl
@[simp] theorem State.setQueue_pwr (q : Nat) (x : Queue) : (s.setQueue q x).pwr = s.pwr := rfl
@[simp] theorem State.setQueue_caches (q : Nat) (x : Queue) : (s.setQueue q x).caches = s.caches := rfl
@[simp] theorem State.setQueue_tracers (q : Nat) (x : Queue) : (s.setQueue q x).tracers = s.tracers := rfl
@[simp] theorem State.setQueue_labs (q : Nat) (x : Queue) : (s.setQueue q x).labs = s.labs := rfl
@[simp] theorem State.setQueue_ring (q : Nat) (x : Queue) : (s.setQueue q x).ring = s.ring := rfl
@[simp] theorem State.setQueue_brn (q : Nat) (x : Queue) : (s.setQueue q x).brn = s.brn := rfl

@[simp] theorem State.setTm_pending (x : TimeSt) : (s.setTm x).pending = s.pending := rfl
@[simp] theorem State.setTm_regs (x : TimeSt) : (s.setTm x).regs = s.regs := rfl
@[simp] theorem State.setTm_mem (x : TimeSt) : (s.setTm x).mem = s.mem := rfl
@[simp] theorem State.setTm_bad (x : TimeSt) : (s.setTm x).bad = s.bad := rfl
@[simp] theorem State.setTm_free (x : TimeSt) : (s.setTm x).free = s.free := rfl
@[simp] theorem State.setTm_ticks (x : TimeSt) : (s.setTm x).ticks = s.ticks := rfl
@[simp] theorem State.setTm_emitted (x : TimeSt) : (s.setTm x).emitted = s.emitted := rfl
@[simp] theorem State.setTm_power (x : TimeSt) : (s.setTm x).power = s.power := rfl
@[simp] theorem State.setTm_part (x : TimeSt) : (s.setTm x).part = s.part := rfl
@[simp] theorem State.setTm_nv (x : TimeSt) : (s.setTm x).nv = s.nv := rfl
@[simp] theorem State.setTm_tm (x : TimeSt) : (s.setTm x).tm = x := rfl
@[simp] theorem State.setTm_ing (x : TimeSt) : (s.setTm x).ing = s.ing := rfl
@[simp] theorem State.setTm_hat (x : TimeSt) : (s.setTm x).hat = s.hat := rfl
@[simp] theorem State.setTm_gold (x : TimeSt) : (s.setTm x).gold = s.gold := rfl
@[simp] theorem State.setTm_queues (x : TimeSt) : (s.setTm x).queues = s.queues := rfl
@[simp] theorem State.setTm_units (x : TimeSt) : (s.setTm x).units = s.units := rfl
@[simp] theorem State.setTm_ddtGen (x : TimeSt) : (s.setTm x).ddtGen = s.ddtGen := rfl
@[simp] theorem State.setTm_plateMap (x : TimeSt) : (s.setTm x).plateMap = s.plateMap := rfl
@[simp] theorem State.setTm_ddrBytes (x : TimeSt) : (s.setTm x).ddrBytes = s.ddrBytes := rfl
@[simp] theorem State.setTm_chanMap (x : TimeSt) : (s.setTm x).chanMap = s.chanMap := rfl
@[simp] theorem State.setTm_prf (x : TimeSt) : (s.setTm x).prf = s.prf := rfl
@[simp] theorem State.setTm_jobs (x : TimeSt) : (s.setTm x).jobs = s.jobs := rfl
@[simp] theorem State.setTm_nextJob (x : TimeSt) : (s.setTm x).nextJob = s.nextJob := rfl
@[simp] theorem State.setTm_ht (x : TimeSt) : (s.setTm x).ht = s.ht := rfl
@[simp] theorem State.setTm_sync (x : TimeSt) : (s.setTm x).sync = s.sync := rfl
@[simp] theorem State.setTm_tasks (x : TimeSt) : (s.setTm x).tasks = s.tasks := rfl
@[simp] theorem State.setTm_chains (x : TimeSt) : (s.setTm x).chains = s.chains := rfl
@[simp] theorem State.setTm_reacts (x : TimeSt) : (s.setTm x).reacts = s.reacts := rfl
@[simp] theorem State.setTm_par (x : TimeSt) : (s.setTm x).par = s.par := rfl
@[simp] theorem State.setTm_sup (x : TimeSt) : (s.setTm x).sup = s.sup := rfl
@[simp] theorem State.setTm_mgd (x : TimeSt) : (s.setTm x).mgd = s.mgd := rfl
@[simp] theorem State.setTm_ctxs (x : TimeSt) : (s.setTm x).ctxs = s.ctxs := rfl
@[simp] theorem State.setTm_tlbs (x : TimeSt) : (s.setTm x).tlbs = s.tlbs := rfl
@[simp] theorem State.setTm_chanJob (x : TimeSt) : (s.setTm x).chanJob = s.chanJob := rfl
@[simp] theorem State.setTm_copyDone (x : TimeSt) : (s.setTm x).copyDone = s.copyDone := rfl
@[simp] theorem State.setTm_plates (x : TimeSt) : (s.setTm x).plates = s.plates := rfl
@[simp] theorem State.setTm_cores (x : TimeSt) : (s.setTm x).cores = s.cores := rfl
@[simp] theorem State.setTm_mcsr (x : TimeSt) : (s.setTm x).mcsr = s.mcsr := rfl
@[simp] theorem State.setTm_launches (x : TimeSt) : (s.setTm x).launches = s.launches := rfl
@[simp] theorem State.setTm_stp (x : TimeSt) : (s.setTm x).stp = s.stp := rfl
@[simp] theorem State.setTm_boot (x : TimeSt) : (s.setTm x).boot = s.boot := rfl
@[simp] theorem State.setTm_sec (x : TimeSt) : (s.setTm x).sec = s.sec := rfl
@[simp] theorem State.setTm_pwr (x : TimeSt) : (s.setTm x).pwr = s.pwr := rfl
@[simp] theorem State.setTm_caches (x : TimeSt) : (s.setTm x).caches = s.caches := rfl
@[simp] theorem State.setTm_tracers (x : TimeSt) : (s.setTm x).tracers = s.tracers := rfl
@[simp] theorem State.setTm_labs (x : TimeSt) : (s.setTm x).labs = s.labs := rfl
@[simp] theorem State.setTm_ring (x : TimeSt) : (s.setTm x).ring = s.ring := rfl
@[simp] theorem State.setTm_brn (x : TimeSt) : (s.setTm x).brn = s.brn := rfl

@[simp] theorem State.setGold_pending (x : GoldSt) : (s.setGold x).pending = s.pending := rfl
@[simp] theorem State.setGold_regs (x : GoldSt) : (s.setGold x).regs = s.regs := rfl
@[simp] theorem State.setGold_mem (x : GoldSt) : (s.setGold x).mem = s.mem := rfl
@[simp] theorem State.setGold_bad (x : GoldSt) : (s.setGold x).bad = s.bad := rfl
@[simp] theorem State.setGold_free (x : GoldSt) : (s.setGold x).free = s.free := rfl
@[simp] theorem State.setGold_ticks (x : GoldSt) : (s.setGold x).ticks = s.ticks := rfl
@[simp] theorem State.setGold_emitted (x : GoldSt) : (s.setGold x).emitted = s.emitted := rfl
@[simp] theorem State.setGold_power (x : GoldSt) : (s.setGold x).power = s.power := rfl
@[simp] theorem State.setGold_part (x : GoldSt) : (s.setGold x).part = s.part := rfl
@[simp] theorem State.setGold_nv (x : GoldSt) : (s.setGold x).nv = s.nv := rfl
@[simp] theorem State.setGold_tm (x : GoldSt) : (s.setGold x).tm = s.tm := rfl
@[simp] theorem State.setGold_ing (x : GoldSt) : (s.setGold x).ing = s.ing := rfl
@[simp] theorem State.setGold_hat (x : GoldSt) : (s.setGold x).hat = s.hat := rfl
@[simp] theorem State.setGold_gold (x : GoldSt) : (s.setGold x).gold = x := rfl
@[simp] theorem State.setGold_queues (x : GoldSt) : (s.setGold x).queues = s.queues := rfl
@[simp] theorem State.setGold_units (x : GoldSt) : (s.setGold x).units = s.units := rfl
@[simp] theorem State.setGold_ddtGen (x : GoldSt) : (s.setGold x).ddtGen = s.ddtGen := rfl
@[simp] theorem State.setGold_plateMap (x : GoldSt) : (s.setGold x).plateMap = s.plateMap := rfl
@[simp] theorem State.setGold_ddrBytes (x : GoldSt) : (s.setGold x).ddrBytes = s.ddrBytes := rfl
@[simp] theorem State.setGold_chanMap (x : GoldSt) : (s.setGold x).chanMap = s.chanMap := rfl
@[simp] theorem State.setGold_prf (x : GoldSt) : (s.setGold x).prf = s.prf := rfl
@[simp] theorem State.setGold_jobs (x : GoldSt) : (s.setGold x).jobs = s.jobs := rfl
@[simp] theorem State.setGold_nextJob (x : GoldSt) : (s.setGold x).nextJob = s.nextJob := rfl
@[simp] theorem State.setGold_ht (x : GoldSt) : (s.setGold x).ht = s.ht := rfl
@[simp] theorem State.setGold_sync (x : GoldSt) : (s.setGold x).sync = s.sync := rfl
@[simp] theorem State.setGold_tasks (x : GoldSt) : (s.setGold x).tasks = s.tasks := rfl
@[simp] theorem State.setGold_chains (x : GoldSt) : (s.setGold x).chains = s.chains := rfl
@[simp] theorem State.setGold_reacts (x : GoldSt) : (s.setGold x).reacts = s.reacts := rfl
@[simp] theorem State.setGold_par (x : GoldSt) : (s.setGold x).par = s.par := rfl
@[simp] theorem State.setGold_sup (x : GoldSt) : (s.setGold x).sup = s.sup := rfl
@[simp] theorem State.setGold_mgd (x : GoldSt) : (s.setGold x).mgd = s.mgd := rfl
@[simp] theorem State.setGold_ctxs (x : GoldSt) : (s.setGold x).ctxs = s.ctxs := rfl
@[simp] theorem State.setGold_tlbs (x : GoldSt) : (s.setGold x).tlbs = s.tlbs := rfl
@[simp] theorem State.setGold_chanJob (x : GoldSt) : (s.setGold x).chanJob = s.chanJob := rfl
@[simp] theorem State.setGold_copyDone (x : GoldSt) : (s.setGold x).copyDone = s.copyDone := rfl
@[simp] theorem State.setGold_plates (x : GoldSt) : (s.setGold x).plates = s.plates := rfl
@[simp] theorem State.setGold_cores (x : GoldSt) : (s.setGold x).cores = s.cores := rfl
@[simp] theorem State.setGold_mcsr (x : GoldSt) : (s.setGold x).mcsr = s.mcsr := rfl
@[simp] theorem State.setGold_launches (x : GoldSt) : (s.setGold x).launches = s.launches := rfl
@[simp] theorem State.setGold_stp (x : GoldSt) : (s.setGold x).stp = s.stp := rfl
@[simp] theorem State.setGold_boot (x : GoldSt) : (s.setGold x).boot = s.boot := rfl
@[simp] theorem State.setGold_sec (x : GoldSt) : (s.setGold x).sec = s.sec := rfl
@[simp] theorem State.setGold_pwr (x : GoldSt) : (s.setGold x).pwr = s.pwr := rfl
@[simp] theorem State.setGold_caches (x : GoldSt) : (s.setGold x).caches = s.caches := rfl
@[simp] theorem State.setGold_tracers (x : GoldSt) : (s.setGold x).tracers = s.tracers := rfl
@[simp] theorem State.setGold_labs (x : GoldSt) : (s.setGold x).labs = s.labs := rfl
@[simp] theorem State.setGold_ring (x : GoldSt) : (s.setGold x).ring = s.ring := rfl
@[simp] theorem State.setGold_brn (x : GoldSt) : (s.setGold x).brn = s.brn := rfl

@[simp] theorem State.setObj_pending (o : Nat) (x : SyncObj) : (s.setObj o x).pending = s.pending := rfl
@[simp] theorem State.setObj_regs (o : Nat) (x : SyncObj) : (s.setObj o x).regs = s.regs := rfl
@[simp] theorem State.setObj_mem (o : Nat) (x : SyncObj) : (s.setObj o x).mem = s.mem := rfl
@[simp] theorem State.setObj_bad (o : Nat) (x : SyncObj) : (s.setObj o x).bad = s.bad := rfl
@[simp] theorem State.setObj_free (o : Nat) (x : SyncObj) : (s.setObj o x).free = s.free := rfl
@[simp] theorem State.setObj_ticks (o : Nat) (x : SyncObj) : (s.setObj o x).ticks = s.ticks := rfl
@[simp] theorem State.setObj_emitted (o : Nat) (x : SyncObj) : (s.setObj o x).emitted = s.emitted := rfl
@[simp] theorem State.setObj_power (o : Nat) (x : SyncObj) : (s.setObj o x).power = s.power := rfl
@[simp] theorem State.setObj_part (o : Nat) (x : SyncObj) : (s.setObj o x).part = s.part := rfl
@[simp] theorem State.setObj_nv (o : Nat) (x : SyncObj) : (s.setObj o x).nv = s.nv := rfl
@[simp] theorem State.setObj_tm (o : Nat) (x : SyncObj) : (s.setObj o x).tm = s.tm := rfl
@[simp] theorem State.setObj_ing (o : Nat) (x : SyncObj) : (s.setObj o x).ing = s.ing := rfl
@[simp] theorem State.setObj_hat (o : Nat) (x : SyncObj) : (s.setObj o x).hat = s.hat := rfl
@[simp] theorem State.setObj_gold (o : Nat) (x : SyncObj) : (s.setObj o x).gold = s.gold := rfl
@[simp] theorem State.setObj_queues (o : Nat) (x : SyncObj) : (s.setObj o x).queues = s.queues := rfl
@[simp] theorem State.setObj_units (o : Nat) (x : SyncObj) : (s.setObj o x).units = s.units := rfl
@[simp] theorem State.setObj_ddtGen (o : Nat) (x : SyncObj) : (s.setObj o x).ddtGen = s.ddtGen := rfl
@[simp] theorem State.setObj_plateMap (o : Nat) (x : SyncObj) : (s.setObj o x).plateMap = s.plateMap := rfl
@[simp] theorem State.setObj_ddrBytes (o : Nat) (x : SyncObj) : (s.setObj o x).ddrBytes = s.ddrBytes := rfl
@[simp] theorem State.setObj_chanMap (o : Nat) (x : SyncObj) : (s.setObj o x).chanMap = s.chanMap := rfl
@[simp] theorem State.setObj_prf (o : Nat) (x : SyncObj) : (s.setObj o x).prf = s.prf := rfl
@[simp] theorem State.setObj_jobs (o : Nat) (x : SyncObj) : (s.setObj o x).jobs = s.jobs := rfl
@[simp] theorem State.setObj_nextJob (o : Nat) (x : SyncObj) : (s.setObj o x).nextJob = s.nextJob := rfl
@[simp] theorem State.setObj_ht (o : Nat) (x : SyncObj) : (s.setObj o x).ht = s.ht := rfl
@[simp] theorem State.setObj_sync (o : Nat) (x : SyncObj) : (s.setObj o x).sync = s.sync.set o x := rfl
@[simp] theorem State.setObj_tasks (o : Nat) (x : SyncObj) : (s.setObj o x).tasks = s.tasks := rfl
@[simp] theorem State.setObj_chains (o : Nat) (x : SyncObj) : (s.setObj o x).chains = s.chains := rfl
@[simp] theorem State.setObj_reacts (o : Nat) (x : SyncObj) : (s.setObj o x).reacts = s.reacts := rfl
@[simp] theorem State.setObj_par (o : Nat) (x : SyncObj) : (s.setObj o x).par = s.par := rfl
@[simp] theorem State.setObj_sup (o : Nat) (x : SyncObj) : (s.setObj o x).sup = s.sup := rfl
@[simp] theorem State.setObj_mgd (o : Nat) (x : SyncObj) : (s.setObj o x).mgd = s.mgd := rfl
@[simp] theorem State.setObj_ctxs (o : Nat) (x : SyncObj) : (s.setObj o x).ctxs = s.ctxs := rfl
@[simp] theorem State.setObj_tlbs (o : Nat) (x : SyncObj) : (s.setObj o x).tlbs = s.tlbs := rfl
@[simp] theorem State.setObj_chanJob (o : Nat) (x : SyncObj) : (s.setObj o x).chanJob = s.chanJob := rfl
@[simp] theorem State.setObj_copyDone (o : Nat) (x : SyncObj) : (s.setObj o x).copyDone = s.copyDone := rfl
@[simp] theorem State.setObj_plates (o : Nat) (x : SyncObj) : (s.setObj o x).plates = s.plates := rfl
@[simp] theorem State.setObj_cores (o : Nat) (x : SyncObj) : (s.setObj o x).cores = s.cores := rfl
@[simp] theorem State.setObj_mcsr (o : Nat) (x : SyncObj) : (s.setObj o x).mcsr = s.mcsr := rfl
@[simp] theorem State.setObj_launches (o : Nat) (x : SyncObj) : (s.setObj o x).launches = s.launches := rfl
@[simp] theorem State.setObj_stp (o : Nat) (x : SyncObj) : (s.setObj o x).stp = s.stp := rfl
@[simp] theorem State.setObj_boot (o : Nat) (x : SyncObj) : (s.setObj o x).boot = s.boot := rfl
@[simp] theorem State.setObj_sec (o : Nat) (x : SyncObj) : (s.setObj o x).sec = s.sec := rfl
@[simp] theorem State.setObj_pwr (o : Nat) (x : SyncObj) : (s.setObj o x).pwr = s.pwr := rfl
@[simp] theorem State.setObj_caches (o : Nat) (x : SyncObj) : (s.setObj o x).caches = s.caches := rfl
@[simp] theorem State.setObj_tracers (o : Nat) (x : SyncObj) : (s.setObj o x).tracers = s.tracers := rfl
@[simp] theorem State.setObj_labs (o : Nat) (x : SyncObj) : (s.setObj o x).labs = s.labs := rfl
@[simp] theorem State.setObj_ring (o : Nat) (x : SyncObj) : (s.setObj o x).ring = s.ring := rfl
@[simp] theorem State.setObj_brn (o : Nat) (x : SyncObj) : (s.setObj o x).brn = s.brn := rfl

@[simp] theorem State.setPlate_pending (p : Nat) (x : PlateSt) : (s.setPlate p x).pending = s.pending := rfl
@[simp] theorem State.setPlate_regs (p : Nat) (x : PlateSt) : (s.setPlate p x).regs = s.regs := rfl
@[simp] theorem State.setPlate_mem (p : Nat) (x : PlateSt) : (s.setPlate p x).mem = s.mem := rfl
@[simp] theorem State.setPlate_bad (p : Nat) (x : PlateSt) : (s.setPlate p x).bad = s.bad := rfl
@[simp] theorem State.setPlate_free (p : Nat) (x : PlateSt) : (s.setPlate p x).free = s.free := rfl
@[simp] theorem State.setPlate_ticks (p : Nat) (x : PlateSt) : (s.setPlate p x).ticks = s.ticks := rfl
@[simp] theorem State.setPlate_emitted (p : Nat) (x : PlateSt) : (s.setPlate p x).emitted = s.emitted := rfl
@[simp] theorem State.setPlate_power (p : Nat) (x : PlateSt) : (s.setPlate p x).power = s.power := rfl
@[simp] theorem State.setPlate_part (p : Nat) (x : PlateSt) : (s.setPlate p x).part = s.part := rfl
@[simp] theorem State.setPlate_nv (p : Nat) (x : PlateSt) : (s.setPlate p x).nv = s.nv := rfl
@[simp] theorem State.setPlate_tm (p : Nat) (x : PlateSt) : (s.setPlate p x).tm = s.tm := rfl
@[simp] theorem State.setPlate_ing (p : Nat) (x : PlateSt) : (s.setPlate p x).ing = s.ing := rfl
@[simp] theorem State.setPlate_hat (p : Nat) (x : PlateSt) : (s.setPlate p x).hat = s.hat := rfl
@[simp] theorem State.setPlate_gold (p : Nat) (x : PlateSt) : (s.setPlate p x).gold = s.gold := rfl
@[simp] theorem State.setPlate_queues (p : Nat) (x : PlateSt) : (s.setPlate p x).queues = s.queues := rfl
@[simp] theorem State.setPlate_units (p : Nat) (x : PlateSt) : (s.setPlate p x).units = s.units := rfl
@[simp] theorem State.setPlate_ddtGen (p : Nat) (x : PlateSt) : (s.setPlate p x).ddtGen = s.ddtGen := rfl
@[simp] theorem State.setPlate_plateMap (p : Nat) (x : PlateSt) : (s.setPlate p x).plateMap = s.plateMap := rfl
@[simp] theorem State.setPlate_ddrBytes (p : Nat) (x : PlateSt) : (s.setPlate p x).ddrBytes = s.ddrBytes := rfl
@[simp] theorem State.setPlate_chanMap (p : Nat) (x : PlateSt) : (s.setPlate p x).chanMap = s.chanMap := rfl
@[simp] theorem State.setPlate_prf (p : Nat) (x : PlateSt) : (s.setPlate p x).prf = s.prf := rfl
@[simp] theorem State.setPlate_jobs (p : Nat) (x : PlateSt) : (s.setPlate p x).jobs = s.jobs := rfl
@[simp] theorem State.setPlate_nextJob (p : Nat) (x : PlateSt) : (s.setPlate p x).nextJob = s.nextJob := rfl
@[simp] theorem State.setPlate_ht (p : Nat) (x : PlateSt) : (s.setPlate p x).ht = s.ht := rfl
@[simp] theorem State.setPlate_sync (p : Nat) (x : PlateSt) : (s.setPlate p x).sync = s.sync := rfl
@[simp] theorem State.setPlate_tasks (p : Nat) (x : PlateSt) : (s.setPlate p x).tasks = s.tasks := rfl
@[simp] theorem State.setPlate_chains (p : Nat) (x : PlateSt) : (s.setPlate p x).chains = s.chains := rfl
@[simp] theorem State.setPlate_reacts (p : Nat) (x : PlateSt) : (s.setPlate p x).reacts = s.reacts := rfl
@[simp] theorem State.setPlate_par (p : Nat) (x : PlateSt) : (s.setPlate p x).par = s.par := rfl
@[simp] theorem State.setPlate_sup (p : Nat) (x : PlateSt) : (s.setPlate p x).sup = s.sup := rfl
@[simp] theorem State.setPlate_mgd (p : Nat) (x : PlateSt) : (s.setPlate p x).mgd = s.mgd := rfl
@[simp] theorem State.setPlate_ctxs (p : Nat) (x : PlateSt) : (s.setPlate p x).ctxs = s.ctxs := rfl
@[simp] theorem State.setPlate_tlbs (p : Nat) (x : PlateSt) : (s.setPlate p x).tlbs = s.tlbs := rfl
@[simp] theorem State.setPlate_chanJob (p : Nat) (x : PlateSt) : (s.setPlate p x).chanJob = s.chanJob := rfl
@[simp] theorem State.setPlate_copyDone (p : Nat) (x : PlateSt) : (s.setPlate p x).copyDone = s.copyDone := rfl
@[simp] theorem State.setPlate_plates (p : Nat) (x : PlateSt) : (s.setPlate p x).plates = s.plates.set p x := rfl
@[simp] theorem State.setPlate_cores (p : Nat) (x : PlateSt) : (s.setPlate p x).cores = s.cores := rfl
@[simp] theorem State.setPlate_mcsr (p : Nat) (x : PlateSt) : (s.setPlate p x).mcsr = s.mcsr := rfl
@[simp] theorem State.setPlate_launches (p : Nat) (x : PlateSt) : (s.setPlate p x).launches = s.launches := rfl
@[simp] theorem State.setPlate_stp (p : Nat) (x : PlateSt) : (s.setPlate p x).stp = s.stp := rfl
@[simp] theorem State.setPlate_boot (p : Nat) (x : PlateSt) : (s.setPlate p x).boot = s.boot := rfl
@[simp] theorem State.setPlate_sec (p : Nat) (x : PlateSt) : (s.setPlate p x).sec = s.sec := rfl
@[simp] theorem State.setPlate_pwr (p : Nat) (x : PlateSt) : (s.setPlate p x).pwr = s.pwr := rfl
@[simp] theorem State.setPlate_caches (p : Nat) (x : PlateSt) : (s.setPlate p x).caches = s.caches := rfl
@[simp] theorem State.setPlate_tracers (p : Nat) (x : PlateSt) : (s.setPlate p x).tracers = s.tracers := rfl
@[simp] theorem State.setPlate_labs (p : Nat) (x : PlateSt) : (s.setPlate p x).labs = s.labs := rfl
@[simp] theorem State.setPlate_ring (p : Nat) (x : PlateSt) : (s.setPlate p x).ring = s.ring := rfl
@[simp] theorem State.setPlate_brn (p : Nat) (x : PlateSt) : (s.setPlate p x).brn = s.brn := rfl

@[simp] theorem State.setCore_pending (p c : Nat) (x : CoreSt) : (s.setCore p c x).pending = s.pending := rfl
@[simp] theorem State.setCore_regs (p c : Nat) (x : CoreSt) : (s.setCore p c x).regs = s.regs := rfl
@[simp] theorem State.setCore_mem (p c : Nat) (x : CoreSt) : (s.setCore p c x).mem = s.mem := rfl
@[simp] theorem State.setCore_bad (p c : Nat) (x : CoreSt) : (s.setCore p c x).bad = s.bad := rfl
@[simp] theorem State.setCore_free (p c : Nat) (x : CoreSt) : (s.setCore p c x).free = s.free := rfl
@[simp] theorem State.setCore_ticks (p c : Nat) (x : CoreSt) : (s.setCore p c x).ticks = s.ticks := rfl
@[simp] theorem State.setCore_emitted (p c : Nat) (x : CoreSt) : (s.setCore p c x).emitted = s.emitted := rfl
@[simp] theorem State.setCore_power (p c : Nat) (x : CoreSt) : (s.setCore p c x).power = s.power := rfl
@[simp] theorem State.setCore_part (p c : Nat) (x : CoreSt) : (s.setCore p c x).part = s.part := rfl
@[simp] theorem State.setCore_nv (p c : Nat) (x : CoreSt) : (s.setCore p c x).nv = s.nv := rfl
@[simp] theorem State.setCore_tm (p c : Nat) (x : CoreSt) : (s.setCore p c x).tm = s.tm := rfl
@[simp] theorem State.setCore_ing (p c : Nat) (x : CoreSt) : (s.setCore p c x).ing = s.ing := rfl
@[simp] theorem State.setCore_hat (p c : Nat) (x : CoreSt) : (s.setCore p c x).hat = s.hat := rfl
@[simp] theorem State.setCore_gold (p c : Nat) (x : CoreSt) : (s.setCore p c x).gold = s.gold := rfl
@[simp] theorem State.setCore_queues (p c : Nat) (x : CoreSt) : (s.setCore p c x).queues = s.queues := rfl
@[simp] theorem State.setCore_units (p c : Nat) (x : CoreSt) : (s.setCore p c x).units = s.units := rfl
@[simp] theorem State.setCore_ddtGen (p c : Nat) (x : CoreSt) : (s.setCore p c x).ddtGen = s.ddtGen := rfl
@[simp] theorem State.setCore_plateMap (p c : Nat) (x : CoreSt) : (s.setCore p c x).plateMap = s.plateMap := rfl
@[simp] theorem State.setCore_ddrBytes (p c : Nat) (x : CoreSt) : (s.setCore p c x).ddrBytes = s.ddrBytes := rfl
@[simp] theorem State.setCore_chanMap (p c : Nat) (x : CoreSt) : (s.setCore p c x).chanMap = s.chanMap := rfl
@[simp] theorem State.setCore_prf (p c : Nat) (x : CoreSt) : (s.setCore p c x).prf = s.prf := rfl
@[simp] theorem State.setCore_jobs (p c : Nat) (x : CoreSt) : (s.setCore p c x).jobs = s.jobs := rfl
@[simp] theorem State.setCore_nextJob (p c : Nat) (x : CoreSt) : (s.setCore p c x).nextJob = s.nextJob := rfl
@[simp] theorem State.setCore_ht (p c : Nat) (x : CoreSt) : (s.setCore p c x).ht = s.ht := rfl
@[simp] theorem State.setCore_sync (p c : Nat) (x : CoreSt) : (s.setCore p c x).sync = s.sync := rfl
@[simp] theorem State.setCore_tasks (p c : Nat) (x : CoreSt) : (s.setCore p c x).tasks = s.tasks := rfl
@[simp] theorem State.setCore_chains (p c : Nat) (x : CoreSt) : (s.setCore p c x).chains = s.chains := rfl
@[simp] theorem State.setCore_reacts (p c : Nat) (x : CoreSt) : (s.setCore p c x).reacts = s.reacts := rfl
@[simp] theorem State.setCore_par (p c : Nat) (x : CoreSt) : (s.setCore p c x).par = s.par := rfl
@[simp] theorem State.setCore_sup (p c : Nat) (x : CoreSt) : (s.setCore p c x).sup = s.sup := rfl
@[simp] theorem State.setCore_mgd (p c : Nat) (x : CoreSt) : (s.setCore p c x).mgd = s.mgd := rfl
@[simp] theorem State.setCore_ctxs (p c : Nat) (x : CoreSt) : (s.setCore p c x).ctxs = s.ctxs := rfl
@[simp] theorem State.setCore_tlbs (p c : Nat) (x : CoreSt) : (s.setCore p c x).tlbs = s.tlbs := rfl
@[simp] theorem State.setCore_chanJob (p c : Nat) (x : CoreSt) : (s.setCore p c x).chanJob = s.chanJob := rfl
@[simp] theorem State.setCore_copyDone (p c : Nat) (x : CoreSt) : (s.setCore p c x).copyDone = s.copyDone := rfl
@[simp] theorem State.setCore_plates (p c : Nat) (x : CoreSt) : (s.setCore p c x).plates = s.plates := rfl
@[simp] theorem State.setCore_cores (p c : Nat) (x : CoreSt) : (s.setCore p c x).cores = s.cores.set (coreKey p c) x := rfl
@[simp] theorem State.setCore_mcsr (p c : Nat) (x : CoreSt) : (s.setCore p c x).mcsr = s.mcsr := rfl
@[simp] theorem State.setCore_launches (p c : Nat) (x : CoreSt) : (s.setCore p c x).launches = s.launches := rfl
@[simp] theorem State.setCore_stp (p c : Nat) (x : CoreSt) : (s.setCore p c x).stp = s.stp := rfl
@[simp] theorem State.setCore_boot (p c : Nat) (x : CoreSt) : (s.setCore p c x).boot = s.boot := rfl
@[simp] theorem State.setCore_sec (p c : Nat) (x : CoreSt) : (s.setCore p c x).sec = s.sec := rfl
@[simp] theorem State.setCore_pwr (p c : Nat) (x : CoreSt) : (s.setCore p c x).pwr = s.pwr := rfl
@[simp] theorem State.setCore_caches (p c : Nat) (x : CoreSt) : (s.setCore p c x).caches = s.caches := rfl
@[simp] theorem State.setCore_tracers (p c : Nat) (x : CoreSt) : (s.setCore p c x).tracers = s.tracers := rfl
@[simp] theorem State.setCore_labs (p c : Nat) (x : CoreSt) : (s.setCore p c x).labs = s.labs := rfl
@[simp] theorem State.setCore_ring (p c : Nat) (x : CoreSt) : (s.setCore p c x).ring = s.ring := rfl
@[simp] theorem State.setCore_brn (p c : Nat) (x : CoreSt) : (s.setCore p c x).brn = s.brn := rfl

@[simp] theorem State.setJob_pending (j : Job) : (s.setJob j).pending = s.pending := rfl
@[simp] theorem State.setJob_regs (j : Job) : (s.setJob j).regs = s.regs := rfl
@[simp] theorem State.setJob_mem (j : Job) : (s.setJob j).mem = s.mem := rfl
@[simp] theorem State.setJob_bad (j : Job) : (s.setJob j).bad = s.bad := rfl
@[simp] theorem State.setJob_free (j : Job) : (s.setJob j).free = s.free := rfl
@[simp] theorem State.setJob_ticks (j : Job) : (s.setJob j).ticks = s.ticks := rfl
@[simp] theorem State.setJob_emitted (j : Job) : (s.setJob j).emitted = s.emitted := rfl
@[simp] theorem State.setJob_power (j : Job) : (s.setJob j).power = s.power := rfl
@[simp] theorem State.setJob_part (j : Job) : (s.setJob j).part = s.part := rfl
@[simp] theorem State.setJob_nv (j : Job) : (s.setJob j).nv = s.nv := rfl
@[simp] theorem State.setJob_tm (j : Job) : (s.setJob j).tm = s.tm := rfl
@[simp] theorem State.setJob_ing (j : Job) : (s.setJob j).ing = s.ing := rfl
@[simp] theorem State.setJob_hat (j : Job) : (s.setJob j).hat = s.hat := rfl
@[simp] theorem State.setJob_gold (j : Job) : (s.setJob j).gold = s.gold := rfl
@[simp] theorem State.setJob_queues (j : Job) : (s.setJob j).queues = s.queues := rfl
@[simp] theorem State.setJob_units (j : Job) : (s.setJob j).units = s.units := rfl
@[simp] theorem State.setJob_ddtGen (j : Job) : (s.setJob j).ddtGen = s.ddtGen := rfl
@[simp] theorem State.setJob_plateMap (j : Job) : (s.setJob j).plateMap = s.plateMap := rfl
@[simp] theorem State.setJob_ddrBytes (j : Job) : (s.setJob j).ddrBytes = s.ddrBytes := rfl
@[simp] theorem State.setJob_chanMap (j : Job) : (s.setJob j).chanMap = s.chanMap := rfl
@[simp] theorem State.setJob_prf (j : Job) : (s.setJob j).prf = s.prf := rfl
@[simp] theorem State.setJob_jobs (j : Job) : (s.setJob j).jobs = s.jobs.map (fun k => if k.id = j.id then j else k) := rfl
@[simp] theorem State.setJob_nextJob (j : Job) : (s.setJob j).nextJob = s.nextJob := rfl
@[simp] theorem State.setJob_ht (j : Job) : (s.setJob j).ht = s.ht := rfl
@[simp] theorem State.setJob_sync (j : Job) : (s.setJob j).sync = s.sync := rfl
@[simp] theorem State.setJob_tasks (j : Job) : (s.setJob j).tasks = s.tasks := rfl
@[simp] theorem State.setJob_chains (j : Job) : (s.setJob j).chains = s.chains := rfl
@[simp] theorem State.setJob_reacts (j : Job) : (s.setJob j).reacts = s.reacts := rfl
@[simp] theorem State.setJob_par (j : Job) : (s.setJob j).par = s.par := rfl
@[simp] theorem State.setJob_sup (j : Job) : (s.setJob j).sup = s.sup := rfl
@[simp] theorem State.setJob_mgd (j : Job) : (s.setJob j).mgd = s.mgd := rfl
@[simp] theorem State.setJob_ctxs (j : Job) : (s.setJob j).ctxs = s.ctxs := rfl
@[simp] theorem State.setJob_tlbs (j : Job) : (s.setJob j).tlbs = s.tlbs := rfl
@[simp] theorem State.setJob_chanJob (j : Job) : (s.setJob j).chanJob = s.chanJob := rfl
@[simp] theorem State.setJob_copyDone (j : Job) : (s.setJob j).copyDone = s.copyDone := rfl
@[simp] theorem State.setJob_plates (j : Job) : (s.setJob j).plates = s.plates := rfl
@[simp] theorem State.setJob_cores (j : Job) : (s.setJob j).cores = s.cores := rfl
@[simp] theorem State.setJob_mcsr (j : Job) : (s.setJob j).mcsr = s.mcsr := rfl
@[simp] theorem State.setJob_launches (j : Job) : (s.setJob j).launches = s.launches := rfl
@[simp] theorem State.setJob_stp (j : Job) : (s.setJob j).stp = s.stp := rfl
@[simp] theorem State.setJob_boot (j : Job) : (s.setJob j).boot = s.boot := rfl
@[simp] theorem State.setJob_sec (j : Job) : (s.setJob j).sec = s.sec := rfl
@[simp] theorem State.setJob_pwr (j : Job) : (s.setJob j).pwr = s.pwr := rfl
@[simp] theorem State.setJob_caches (j : Job) : (s.setJob j).caches = s.caches := rfl
@[simp] theorem State.setJob_tracers (j : Job) : (s.setJob j).tracers = s.tracers := rfl
@[simp] theorem State.setJob_labs (j : Job) : (s.setJob j).labs = s.labs := rfl
@[simp] theorem State.setJob_ring (j : Job) : (s.setJob j).ring = s.ring := rfl
@[simp] theorem State.setJob_brn (j : Job) : (s.setJob j).brn = s.brn := rfl

@[simp] theorem State.wroteOut_pending (n : Nat) : (s.wroteOut n).pending = s.pending := rfl
@[simp] theorem State.wroteOut_regs (n : Nat) : (s.wroteOut n).regs = s.regs := rfl
@[simp] theorem State.wroteOut_mem (n : Nat) : (s.wroteOut n).mem = s.mem := rfl
@[simp] theorem State.wroteOut_bad (n : Nat) : (s.wroteOut n).bad = s.bad := rfl
@[simp] theorem State.wroteOut_free (n : Nat) : (s.wroteOut n).free = s.free := rfl
@[simp] theorem State.wroteOut_ticks (n : Nat) : (s.wroteOut n).ticks = s.ticks := rfl
@[simp] theorem State.wroteOut_emitted (n : Nat) : (s.wroteOut n).emitted = s.emitted := rfl
@[simp] theorem State.wroteOut_power (n : Nat) : (s.wroteOut n).power = s.power := rfl
@[simp] theorem State.wroteOut_part (n : Nat) : (s.wroteOut n).part = s.part := rfl
@[simp] theorem State.wroteOut_nv (n : Nat) : (s.wroteOut n).nv = s.nv := rfl
@[simp] theorem State.wroteOut_tm (n : Nat) : (s.wroteOut n).tm = s.tm := rfl
@[simp] theorem State.wroteOut_ing (n : Nat) : (s.wroteOut n).ing = s.ing := rfl
@[simp] theorem State.wroteOut_hat (n : Nat) : (s.wroteOut n).hat = s.hat := rfl
@[simp] theorem State.wroteOut_gold (n : Nat) : (s.wroteOut n).gold = s.gold := rfl
@[simp] theorem State.wroteOut_queues (n : Nat) : (s.wroteOut n).queues = s.queues := rfl
@[simp] theorem State.wroteOut_units (n : Nat) : (s.wroteOut n).units = s.units := rfl
@[simp] theorem State.wroteOut_ddtGen (n : Nat) : (s.wroteOut n).ddtGen = s.ddtGen := rfl
@[simp] theorem State.wroteOut_plateMap (n : Nat) : (s.wroteOut n).plateMap = s.plateMap := rfl
@[simp] theorem State.wroteOut_ddrBytes (n : Nat) : (s.wroteOut n).ddrBytes = s.ddrBytes := rfl
@[simp] theorem State.wroteOut_chanMap (n : Nat) : (s.wroteOut n).chanMap = s.chanMap := rfl
@[simp] theorem State.wroteOut_prf (n : Nat) : (s.wroteOut n).prf = s.prf := rfl
@[simp] theorem State.wroteOut_nextJob (n : Nat) : (s.wroteOut n).nextJob = s.nextJob := rfl
@[simp] theorem State.wroteOut_ht (n : Nat) : (s.wroteOut n).ht = s.ht := rfl
@[simp] theorem State.wroteOut_sync (n : Nat) : (s.wroteOut n).sync = s.sync := rfl
@[simp] theorem State.wroteOut_tasks (n : Nat) : (s.wroteOut n).tasks = s.tasks := rfl
@[simp] theorem State.wroteOut_chains (n : Nat) : (s.wroteOut n).chains = s.chains := rfl
@[simp] theorem State.wroteOut_reacts (n : Nat) : (s.wroteOut n).reacts = s.reacts := rfl
@[simp] theorem State.wroteOut_par (n : Nat) : (s.wroteOut n).par = s.par := rfl
@[simp] theorem State.wroteOut_sup (n : Nat) : (s.wroteOut n).sup = s.sup := rfl
@[simp] theorem State.wroteOut_mgd (n : Nat) : (s.wroteOut n).mgd = s.mgd := rfl
@[simp] theorem State.wroteOut_ctxs (n : Nat) : (s.wroteOut n).ctxs = s.ctxs := rfl
@[simp] theorem State.wroteOut_tlbs (n : Nat) : (s.wroteOut n).tlbs = s.tlbs := rfl
@[simp] theorem State.wroteOut_chanJob (n : Nat) : (s.wroteOut n).chanJob = s.chanJob := rfl
@[simp] theorem State.wroteOut_copyDone (n : Nat) : (s.wroteOut n).copyDone = s.copyDone := rfl
@[simp] theorem State.wroteOut_plates (n : Nat) : (s.wroteOut n).plates = s.plates := rfl
@[simp] theorem State.wroteOut_cores (n : Nat) : (s.wroteOut n).cores = s.cores := rfl
@[simp] theorem State.wroteOut_mcsr (n : Nat) : (s.wroteOut n).mcsr = s.mcsr := rfl
@[simp] theorem State.wroteOut_launches (n : Nat) : (s.wroteOut n).launches = s.launches := rfl
@[simp] theorem State.wroteOut_stp (n : Nat) : (s.wroteOut n).stp = s.stp := rfl
@[simp] theorem State.wroteOut_boot (n : Nat) : (s.wroteOut n).boot = s.boot := rfl
@[simp] theorem State.wroteOut_sec (n : Nat) : (s.wroteOut n).sec = s.sec := rfl
@[simp] theorem State.wroteOut_pwr (n : Nat) : (s.wroteOut n).pwr = s.pwr := rfl
@[simp] theorem State.wroteOut_caches (n : Nat) : (s.wroteOut n).caches = s.caches := rfl
@[simp] theorem State.wroteOut_tracers (n : Nat) : (s.wroteOut n).tracers = s.tracers := rfl
@[simp] theorem State.wroteOut_labs (n : Nat) : (s.wroteOut n).labs = s.labs := rfl
@[simp] theorem State.wroteOut_ring (n : Nat) : (s.wroteOut n).ring = s.ring := rfl
@[simp] theorem State.wroteOut_brn (n : Nat) : (s.wroteOut n).brn = s.brn := rfl

@[simp] theorem State.showCtx_pending (c : Nat) : (s.showCtx c).pending = s.pending := rfl
@[simp] theorem State.showCtx_mem (c : Nat) : (s.showCtx c).mem = s.mem := rfl
@[simp] theorem State.showCtx_bad (c : Nat) : (s.showCtx c).bad = s.bad := rfl
@[simp] theorem State.showCtx_free (c : Nat) : (s.showCtx c).free = s.free := rfl
@[simp] theorem State.showCtx_ticks (c : Nat) : (s.showCtx c).ticks = s.ticks := rfl
@[simp] theorem State.showCtx_emitted (c : Nat) : (s.showCtx c).emitted = s.emitted := rfl
@[simp] theorem State.showCtx_power (c : Nat) : (s.showCtx c).power = s.power := rfl
@[simp] theorem State.showCtx_part (c : Nat) : (s.showCtx c).part = s.part := rfl
@[simp] theorem State.showCtx_nv (c : Nat) : (s.showCtx c).nv = s.nv := rfl
@[simp] theorem State.showCtx_tm (c : Nat) : (s.showCtx c).tm = s.tm := rfl
@[simp] theorem State.showCtx_ing (c : Nat) : (s.showCtx c).ing = s.ing := rfl
@[simp] theorem State.showCtx_hat (c : Nat) : (s.showCtx c).hat = s.hat := rfl
@[simp] theorem State.showCtx_gold (c : Nat) : (s.showCtx c).gold = s.gold := rfl
@[simp] theorem State.showCtx_queues (c : Nat) : (s.showCtx c).queues = s.queues := rfl
@[simp] theorem State.showCtx_units (c : Nat) : (s.showCtx c).units = s.units := rfl
@[simp] theorem State.showCtx_ddtGen (c : Nat) : (s.showCtx c).ddtGen = s.ddtGen := rfl
@[simp] theorem State.showCtx_plateMap (c : Nat) : (s.showCtx c).plateMap = s.plateMap := rfl
@[simp] theorem State.showCtx_ddrBytes (c : Nat) : (s.showCtx c).ddrBytes = s.ddrBytes := rfl
@[simp] theorem State.showCtx_chanMap (c : Nat) : (s.showCtx c).chanMap = s.chanMap := rfl
@[simp] theorem State.showCtx_prf (c : Nat) : (s.showCtx c).prf = s.prf := rfl
@[simp] theorem State.showCtx_jobs (c : Nat) : (s.showCtx c).jobs = s.jobs := rfl
@[simp] theorem State.showCtx_nextJob (c : Nat) : (s.showCtx c).nextJob = s.nextJob := rfl
@[simp] theorem State.showCtx_ht (c : Nat) : (s.showCtx c).ht = s.ht := rfl
@[simp] theorem State.showCtx_sync (c : Nat) : (s.showCtx c).sync = s.sync := rfl
@[simp] theorem State.showCtx_tasks (c : Nat) : (s.showCtx c).tasks = s.tasks := rfl
@[simp] theorem State.showCtx_chains (c : Nat) : (s.showCtx c).chains = s.chains := rfl
@[simp] theorem State.showCtx_reacts (c : Nat) : (s.showCtx c).reacts = s.reacts := rfl
@[simp] theorem State.showCtx_par (c : Nat) : (s.showCtx c).par = s.par := rfl
@[simp] theorem State.showCtx_sup (c : Nat) : (s.showCtx c).sup = s.sup := rfl
@[simp] theorem State.showCtx_mgd (c : Nat) : (s.showCtx c).mgd = s.mgd := rfl
@[simp] theorem State.showCtx_ctxs (c : Nat) : (s.showCtx c).ctxs = s.ctxs := rfl
@[simp] theorem State.showCtx_tlbs (c : Nat) : (s.showCtx c).tlbs = s.tlbs := rfl
@[simp] theorem State.showCtx_chanJob (c : Nat) : (s.showCtx c).chanJob = s.chanJob := rfl
@[simp] theorem State.showCtx_copyDone (c : Nat) : (s.showCtx c).copyDone = s.copyDone := rfl
@[simp] theorem State.showCtx_plates (c : Nat) : (s.showCtx c).plates = s.plates := rfl
@[simp] theorem State.showCtx_cores (c : Nat) : (s.showCtx c).cores = s.cores := rfl
@[simp] theorem State.showCtx_mcsr (c : Nat) : (s.showCtx c).mcsr = s.mcsr := rfl
@[simp] theorem State.showCtx_launches (c : Nat) : (s.showCtx c).launches = s.launches := rfl
@[simp] theorem State.showCtx_stp (c : Nat) : (s.showCtx c).stp = s.stp := rfl
@[simp] theorem State.showCtx_boot (c : Nat) : (s.showCtx c).boot = s.boot := rfl
@[simp] theorem State.showCtx_sec (c : Nat) : (s.showCtx c).sec = s.sec := rfl
@[simp] theorem State.showCtx_pwr (c : Nat) : (s.showCtx c).pwr = s.pwr := rfl
@[simp] theorem State.showCtx_caches (c : Nat) : (s.showCtx c).caches = s.caches := rfl
@[simp] theorem State.showCtx_tracers (c : Nat) : (s.showCtx c).tracers = s.tracers := rfl
@[simp] theorem State.showCtx_labs (c : Nat) : (s.showCtx c).labs = s.labs := rfl
@[simp] theorem State.showCtx_ring (c : Nat) : (s.showCtx c).ring = s.ring := rfl
@[simp] theorem State.showCtx_brn (c : Nat) : (s.showCtx c).brn = s.brn := rfl

@[simp] theorem State.setSource_pending (n : Nat) (x : SrcSt) : (s.setSource n x).pending = s.pending := rfl
@[simp] theorem State.setSource_regs (n : Nat) (x : SrcSt) : (s.setSource n x).regs = s.regs := rfl
@[simp] theorem State.setSource_mem (n : Nat) (x : SrcSt) : (s.setSource n x).mem = s.mem := rfl
@[simp] theorem State.setSource_bad (n : Nat) (x : SrcSt) : (s.setSource n x).bad = s.bad := rfl
@[simp] theorem State.setSource_free (n : Nat) (x : SrcSt) : (s.setSource n x).free = s.free := rfl
@[simp] theorem State.setSource_ticks (n : Nat) (x : SrcSt) : (s.setSource n x).ticks = s.ticks := rfl
@[simp] theorem State.setSource_emitted (n : Nat) (x : SrcSt) : (s.setSource n x).emitted = s.emitted := rfl
@[simp] theorem State.setSource_power (n : Nat) (x : SrcSt) : (s.setSource n x).power = s.power := rfl
@[simp] theorem State.setSource_part (n : Nat) (x : SrcSt) : (s.setSource n x).part = s.part := rfl
@[simp] theorem State.setSource_nv (n : Nat) (x : SrcSt) : (s.setSource n x).nv = s.nv := rfl
@[simp] theorem State.setSource_tm (n : Nat) (x : SrcSt) : (s.setSource n x).tm = s.tm := rfl
@[simp] theorem State.setSource_ing (n : Nat) (x : SrcSt) : (s.setSource n x).ing = s.ing := rfl
@[simp] theorem State.setSource_hat (n : Nat) (x : SrcSt) : (s.setSource n x).hat = s.hat := rfl
@[simp] theorem State.setSource_gold (n : Nat) (x : SrcSt) : (s.setSource n x).gold = s.gold := rfl
@[simp] theorem State.setSource_queues (n : Nat) (x : SrcSt) : (s.setSource n x).queues = s.queues := rfl
@[simp] theorem State.setSource_units (n : Nat) (x : SrcSt) : (s.setSource n x).units = s.units := rfl
@[simp] theorem State.setSource_ddtGen (n : Nat) (x : SrcSt) : (s.setSource n x).ddtGen = s.ddtGen := rfl
@[simp] theorem State.setSource_plateMap (n : Nat) (x : SrcSt) : (s.setSource n x).plateMap = s.plateMap := rfl
@[simp] theorem State.setSource_ddrBytes (n : Nat) (x : SrcSt) : (s.setSource n x).ddrBytes = s.ddrBytes := rfl
@[simp] theorem State.setSource_chanMap (n : Nat) (x : SrcSt) : (s.setSource n x).chanMap = s.chanMap := rfl
@[simp] theorem State.setSource_prf (n : Nat) (x : SrcSt) : (s.setSource n x).prf = s.prf := rfl
@[simp] theorem State.setSource_jobs (n : Nat) (x : SrcSt) : (s.setSource n x).jobs = s.jobs := rfl
@[simp] theorem State.setSource_nextJob (n : Nat) (x : SrcSt) : (s.setSource n x).nextJob = s.nextJob := rfl
@[simp] theorem State.setSource_ht (n : Nat) (x : SrcSt) : (s.setSource n x).ht = s.ht := rfl
@[simp] theorem State.setSource_sync (n : Nat) (x : SrcSt) : (s.setSource n x).sync = s.sync := rfl
@[simp] theorem State.setSource_tasks (n : Nat) (x : SrcSt) : (s.setSource n x).tasks = s.tasks := rfl
@[simp] theorem State.setSource_chains (n : Nat) (x : SrcSt) : (s.setSource n x).chains = s.chains := rfl
@[simp] theorem State.setSource_reacts (n : Nat) (x : SrcSt) : (s.setSource n x).reacts = s.reacts := rfl
@[simp] theorem State.setSource_par (n : Nat) (x : SrcSt) : (s.setSource n x).par = s.par := rfl
@[simp] theorem State.setSource_sup (n : Nat) (x : SrcSt) : (s.setSource n x).sup = { s.sup with src := s.sup.src.set n x } := rfl
@[simp] theorem State.setSource_mgd (n : Nat) (x : SrcSt) : (s.setSource n x).mgd = s.mgd := rfl
@[simp] theorem State.setSource_ctxs (n : Nat) (x : SrcSt) : (s.setSource n x).ctxs = s.ctxs := rfl
@[simp] theorem State.setSource_tlbs (n : Nat) (x : SrcSt) : (s.setSource n x).tlbs = s.tlbs := rfl
@[simp] theorem State.setSource_chanJob (n : Nat) (x : SrcSt) : (s.setSource n x).chanJob = s.chanJob := rfl
@[simp] theorem State.setSource_copyDone (n : Nat) (x : SrcSt) : (s.setSource n x).copyDone = s.copyDone := rfl
@[simp] theorem State.setSource_plates (n : Nat) (x : SrcSt) : (s.setSource n x).plates = s.plates := rfl
@[simp] theorem State.setSource_cores (n : Nat) (x : SrcSt) : (s.setSource n x).cores = s.cores := rfl
@[simp] theorem State.setSource_mcsr (n : Nat) (x : SrcSt) : (s.setSource n x).mcsr = s.mcsr := rfl
@[simp] theorem State.setSource_launches (n : Nat) (x : SrcSt) : (s.setSource n x).launches = s.launches := rfl
@[simp] theorem State.setSource_stp (n : Nat) (x : SrcSt) : (s.setSource n x).stp = s.stp := rfl
@[simp] theorem State.setSource_boot (n : Nat) (x : SrcSt) : (s.setSource n x).boot = s.boot := rfl
@[simp] theorem State.setSource_sec (n : Nat) (x : SrcSt) : (s.setSource n x).sec = s.sec := rfl
@[simp] theorem State.setSource_pwr (n : Nat) (x : SrcSt) : (s.setSource n x).pwr = s.pwr := rfl
@[simp] theorem State.setSource_caches (n : Nat) (x : SrcSt) : (s.setSource n x).caches = s.caches := rfl
@[simp] theorem State.setSource_tracers (n : Nat) (x : SrcSt) : (s.setSource n x).tracers = s.tracers := rfl
@[simp] theorem State.setSource_labs (n : Nat) (x : SrcSt) : (s.setSource n x).labs = s.labs := rfl
@[simp] theorem State.setSource_ring (n : Nat) (x : SrcSt) : (s.setSource n x).ring = s.ring := rfl
@[simp] theorem State.setSource_brn (n : Nat) (x : SrcSt) : (s.setSource n x).brn = s.brn := rfl

@[simp] theorem State.setStream_pending (b : Bool) (x : Stream) : (s.setStream b x).pending = s.pending := by cases b <;> rfl
@[simp] theorem State.setStream_regs (b : Bool) (x : Stream) : (s.setStream b x).regs = s.regs := by cases b <;> rfl
@[simp] theorem State.setStream_mem (b : Bool) (x : Stream) : (s.setStream b x).mem = s.mem := by cases b <;> rfl
@[simp] theorem State.setStream_bad (b : Bool) (x : Stream) : (s.setStream b x).bad = s.bad := by cases b <;> rfl
@[simp] theorem State.setStream_free (b : Bool) (x : Stream) : (s.setStream b x).free = s.free := by cases b <;> rfl
@[simp] theorem State.setStream_ticks (b : Bool) (x : Stream) : (s.setStream b x).ticks = s.ticks := by cases b <;> rfl
@[simp] theorem State.setStream_emitted (b : Bool) (x : Stream) : (s.setStream b x).emitted = s.emitted := by cases b <;> rfl
@[simp] theorem State.setStream_power (b : Bool) (x : Stream) : (s.setStream b x).power = s.power := by cases b <;> rfl
@[simp] theorem State.setStream_part (b : Bool) (x : Stream) : (s.setStream b x).part = s.part := by cases b <;> rfl
@[simp] theorem State.setStream_nv (b : Bool) (x : Stream) : (s.setStream b x).nv = s.nv := by cases b <;> rfl
@[simp] theorem State.setStream_tm (b : Bool) (x : Stream) : (s.setStream b x).tm = s.tm := by cases b <;> rfl
@[simp] theorem State.setStream_ing (b : Bool) (x : Stream) : (s.setStream b x).ing = s.ing := by cases b <;> rfl
@[simp] theorem State.setStream_hat (b : Bool) (x : Stream) : (s.setStream b x).hat = s.hat := by cases b <;> rfl
@[simp] theorem State.setStream_gold (b : Bool) (x : Stream) : (s.setStream b x).gold = s.gold := by cases b <;> rfl
@[simp] theorem State.setStream_queues (b : Bool) (x : Stream) : (s.setStream b x).queues = s.queues := by cases b <;> rfl
@[simp] theorem State.setStream_units (b : Bool) (x : Stream) : (s.setStream b x).units = s.units := by cases b <;> rfl
@[simp] theorem State.setStream_ddtGen (b : Bool) (x : Stream) : (s.setStream b x).ddtGen = s.ddtGen := by cases b <;> rfl
@[simp] theorem State.setStream_plateMap (b : Bool) (x : Stream) : (s.setStream b x).plateMap = s.plateMap := by cases b <;> rfl
@[simp] theorem State.setStream_ddrBytes (b : Bool) (x : Stream) : (s.setStream b x).ddrBytes = s.ddrBytes := by cases b <;> rfl
@[simp] theorem State.setStream_chanMap (b : Bool) (x : Stream) : (s.setStream b x).chanMap = s.chanMap := by cases b <;> rfl
@[simp] theorem State.setStream_prf (b : Bool) (x : Stream) : (s.setStream b x).prf = s.prf := by cases b <;> rfl
@[simp] theorem State.setStream_jobs (b : Bool) (x : Stream) : (s.setStream b x).jobs = s.jobs := by cases b <;> rfl
@[simp] theorem State.setStream_nextJob (b : Bool) (x : Stream) : (s.setStream b x).nextJob = s.nextJob := by cases b <;> rfl
@[simp] theorem State.setStream_sync (b : Bool) (x : Stream) : (s.setStream b x).sync = s.sync := by cases b <;> rfl
@[simp] theorem State.setStream_tasks (b : Bool) (x : Stream) : (s.setStream b x).tasks = s.tasks := by cases b <;> rfl
@[simp] theorem State.setStream_chains (b : Bool) (x : Stream) : (s.setStream b x).chains = s.chains := by cases b <;> rfl
@[simp] theorem State.setStream_reacts (b : Bool) (x : Stream) : (s.setStream b x).reacts = s.reacts := by cases b <;> rfl
@[simp] theorem State.setStream_par (b : Bool) (x : Stream) : (s.setStream b x).par = s.par := by cases b <;> rfl
@[simp] theorem State.setStream_sup (b : Bool) (x : Stream) : (s.setStream b x).sup = s.sup := by cases b <;> rfl
@[simp] theorem State.setStream_mgd (b : Bool) (x : Stream) : (s.setStream b x).mgd = s.mgd := by cases b <;> rfl
@[simp] theorem State.setStream_ctxs (b : Bool) (x : Stream) : (s.setStream b x).ctxs = s.ctxs := by cases b <;> rfl
@[simp] theorem State.setStream_tlbs (b : Bool) (x : Stream) : (s.setStream b x).tlbs = s.tlbs := by cases b <;> rfl
@[simp] theorem State.setStream_chanJob (b : Bool) (x : Stream) : (s.setStream b x).chanJob = s.chanJob := by cases b <;> rfl
@[simp] theorem State.setStream_copyDone (b : Bool) (x : Stream) : (s.setStream b x).copyDone = s.copyDone := by cases b <;> rfl
@[simp] theorem State.setStream_plates (b : Bool) (x : Stream) : (s.setStream b x).plates = s.plates := by cases b <;> rfl
@[simp] theorem State.setStream_cores (b : Bool) (x : Stream) : (s.setStream b x).cores = s.cores := by cases b <;> rfl
@[simp] theorem State.setStream_mcsr (b : Bool) (x : Stream) : (s.setStream b x).mcsr = s.mcsr := by cases b <;> rfl
@[simp] theorem State.setStream_launches (b : Bool) (x : Stream) : (s.setStream b x).launches = s.launches := by cases b <;> rfl
@[simp] theorem State.setStream_stp (b : Bool) (x : Stream) : (s.setStream b x).stp = s.stp := by cases b <;> rfl
@[simp] theorem State.setStream_boot (b : Bool) (x : Stream) : (s.setStream b x).boot = s.boot := by cases b <;> rfl
@[simp] theorem State.setStream_sec (b : Bool) (x : Stream) : (s.setStream b x).sec = s.sec := by cases b <;> rfl
@[simp] theorem State.setStream_pwr (b : Bool) (x : Stream) : (s.setStream b x).pwr = s.pwr := by cases b <;> rfl
@[simp] theorem State.setStream_caches (b : Bool) (x : Stream) : (s.setStream b x).caches = s.caches := by cases b <;> rfl
@[simp] theorem State.setStream_tracers (b : Bool) (x : Stream) : (s.setStream b x).tracers = s.tracers := by cases b <;> rfl
@[simp] theorem State.setStream_labs (b : Bool) (x : Stream) : (s.setStream b x).labs = s.labs := by cases b <;> rfl
@[simp] theorem State.setStream_ring (b : Bool) (x : Stream) : (s.setStream b x).ring = s.ring := by cases b <;> rfl
@[simp] theorem State.setStream_brn (b : Bool) (x : Stream) : (s.setStream b x).brn = s.brn := by cases b <;> rfl

@[simp] theorem State.setHistory_pending (u : Nat) (h : History) : (s.setHistory u h).pending = s.pending := by unfold State.setHistory; split <;> rfl
@[simp] theorem State.setHistory_regs (u : Nat) (h : History) : (s.setHistory u h).regs = s.regs := by unfold State.setHistory; split <;> rfl
@[simp] theorem State.setHistory_mem (u : Nat) (h : History) : (s.setHistory u h).mem = s.mem := by unfold State.setHistory; split <;> rfl
@[simp] theorem State.setHistory_bad (u : Nat) (h : History) : (s.setHistory u h).bad = s.bad := by unfold State.setHistory; split <;> rfl
@[simp] theorem State.setHistory_free (u : Nat) (h : History) : (s.setHistory u h).free = s.free := by unfold State.setHistory; split <;> rfl
@[simp] theorem State.setHistory_ticks (u : Nat) (h : History) : (s.setHistory u h).ticks = s.ticks := by unfold State.setHistory; split <;> rfl
@[simp] theorem State.setHistory_emitted (u : Nat) (h : History) : (s.setHistory u h).emitted = s.emitted := by unfold State.setHistory; split <;> rfl
@[simp] theorem State.setHistory_power (u : Nat) (h : History) : (s.setHistory u h).power = s.power := by unfold State.setHistory; split <;> rfl
@[simp] theorem State.setHistory_part (u : Nat) (h : History) : (s.setHistory u h).part = s.part := by unfold State.setHistory; split <;> rfl
@[simp] theorem State.setHistory_tm (u : Nat) (h : History) : (s.setHistory u h).tm = s.tm := by unfold State.setHistory; split <;> rfl
@[simp] theorem State.setHistory_ing (u : Nat) (h : History) : (s.setHistory u h).ing = s.ing := by unfold State.setHistory; split <;> rfl
@[simp] theorem State.setHistory_hat (u : Nat) (h : History) : (s.setHistory u h).hat = s.hat := by unfold State.setHistory; split <;> rfl
@[simp] theorem State.setHistory_gold (u : Nat) (h : History) : (s.setHistory u h).gold = s.gold := by unfold State.setHistory; split <;> rfl
@[simp] theorem State.setHistory_queues (u : Nat) (h : History) : (s.setHistory u h).queues = s.queues := by unfold State.setHistory; split <;> rfl
@[simp] theorem State.setHistory_units (u : Nat) (h : History) : (s.setHistory u h).units = s.units := by unfold State.setHistory; split <;> rfl
@[simp] theorem State.setHistory_ddtGen (u : Nat) (h : History) : (s.setHistory u h).ddtGen = s.ddtGen := by unfold State.setHistory; split <;> rfl
@[simp] theorem State.setHistory_plateMap (u : Nat) (h : History) : (s.setHistory u h).plateMap = s.plateMap := by unfold State.setHistory; split <;> rfl
@[simp] theorem State.setHistory_ddrBytes (u : Nat) (h : History) : (s.setHistory u h).ddrBytes = s.ddrBytes := by unfold State.setHistory; split <;> rfl
@[simp] theorem State.setHistory_chanMap (u : Nat) (h : History) : (s.setHistory u h).chanMap = s.chanMap := by unfold State.setHistory; split <;> rfl
@[simp] theorem State.setHistory_prf (u : Nat) (h : History) : (s.setHistory u h).prf = s.prf := by unfold State.setHistory; split <;> rfl
@[simp] theorem State.setHistory_jobs (u : Nat) (h : History) : (s.setHistory u h).jobs = s.jobs := by unfold State.setHistory; split <;> rfl
@[simp] theorem State.setHistory_nextJob (u : Nat) (h : History) : (s.setHistory u h).nextJob = s.nextJob := by unfold State.setHistory; split <;> rfl
@[simp] theorem State.setHistory_ht (u : Nat) (h : History) : (s.setHistory u h).ht = s.ht := by unfold State.setHistory; split <;> rfl
@[simp] theorem State.setHistory_sync (u : Nat) (h : History) : (s.setHistory u h).sync = s.sync := by unfold State.setHistory; split <;> rfl
@[simp] theorem State.setHistory_tasks (u : Nat) (h : History) : (s.setHistory u h).tasks = s.tasks := by unfold State.setHistory; split <;> rfl
@[simp] theorem State.setHistory_chains (u : Nat) (h : History) : (s.setHistory u h).chains = s.chains := by unfold State.setHistory; split <;> rfl
@[simp] theorem State.setHistory_reacts (u : Nat) (h : History) : (s.setHistory u h).reacts = s.reacts := by unfold State.setHistory; split <;> rfl
@[simp] theorem State.setHistory_par (u : Nat) (h : History) : (s.setHistory u h).par = s.par := by unfold State.setHistory; split <;> rfl
@[simp] theorem State.setHistory_sup (u : Nat) (h : History) : (s.setHistory u h).sup = s.sup := by unfold State.setHistory; split <;> rfl
@[simp] theorem State.setHistory_mgd (u : Nat) (h : History) : (s.setHistory u h).mgd = s.mgd := by unfold State.setHistory; split <;> rfl
@[simp] theorem State.setHistory_ctxs (u : Nat) (h : History) : (s.setHistory u h).ctxs = s.ctxs := by unfold State.setHistory; split <;> rfl
@[simp] theorem State.setHistory_tlbs (u : Nat) (h : History) : (s.setHistory u h).tlbs = s.tlbs := by unfold State.setHistory; split <;> rfl
@[simp] theorem State.setHistory_chanJob (u : Nat) (h : History) : (s.setHistory u h).chanJob = s.chanJob := by unfold State.setHistory; split <;> rfl
@[simp] theorem State.setHistory_copyDone (u : Nat) (h : History) : (s.setHistory u h).copyDone = s.copyDone := by unfold State.setHistory; split <;> rfl
@[simp] theorem State.setHistory_plates (u : Nat) (h : History) : (s.setHistory u h).plates = s.plates := by unfold State.setHistory; split <;> rfl
@[simp] theorem State.setHistory_cores (u : Nat) (h : History) : (s.setHistory u h).cores = s.cores := by unfold State.setHistory; split <;> rfl
@[simp] theorem State.setHistory_mcsr (u : Nat) (h : History) : (s.setHistory u h).mcsr = s.mcsr := by unfold State.setHistory; split <;> rfl
@[simp] theorem State.setHistory_launches (u : Nat) (h : History) : (s.setHistory u h).launches = s.launches := by unfold State.setHistory; split <;> rfl
@[simp] theorem State.setHistory_stp (u : Nat) (h : History) : (s.setHistory u h).stp = s.stp := by unfold State.setHistory; split <;> rfl
@[simp] theorem State.setHistory_boot (u : Nat) (h : History) : (s.setHistory u h).boot = s.boot := by unfold State.setHistory; split <;> rfl
@[simp] theorem State.setHistory_sec (u : Nat) (h : History) : (s.setHistory u h).sec = s.sec := by unfold State.setHistory; split <;> rfl
@[simp] theorem State.setHistory_pwr (u : Nat) (h : History) : (s.setHistory u h).pwr = s.pwr := by unfold State.setHistory; split <;> rfl
@[simp] theorem State.setHistory_caches (u : Nat) (h : History) : (s.setHistory u h).caches = s.caches := by unfold State.setHistory; split <;> rfl
@[simp] theorem State.setHistory_tracers (u : Nat) (h : History) : (s.setHistory u h).tracers = s.tracers := by unfold State.setHistory; split <;> rfl
@[simp] theorem State.setHistory_labs (u : Nat) (h : History) : (s.setHistory u h).labs = s.labs := by unfold State.setHistory; split <;> rfl
@[simp] theorem State.setHistory_ring (u : Nat) (h : History) : (s.setHistory u h).ring = s.ring := by unfold State.setHistory; split <;> rfl
@[simp] theorem State.setHistory_brn (u : Nat) (h : History) : (s.setHistory u h).brn = s.brn := by unfold State.setHistory; split <;> rfl

@[simp] theorem State.usedFree_pending : (s.usedFree).pending = s.pending := rfl
@[simp] theorem State.usedFree_regs : (s.usedFree).regs = s.regs := rfl
@[simp] theorem State.usedFree_mem : (s.usedFree).mem = s.mem := rfl
@[simp] theorem State.usedFree_bad : (s.usedFree).bad = s.bad := rfl
@[simp] theorem State.usedFree_free : (s.usedFree).free = s.free + 1 := rfl
@[simp] theorem State.usedFree_ticks : (s.usedFree).ticks = s.ticks := rfl
@[simp] theorem State.usedFree_emitted : (s.usedFree).emitted = s.emitted := rfl
@[simp] theorem State.usedFree_power : (s.usedFree).power = s.power := rfl
@[simp] theorem State.usedFree_part : (s.usedFree).part = s.part := rfl
@[simp] theorem State.usedFree_nv : (s.usedFree).nv = s.nv := rfl
@[simp] theorem State.usedFree_tm : (s.usedFree).tm = s.tm := rfl
@[simp] theorem State.usedFree_ing : (s.usedFree).ing = s.ing := rfl
@[simp] theorem State.usedFree_hat : (s.usedFree).hat = s.hat := rfl
@[simp] theorem State.usedFree_gold : (s.usedFree).gold = s.gold := rfl
@[simp] theorem State.usedFree_queues : (s.usedFree).queues = s.queues := rfl
@[simp] theorem State.usedFree_units : (s.usedFree).units = s.units := rfl
@[simp] theorem State.usedFree_ddtGen : (s.usedFree).ddtGen = s.ddtGen := rfl
@[simp] theorem State.usedFree_plateMap : (s.usedFree).plateMap = s.plateMap := rfl
@[simp] theorem State.usedFree_ddrBytes : (s.usedFree).ddrBytes = s.ddrBytes := rfl
@[simp] theorem State.usedFree_chanMap : (s.usedFree).chanMap = s.chanMap := rfl
@[simp] theorem State.usedFree_prf : (s.usedFree).prf = s.prf := rfl
@[simp] theorem State.usedFree_jobs : (s.usedFree).jobs = s.jobs := rfl
@[simp] theorem State.usedFree_nextJob : (s.usedFree).nextJob = s.nextJob := rfl
@[simp] theorem State.usedFree_ht : (s.usedFree).ht = s.ht := rfl
@[simp] theorem State.usedFree_sync : (s.usedFree).sync = s.sync := rfl
@[simp] theorem State.usedFree_tasks : (s.usedFree).tasks = s.tasks := rfl
@[simp] theorem State.usedFree_chains : (s.usedFree).chains = s.chains := rfl
@[simp] theorem State.usedFree_reacts : (s.usedFree).reacts = s.reacts := rfl
@[simp] theorem State.usedFree_par : (s.usedFree).par = s.par := rfl
@[simp] theorem State.usedFree_sup : (s.usedFree).sup = s.sup := rfl
@[simp] theorem State.usedFree_mgd : (s.usedFree).mgd = s.mgd := rfl
@[simp] theorem State.usedFree_ctxs : (s.usedFree).ctxs = s.ctxs := rfl
@[simp] theorem State.usedFree_tlbs : (s.usedFree).tlbs = s.tlbs := rfl
@[simp] theorem State.usedFree_chanJob : (s.usedFree).chanJob = s.chanJob := rfl
@[simp] theorem State.usedFree_copyDone : (s.usedFree).copyDone = s.copyDone := rfl
@[simp] theorem State.usedFree_plates : (s.usedFree).plates = s.plates := rfl
@[simp] theorem State.usedFree_cores : (s.usedFree).cores = s.cores := rfl
@[simp] theorem State.usedFree_mcsr : (s.usedFree).mcsr = s.mcsr := rfl
@[simp] theorem State.usedFree_launches : (s.usedFree).launches = s.launches := rfl
@[simp] theorem State.usedFree_stp : (s.usedFree).stp = s.stp := rfl
@[simp] theorem State.usedFree_boot : (s.usedFree).boot = s.boot := rfl
@[simp] theorem State.usedFree_sec : (s.usedFree).sec = s.sec := rfl
@[simp] theorem State.usedFree_pwr : (s.usedFree).pwr = s.pwr := rfl
@[simp] theorem State.usedFree_caches : (s.usedFree).caches = s.caches := rfl
@[simp] theorem State.usedFree_tracers : (s.usedFree).tracers = s.tracers := rfl
@[simp] theorem State.usedFree_labs : (s.usedFree).labs = s.labs := rfl
@[simp] theorem State.usedFree_ring : (s.usedFree).ring = s.ring := rfl
@[simp] theorem State.usedFree_brn : (s.usedFree).brn = s.brn := rfl

@[simp] theorem State.eraseRange_pending (a n : Nat) : (s.eraseRange a n).pending = s.pending := rfl
@[simp] theorem State.eraseRange_regs (a n : Nat) : (s.eraseRange a n).regs = s.regs := rfl
@[simp] theorem State.eraseRange_free (a n : Nat) : (s.eraseRange a n).free = s.free := rfl
@[simp] theorem State.eraseRange_ticks (a n : Nat) : (s.eraseRange a n).ticks = s.ticks := rfl
@[simp] theorem State.eraseRange_emitted (a n : Nat) : (s.eraseRange a n).emitted = s.emitted := rfl
@[simp] theorem State.eraseRange_power (a n : Nat) : (s.eraseRange a n).power = s.power := rfl
@[simp] theorem State.eraseRange_part (a n : Nat) : (s.eraseRange a n).part = s.part := rfl
@[simp] theorem State.eraseRange_nv (a n : Nat) : (s.eraseRange a n).nv = s.nv := rfl
@[simp] theorem State.eraseRange_tm (a n : Nat) : (s.eraseRange a n).tm = s.tm := rfl
@[simp] theorem State.eraseRange_ing (a n : Nat) : (s.eraseRange a n).ing = s.ing := rfl
@[simp] theorem State.eraseRange_hat (a n : Nat) : (s.eraseRange a n).hat = s.hat := rfl
@[simp] theorem State.eraseRange_gold (a n : Nat) : (s.eraseRange a n).gold = s.gold := rfl
@[simp] theorem State.eraseRange_queues (a n : Nat) : (s.eraseRange a n).queues = s.queues := rfl
@[simp] theorem State.eraseRange_units (a n : Nat) : (s.eraseRange a n).units = s.units := rfl
@[simp] theorem State.eraseRange_ddtGen (a n : Nat) : (s.eraseRange a n).ddtGen = s.ddtGen := rfl
@[simp] theorem State.eraseRange_plateMap (a n : Nat) : (s.eraseRange a n).plateMap = s.plateMap := rfl
@[simp] theorem State.eraseRange_ddrBytes (a n : Nat) : (s.eraseRange a n).ddrBytes = s.ddrBytes := rfl
@[simp] theorem State.eraseRange_chanMap (a n : Nat) : (s.eraseRange a n).chanMap = s.chanMap := rfl
@[simp] theorem State.eraseRange_prf (a n : Nat) : (s.eraseRange a n).prf = s.prf := rfl
@[simp] theorem State.eraseRange_jobs (a n : Nat) : (s.eraseRange a n).jobs = s.jobs := rfl
@[simp] theorem State.eraseRange_nextJob (a n : Nat) : (s.eraseRange a n).nextJob = s.nextJob := rfl
@[simp] theorem State.eraseRange_ht (a n : Nat) : (s.eraseRange a n).ht = s.ht := rfl
@[simp] theorem State.eraseRange_sync (a n : Nat) : (s.eraseRange a n).sync = s.sync := rfl
@[simp] theorem State.eraseRange_tasks (a n : Nat) : (s.eraseRange a n).tasks = s.tasks := rfl
@[simp] theorem State.eraseRange_chains (a n : Nat) : (s.eraseRange a n).chains = s.chains := rfl
@[simp] theorem State.eraseRange_reacts (a n : Nat) : (s.eraseRange a n).reacts = s.reacts := rfl
@[simp] theorem State.eraseRange_par (a n : Nat) : (s.eraseRange a n).par = s.par := rfl
@[simp] theorem State.eraseRange_sup (a n : Nat) : (s.eraseRange a n).sup = s.sup := rfl
@[simp] theorem State.eraseRange_mgd (a n : Nat) : (s.eraseRange a n).mgd = s.mgd := rfl
@[simp] theorem State.eraseRange_ctxs (a n : Nat) : (s.eraseRange a n).ctxs = s.ctxs := rfl
@[simp] theorem State.eraseRange_tlbs (a n : Nat) : (s.eraseRange a n).tlbs = s.tlbs := rfl
@[simp] theorem State.eraseRange_chanJob (a n : Nat) : (s.eraseRange a n).chanJob = s.chanJob := rfl
@[simp] theorem State.eraseRange_copyDone (a n : Nat) : (s.eraseRange a n).copyDone = s.copyDone := rfl
@[simp] theorem State.eraseRange_plates (a n : Nat) : (s.eraseRange a n).plates = s.plates := rfl
@[simp] theorem State.eraseRange_cores (a n : Nat) : (s.eraseRange a n).cores = s.cores := rfl
@[simp] theorem State.eraseRange_mcsr (a n : Nat) : (s.eraseRange a n).mcsr = s.mcsr := rfl
@[simp] theorem State.eraseRange_launches (a n : Nat) : (s.eraseRange a n).launches = s.launches := rfl
@[simp] theorem State.eraseRange_stp (a n : Nat) : (s.eraseRange a n).stp = s.stp := rfl
@[simp] theorem State.eraseRange_boot (a n : Nat) : (s.eraseRange a n).boot = s.boot := rfl
@[simp] theorem State.eraseRange_sec (a n : Nat) : (s.eraseRange a n).sec = s.sec := rfl
@[simp] theorem State.eraseRange_pwr (a n : Nat) : (s.eraseRange a n).pwr = s.pwr := rfl
@[simp] theorem State.eraseRange_caches (a n : Nat) : (s.eraseRange a n).caches = s.caches := rfl
@[simp] theorem State.eraseRange_tracers (a n : Nat) : (s.eraseRange a n).tracers = s.tracers := rfl
@[simp] theorem State.eraseRange_labs (a n : Nat) : (s.eraseRange a n).labs = s.labs := rfl
@[simp] theorem State.eraseRange_ring (a n : Nat) : (s.eraseRange a n).ring = s.ring := rfl
@[simp] theorem State.eraseRange_brn (a n : Nat) : (s.eraseRange a n).brn = s.brn := rfl

@[simp] theorem State.store_pending (a : Nat) (l : List Byte) : (s.store a l).pending = s.pending := by unfold State.store; split <;> rfl
@[simp] theorem State.store_regs (a : Nat) (l : List Byte) : (s.store a l).regs = s.regs := by unfold State.store; split <;> rfl
@[simp] theorem State.store_free (a : Nat) (l : List Byte) : (s.store a l).free = s.free := by unfold State.store; split <;> rfl
@[simp] theorem State.store_ticks (a : Nat) (l : List Byte) : (s.store a l).ticks = s.ticks := by unfold State.store; split <;> rfl
@[simp] theorem State.store_emitted (a : Nat) (l : List Byte) : (s.store a l).emitted = s.emitted := by unfold State.store; split <;> rfl
@[simp] theorem State.store_power (a : Nat) (l : List Byte) : (s.store a l).power = s.power := by unfold State.store; split <;> rfl
@[simp] theorem State.store_part (a : Nat) (l : List Byte) : (s.store a l).part = s.part := by unfold State.store; split <;> rfl
@[simp] theorem State.store_nv (a : Nat) (l : List Byte) : (s.store a l).nv = s.nv := by unfold State.store; split <;> rfl
@[simp] theorem State.store_tm (a : Nat) (l : List Byte) : (s.store a l).tm = s.tm := by unfold State.store; split <;> rfl
@[simp] theorem State.store_ing (a : Nat) (l : List Byte) : (s.store a l).ing = s.ing := by unfold State.store; split <;> rfl
@[simp] theorem State.store_hat (a : Nat) (l : List Byte) : (s.store a l).hat = s.hat := by unfold State.store; split <;> rfl
@[simp] theorem State.store_gold (a : Nat) (l : List Byte) : (s.store a l).gold = s.gold := by unfold State.store; split <;> rfl
@[simp] theorem State.store_queues (a : Nat) (l : List Byte) : (s.store a l).queues = s.queues := by unfold State.store; split <;> rfl
@[simp] theorem State.store_units (a : Nat) (l : List Byte) : (s.store a l).units = s.units := by unfold State.store; split <;> rfl
@[simp] theorem State.store_ddtGen (a : Nat) (l : List Byte) : (s.store a l).ddtGen = s.ddtGen := by unfold State.store; split <;> rfl
@[simp] theorem State.store_plateMap (a : Nat) (l : List Byte) : (s.store a l).plateMap = s.plateMap := by unfold State.store; split <;> rfl
@[simp] theorem State.store_ddrBytes (a : Nat) (l : List Byte) : (s.store a l).ddrBytes = s.ddrBytes := by unfold State.store; split <;> rfl
@[simp] theorem State.store_chanMap (a : Nat) (l : List Byte) : (s.store a l).chanMap = s.chanMap := by unfold State.store; split <;> rfl
@[simp] theorem State.store_prf (a : Nat) (l : List Byte) : (s.store a l).prf = s.prf := by unfold State.store; split <;> rfl
@[simp] theorem State.store_jobs (a : Nat) (l : List Byte) : (s.store a l).jobs = s.jobs := by unfold State.store; split <;> rfl
@[simp] theorem State.store_nextJob (a : Nat) (l : List Byte) : (s.store a l).nextJob = s.nextJob := by unfold State.store; split <;> rfl
@[simp] theorem State.store_ht (a : Nat) (l : List Byte) : (s.store a l).ht = s.ht := by unfold State.store; split <;> rfl
@[simp] theorem State.store_sync (a : Nat) (l : List Byte) : (s.store a l).sync = s.sync := by unfold State.store; split <;> rfl
@[simp] theorem State.store_tasks (a : Nat) (l : List Byte) : (s.store a l).tasks = s.tasks := by unfold State.store; split <;> rfl
@[simp] theorem State.store_chains (a : Nat) (l : List Byte) : (s.store a l).chains = s.chains := by unfold State.store; split <;> rfl
@[simp] theorem State.store_reacts (a : Nat) (l : List Byte) : (s.store a l).reacts = s.reacts := by unfold State.store; split <;> rfl
@[simp] theorem State.store_par (a : Nat) (l : List Byte) : (s.store a l).par = s.par := by unfold State.store; split <;> rfl
@[simp] theorem State.store_sup (a : Nat) (l : List Byte) : (s.store a l).sup = s.sup := by unfold State.store; split <;> rfl
@[simp] theorem State.store_mgd (a : Nat) (l : List Byte) : (s.store a l).mgd = s.mgd := by unfold State.store; split <;> rfl
@[simp] theorem State.store_ctxs (a : Nat) (l : List Byte) : (s.store a l).ctxs = s.ctxs := by unfold State.store; split <;> rfl
@[simp] theorem State.store_tlbs (a : Nat) (l : List Byte) : (s.store a l).tlbs = s.tlbs := by unfold State.store; split <;> rfl
@[simp] theorem State.store_chanJob (a : Nat) (l : List Byte) : (s.store a l).chanJob = s.chanJob := by unfold State.store; split <;> rfl
@[simp] theorem State.store_copyDone (a : Nat) (l : List Byte) : (s.store a l).copyDone = s.copyDone := by unfold State.store; split <;> rfl
@[simp] theorem State.store_plates (a : Nat) (l : List Byte) : (s.store a l).plates = s.plates := by unfold State.store; split <;> rfl
@[simp] theorem State.store_cores (a : Nat) (l : List Byte) : (s.store a l).cores = s.cores := by unfold State.store; split <;> rfl
@[simp] theorem State.store_mcsr (a : Nat) (l : List Byte) : (s.store a l).mcsr = s.mcsr := by unfold State.store; split <;> rfl
@[simp] theorem State.store_launches (a : Nat) (l : List Byte) : (s.store a l).launches = s.launches := by unfold State.store; split <;> rfl
@[simp] theorem State.store_stp (a : Nat) (l : List Byte) : (s.store a l).stp = s.stp := by unfold State.store; split <;> rfl
@[simp] theorem State.store_boot (a : Nat) (l : List Byte) : (s.store a l).boot = s.boot := by unfold State.store; split <;> rfl
@[simp] theorem State.store_sec (a : Nat) (l : List Byte) : (s.store a l).sec = s.sec := by unfold State.store; split <;> rfl
@[simp] theorem State.store_pwr (a : Nat) (l : List Byte) : (s.store a l).pwr = s.pwr := by unfold State.store; split <;> rfl
@[simp] theorem State.store_caches (a : Nat) (l : List Byte) : (s.store a l).caches = s.caches := by unfold State.store; split <;> rfl
@[simp] theorem State.store_tracers (a : Nat) (l : List Byte) : (s.store a l).tracers = s.tracers := by unfold State.store; split <;> rfl
@[simp] theorem State.store_labs (a : Nat) (l : List Byte) : (s.store a l).labs = s.labs := by unfold State.store; split <;> rfl
@[simp] theorem State.store_ring (a : Nat) (l : List Byte) : (s.store a l).ring = s.ring := by unfold State.store; split <;> rfl
@[simp] theorem State.store_brn (a : Nat) (l : List Byte) : (s.store a l).brn = s.brn := by unfold State.store; split <;> rfl

@[simp] theorem State.setProb_pending (i : Nat) (p : BrnProb) : (s.setProb i p).pending = s.pending := by unfold State.setProb State.showProb; dsimp only; split <;> split <;> rfl
@[simp] theorem State.setProb_mem (i : Nat) (p : BrnProb) : (s.setProb i p).mem = s.mem := by unfold State.setProb State.showProb; dsimp only; split <;> split <;> rfl
@[simp] theorem State.setProb_bad (i : Nat) (p : BrnProb) : (s.setProb i p).bad = s.bad := by unfold State.setProb State.showProb; dsimp only; split <;> split <;> rfl
@[simp] theorem State.setProb_free (i : Nat) (p : BrnProb) : (s.setProb i p).free = s.free := by unfold State.setProb State.showProb; dsimp only; split <;> split <;> rfl
@[simp] theorem State.setProb_ticks (i : Nat) (p : BrnProb) : (s.setProb i p).ticks = s.ticks := by unfold State.setProb State.showProb; dsimp only; split <;> split <;> rfl
@[simp] theorem State.setProb_emitted (i : Nat) (p : BrnProb) : (s.setProb i p).emitted = s.emitted := by unfold State.setProb State.showProb; dsimp only; split <;> split <;> rfl
@[simp] theorem State.setProb_power (i : Nat) (p : BrnProb) : (s.setProb i p).power = s.power := by unfold State.setProb State.showProb; dsimp only; split <;> split <;> rfl
@[simp] theorem State.setProb_part (i : Nat) (p : BrnProb) : (s.setProb i p).part = s.part := by unfold State.setProb State.showProb; dsimp only; split <;> split <;> rfl
@[simp] theorem State.setProb_nv (i : Nat) (p : BrnProb) : (s.setProb i p).nv = s.nv := by unfold State.setProb State.showProb; dsimp only; split <;> split <;> rfl
@[simp] theorem State.setProb_tm (i : Nat) (p : BrnProb) : (s.setProb i p).tm = s.tm := by unfold State.setProb State.showProb; dsimp only; split <;> split <;> rfl
@[simp] theorem State.setProb_ing (i : Nat) (p : BrnProb) : (s.setProb i p).ing = s.ing := by unfold State.setProb State.showProb; dsimp only; split <;> split <;> rfl
@[simp] theorem State.setProb_hat (i : Nat) (p : BrnProb) : (s.setProb i p).hat = s.hat := by unfold State.setProb State.showProb; dsimp only; split <;> split <;> rfl
@[simp] theorem State.setProb_gold (i : Nat) (p : BrnProb) : (s.setProb i p).gold = s.gold := by unfold State.setProb State.showProb; dsimp only; split <;> split <;> rfl
@[simp] theorem State.setProb_queues (i : Nat) (p : BrnProb) : (s.setProb i p).queues = s.queues := by unfold State.setProb State.showProb; dsimp only; split <;> split <;> rfl
@[simp] theorem State.setProb_units (i : Nat) (p : BrnProb) : (s.setProb i p).units = s.units := by unfold State.setProb State.showProb; dsimp only; split <;> split <;> rfl
@[simp] theorem State.setProb_ddtGen (i : Nat) (p : BrnProb) : (s.setProb i p).ddtGen = s.ddtGen := by unfold State.setProb State.showProb; dsimp only; split <;> split <;> rfl
@[simp] theorem State.setProb_plateMap (i : Nat) (p : BrnProb) : (s.setProb i p).plateMap = s.plateMap := by unfold State.setProb State.showProb; dsimp only; split <;> split <;> rfl
@[simp] theorem State.setProb_ddrBytes (i : Nat) (p : BrnProb) : (s.setProb i p).ddrBytes = s.ddrBytes := by unfold State.setProb State.showProb; dsimp only; split <;> split <;> rfl
@[simp] theorem State.setProb_chanMap (i : Nat) (p : BrnProb) : (s.setProb i p).chanMap = s.chanMap := by unfold State.setProb State.showProb; dsimp only; split <;> split <;> rfl
@[simp] theorem State.setProb_prf (i : Nat) (p : BrnProb) : (s.setProb i p).prf = s.prf := by unfold State.setProb State.showProb; dsimp only; split <;> split <;> rfl
@[simp] theorem State.setProb_jobs (i : Nat) (p : BrnProb) : (s.setProb i p).jobs = s.jobs := by unfold State.setProb State.showProb; dsimp only; split <;> split <;> rfl
@[simp] theorem State.setProb_nextJob (i : Nat) (p : BrnProb) : (s.setProb i p).nextJob = s.nextJob := by unfold State.setProb State.showProb; dsimp only; split <;> split <;> rfl
@[simp] theorem State.setProb_ht (i : Nat) (p : BrnProb) : (s.setProb i p).ht = s.ht := by unfold State.setProb State.showProb; dsimp only; split <;> split <;> rfl
@[simp] theorem State.setProb_sync (i : Nat) (p : BrnProb) : (s.setProb i p).sync = s.sync := by unfold State.setProb State.showProb; dsimp only; split <;> split <;> rfl
@[simp] theorem State.setProb_tasks (i : Nat) (p : BrnProb) : (s.setProb i p).tasks = s.tasks := by unfold State.setProb State.showProb; dsimp only; split <;> split <;> rfl
@[simp] theorem State.setProb_chains (i : Nat) (p : BrnProb) : (s.setProb i p).chains = s.chains := by unfold State.setProb State.showProb; dsimp only; split <;> split <;> rfl
@[simp] theorem State.setProb_reacts (i : Nat) (p : BrnProb) : (s.setProb i p).reacts = s.reacts := by unfold State.setProb State.showProb; dsimp only; split <;> split <;> rfl
@[simp] theorem State.setProb_par (i : Nat) (p : BrnProb) : (s.setProb i p).par = s.par := by unfold State.setProb State.showProb; dsimp only; split <;> split <;> rfl
@[simp] theorem State.setProb_sup (i : Nat) (p : BrnProb) : (s.setProb i p).sup = s.sup := by unfold State.setProb State.showProb; dsimp only; split <;> split <;> rfl
@[simp] theorem State.setProb_mgd (i : Nat) (p : BrnProb) : (s.setProb i p).mgd = s.mgd := by unfold State.setProb State.showProb; dsimp only; split <;> split <;> rfl
@[simp] theorem State.setProb_ctxs (i : Nat) (p : BrnProb) : (s.setProb i p).ctxs = s.ctxs := by unfold State.setProb State.showProb; dsimp only; split <;> split <;> rfl
@[simp] theorem State.setProb_tlbs (i : Nat) (p : BrnProb) : (s.setProb i p).tlbs = s.tlbs := by unfold State.setProb State.showProb; dsimp only; split <;> split <;> rfl
@[simp] theorem State.setProb_chanJob (i : Nat) (p : BrnProb) : (s.setProb i p).chanJob = s.chanJob := by unfold State.setProb State.showProb; dsimp only; split <;> split <;> rfl
@[simp] theorem State.setProb_copyDone (i : Nat) (p : BrnProb) : (s.setProb i p).copyDone = s.copyDone := by unfold State.setProb State.showProb; dsimp only; split <;> split <;> rfl
@[simp] theorem State.setProb_plates (i : Nat) (p : BrnProb) : (s.setProb i p).plates = s.plates := by unfold State.setProb State.showProb; dsimp only; split <;> split <;> rfl
@[simp] theorem State.setProb_cores (i : Nat) (p : BrnProb) : (s.setProb i p).cores = s.cores := by unfold State.setProb State.showProb; dsimp only; split <;> split <;> rfl
@[simp] theorem State.setProb_mcsr (i : Nat) (p : BrnProb) : (s.setProb i p).mcsr = s.mcsr := by unfold State.setProb State.showProb; dsimp only; split <;> split <;> rfl
@[simp] theorem State.setProb_launches (i : Nat) (p : BrnProb) : (s.setProb i p).launches = s.launches := by unfold State.setProb State.showProb; dsimp only; split <;> split <;> rfl
@[simp] theorem State.setProb_stp (i : Nat) (p : BrnProb) : (s.setProb i p).stp = s.stp := by unfold State.setProb State.showProb; dsimp only; split <;> split <;> rfl
@[simp] theorem State.setProb_boot (i : Nat) (p : BrnProb) : (s.setProb i p).boot = s.boot := by unfold State.setProb State.showProb; dsimp only; split <;> split <;> rfl
@[simp] theorem State.setProb_sec (i : Nat) (p : BrnProb) : (s.setProb i p).sec = s.sec := by unfold State.setProb State.showProb; dsimp only; split <;> split <;> rfl
@[simp] theorem State.setProb_pwr (i : Nat) (p : BrnProb) : (s.setProb i p).pwr = s.pwr := by unfold State.setProb State.showProb; dsimp only; split <;> split <;> rfl
@[simp] theorem State.setProb_caches (i : Nat) (p : BrnProb) : (s.setProb i p).caches = s.caches := by unfold State.setProb State.showProb; dsimp only; split <;> split <;> rfl
@[simp] theorem State.setProb_tracers (i : Nat) (p : BrnProb) : (s.setProb i p).tracers = s.tracers := by unfold State.setProb State.showProb; dsimp only; split <;> split <;> rfl
@[simp] theorem State.setProb_labs (i : Nat) (p : BrnProb) : (s.setProb i p).labs = s.labs := by unfold State.setProb State.showProb; dsimp only; split <;> split <;> rfl
@[simp] theorem State.setProb_ring (i : Nat) (p : BrnProb) : (s.setProb i p).ring = s.ring := by unfold State.setProb State.showProb; dsimp only; split <;> split <;> rfl

end Sys2Proof.Machine
end

