-- ==== Sys2Proof/Laws/Memory.lean ====
section
/-! SUPPORT. Tables and memory: a read after a write, what a write leaves alone, and that every operation over memory keeps its canonical
form. -/

namespace Sys2Proof

/-! ### Tables -/

theorem Tbl.findIn_setIn_self {α : Type} (l : List (Nat × α)) (k : Nat) (v : α) : Tbl.findIn (Tbl.setIn l k v) k = some v := by
  induction l with
  | nil => simp [Tbl.setIn, Tbl.findIn]
  | cons e r ih =>
    obtain ⟨a, b⟩ := e
    unfold Tbl.setIn
    split
    · simp [Tbl.findIn]
    · split
      · simp [Tbl.findIn]
      · simp [Tbl.findIn, *]

theorem Tbl.findIn_setIn_ne {α : Type} (l : List (Nat × α)) {k i : Nat} (v : α) (h : i ≠ k) :
    Tbl.findIn (Tbl.setIn l k v) i = Tbl.findIn l i := by
  induction l with
  | nil => simp [Tbl.setIn, Tbl.findIn, h.symm]
  | cons e r ih =>
    obtain ⟨a, b⟩ := e
    unfold Tbl.setIn
    split
    · next e => subst e; simp [Tbl.findIn, h.symm]
    · split
      · simp [Tbl.findIn, h.symm]
      · simp [Tbl.findIn, ih]

theorem Tbl.findIn_filter {α : Type} (p : Nat → Bool) (l : List (Nat × α)) (i : Nat) :
    Tbl.findIn (l.filter (fun r => p r.1)) i = if p i then Tbl.findIn l i else none := by
  induction l with
  | nil => simp [Tbl.findIn]
  | cons e r ih =>
    obtain ⟨a, b⟩ := e
    by_cases hp : p a <;> by_cases hi : a = i <;> simp_all [Tbl.findIn]

@[simp] theorem Tbl.find_set_self {α : Type} (t : Tbl α) (k : Nat) (v : α) : (t.set k v).find k = some v :=
  Tbl.findIn_setIn_self ..

theorem Tbl.find_set_ne {α : Type} (t : Tbl α) {k i : Nat} (v : α) (h : i ≠ k) : (t.set k v).find i = t.find i :=
  Tbl.findIn_setIn_ne _ _ h

@[simp] theorem Tbl.get_set_self {α : Type} (t : Tbl α) (d : α) (k : Nat) (v : α) : (t.set k v).get d k = v := by simp [Tbl.get]

theorem Tbl.get_set_ne {α : Type} (t : Tbl α) (d : α) {k i : Nat} (v : α) (h : i ≠ k) : (t.set k v).get d i = t.get d i := by
  simp [Tbl.get, Tbl.find_set_ne _ _ h]

@[simp] theorem Tbl.find_erase_self {α : Type} (t : Tbl α) (k : Nat) : (t.erase k).find k = none := by
  simp [Tbl.erase, Tbl.find, Tbl.findIn_filter (fun a => a != k)]

theorem Tbl.find_erase_ne {α : Type} (t : Tbl α) {k i : Nat} (h : i ≠ k) : (t.erase k).find i = t.find i := by
  simp [Tbl.erase, Tbl.find, Tbl.findIn_filter (fun a => a != k), h]

end Sys2Proof

namespace Sys2Proof.Machine

/-! ### Register fields -/

@[simp] theorem State.rd_wr_self (s : State) (f : RegField) (v i : Nat) : (s.wr f v i).rd f i = v % 2 ^ f.width := by
  simp [State.rd, State.wr]

theorem State.rd_wr_ne (s : State) {f g : RegField} (v : Nat) {i j : Nat} (h : regKey g j ≠ regKey f i) :
    (s.wr f v i).rd g j = s.rd g j := by
  simp [State.rd, State.wr, Tbl.find_set_ne _ _ h]

/-! ### Memory: reads and writes -/

@[simp] theorem memGet_memSet_self (m : List Host.Cell) (a : Nat) (v : Byte) : memGet (memSet m a v) a = v := by
  unfold memSet memGet
  split
  · next h => simp [Tbl.findIn_filter (fun k => k != a), h]
  · simp [Tbl.findIn_setIn_self]

theorem memGet_memSet_ne (m : List Host.Cell) {a b : Nat} (v : Byte) (h : b ≠ a) : memGet (memSet m a v) b = memGet m b := by
  unfold memSet memGet
  split
  · simp [Tbl.findIn_filter (fun k => k != a), h]
  · simp [Tbl.findIn_setIn_ne _ _ h]

/-- A write of several bytes leaves every byte outside them alone. -/
theorem memGet_memWrite_out (l : List Byte) (m : List Host.Cell) (a b : Nat) (h : b < a ∨ a + l.length ≤ b) :
    memGet (memWrite m a l) b = memGet m b := by
  induction l generalizing m a with
  | nil => rfl
  | cons x r ih =>
    rw [memWrite, ih _ _ (by simp at h; omega), memGet_memSet_ne _ _ (by simp at h; omega)]

/-- A byte written is read. -/
theorem memGet_memWrite_in (l : List Byte) (m : List Host.Cell) (a i : Nat) (h : i < l.length) :
    memGet (memWrite m a l) (a + i) = l[i] := by
  induction l generalizing m a i with
  | nil => simp at h
  | cons x r ih =>
    rw [memWrite]
    cases i with
    | zero => rw [memGet_memWrite_out _ _ _ _ (by omega)]; simp
    | succ n => rw [show a + (n + 1) = a + 1 + n by omega, ih _ _ _ (by simpa using h)]; simp

@[simp] theorem memRead_length (m : List Host.Cell) (a n : Nat) : (memRead m a n).length = n := by
  induction n generalizing a <;> simp_all [memRead]

/-- Byte `i` of a read is the byte at its address. -/
theorem memRead_getElem (m : List Host.Cell) (a n i : Nat) (h : i < (memRead m a n).length) : (memRead m a n)[i] = memGet m (a + i) := by
  induction n generalizing a i with
  | zero => simp [memRead] at h
  | succ n ih =>
    cases i with
    | zero => rfl
    | succ i => simp only [memRead, List.getElem_cons_succ]; rw [ih]; congr 1; omega

/-- What is written is what is read. -/
theorem memRead_memWrite_self (m : List Host.Cell) (a : Nat) (l : List Byte) : memRead (memWrite m a l) a l.length = l := by
  refine List.ext_getElem (by simp) (fun i h₁ h₂ => ?_)
  rw [memRead_getElem, memGet_memWrite_in _ _ _ _ h₂]

/-- A store changes no byte outside its range. -/
theorem State.byte_store_out (s : State) (a b : Nat) (l : List Byte) (h : b < a ∨ a + l.length ≤ b) : (s.store a l).byte b = s.byte b := by
  unfold State.store State.byte
  split
  · rfl
  · exact memGet_memWrite_out l s.mem a b h

/-- A store is read back. -/
theorem State.bytes_store_self (s : State) (a : Nat) (l : List Byte) : (s.store a l).bytes a l.length = l := by
  unfold State.store State.bytes
  split
  · next h => simp [List.isEmpty_iff.mp h, memRead]
  · exact memRead_memWrite_self ..

/-- Erased bytes read as bytes that nothing has written, and the others as before. -/
theorem State.byte_eraseRange (s : State) (a n b : Nat) :
    (s.eraseRange a n).byte b = if a ≤ b ∧ b < a + n then memDefault b else s.byte b := by
  unfold State.eraseRange State.byte memGet
  have := Tbl.findIn_filter (fun k => !(decide (a ≤ k) && decide (k < a + n))) s.mem b
  by_cases h : a ≤ b ∧ b < a + n
  · simp_all
  · have g : b < a ∨ a + n ≤ b := by omega
    simp_all

/-! ### The canonical form -/

theorem risingFrom_mono {lo lo' : Nat} (h : lo' ≤ lo) {m : List Host.Cell} (r : risingFrom lo m = true) : risingFrom lo' m = true := by
  cases m with
  | nil => rfl
  | cons c m => simp_all [risingFrom]; omega

theorem risingFrom_setIn (m : List Host.Cell) (lo a : Nat) (v : Byte) (h : risingFrom lo m = true) (ha : lo ≤ a) :
    risingFrom lo (Tbl.setIn m a v) = true := by
  induction m generalizing lo with
  | nil => simp [Tbl.setIn, risingFrom, ha]
  | cons c r ih =>
    obtain ⟨k, w⟩ := c
    simp only [risingFrom, Bool.and_eq_true, decide_eq_true_eq] at h
    unfold Tbl.setIn
    split
    · next e => subst e; simpa [risingFrom, ha] using h.2
    · split
      · simp only [risingFrom, Bool.and_eq_true, decide_eq_true_eq]; exact ⟨ha, by omega, h.2⟩
      · simp only [risingFrom, Bool.and_eq_true, decide_eq_true_eq]; exact ⟨h.1, ih _ h.2 (by omega)⟩

theorem risingFrom_filter (m : List Host.Cell) (lo : Nat) (p : Host.Cell → Bool) (h : risingFrom lo m = true) :
    risingFrom lo (m.filter p) = true := by
  induction m generalizing lo with
  | nil => rfl
  | cons c r ih =>
    simp only [risingFrom, Bool.and_eq_true, decide_eq_true_eq] at h
    simp only [List.filter_cons]
    split
    · simpa [risingFrom, h.1] using ih _ h.2
    · exact risingFrom_mono (by omega) (ih _ h.2)

theorem mem_setIn {m : List Host.Cell} {a : Nat} {v : Byte} {c : Host.Cell} (h : c ∈ Tbl.setIn m a v) : c ∈ m ∨ c = (a, v) := by
  induction m with
  | nil => simp_all [Tbl.setIn]
  | cons e r ih =>
    obtain ⟨k, w⟩ := e
    unfold Tbl.setIn at h
    split at h
    · simp at h; tauto
    · split at h
      · simp at h ⊢; tauto
      · simp at h ⊢; rcases h with h | h
        · tauto
        · rcases ih h with h | h <;> tauto

theorem Memory.wf_filter {m : List Host.Cell} (p : Host.Cell → Bool) (h : Memory.wf m = true) : Memory.wf (m.filter p) = true := by
  simp only [Memory.wf, Bool.and_eq_true, List.all_eq_true] at h ⊢
  exact ⟨risingFrom_filter _ _ _ h.1, fun c hc => h.2 c (List.mem_filter.mp hc).1⟩

theorem Memory.wf_memSet {m : List Host.Cell} (a : Nat) (v : Byte) (h : Memory.wf m = true) : Memory.wf (memSet m a v) = true := by
  unfold memSet
  split
  · exact Memory.wf_filter _ h
  · next hv =>
    simp only [Memory.wf, Bool.and_eq_true, List.all_eq_true] at h ⊢
    refine ⟨risingFrom_setIn _ _ _ _ h.1 (Nat.zero_le _), fun c hc => ?_⟩
    rcases mem_setIn hc with hc | rfl
    · exact h.2 c hc
    · simpa using hv

theorem Memory.wf_memWrite {m : List Host.Cell} (a : Nat) (l : List Byte) (h : Memory.wf m = true) : Memory.wf (memWrite m a l) = true := by
  induction l generalizing m a with
  | nil => exact h
  | cons x r ih => exact ih _ (Memory.wf_memSet _ _ h)

/-- Every store keeps memory in its canonical form. -/
theorem State.wf_store (s : State) (a : Nat) (l : List Byte) (h : Memory.wf s.mem = true) : Memory.wf (s.store a l).mem = true := by
  unfold State.store
  split
  · exact h
  · exact Memory.wf_memWrite _ _ h

/-- A store with failing codes keeps it too. -/
theorem State.wf_storeBad (s : State) (a : Nat) (l : List Byte) (h : Memory.wf s.mem = true) : Memory.wf (s.storeBad a l).mem = true := by
  unfold State.storeBad
  split
  · exact h
  · exact State.wf_store s a l h

/-- So does an erasure. -/
theorem State.wf_eraseRange (s : State) (a n : Nat) (h : Memory.wf s.mem = true) : Memory.wf (s.eraseRange a n).mem = true :=
  Memory.wf_filter _ h

end Sys2Proof.Machine
end

