-- ==== Sys2Proof/Laws/Ops.lean ====
section
/-! SUPPORT. What each shared operation can change: the state after it is the state before it but for the fields named. -/

namespace Sys2Proof.Machine

variable (s : State)

/-! ### Registers, queues, events -/

theorem State.bump_shape (f : RegField) (i n : Nat) : ∃ r, s.bump f i n = { s with regs := r } := ⟨_, rfl⟩

theorem State.showQueue_shape (q : Nat) : ∃ r, s.showQueue q = { s with regs := r } := ⟨_, rfl⟩

theorem State.closePacket_shape (q : Nat) (l : List QItem) : ∃ r x, s.closePacket q l = { s with regs := r, queues := x } := ⟨_, _, rfl⟩

/-- A detection that joins or opens a gathered record changes the gathered records only. -/
theorem State.gather_shape (u op cls : Nat) (d : List (Nat × Nat)) : ∃ p, s.gather u op cls d = { s with prf := p } := by
  unfold State.gather; split <;> exact ⟨_, rfl⟩

/-- Queue pointers that differ cost the queue its contents and one detection; pointers that agree cost nothing. -/
theorem State.access_shape (q : Nat) : ∃ r x p, s.access q = { s with regs := r, queues := x, prf := p } := by
  unfold State.access
  split
  · obtain ⟨p, e⟩ := State.gather_shape (((s.setQueue q _).showQueue q).bump Reg.SPQ_EVENTS_RESETS q) (unitId 0x15 q) 4 0 [(1, q)]
    exact ⟨_, _, p, e⟩
  · exact ⟨_, _, _, rfl⟩

/-- What a producer may change: the queues, what shows them, and a detection that the copies of a pointer differ. -/
theorem State.enqueue_shape (q : Nat) (h : LenHead) (l : List Byte) :
    ∃ r x p, (s.enqueue q h l).1 = { s with regs := r, queues := x, prf := p } := by
  obtain ⟨r, x, p, e⟩ := State.access_shape s q
  unfold State.enqueue
  split
  · exact ⟨_, _, _, rfl⟩
  · dsimp only
    rw [e]
    (repeat' split) <;> exact ⟨_, _, _, rfl⟩

/-- An item that the module itself makes takes a place in the order of its producer. -/
theorem State.enqueueOwn_shape (q : Nat) (l : List Byte) :
    ∃ r x p h, (s.enqueueOwn q l).1 = { s with regs := r, queues := x, prf := p, ht := h } := by
  have one (t : State) (ht : ∃ r x p, t = { s with regs := r, queues := x, prf := p }) (h : LenHead) (w : State × Bool)
      (hw : t.enqueue q h l = w) : ∃ r x p, w.1 = { s with regs := r, queues := x, prf := p } := by
    obtain ⟨r, x, p, e⟩ := State.enqueue_shape t q h l
    obtain ⟨_, _, _, rfl⟩ := ht
    exact ⟨r, x, p, hw ▸ e⟩
  unfold State.enqueueOwn
  dsimp only
  generalize hw : State.enqueue _ q _ l = w
  obtain ⟨r, x, p, e⟩ := one _ (State.access_shape s q) _ w hw
  rw [e]
  split
  · exact ⟨r, _, p, _, rfl⟩
  · exact ⟨r, x, p, s.ht, rfl⟩

/-- An event changes the event queue, what shows it, and the event counters; nothing else. -/
theorem State.raise_shape (c u : Nat) (d : List Byte) :
    ∃ r x p h, s.raise c u d = { s with regs := r, queues := x, prf := p, ht := h } := by
  unfold State.raise
  dsimp only
  generalize hw : State.enqueueOwn s 0x30 _ = w
  obtain ⟨r, x, p, h, e⟩ := State.enqueueOwn_shape s 0x30 (le 2 c ++ le 1 s.ht.eventLost.toNat ++ le 1 0 ++ le 4 u ++ le 8 s.dt64 ++
    le 4 (s.ht.eventNo + 1) ++ le 4 0 ++ padTo 40 d)
  rw [hw] at e
  rw [e]
  exact ⟨_, _, _, _, rfl⟩

theorem State.tellSupply_shape (k : Nat) : ∃ r x p h, s.tellSupply k = { s with regs := r, queues := x, prf := p, ht := h } := by
  unfold State.tellSupply
  split
  · exact State.raise_shape ..
  · exact ⟨_, _, _, _, rfl⟩

/-! ### Readiness and history -/

/-- An entry of the readiness table is memory. -/
theorem State.store_shape (a : Nat) (l : List Byte) : ∃ m b, s.store a l = { s with mem := m, bad := b } := by
  unfold State.store; split <;> exact ⟨_, _, rfl⟩

theorem State.setFn_shape (f st r : Nat) :
    ∃ m b g x p h, s.setFn f st r = { s with mem := m, bad := b, regs := g, queues := x, prf := p, ht := h } := by
  obtain ⟨m, b, e⟩ := State.store_shape s (fnAddr f) (le 2 f ++ le 1 st ++ le 1 r ++ le 4 0 ++ le 8 s.dt64)
  unfold State.setFn State.setFnQuiet
  split
  · exact ⟨_, _, _, _, _, _, rfl⟩
  · dsimp only
    rw [e]
    (repeat' split)
    · obtain ⟨g, x, p, h, e⟩ := State.raise_shape { s with mem := m, bad := b } 0x0102
        (State.fnUnit { s with mem := m, bad := b } f) (le 2 f)
      exact ⟨_, _, _, _, _, _, e⟩
    · obtain ⟨g, x, p, h, e⟩ := State.raise_shape { s with mem := m, bad := b } 0x0B01
        (State.fnUnit { s with mem := m, bad := b } f) (le 2 f ++ le 1 r)
      exact ⟨_, _, _, _, _, _, e⟩
    · exact ⟨_, _, _, _, _, _, rfl⟩

theorem State.wf_setFn (f st r : Nat) (h : Memory.wf s.mem = true) : Memory.wf (s.setFn f st r).mem = true := by
  have g : Memory.wf (s.setFnQuiet f st r).mem = true := State.wf_store _ _ _ h
  unfold State.setFn
  split
  · exact h
  · dsimp only
    (repeat' split)
    · obtain ⟨_, _, _, _, e⟩ := State.raise_shape (s.setFnQuiet f st r) 0x0102 ((s.setFnQuiet f st r).fnUnit f) (le 2 f)
      rw [e]; exact g
    · obtain ⟨_, _, _, _, e⟩ := State.raise_shape (s.setFnQuiet f st r) 0x0B01 ((s.setFnQuiet f st r).fnUnit f) (le 2 f ++ le 1 r)
      rw [e]; exact g
    · exact g

theorem State.setHistory_shape (u : Nat) (h : History) : ∃ n, s.setHistory u h = { s with nv := n } := by
  unfold State.setHistory; split <;> exact ⟨_, rfl⟩

/-- An error record changes the history, the record stores, the free-value counter and the record queue. -/
theorem State.record_shape (u op t cls n : Nat) (d : List (Nat × Nat)) :
    ∃ r x p h v k, s.record u op t cls n d = { s with regs := r, queues := x, prf := p, ht := h, nv := v, free := k } := by
  have h1 : ∃ v, (if (s.nv.history.find u).isSome then s.setHistory u { s.history u with lastOp := op, record := (s.nv.recordNo + 1) % 2 ^ 32 }
      else s) = { s with nv := v } := by
    split
    · exact State.setHistory_shape ..
    · exact ⟨_, rfl⟩
  obtain ⟨v, e⟩ := h1
  unfold State.record; dsimp only
  rw [e]
  obtain ⟨r, x, p, h, e2⟩ := State.enqueueOwn_shape { s with
      nv := { v with recordNo := s.nv.recordNo + 1, errors := _ }, free := s.free + 1 } 0x31 _
  rw [e2]
  exact ⟨_, _, p, h, _, _, rfl⟩

/-! ### Jobs -/

theorem State.writeRecord_shape (q : Nat) (l : List Byte) : ∃ r h, s.writeRecord q l = { s with regs := r, ht := h } := ⟨_, _, rfl⟩

theorem State.chargeJob_shape (j : Job) : ∃ t, s.chargeJob j = { s with tasks := t } := by
  unfold State.chargeJob; split <;> exact ⟨_, rfl⟩

theorem State.dropJob_shape (j : Job) : ∃ r l, s.dropJob j = { s with regs := r, jobs := l } := ⟨_, _, rfl⟩

/-- A completion ends the job, writes its record and frees its place in the submission ring; it signals nothing. -/
theorem State.finishQuiet_shape (j : Job) (st r d : Nat) :
    ∃ g l h t, s.finishQuiet j st r d = { s with regs := g, jobs := l, ht := h, tasks := t } := by
  obtain ⟨t, e⟩ := State.chargeJob_shape s j
  unfold State.finishQuiet; dsimp only; rw [e]; (repeat' split) <;> exact ⟨_, _, _, _, rfl⟩

theorem State.refuse_shape (j : Job) (r : Refuse) : ∃ g l h t, s.refuse j r = { s with regs := g, jobs := l, ht := h, tasks := t } :=
  State.finishQuiet_shape ..

theorem State.startedOp_eq_some {id opcode op : Nat} {j : Job} :
    s.startedOp id opcode op = some j ↔ s.job id = some j ∧ j.phase = .started ∧ j.opcode = opcode ∧ j.arg 32 1 = op := by
  unfold State.startedOp
  split
  · next k h =>
    split
    · next g => simp only [h, Option.some.injEq]; exact ⟨fun e => e ▸ ⟨rfl, g⟩, fun e => e.1⟩
    · next g => simp only [h, Option.some.injEq, reduceCtorEq, false_iff]; rintro ⟨rfl, e⟩; exact g e
  · next h => simp [h]

theorem State.startedJob_eq_some {id opcode : Nat} {j : Job} :
    s.startedJob id opcode = some j ↔ s.job id = some j ∧ j.phase = .started ∧ j.opcode = opcode := by
  unfold State.startedJob
  split
  · next k h =>
    split
    · next g => simp only [h, Option.some.injEq]; exact ⟨fun e => e ▸ ⟨rfl, g⟩, fun e => e.1⟩
    · next g => simp only [h, Option.some.injEq, reduceCtorEq, false_iff]; rintro ⟨rfl, e⟩; exact g e
  · next h => simp [h]

@[simp] theorem State.runOr_none (j : Job) (f : State → State) : s.runOr j none f = f s := rfl
@[simp] theorem State.runOr_some (j : Job) (r : Refuse) (f : State → State) : s.runOr j (some r) f = s.refuse j r := rfl
@[simp] theorem refuseIf_false (r : Option Refuse) : refuseIf false r = none := rfl
@[simp] theorem refuseIf_true (r : Option Refuse) : refuseIf true r = r := rfl

/-! ### DMA channels: only the channel records -/

theorem State.wr_shape {s t : State} (f : RegField) (v i : Nat) (h : ∃ r, t = { s with regs := r }) :
    ∃ r, t.wr f v i = { s with regs := r } := by
  obtain ⟨_, rfl⟩ := h
  exact ⟨_, rfl⟩

theorem State.chanClear_shape (c : Nat) : ∃ r, s.chanClear c = { s with regs := r } := by
  unfold State.chanClear
  iterate 10 apply State.wr_shape
  exact ⟨_, rfl⟩

theorem State.chanStart_shape (c ctx p b t : Nat) (ph : Bool) : ∃ r, s.chanStart c ctx p b t ph = { s with regs := r } := by
  unfold State.chanStart
  iterate 8 apply State.wr_shape
  exact ⟨_, rfl⟩

/-! ### The safe-state lines -/

/-- The lines shown follow the sources; a change of a line raises its event. -/
theorem State.showLines_shape (n : Nat) : ∃ r x p h, s.showLines n = { s with regs := r, queues := x, prf := p, ht := h } := by
  have one (t : State) (u : Nat) (a : List Byte) (ht : ∃ r x p h, t = { s with regs := r, queues := x, prf := p, ht := h }) :
      ∃ r x p h, t.raise 0x0A01 u a = { s with regs := r, queues := x, prf := p, ht := h } := by
    obtain ⟨_, _, _, _, e⟩ := State.raise_shape t 0x0A01 u a
    obtain ⟨_, _, _, _, rfl⟩ := ht
    exact ⟨_, _, _, _, e⟩
  have two : ∃ w r c d u a b, w = { s with regs := r } ∧ s.showLines n = (if d = true then
      State.raise (if c = true then w.raise 0x0A01 u a else w) 0x0A01 u b else if c = true then w.raise 0x0A01 u a else w) := by
    unfold State.showLines
    exact ⟨_, _, _, _, _, _, _, rfl, rfl⟩
  obtain ⟨w, r, c, d, u, a, b, hw, e⟩ := two
  have h0 : ∃ r x p h, w = { s with regs := r, queues := x, prf := p, ht := h } := ⟨_, _, _, _, hw⟩
  rw [e]
  have h1 : ∃ r x p h, (if c = true then w.raise 0x0A01 u a else w) = { s with regs := r, queues := x, prf := p, ht := h } := by
    split
    · exact one _ _ _ h0
    · exact h0
  split
  · exact one _ _ _ h1
  · exact h1

theorem State.requestLines_shape (n l : Nat) (b : Bool) :
    ∃ r x p h u, s.requestLines n l b = { s with regs := r, queues := x, prf := p, ht := h, sup := u } := by
  obtain ⟨_, _, _, _, e⟩ := State.showLines_shape (s.setSource n ⟨(s.source n).lines ||| l, b || (s.source n).cause, s.ticks⟩) n
  exact ⟨_, _, _, _, _, e⟩

theorem State.releaseSource_shape (n : Nat) : ∃ r x p h u, s.releaseSource n = { s with regs := r, queues := x, prf := p, ht := h, sup := u } := by
  obtain ⟨_, _, _, _, e⟩ := State.showLines_shape (s.setSource n { s.source n with lines := 0 }) n
  exact ⟨_, _, _, _, _, e⟩

theorem State.clearCause_shape (n : Nat) : ∃ r x p h u, s.clearCause n = { s with regs := r, queues := x, prf := p, ht := h, sup := u } := by
  unfold State.clearCause; dsimp only
  (repeat' split)
  · obtain ⟨_, _, _, _, _, e⟩ := State.releaseSource_shape (s.setSource n { s.source n with cause := false, clearedAt := s.ticks }) n
    exact ⟨_, _, _, _, _, e⟩
  · obtain ⟨_, _, _, _, e⟩ := State.showLines_shape (s.setSource n { s.source n with cause := false, clearedAt := s.ticks }) n
    exact ⟨_, _, _, _, _, e⟩
  · exact ⟨_, _, _, _, _, rfl⟩

end Sys2Proof.Machine
end

