-- ==== Sys2Proof/WellFormed.lean ====
section
/-! DEFINITION. Well-formed commands: what the spec's formats say of the data that a command carries, beyond its type. -/

namespace Sys2Proof

/-- A host frame's data field holds a transport header of 32 bytes and at most 9000 bytes (Tables HST-1, HST-2). -/
def HostFrame.wf (f : HostFrame) : Bool := decide (32 ≤ f.bytes.length ∧ f.bytes.length ≤ 9000)

/-- An Ethernet frame holds its header (addresses and EtherType). -/
def EthFrame.wf (f : EthFrame) : Bool := decide (14 ≤ f.bytes.length) && (match f.cutAt with | some n => decide (n ≤ f.bytes.length) | none => true)

/-- A CAN frame carries at most 8 bytes, a CAN FD frame at most 64; a base identifier has 11 bits. -/
def CanFrame.wf (f : CanFrame) : Bool :=
  decide (f.bytes.length ≤ if f.fdf then 64 else 8) && (f.ide || decide (f.ident.toNat < 2048))

/-- A CSI-2 long packet's payload has at most 65,535 bytes, a short packet's header is 4 bytes (data types 0x00 to 0x0F). -/
def Csi2Packet.wf (p : Csi2Packet) : Bool :=
  decide (p.payload.length < 65536) && (decide (16 ≤ p.dataType.toNat) || p.payload.length == 4) &&
  (match p.cutAt with | some n => decide (n ≤ p.payload.length) | none => true)

/-- A ring flit has 144 bytes (Table RNG-1). -/
def Flit.wf (f : Flit) : Bool := f.bytes.length == 144

/-- A submission descriptor has 64 bytes (Table HST-8). -/
def descWf (d : List Byte) : Bool := d.length == 64

/-- A command is well formed. -/
def Instr.wf : Instr → Bool
  | .csi2PacketRx _ p => p.wf
  | .ethFrameRx _ f => f.wf
  | .canFrameRx _ f => f.wf
  | .plateLaunch _ d => descWf d
  | .hello _ f => f.wf
  | .heartbeat _ f => f.wf
  | .regRead _ r => r.frame.wf
  | .regWrite _ f => f.wf
  | .doorbell _ f => f.wf
  | .bulkPush _ f _ => f.wf
  | .bulkPull _ f _ => f.wf
  | .bulkCredit _ f => f.wf
  | .hostFrameDiscarded _ _ => true
  | .flitRx _ f => f.wf
  | .servoUpdate m => decide (0 < m.oDen ∧ 0 < m.rDen)
  | .evidencePlaneWrite _ o d => decide (o + d.length ≤ 4194304)
  | _ => true

end Sys2Proof
end

