-- ==== Sys2Proof/Tests/Slice0.lean ====
section
/-! SUPPORT. Tests of the model, and a state and operands that meet the hypotheses of each statement. -/

namespace Sys2Proof.Tests

open Sys2Proof Sys2Proof.Machine

set_option Elab.async false

/-! Parts of a conjunction that one evaluation decides. -/

theorem and2 {a b r : Prop} (z : a ∧ b) (x : r) : a ∧ b ∧ r := and_assoc.1 ⟨z, x⟩
theorem and3 {a b c r : Prop} (z : a ∧ b ∧ c) (x : r) : a ∧ b ∧ c ∧ r := ⟨z.1, and2 z.2 x⟩
theorem and4 {a b c d r : Prop} (z : a ∧ b ∧ c ∧ d) (x : r) : a ∧ b ∧ c ∧ d ∧ r := ⟨z.1, and3 z.2 x⟩
theorem and5 {a b c d e r : Prop} (z : a ∧ b ∧ c ∧ d ∧ e) (x : r) : a ∧ b ∧ c ∧ d ∧ e ∧ r := ⟨z.1, and4 z.2 x⟩
theorem and6 {a b c d e f r : Prop} (z : a ∧ b ∧ c ∧ d ∧ e ∧ f) (x : r) : a ∧ b ∧ c ∧ d ∧ e ∧ f ∧ r := ⟨z.1, and5 z.2 x⟩
theorem and7 {a b c d e f g r : Prop} (z : a ∧ b ∧ c ∧ d ∧ e ∧ f ∧ g) (x : r) : a ∧ b ∧ c ∧ d ∧ e ∧ f ∧ g ∧ r := ⟨z.1, and6 z.2 x⟩
theorem and8 {a b c d e f g h r : Prop} (z : a ∧ b ∧ c ∧ d ∧ e ∧ f ∧ g ∧ h) (x : r) : a ∧ b ∧ c ∧ d ∧ e ∧ f ∧ g ∧ h ∧ r := ⟨z.1, and7 z.2 x⟩
theorem and9 {a b c d e f g h i r : Prop} (z : a ∧ b ∧ c ∧ d ∧ e ∧ f ∧ g ∧ h ∧ i) (x : r) : a ∧ b ∧ c ∧ d ∧ e ∧ f ∧ g ∧ h ∧ i ∧ r := ⟨z.1, and8 z.2 x⟩

theorem pair_snd {α β : Type} {x : α × β} {b : β} (h : x.2 = b) : x = (x.1, b) := by subst h; rfl
theorem some_get {α : Type} {x : Option α} (h : x.isSome = true) : x = some (x.get h) := by simp

theorem some_pair {α β : Type} {x : Option (α × β)} (h : x.isSome = true) : x = some ((x.get h).1, (x.get h).2) := by simp
theorem some_triple {α β γ : Type} {x : Option (α × β × γ)} (h : x.isSome = true) :
    x = some ((x.get h).1, (x.get h).2.1, (x.get h).2.2) := by simp
theorem some_mid {α β γ : Type} {x : Option (α × β × γ)} {b : β} (h : x.isSome = true) (e : (x.get h).2.1 = b) :
    x = some ((x.get h).1, b, (x.get h).2.2) := by subst e; simp
theorem pair_eta {α β : Type} {x : α × β} : x = (x.1, x.2) := rfl

/-- The module with its start over and every power domain on. -/
def on : State := { State.reset with power := .up, pwr := { State.reset.pwr with domains := 2 ^ 43 - 1 } }

/-- At 2 ns of device time, RUN set, the first ruling entry of a kind, due at 1 ns (R52, Table TIM-3). -/
def ruling (kind : Nat) : State :=
  ((({ on with tm := { on.tm with dt96 := 2 * 2 ^ 32, epochStart := some 0 } } : State).wr Reg.RUL_CTRL_RUN 1).store (rulAddr 0 0)
    (le 2 (kind * 4096) ++ le 2 0 ++ le 4 1000000 ++ le 4 1 ++ le 4 4 ++ le 2 1 ++ zeros 14))

/-- A sensor of a kind at port 0, READY, entry 0 (Table ING-2). -/
def sensing (kind port flags quota : Nat) : State :=
  (on.store (sensAddr 0 0) (le 1 kind ++ le 1 port ++ le 1 0 ++ le 1 flags ++ le 4 0 ++ le 4 quota ++ zeros 52)).wr Reg.ING_SENS_STATE 3 0

def camPkt (type : Nat) : Csi2Packet := ⟨0, BitVec.ofNat 6 type, false, false, [1, 0, 0, 0], none⟩
def ethPkt : EthFrame := ⟨zeros 60, false, none⟩
def canPkt : CanFrame := ⟨0, false, false, false, false, [7], false⟩

/-- A spill queue with these items. -/
def queued (q : Nat) (l : List QItem) : State := on.setQueue q { Queue.reset with items := l }

/-- An epoch of Hatch in a stage. -/
def epoch (g : HStage) : HEpoch :=
  { no := 1, start := 0, lenNs := 10000000, bank := 0, rulBank := 0, sensBank := 0, frames := [], stage := g, closeNs := 0, closeTick := 0,
    stepped := false, watchdog := false, noGrid := false, uncal := false, egoDegraded := false, egoLost := false, pointDrops := false,
    sweeps := [], shadow := [], pointsIn := 0, dropped := 0, poses := [], points := [], shadowPoints := [], fusedCount := 0, planes := [], shadowPlanes := [],
    grid := [], disputed := 0, occupied := 0 }

def atStage (g : HStage) : State := { on with hat := { on.hat with epochs := [epoch g] } }

/-- A descriptor: opcode, op, and further bytes at their offsets (Table HST-8). -/
def descOf (opcode op : Nat) (l : List (Nat × List Byte)) : List Byte :=
  l.foldl (fun d e => putAt d e.1 e.2) (putAt (putAt (putAt (zeros 64) 0 (le 2 opcode)) 16 (le 4 0xFFFFFFFF)) 32 (le 1 op))

/-- Job 1 in a phase, with its descriptor and the bytes it keeps. -/
def jobOf (ph : Phase) (opcode op : Nat) (l : List (Nat × List Byte)) (param : List Byte := []) : Job :=
  { id := 1, ring := 0, desc := descOf opcode op l, param := param, phase := ph, atTick := 0, atNs := 0, startTick := 0, runTicks := 0,
    charge := none, flags := 0, outAt := none, taint := [], freed := false, taintWait := false }

/-- The module with job 1. -/
def withJob (j : Job) (s : State := on) : State := { s with jobs := [j], nextJob := 2 }

theorem exc_ok {α β ε : Type} {x : α × Except ε β} (h : x.2.toBool = true) : ∃ o, x = (x.1, .ok o) := by
  obtain ⟨a, e⟩ := x
  cases e with
  | error _ => exact absurd h Bool.false_ne_true
  | ok o => exact ⟨o, rfl⟩
theorem triple_snd {α β γ : Type} {x : α × β × γ} {c : γ} (h : x.2.2 = c) : x = (x.1, x.2.1, c) := by subst h; rfl

/-- DDR4 present and released, context 0 open: its virtual page 0 is the 2 MiB page at 0x1_0020_0000, whose first bytes are `l`. -/
def mapped (l : List Byte := []) : State :=
  let s := { on with chanMap := 0xFF, plateMap := 2 ^ 34 - 1, ctxs := on.ctxs.set 0 ⟨0x100000000, 0, 0, 0⟩ }
  ((((s.wr Reg.MEM_RELEASE_BOOT 1).wr Reg.MEM_RELEASE_REGION 0xFFFF).store (gaddr spDdr 0x100000000) (le 8 0x100020001)).store
    (gaddr spDdr 0x100020000) (le 8 0x10020001F)).store (gaddr spDdr 0x100200000) l

/-- A Stipple job running, with its block. -/
def stpJob (op : Nat) (p : List Byte) : Job := jobOf .running 0x11 op [] p
def stippling (op : Nat) (p l : List Byte) : State := { withJob (stpJob op p) (mapped l) with stp := { StpSt.reset with run := some 1 } }

/-- Launch 1 on plates, and its job. -/
def launch (ps : List Nat) : Launch := ⟨1, ps, 1, 0, none, none, .empty⟩
def launchJob (ph : Phase) : Job := jobOf ph 0x10 0 [(52, le 4 1), (56, [1])] [1]
def plateRun : PlateSt := { PlateSt.reset with run := some 1 }
def coreRun : CoreSt := { CoreSt.reset with running := true }

/-- Plate 33 runs launch 1, with core 63 running. -/
def running (k : CoreSt := coreRun) (x : PlateSt := plateRun) (l : Launch := launch [33]) : State :=
  ((({ withJob (launchJob .running) mapped with
      launches := mapped.launches.set 1 l, plates := mapped.plates.set 33 x, cores := mapped.cores.set (coreKey 33 63) k } : State).wr
    Reg.PLT_STAT_STATE 2 33).wr Reg.PLT_SHARE_LM_LIMIT 0x6000 33).wr Reg.PLT_SHARE_ABUF_LIMIT 0x280000 33

/-- An array command of an operation and a number of rows. -/
def burin (op rows : Nat) : Queued := ⟨putAt (putAt (zeros 32) 0 (le 1 op)) 3 (le 1 rows), 63⟩
def arrays (q : Queued) : State := running coreRun { plateRun with arr := { ArrSt.reset with queue := [q] } }
/-- Core 63 with x10 at its own local memory, x11 as given, and an FP32 vector state of 16 elements. -/
def coreAt (x11 : Nat := 0) : CoreSt :=
  { coreRun with x := ⟨[(10, 2 ^ 30 + 63 * 2 ^ 24), (11, x11)]⟩, csr := ⟨[(0xC20, 16), (0xC21, 16)]⟩ }
/-- A DMA descriptor of `rows` rows of `n` bytes. -/
def dmaDesc (rows n : Nat) : Queued := ⟨putAt (putAt (zeros 32) 4 (le 4 n)) 24 (le 2 rows), 63⟩
def moving (q : Queued) : State := running coreRun { plateRun with dma := [q] }
def inSession : State := on.wr Reg.HTP_STAT_SESSION 1
def savedPlate : SavedPlate := ⟨.reset, [], 0, [], false, [], [], [], none, []⟩

/-- A cache of one layer with no heads, two pages a layer, four sequences and two slots; its tables at virtual address 0, its staging
buffers in commons. -/
def kvBlock : List Byte :=
  [(0, [1]), (4, le 2 1), (6, le 2 2), (8, le 4 4), (20, le 4 2), (24, le 8 0x800), (40, le 8 288), (72, le 4 128), (76, le 4 128),
    (88, le 8 0x900)].foldl (fun d e => putAt d e.1 e.2) (zeros 96)
/-- The tables: sequence 0 in a state, the entry of its page 0 and slot 0's first word as given. -/
def kvTables (seq entry slot : Nat) : List Byte := putAt (putAt (putAt (zeros 288) 0 (le 1 seq)) 32 (le 8 entry)) 160 (le 4 slot)
/-- Tracer 0 runs, cache 0 is registered, sequence 0 has buffer 0, with a flushed count and a fill. -/
def cached (c : KvCache) (seq entry slot flushed fill : Nat) : State :=
  (({ mapped (kvTables seq entry slot) with caches := on.caches.set 0 c } : State).wr Reg.TRC_STAT_RUN 1 0).store (gaddr spCommons 0)
    (le 4 flushed ++ le 1 fill ++ zeros 59)
def cache0 : KvCache := ⟨kvBlock, (on.caches.get kvEmpty 0).bufs.set 0 [0], [], [], .empty⟩
def cacheFull : KvCache := { cache0 with block := putAt kvBlock 20 (le 4 0), held := [(0, 0)] }
def cacheJob (op q a b : Nat) (param : List Byte := []) : Job := jobOf .started 0x13 op [(36, le 4 q), (40, le 4 a), (44, le 4 b)] param
/-- A command at tracer 0: operation, count, and a MAP's place of records. -/
def trcCmd (op n : Nat) : List Byte := putAt (putAt (putAt (zeros 32) 0 (le 1 op)) 10 (le 2 n)) 2 (le 2 0xFFFF)
def tracing (op n : Nat) : State :=
  (cached cache0 1 0 0 0 0).setTracer 0 { TracerSt.reset with queue := [(trcCmd op n, 0)] }
def member1 : Member := ⟨5, 1, 3, 0⟩
def savedLaunch : Launch := { launch [0] with saved := (launch [0]).saved.set 0 savedPlate }

theorem ok_exc {α β ε : Type} {x : Except ε β × α} (h : x.1.toBool = true) : ∃ o, x = (.ok o, x.2) := by
  obtain ⟨e, a⟩ := x
  cases e with
  | error _ => exact absurd h Bool.false_ne_true
  | ok o => exact ⟨o, rfl⟩

/-- A problem's record: one row, one entry, user slot 0 and 1, one step. -/
def brnRecord (trig : Nat := 0xFFFF) : List Byte :=
  [(4, le 4 1), (8, le 4 1), (12, [2]), (56, le 2 trig), (58, le 2 1), (136, [2]), (137, [4])].foldl (fun d e => putAt d e.1 e.2) (zeros 256)
def brnProgram (op count : Nat) : List Byte := putAt (putAt (zeros 16) 0 (le 1 op)) 12 (le 2 count)
def brnRun0 : BrnRun := ⟨1, 1, 0, .empty, 4, none, false, 0, 0, 0, 0, 0, false, .empty, .empty, [], none⟩
/-- A problem in a state, its program one step. -/
def brnProb (state : Nat) (op : Nat := 0) (count : Nat := 0) (run : Option BrnRun := none) : BrnProb :=
  { state := state, context := 0, record := brnRecord, program := brnProgram op count, rowptr := le 4 0 ++ le 4 1, cols := le 2 0,
    vals := le 4 1, valsAt := (0, 0), sig := 0, slots := ⟨[(0, [1]), (1, [2])]⟩, sigs := .empty, poison := [], pre := [], stale := true,
    armed := none, vNext := 1, runs := 0, queued := [], trigRun := none, run := run }
def brnJob (op : Nat) (param : List Byte := []) (ph : Phase := .started) : Job := jobOf ph 0x12 op [(36, le 4 4)] param
/-- The module with a burnisher job on problem 0. -/
def burnishing (j : Job) (p : BrnProb) : State := withJob j { mapped with brn := { on.brn with probs := on.brn.probs.set 0 p } }
/-- A run of problem 0 at its step. -/
def brnAt (p : BrnProb) : State := withJob (brnJob 4 [] .running) { mapped with brn := { on.brn with probs := on.brn.probs.set 0 p, cur := some 0 } }
def brnStepProb (op : Nat) (count : Nat := 0) : BrnProb := brnProb 2 op count (some brnRun0)
/-- A REGISTER block: the record, one step, the row pointers and the column. -/
def brnBlock : List Byte := brnRecord ++ brnProgram 0 0 ++ le 4 0 ++ le 4 1 ++ le 2 0
def brnMat0 : Mat := matOf brnRecord (le 4 0 ++ le 4 1) (le 2 0) (le 4 1)
def brnEnv : SolveEnv := ⟨.none, none, none, none⟩

/-- A job of the memory, sync, partition, load or ring family, started. -/
def opJob (opcode op : Nat) (l : List (Nat × List Byte) := []) (param : List Byte := []) : Job := jobOf .started opcode op l param
def opState (opcode op : Nat) (l : List (Nat × List Byte) := []) (param : List Byte := []) (s : State := on) : State :=
  withJob (opJob opcode op l param) s
/-- Task 5 and chain 3 in force. -/
def taskBlock : List Byte := putAt (putAt (putAt (putAt (zeros 32) 0 [1]) 12 (le 4 1)) 16 (le 4 1)) 20 (le 4 1)
def tasked : State := ({ on with tm := { on.tm with dt96 := 10000000 * 2 ^ 32 } } : State).store (winAddr (0xE4000 + 32 * 5)) taskBlock
def chained : State :=
  ({ on with tm := { on.tm with dt96 := 10000000 * 2 ^ 32 } } : State).store (winAddr (0xE6000 + 16 * 3)) (putAt (zeros 16) 0 [1, 5, 5])
def withTask (x : TaskSt) : State := { tasked with tasks := tasked.tasks.set 5 x }
def act5 : Activation := ⟨1, 0, 10000000, false, false⟩
/-- Host port 0 has its link. -/
def linked : State := on.wr Reg.HTP_PORT_LINK 1 0
def linkedSession : State := linked.wr Reg.HTP_STAT_SESSION 1
/-- A frame from the host: its type and flags, its payload (Table HST-3). -/
def hostFrame (type flags : Nat) (payload : List Byte) : HostFrame :=
  ⟨0, 0, none, false, padTo (max 46 (32 + payload.length)) (([(0, [1]), (1, le 1 type), (2, le 1 flags), (14, le 2 payload.length)].foldl
    (fun d e => putAt d e.1 e.2) (zeros 32)) ++ payload)⟩
def bell (l : List Byte) : HostFrame := hostFrame 32 1 (putAt (putAt (putAt (zeros 32) 0 [63, 0xFF]) 2 (le 2 1)) 8 (le 4 1) ++ l)
/-- Four lanes of port 0 serve. -/
def ringed : State := { on with ring := { on.ring with passed := 0xF, locked := 0xF } }
/-- A flit with its check (Table RNG-1). -/
def flitOf (type seq : Nat) : Flit :=
  let b := putAt (putAt (zeros 136) 0 (le 1 type)) 2 (le 2 seq)
  ⟨b ++ le 4 (crc32c b) ++ zeros 4⟩
def collJob (op : Nat) : Job := opJob 0x30 op [(34, [1]), (36, le 4 4)]
def coll0 : Coll := ⟨1, 0, none, 0, false, 0, []⟩
/-- Job 1's collective is the first, and this module is the ring. -/
def gathering (op : Nat) : State :=
  (withJob (collJob op) { on with ring := { on.ring with colls := [coll0], members := [⟨0, 0, 4, on.roleCrc⟩] } }).wr Reg.RNG_STAT_FORMED 1
def colling (c : Coll) : State := { on with ticks := 10 ^ 15, ring := { on.ring with colls := [c] } }
theorem none_all {α : Type} {o : Option α} (p : α → Prop) (h : o.isNone = true) : ∀ t, o = some t → p t := by
  intro t e; rw [e] at h; exact absurd h (by simp)

def plateRec (crc check : Option Nat) : ProofRec := ⟨1, 0, 0, 0, [], 0, .empty, [], crc, check⟩
/-- Plates 0 to n - 1, plate 0 with a proof record. -/
def proving (n : Nat) (r : ProofRec) : State :=
  { on with plateMap := 2 ^ n - 1, plates := on.plates.set 0 { PlateSt.reset with slots := [r] } }
/-- Region 63's block, of no pages: no group; its step count in sync object 5. -/
def regionBlock : List Byte := putAt (putAt (zeros 32) 0 [0xFF, 1, 1, 0]) 4 (le 2 5)
def digesting : State :=
  let s := on.signal 5 1 []
  ({ s with prf := { s.prf with regions := s.prf.regions.set 63 ⟨regionBlock, crc64 [], 0, 0⟩ } } : State).wr Reg.PRF_REGION_STATE rgValid 63
def unitWith (u : Nat) (x : UnitSt) (s : State := on) : State := { s with units := s.units.set u x }
def field0 : FieldTest := ⟨unitId 1 3, 1, 0, false, false⟩
/-- Source n holds lines, its cause present or not. -/
def holding (n lines : Nat) (cause : Bool) : State :=
  { on with ticks := 10 ^ 9, sup := { on.sup with src := on.sup.src.set n ⟨lines, cause, 0⟩ } }
def starting : State := { on with power := .starting }
def booted : State := { on with boot := { on.boot with fwHeader := [1] } }
/-- All channels trained, the boot region released. -/
def tested : State := ({ on with chanMap := 0xFF, boot := { on.boot with trained := 0xFF } } : State).wr Reg.MEM_RELEASE_BOOT 1 |>.wr Reg.EAS_BOOT_TRAIN_SAVED 0xFF
def advancing (t : Nat) : State := { on with sec := { on.sec with target := some t } }
/-- A table whose command 0 of path 0 matches every identifier 0 frame, its path closed by line A. -/
def closedTable : List Byte := putAt (putAt (zeros 560) 20 [1]) 336 [4]

/-! ### Well-formedness refuses -/

/-- Well-formedness refuses a short host frame (Table HST-2). -/
theorem test_wf_host_frame : (Instr.hello 0 ⟨0, 0, none, false, [0]⟩).wf = false := by decide
/-- It refuses an Ethernet frame without its header. -/
theorem test_wf_eth_frame : (Instr.ethFrameRx 0 ⟨[0], false, none⟩).wf = false := by decide
/-- It refuses a base CAN identifier of more than 11 bits. -/
theorem test_wf_can_ident : (Instr.canFrameRx 0 ⟨0x800, false, false, false, false, [], false⟩).wf = false := by decide
/-- It refuses a short packet whose header is not 4 bytes. -/
theorem test_wf_csi2 : (Instr.csi2PacketRx 0 ⟨0, 0, false, false, [0], none⟩).wf = false := by decide
/-- It refuses a flit that is not 144 bytes (Table RNG-1). -/
theorem test_wf_flit : (Instr.flitRx 0 ⟨[]⟩).wf = false := by decide
/-- It refuses a descriptor that is not 64 bytes (Table HST-8). -/
theorem test_wf_descriptor : (Instr.plateLaunch 0 []).wf = false := by decide
/-- It refuses a servo measurement with a zero denominator. -/
theorem test_wf_servo : (Instr.servoUpdate ⟨0, 0, 0, 1, 0, false⟩).wf = false := by decide
/-- It refuses evidence beyond the plate's memory (R190). -/
theorem test_wf_evidence : (Instr.evidencePlaneWrite 0 4194304 [0]).wf = false := by decide

/-! ### The spec's worked examples -/

/-- The state after a command. -/
def after (c : Instr) (s : State) : State :=
  match exec c s with
  | .next t => t
  | _ => s

/-- A gPTP slave at its first updates. -/
def slave : State := { on with tm := { on.tm with ref := .gptp } }
/-- The worked servo adjustment: +800 ns and +12 ppm at 125 ms give 0x03_FFFB_2D36 (after R35). -/
theorem test_servo_offset : (after (.servoUpdate ⟨800, 1, 12, 1000000, 125000000, false⟩) slave).inc = 0x03FFFB2D36 := by decide +kernel
/-- Its next update, at offset 0, gives 0x03_FFFC_DAB4. -/
theorem test_servo_rate : (after (.servoUpdate ⟨0, 1, 12, 1000000, 125000000, false⟩) slave).inc = 0x03FFFCDAB4 := by decide +kernel
/-- A tick adds 4 ns at the nominal increment (R29, R31). -/
theorem test_tick : (after .timeTick on).dt64 = 4 := by decide +kernel

/-- The LENGTH word of the lidar frame of Table ING-9: words 0x25, bytes 0x48A, status 0, sensor 5, src 0. -/
theorem test_lidar_length : (lengthWord 0x25 0x48A ⟨0, 5, 0, 0, 0⟩ 0).take 11 = [0x25, 0, 0, 0, 0x8A, 4, 0, 0, 0, 5, 0] := by
  decide +kernel
/-- The last DATA word of a payload is filled with zero bytes (Table ING-9). -/
theorem test_data_words : words32 2 (zeros 32 ++ [1, 2]) = [zeros 32, [1, 2] ++ zeros 30] := by decide +kernel

/-- The voxel of the worked point and its Morton code (after R146). -/
theorem test_voxel : voxel1 392500 (-480000) 1000 12 = some 872 := by decide +kernel
theorem test_morton : morton (872, 340, 40) = 0x0B0EAA80 := by decide +kernel

/-- A product of two FP8 E4M3 codes. -/
def fp8Product (a w : Nat) : FVal := (e4m3.decode a).mul (e4m3.decode w)
/-- The exact sum of the worked FP8 column step is 2^-8 in FP32 (after R169). -/
theorem test_fp8_sum :
    rne32 (((fp8Product 0x78 0x78).add (fp8Product 0x18 0x18)).add (fp8Product 0xF8 0x78)) = 0x3B800000 := by decide +kernel
/-- Added to 1.0 it gives 1 + 2^-8. -/
theorem test_fp8_accumulate : add32 0x3F800000 0x3B800000 = 0x3F808000 := by decide +kernel

/-- The CRC-64 of the text "123456789" (R221). -/
theorem test_crc64 : crc64 [0x31, 0x32, 0x33, 0x34, 0x35, 0x36, 0x37, 0x38, 0x39] = 0x995DC9BBDF1939FA := by decide +kernel
/-- The decayed exponential: 1 at 0, and +0 below -88 (the worked maximum). -/
theorem test_xexp_zero : xexp 0 = 0x3F800000 := by decide +kernel
theorem test_xexp_low : xexp 0xC2BA0000 = 0 := by decide +kernel

/-- The worked steering field: signed, 16 bits, q 8, -2560 to 2560, rate 64, init 0, last value 1000. -/
def steering : State :=
  { on with mgd := { on.mgd with
    table := [(20, [1, 1]), (561, [1]), (564, [16, 8]), (568, le 4 (2 ^ 32 - 2560)), (572, le 4 2560), (576, le 4 64)].foldl
      (fun t e => putAt t e.1 e.2) (zeros 584),
    prev := on.mgd.prev.set 0 1000 } }
/-- 4.5 Nm at binary point 20 is 1,152 in the field's units (Table SAF-8, step 1). -/
theorem test_feed : feedValue steering.mgd.table 0 4718592 20 = 1152 := by decide +kernel
/-- It leaves the guard as 1,064 (step 2). -/
theorem test_clamp : steering.clamped 0 1000 1152 = 1064 := by decide +kernel

/-- With physical plate 5 bad, logical plates 4 and 5 are physical plates 4 and 6 (the worked DDT). -/
theorem test_plates : physicalIn 0x1FFFFFFDF 4 = 4 ∧ physicalIn 0x1FFFFFFDF 5 = 6 := by decide +kernel

/-- Granule 0x23_4560 of half A, four channels enabled, lies on channel 0 at channel address 0x8D15_8000 (the worked page fault). -/
def eight : State := { on with chanMap := 0xFF }
theorem test_chan : eight.chanOf 0x234560000 = 0 ∧ eight.chanAddr 0x234560000 = 0x8D158000 := by decide +kernel
/-- A trigger line is high-impedance until ROM boot is done, then at rest (R583). -/
theorem test_trig_level : State.reset.trigLevel 0 = none ∧ on.trigLevel 0 = some false := by decide +kernel

/-! ### What an ES384 check that passes leads to -/

theorem loadTable_good {s : State} {l t sig : List Byte} (h1 : s.sec.tableKey.all (· == 0#8) = false)
    (h2 : s.flag Reg.SEC_STAT_UNLOCKED = false)
    (h3 : ¬(s.rd Reg.MGD_LOAD_LENGTH = 0 ∨ 16384 < s.rd Reg.MGD_LOAD_LENGTH))
    (h4 : s.acceptRead (s.rd Reg.MGD_LOAD_CONTEXT) (s.rd Reg.MGD_LOAD_VA) (s.rd Reg.MGD_LOAD_LENGTH) = .ok l)
    (h5 : coseParts l = some (t, sig)) (h6 : sig.length = 96)
    (h7 : Config.verifyEs384 s.sec.tableKey (coseToSign t) sig = true) (h8 : tableOk s.part.serial t = true) :
    s.loadTable = (2, t, l) := by
  simp [State.loadTable, h1, h2, h3, h4, h5, h6, h7, h8, coseGood]

/-- A table that Table SAF-6 accepts: the defaults, no command, no field. -/
def goodTable : List Byte :=
  (([(0, le 4 0x44474D41), (4, le 2 1), (8, le 4 416), (32, [3]), (36, [3, 1])] : List (Nat × List Byte)) ++
    ((List.range 7).map (fun n => (40 + 4 * n, [if n = 1 then 0 else 3]))) ++
    ((List.range 16).map (fun n => (100 + 8 * n, [1])))).foldl (fun (t : List Byte) (e : Nat × List Byte) => putAt t e.1 e.2) (zeros 416)
/-- It as a COSE_Sign1 structure of an empty unprotected header. -/
def goodCose : List Byte :=
  cborHead 4 4 ++ cborBytes coseProtected ++ cborHead 5 0 ++ cborBytes goodTable ++ cborBytes (zeros 96)
/-- It stands in memory, its key latched. -/
def tableStaged : State :=
  ({ mapped goodCose with sec := { on.sec with tableKey := [1] } } : State).wr Reg.MGD_LOAD_LENGTH goodCose.length
/-- A table whose signature verifies is loaded with code 2. -/
theorem test_table_loads (h : Config.verifyEs384 [1] (coseToSign goodTable) (zeros 96) = true) :
    tableStaged.loadTable = (2, goodTable, goodCose) :=
  loadTable_good (by decide +kernel) (by decide +kernel) (by decide +kernel) (by decide +kernel) (by decide +kernel)
    (by decide +kernel) h (by decide +kernel)
/-- Without a table key the go answers code 3 (Table SAF-6). -/
theorem test_table_no_key : on.loadTable = (3, [], []) := by decide +kernel

/-! ### A state and operands that meet the hypotheses of each statement -/

theorem witness_PowerCommandsComplete_1 :
    (∃ (s : State), s.power ≠ Power.off) ∧
    (∃ (s : State) (i : Fin 44), s.alive = true ∧ i.val ≠ islandAon) ∧
    (∃ (s : State) (powerDw : ℕ), s.alive = true ∧ powerDw ≤ 10 * s.part.limitW) ∧
    (∃ (s : State) (powerDw : ℕ), s.alive = true ∧ 10 * s.part.limitW < powerDw) ∧
    (∃ (s : State) (powerDw : ℕ), s.alive = true ∧ 11 * s.part.limitW < powerDw) ∧
    (∃ (s : State) (powerDw : ℕ) (t : ℕ), s.sup.trippedAt = some t ∧ t + msTicks 100 ≤ s.ticks ∧ powerDw < 10 * s.part.limitW) :=
  ⟨⟨on, by decide +kernel⟩,
  ⟨on, 0, by decide +kernel⟩,
  ⟨on, 1500, by decide +kernel⟩,
  ⟨on, 1501, by decide +kernel⟩,
  ⟨on, 1651, by decide +kernel⟩,
  ⟨{ on with ticks := 25000000, sup := { on.sup with trippedAt := some 0 } }, 1499, 0, by decide +kernel⟩⟩

theorem witness_PowerCommandsComplete_2 :
    (∃ (s : State) (d : Fin 43), s.power = Power.starting ∧ d.val ≠ 0 ∧ bit s.pwr.domains d.val = true ∧ s.domainIdle d.val = true) ∧
    (∃ (s : State) (d : Fin 43), s.alive = true ∧ d.val ≠ 0 ∧ bit s.pwr.domains d.val = false ∧ s.pwr.switched = []) :=
  ⟨⟨{ on with power := .starting, pwr := { on.pwr with domains := 2 ^ 43 - 1 } }, 42, by decide +kernel⟩,
  ⟨{ on with pwr := { on.pwr with domains := 1 } }, 42, by decide +kernel⟩⟩

theorem witness_TimeCommandsComplete_1 :
    (∃ (s : State) (m : ServoMeas), s.alive = true ∧ (s.tm.ref = if m.pps = true then RefSrc.pps else RefSrc.gptp) ∧ m.oDen ≠ 0 ∧
    m.updNs ≠ 0 ∧ m.rDen ≠ 0 ∧ 0 < ↑m.rDen + m.rNum ∧ m.oNum.natAbs ≤ s.rd Reg.RUL_SERVO_STEP_STEP_THR * m.oDen) ∧
    (∃ (s : State) (m : ServoMeas), s.alive = true ∧ (s.tm.ref = if m.pps = true then RefSrc.pps else RefSrc.gptp) ∧ m.oDen ≠ 0 ∧
    m.updNs ≠ 0 ∧ m.rDen ≠ 0 ∧ 0 < ↑m.rDen + m.rNum ∧ s.rd Reg.RUL_SERVO_STEP_STEP_THR * m.oDen < m.oNum.natAbs ∧
    (m.oNum < 0 ∨ s.flag Reg.RUL_CTRL_RUN = false)) ∧
    (∃ (s : State), s.alive = true ∧ s.tm.ref = RefSrc.pps ∧ s.tm.ppsAt.getD 0 + 375000000 ≤ s.ticks) ∧
    (∃ (s : State) (p : ℕ), s.alive = true ∧ s.tm.ref = RefSrc.gptp ∧ s.tm.gptpSlave = some p ∧
    s.tm.refAt + 3 * s.tm.syncNs / 4 ≤ s.ticks) ∧
    (∃ (s : State) (t : ℕ), s.alive = true ∧ s.tm.ppsAt = some t) ∧
    (∃ (s : State), s.alive = true ∧ s.tm.ppsAt = none) :=
  ⟨⟨{ on with tm := { on.tm with ref := .gptp } }, ⟨1000, 1, 0, 1, 125000000, false⟩, by decide +kernel⟩,
  ⟨{ on with tm := { on.tm with ref := .pps } }, ⟨-5000000000, 1, 0, 1, 125000000, true⟩, by decide +kernel⟩,
  ⟨{ on with ticks := 375000000, tm := { on.tm with ref := .pps } }, by decide +kernel⟩,
  ⟨{ on with ticks := 93750000, tm := { on.tm with ref := .gptp, gptpSlave := some 0 } }, 0, by decide +kernel⟩,
  ⟨{ on with tm := { on.tm with ppsAt := some 0 } }, 0, by decide +kernel⟩,
  ⟨on, by decide +kernel⟩⟩

theorem witness_TimeCommandsComplete_2 :
    (∃ (s : State) (r : Option Bool), s.alive = true ∧ s.flag Reg.HTP_CTRL_SETUP_DONE = false ∧
    s.stepGoError (r.getD (s.flag Reg.RUL_CTRL_RUN)) = none) ∧
    (∃ (s : State), s.flag Reg.RUL_STAT_SWAP_PENDING = false ∧ s.flag Reg.HTP_CTRL_SETUP_DONE = false) ∧
    (∃ (s : State) (len : BitVec 10) (ofs : BitVec 32), s.flag Reg.HTP_CTRL_SETUP_DONE = false ∧ s.flag Reg.RUL_CTRL_RUN = false ∧
    10 ≤ len.toNat ∧ len.toNat ≤ 1000 ∧ ofs.toNat < len.toNat * 1000000) ∧
    (∃ (s : State) (p : Fin 8) (m : GptpEvent), s.alive = true ∧ s.unitUp (stampUnit p.val) = true ∧ ↑m.msgType = 0 ∧ m.twoStep = true ∧
    (s.tm.rx.get [] p.val).length < 16 ∧ s.tm.gptpSlave = some p.val) ∧
    (∃ (s : State) (p : Fin 8) (m : GptpEvent), s.alive = true ∧ s.unitUp (stampUnit p.val) = true ∧ ↑m.msgType = 3 ∧
    (s.tm.rx.get [] p.val).length < 16) ∧
    (∃ (s : State) (p : Fin 8) (m : GptpGeneral), s.alive = true ∧ s.unitUp (stampUnit p.val) = true ∧ ↑m.msgType = 8 ∧
    s.hasStamp (p.val) 0 m.seqId.toNat = true) :=
  ⟨⟨on, none, by decide +kernel⟩,
  ⟨on, by decide +kernel⟩,
  ⟨on.wr Reg.RUL_CTRL_RUN 0, 10, 9999999, by decide +kernel⟩,
  ⟨{ on with tm := { on.tm with gptpSlave := some 7 } }, 7, ⟨0, 0, true, 0, 0, -3⟩, by decide +kernel⟩,
  ⟨on, 7, ⟨3, 0, true, 0, 0, 0⟩, by decide +kernel⟩,
  ⟨{ on with tm := { on.tm with rx := on.tm.rx.set 0 [⟨0, 0, 5⟩] } }, 0, ⟨8, 5, 0, 0, 0⟩, by decide +kernel⟩⟩

theorem witness_TimeCommandsComplete_3 :
    (∃ (s : State) (p : Fin 8), s.alive = true ∧ s.unitUp (stampUnit p.val) = true ∧ s.tm.gptpSlave = none ∧
    (s.tm.tx.get [] p.val).length < 16) ∧
    (∃ (s : State) (p : Fin 8), s.alive = true ∧ s.unitUp (stampUnit p.val) = true ∧ (s.tm.tx.get [] p.val).length < 16) :=
  ⟨⟨on, 7, by decide +kernel⟩,
  ⟨on, 0, by decide +kernel⟩⟩

theorem witness_EpochAndTriggerCommandsComplete :
    (∃ (s : State), s.alive = true ∧ s.flag Reg.RUL_CTRL_RUN = true ∧ s.tm.nextEpoch ≤ s.dt64) ∧
    (∃ (s : State) (e : Fin 256) (t : ℕ), s.power = Power.up ∧ s.rulKind e.val = rkLine ∧ s.dueTrig (e.val) 0 = some t ∧
    (s.served (e.val) t).linePast (s.rulIndex e.val) s.dt64 ((s.rul (e.val) 12 4 + 3) / 4 * 4) = false) ∧
    (∃ (s : State) (e : Fin 256) (t : ℕ), s.power = Power.up ∧ s.rulKind e.val = rkBack ∧
    s.unitUp (unitId 10 (s.rulIndex e.val)) = true ∧ s.dueTrig (e.val) (s.rd Reg.RUL_BCLAT_LAT_NS (s.rulIndex e.val)) = some t) ∧
    (∃ (s : State) (e : Fin 256) (t : ℕ), s.power = Power.up ∧ s.rulKind e.val = rkPhase ∧
    s.unitUp (unitId 11 (s.rulIndex e.val)) = true ∧ s.dueTrig (e.val) (s.rul (e.val) 28 4) = some t) :=
  ⟨⟨on.wr Reg.RUL_CTRL_RUN 1, by decide +kernel⟩,
  ⟨ruling 1, 0, 1, by decide +kernel⟩,
  ⟨ruling 2, 0, 1, by decide +kernel⟩,
  ⟨ruling 3, 0, 1, by decide +kernel⟩⟩

theorem witness_SensorDataCommandsComplete_1 :
    (∃ (s : State) (port : Fin 12) (p : Csi2Packet) (i : ℕ), s.power = Power.up ∧ s.unitUp (unitId 10 port.val) = true ∧
    p.headerBad = false ∧ dataTypeImage p.dataType.toNat = true ∧ s.cameraEntry port.val ↑p.vc = some i ∧
    (s.charge i p.payload.length (s.cameraStamp port.val)).2 = true) ∧
    (∃ (s : State) (port : Fin 12) (p : Csi2Packet) (i : ℕ), s.power = Power.up ∧ s.unitUp (unitId 10 port.val) = true ∧
    p.headerBad = false ∧ p.dataType.toNat = 0 ∧ s.cameraEntry port.val ↑p.vc = some i) ∧
    (∃ (s : State) (port : Fin 12) (p : Csi2Packet) (i : ℕ), s.power = Power.up ∧ s.unitUp (unitId 10 port.val) = true ∧
    p.headerBad = false ∧ p.dataType.toNat = 1 ∧ s.cameraEntry port.val ↑p.vc = some i) ∧
    (∃ (s : State) (port : Fin 6) (f : EthFrame) (i : ℕ), s.power = Power.up ∧ s.unitUp (unitId 11 port.val) = true ∧
    etherType f.bytes ≠ 35063 ∧ etherType f.bytes ≠ 35020 ∧ port.val < 4 ∧
    List.find? (fun i => s.rd Reg.ING_SENS_STATE i == 3) (s.sensorsOn 2 port.val) = some i ∧
    (s.charge i f.bytes.length (s.etherStamp port.val)).2 = true) ∧
    (∃ (s : State) (port : Fin 6) (f : EthFrame), s.power = Power.up ∧ s.unitUp (unitId 11 port.val) = true ∧ etherType f.bytes ≠ 35063 ∧
    etherType f.bytes ≠ 35020 ∧ 4 ≤ port.val ∧ s.auxEntry (port.val - 4) f.bytes = none) ∧
    (∃ (s : State) (port : Fin 6) (f : EthFrame) (i : ℕ), s.power = Power.up ∧ s.unitUp (unitId 11 port.val) = true ∧
    etherType f.bytes ≠ 35063 ∧ etherType f.bytes ≠ 35020 ∧ 4 ≤ port.val ∧ s.auxEntry (port.val - 4) f.bytes = some i ∧
    (s.charge i f.bytes.length (s.etherStamp port.val)).2 = true) :=
  ⟨⟨sensing 1 11 0 4, 11, camPkt 0x2A, 0, by decide +kernel⟩,
  ⟨sensing 1 11 0 4, 11, camPkt 0, 0, by decide +kernel⟩,
  ⟨sensing 1 11 0 4, 11, camPkt 1, 0, by decide +kernel⟩,
  ⟨sensing 2 3 0 60, 3, ethPkt, 0, by decide +kernel⟩,
  ⟨on, 4, ethPkt, by decide +kernel⟩,
  ⟨sensing 3 1 0 60, 5, ethPkt, 0, by decide +kernel⟩⟩

theorem witness_SensorDataCommandsComplete_2 :
    (∃ (s : State) (chan : Fin 6) (f : CanFrame), s.power = Power.up ∧ (f.fdf && s.rd Reg.ING_CAN_BIT_MODE chan.val == 1) = false ∧
    List.filter (fun i => s.canMatches i f) (s.sensorsOn 4 chan.val) = []) ∧
    (∃ (s : State) (chan : Fin 6) (f : CanFrame) (i : ℕ), s.power = Power.up ∧
    (f.fdf && s.rd Reg.ING_CAN_BIT_MODE chan.val == 1) = false ∧ List.filter (fun i => s.canMatches i f) (s.sensorsOn 4 chan.val) = [i] ∧
    s.rd Reg.ING_SENS_STATE i = 3 ∧ (s.charge i f.bytes.length s.dt64).2 = true) ∧
    (∃ (s : State) (d : Burst) (i : ℕ), s.power = Power.up ∧ d.identity = none ∧
    List.find? (fun i => s.rd Reg.ING_SENS_STATE i == 3) (s.sensorsOn 6 0) = some i ∧
    (s.charge i (List.take 64 d.bytes).length s.dt64).2 = true) :=
  ⟨⟨on, 5, canPkt, by decide +kernel⟩,
  ⟨sensing 4 5 0 1, 5, canPkt, 0, by decide +kernel⟩,
  ⟨sensing 6 0 0 64, ⟨zeros 70, none⟩, 0, by decide +kernel⟩⟩

theorem witness_LinkAndDiscoveryCommandsComplete_1 :
    (∃ (s : State) (k : Fin 20) (q : BitVec 8), s.alive = true ∧ 18 ≤ k.val ∧ s.rd Reg.EAS_LINKCHK_SQI_MIN ≤ q.toNat ∧ q.toNat ≤ 7 ∧
    s.unitUp (unitId 15 (k.val - 18)) = true) ∧
    (∃ (s : State) (k : Fin 20) (q : BitVec 8), s.alive = true ∧ 12 ≤ k.val ∧ k.val < 18 ∧ s.rd Reg.EAS_LINKCHK_SQI_MIN ≤ q.toNat ∧
    q.toNat ≤ 7 ∧ s.unitUp (unitId 11 (k.val - 12)) = true) ∧
    (∃ (s : State) (k : Fin 20) (q : BitVec 8), s.alive = true ∧ k.val < 12 ∧ s.rd Reg.EAS_LINKCHK_APHY_MIN ≤ q.toNat ∧
    s.unitUp (unitId 10 k.val) = true ∧ bit (s.rd Reg.PWR_POC_FAULT) k.val = false ∧ bit (s.rd Reg.PWR_POC_ENABLE) k.val = true ∧
    s.flag Reg.PWR_STAT_VCAM_BAD = false) ∧
    (∃ (s : State) (k : Fin 20), k.val < 18 ∧ s.flag Reg.ING_PORT_STAT_LINK (linkQueue k.val) = true) ∧
    (∃ (k : Fin 20), 18 ≤ k.val) ∧
    (∃ (s : State) (i : Fin 64), s.sensFlag (i.val) 0 = true ∧ (s.sensSt i.val).idTries = 0 ∧ s.sensor (i.val) 0 1 = 1 ∧
    s.rd Reg.ING_SENS_STATE i.val = 2) :=
  ⟨⟨on, 19, 7, by decide +kernel⟩,
  ⟨on, 12, 7, by decide +kernel⟩,
  ⟨on.wr Reg.PWR_POC_ENABLE 0xFFF, 11, 255, by decide +kernel⟩,
  ⟨on.wr Reg.ING_PORT_STAT_LINK 1 (linkQueue 17), 17, by decide +kernel⟩,
  ⟨18, by decide +kernel⟩,
  ⟨(sensing 1 0 1 0).wr Reg.ING_SENS_STATE 2 0, 0, by decide +kernel⟩⟩

theorem witness_LinkAndDiscoveryCommandsComplete_2 :
    (∃ (s : State) (p : Fin 6), s.unitUp (unitId 11 p.val) = true) ∧
    (∃ (s : State) (i : Fin 64), s.rd Reg.ING_SENS_STATE i.val = 3 ∧
    (s.sensSt i.val).lastAt + msTicks (s.sensor (i.val) 16 2) ≤ s.ticks) ∧
    (∃ (s : State), s.flag Reg.ING_ST_CTRL_SWAP_PENDING = false ∧ s.flag Reg.HTP_CTRL_SETUP_DONE = false) :=
  ⟨⟨on, 5, by decide +kernel⟩,
  ⟨sensing 1 0 0 0, 0, by decide +kernel⟩,
  ⟨on, by decide +kernel⟩⟩

theorem witness_QueueCommandsComplete :
    (∃ (s : State) (q : Fin 51) (w : Fin 2) (v : BitVec 32), queueBuilt q.val = true ∧ s.spqWriteError (q.val) (w.val) v.toNat = none) ∧
    (∃ (s : State) (q : Fin 51), s.hardwareRead q.val = true) ∧
    (∃ (s : State) (q : Fin 51), s.hardwareRead q.val = true ∧ (s.queue q.val).torn = false ∧ (s.queue q.val).items = []) ∧
    (∃ (s : State) (q : Fin 51) (i : QItem) (r : List QItem), s.hardwareRead q.val = true ∧ (s.queue q.val).torn = false ∧
    (s.queue q.val).items = i :: r) ∧
    (∃ (s : State) (q : Fin 51), queueBuilt q.val = true ∧ s.flag Reg.SPQ_CTRL_CONS q.val = true ∧ (s.queue q.val).torn = false ∧
    (s.queue q.val).items = []) ∧
    (∃ (s : State) (q : Fin 51) (i : QItem) (r : List QItem), queueBuilt q.val = true ∧ s.flag Reg.SPQ_CTRL_CONS q.val = true ∧
    (s.queue q.val).torn = false ∧ (s.queue q.val).items = i :: r) :=
  ⟨⟨on.wr Reg.SPQ_CTRL_EN 0 50, 50, 1, 3400, by decide +kernel⟩,
  ⟨on, 0, by decide +kernel⟩,
  ⟨on, 11, by decide +kernel⟩,
  ⟨queued 50 [⟨1, [7]⟩], 50, ⟨1, [7]⟩, [], by decide +kernel⟩,
  ⟨on.wr Reg.SPQ_CTRL_CONS 1 0, 0, by decide +kernel⟩,
  ⟨(queued 50 [⟨1, [7]⟩]).wr Reg.SPQ_CTRL_CONS 1 50, 50, ⟨1, [7]⟩, [], by decide +kernel⟩⟩

theorem witness_HatchCommandsComplete_1 :
    (∃ (s : State) (e : HEpoch), s.hatchRuns = true ∧ s.epochAtStage HStage.input = some e ∧ (∀ f ∈ e.frames,
    f.state ≠ FrameEnd.expected ∨ f.due < s.dt64)) ∧
    (∃ (s : State) (u : State) (port : Fin 12) (l : List CamPkt), s.hatchRuns = true ∧ s.flag Reg.HAT_CTRL_RUN = true ∧
    s.flag Reg.SPQ_CTRL_CONS port.val = false ∧
    State.takeFrame (port.val) ((s.queue port.val).stream.length + 1) (s.hat.camBuf.get [] port.val) s = some (l, u)) ∧
    (∃ (s : State) (u : State) (port : Fin 4) (h : QItem) (ws : List QItem), s.hatchRuns = true ∧ s.flag Reg.HAT_CTRL_RUN = true ∧
    s.flag Reg.SPQ_CTRL_CONS (16 + port.val) = false ∧ s.dequeue (16 + port.val) = some (h, ws, u)) ∧
    (∃ (s : State) (v : State) (e : HEpoch), s.hatchRuns = true ∧ s.epochAtStage HStage.closed = some e ∧
    v = (List.foldl (fun x i => x.newWindow e.bank e.no i) s (List.range 64)).takeEgoQueues e.bank ∧ v.stageUp 3 = true) ∧
    (∃ (s : State) (e : HEpoch), s.hatchRuns = true ∧ s.epochAtStage HStage.tracked = some e ∧ s.stageUp 4 = true) ∧
    (∃ (s : State) (p : Fin 34) (o : ℕ) (d : List Byte), s.plateOnline p.val = true ∧ o + d.length ≤ 835584) :=
  ⟨⟨atStage .input, epoch .input, by decide +kernel⟩,
  ⟨(queued 11 [⟨2, lengthWord 0 0 ⟨0, 0, 1, 0, 0⟩ 0⟩]).wr Reg.HAT_CTRL_RUN 1, _, 11, _,
    and3 (by decide +kernel) (some_pair (by decide +kernel))⟩,
  ⟨(queued 0x13 [⟨2, lengthWord 0 0 ⟨0, 63, 1, 0, 0⟩ 0⟩]).wr Reg.HAT_CTRL_RUN 1, _, 3, _, _,
    and3 (by decide +kernel) (some_triple (by decide +kernel))⟩,
  ⟨atStage .closed, _, epoch .closed, and2 (by decide +kernel) ⟨rfl, by decide +kernel⟩⟩,
  ⟨atStage .tracked, epoch .tracked, by decide +kernel⟩,
  ⟨{ on with plateMap := 2 ^ 33 }, 33, 835583, [1], by decide +kernel⟩⟩

theorem witness_HatchCommandsComplete_2 :
    (∃ (s : State) (e : HEpoch), s.epochAtStage HStage.placed = some e ∧ e.closeTick + usTicks (s.rd Reg.HAT_VOTE_EVID_WAIT) ≤ s.ticks) ∧
    (∃ (s : State) (u : State) (e : HEpoch), u = s.waitDone ∧ u.hatchRuns = true ∧ u.epochAtStage HStage.waited = some e ∧
    (u.hitRecords e u.free).flatten.length ≤ 25165824) ∧
    (∃ (s : State) (e : HEpoch), s.hatchRuns = true ∧ s.epochAtStage HStage.voted = some e ∧ e.grid.length ≤ 262144) ∧
    (∃ (s : State) (k : Fin 6), s.hat.early.contains (k.val + 1) = true) ∧
    (∃ (s : State) (k : Fin 6) (t : ℕ), s.hat.running.find (k.val + 1) = some t ∧ t + usTicks (s.rd Reg.HAT_WD_LATE_US k.val) ≤ s.ticks ∧
    s.hat.lateHit.contains (k.val + 1) = false) :=
  ⟨⟨{ atStage .placed with ticks := 10000000 }, epoch .placed, by decide +kernel⟩,
  ⟨atStage .waited, _, epoch .waited, rfl, by decide +kernel⟩,
  ⟨atStage .voted, epoch .voted, by decide +kernel⟩,
  ⟨{ on with hat := { on.hat with early := [3] } }, 2, by decide +kernel⟩,
  ⟨{ on with ticks := 10000000, hat := { on.hat with running := on.hat.running.set 6 0 } }, 5, 0, by decide +kernel⟩⟩

theorem witness_SelfTestCommandsComplete_1 :
    (∃ (s : State), s.power = Power.up ∧ s.hatchRuns = true ∧ s.gold.running = false ∧ s.gold.forcedAt ≠ none ∧
    s.goldenCollides = false ∧ s.stagesUp = true) ∧
    (∃ (s : State) (t : ℕ) (e : ℕ), s.power = Power.up ∧ s.hatchRuns = true ∧ s.gold.running = false ∧ s.gold.forcedAt = none ∧
    s.goldenDue = some t ∧ s.goldenEntry = some e ∧ s.stagesUp = true) ∧
    (∃ (s : State) (t : ℕ), s.gold.forcedAt = some t ∧ t + usTicks (s.rd Reg.SUP_GOLD_FORCE_US) ≤ s.ticks ∧ s.goldenCollides = true) ∧
    (∃ (s : State), s.gold.running = true ∧ s.hatchRuns = true ∧ s.flag Reg.SUP_GOLD_REF_VALID = false) ∧
    (∃ (s : State) (upsets : List (BitVec 64)), s.gold.running = true ∧ s.hatchRuns = true ∧ s.flag Reg.SUP_GOLD_REF_VALID = true ∧
    s.gold.repeated = false ∧ (∃ k, 1 ≤ k ∧ k ≤ 6 ∧ crc64 (s.goldenOutput k) ^^^ (upsets.getD (k - 1) 0).toNat ≠ s.goldenRef k)) ∧
    (∃ (s : State) (u : BitVec 32) (d : ℕ), s.power = Power.up ∧ sliceCount u.toNat ≠ 0 ∧ unitBuilt u.toNat = true ∧
    s.unitUp u.toNat = true ∧ s.sliced u.toNat = false ∧ d ≤ 200000 ∧ s.sliceOk u.toNat d = true) :=
  ⟨⟨{ on with gold := { on.gold with forcedAt := some 0 } }, by decide +kernel⟩,
  ⟨ruling 4, 1, 0, by decide +kernel⟩,
  ⟨{ atStage .closed with ticks := 10000000000, gold := { on.gold with forcedAt := some 0 } }, 0, by decide +kernel⟩,
  ⟨{ on with gold := { on.gold with running := true } }, by decide +kernel⟩,
  ⟨({ on with gold := { on.gold with running := true } } : State).wr Reg.SUP_GOLD_REF_VALID 1, [1], and4 (by decide +kernel) ⟨1,
    by decide +kernel⟩⟩,
  ⟨on, 0x0D000000, 0, by decide +kernel⟩⟩

theorem witness_SelfTestCommandsComplete_2 :
    (∃ (s : State) (u : BitVec 32) (d : ℕ), s.power = Power.up ∧ sliceCount u.toNat ≠ 0 ∧ unitBuilt u.toNat = true ∧
    s.unitUp u.toNat = true ∧ s.sliced u.toNat = false ∧ d ≤ 200000 ∧ s.sliceOk u.toNat d = false) ∧
    (∃ (s : State) (u : BitVec 32) (x : ℕ × ℕ × ℕ), List.find? (fun x => x.1 == u.toNat) s.gold.slices = some x ∧
    sliceCount u.toNat ≤ s.gold.passed.get 0 u.toNat + 1) ∧
    (∃ (s : State) (u : BitVec 32) (x : ℕ × ℕ × ℕ), List.find? (fun x => x.1 == u.toNat) s.gold.slices = some x ∧
    s.gold.passed.get 0 u.toNat + 1 < sliceCount u.toNat) ∧
    (∃ (s : State) (u : BitVec 32) (x : ℕ × ℕ × ℕ), List.find? (fun x => x.1 == u.toNat) s.gold.slices = some x) ∧
    (∃ (s : State) (u : BitVec 32), s.power = Power.up ∧ sliceCount u.toNat ≠ 0 ∧ unitBuilt u.toNat = true ∧ s.unitUp u.toNat = true ∧
    s.gold.since.get s.gold.begun u.toNat + s.rd Reg.SUP_BIST_INTERVAL_S * 250000000 ≤ s.ticks) :=
  ⟨⟨({ on with tm := { on.tm with dt96 := 900000 * 2 ^ 32 } } : State).wr Reg.PAR_STAT_SWAP_PENDING 1, 0x0D000000, 200000,
    by decide +kernel⟩,
  ⟨{ on with gold := { on.gold with slices := [(0x0D000000, 0, 1)], passed := on.gold.passed.set 0x0D000000 39 } }, 0x0D000000,
    (0x0D000000, 0, 1), by decide +kernel⟩,
  ⟨{ on with gold := { on.gold with slices := [(0x0D000000, 0, 1)], passed := on.gold.passed.set 0x0D000000 38 } }, 0x0D000000,
    (0x0D000000, 0, 1), by decide +kernel⟩,
  ⟨{ on with gold := { on.gold with slices := [(0x0D000000, 0, 1)] } }, 0x0D000000, (0x0D000000, 0, 1), by decide +kernel⟩,
  ⟨{ on with ticks := 10 ^ 15 }, 0x0D000000, by decide +kernel⟩⟩

theorem witness_StippleCommandsComplete :
    (∃ (s : State) (j : Job), s.stpFirst = some j ∧ s.stp.run = none ∧ j.phase = Phase.started ∧ (s.unit stpUnit).offline = false ∧
    s.flag Reg.STP_CTRL_HOLD = false ∧ s.unitUp stpUnit = true ∧ s.sliced stpUnit = false ∧ j.param ≠ [] ∧
    (j.arg 32 1 = 1 → s.srcGone j.param = none)) ∧
    (∃ (s : State) (u : State) (j : Job) (o : StpOut) (k : Fin 4) (c : StpDet → Instr) (f : State → Job → SRead StpOut), ((c, f) =
  match k.val with
  | 0 => (Instr.voxelise, State.voxelise)
  | 1 => (Instr.sort, State.sortJob)
  | 2 => (Instr.neighbours, State.neighbours)
  | _ => (Instr.rulebook, State.ruleBook)) ∧ s.stpRunning (k.val + 1) = some j ∧ s.stp.out = none ∧ f s j = (u, Except.ok o) ∧
    u.stp.hit = false) ∧
    (∃ (s : State) (u : State) (j : Job) (o : StpOut) (k : Fin 4) (c : StpDet → Instr) (f : State → Job → SRead StpOut), ((c, f) =
  match k.val with
  | 0 => (Instr.voxelise, State.voxelise)
  | 1 => (Instr.sort, State.sortJob)
  | 2 => (Instr.neighbours, State.neighbours)
  | _ => (Instr.rulebook, State.ruleBook)) ∧ s.stpRunning (k.val + 1) = some j ∧ s.stp.out = none ∧ f s j = (u, Except.ok o)) :=
  ⟨⟨withJob (jobOf .started 0x11 1 [] (zeros 64)), jobOf .started 0x11 1 [] (zeros 64), by decide +kernel⟩,
  (let ⟨o, h⟩ := exc_ok (x := (stippling 2 (zeros 64) []).sortJob (stpJob 2 (zeros 64))) (by decide +kernel); ⟨stippling 2 (zeros 64) [],
    _, stpJob 2 (zeros 64), o, 1, .sort, State.sortJob, rfl, by decide +kernel, by decide +kernel, h, by decide +kernel⟩),
  (let ⟨o, h⟩ := exc_ok (x := (stippling 2 (zeros 64) []).sortJob (stpJob 2 (zeros 64))) (by decide +kernel); ⟨stippling 2 (zeros 64) [],
    _, stpJob 2 (zeros 64), o, 1, .sort, State.sortJob, rfl, by decide +kernel, by decide +kernel, h⟩)⟩

theorem witness_ArrayCommandsComplete_1 :
    (∃ (s : State) (p : Fin 34) (q : Queued) (j : Job), s.arrayHead (p.val) 1 = some (q, j)) ∧
    (∃ (s : State) (p : Fin 34) (q : Queued) (j : Job), s.arrayHead (p.val) 2 = some (q, j) ∧ s.proofHeld (p.val) q j = false ∧
    bcRows q.bytes ≠ 0) ∧
    (∃ (s : State) (p : Fin 34) (q : Queued) (j : Job), s.arrayHead (p.val) 3 = some (q, j) ∧ bcRows q.bytes = 1 ∧
    bcGather q.bytes = false ∧ bcScatter q.bytes = false ∧ outBytes (bcOut q.bytes) ≠ 0) ∧
    (∃ (s : State) (p : Fin 34) (q : Queued) (j : Job), s.arrayHead (p.val) 3 = some (q, j)) ∧
    (∃ (s : State) (p : Fin 34) (q : Queued) (j : Job), s.arrayHead (p.val) 4 = some (q, j)) ∧
    (∃ (s : State) (p : Fin 34) (q : Queued) (j : Job), s.arrayHead (p.val) 0 = some (q, j)) :=
  ⟨⟨arrays (burin 1 0), 33, burin 1 0, launchJob .running, by decide +kernel⟩,
  ⟨arrays (burin 2 64), 33, burin 2 64, launchJob .running, by decide +kernel⟩,
  ⟨arrays (burin 3 1), 33, burin 3 1, launchJob .running, by decide +kernel⟩,
  ⟨arrays (burin 3 64), 33, burin 3 64, launchJob .running, by decide +kernel⟩,
  ⟨arrays (burin 4 0), 33, burin 4 0, launchJob .running, by decide +kernel⟩,
  ⟨arrays (burin 0 0), 33, burin 0 0, launchJob .running, by decide +kernel⟩⟩

theorem witness_ArrayCommandsComplete_2 :
    (∃ (s : State) (u : State) (p : Fin 34) (c : Fin 64) (rs1 : Fin 32) (o : ℕ),
    (s.issue (p.val) (c.val) 4 fun h => h == Hold.burin) = (u, true) ∧
    u.ownLm (p.val) (c.val) ((u.core p.val c.val).xr rs1.val) 32 32 = some o ∧
    burinError (u.plateRead (p.val) (u.lmOfs (p.val) (c.val) o) 32) (u.plate p.val).arr (u.abufLimit p.val) = 0 ∧
    (u.plate p.val).arr.entries < 32) ∧
    (∃ (s : State) (p : Fin 34) (j : Job) (l : Launch), s.runningOn p.val = some (j, l) ∧ (∃ c < 64,
    bit (s.core (p.val) c).irq 16 = true)) :=
  ⟨⟨running (coreAt), _, 33, 63, 10, 0, pair_snd (by decide +kernel), by decide +kernel⟩,
  ⟨running { coreRun with irq := 65536 }
    { plateRun with arr := { ArrSt.reset with tiles := [⟨3, [], .empty, [], false, 2⟩], fails := [⟨some 3, 0, 1, 0, none⟩] } }, 33,
    launchJob .running, launch [33], by decide +kernel, ⟨63, by decide +kernel⟩⟩⟩

theorem witness_PlateDmaAndLaunchCommandsComplete_1 :
    (∃ (s : State) (u : State) (p : Fin 34) (c : Fin 64) (rs1 : Fin 32) (o : ℕ) (j : Job) (l : Launch),
    (s.issue (p.val) (c.val) 4 fun h => h == Hold.dmaq) = (u, true) ∧ s.runningOn p.val = some (j, l) ∧
    u.ownLm (p.val) (c.val) ((u.core p.val c.val).xr rs1.val) 32 32 = some o ∧
    u.dmaError (p.val) l (u.plateRead (p.val) (u.lmOfs (p.val) (c.val) o) 32) = 0 ∧ (u.plate p.val).dma.length < 64) ∧
    (∃ (s : State) (p : Fin 34) (q : Queued) (j : Job) (l : Launch), s.dmaHead (p.val) 0 = some (q, j, l) ∧ s.portFull q.bytes = false ∧
    dmRowBytes q.bytes = 0 ∧ dmSig q.bytes = false) ∧
    (∃ (s : State) (v : State) (p : Fin 34) (det : ReadFault) (upTo : Option ℕ) (q : Queued) (j : Job) (l : Launch) (m : Fin 3) (c :
    Instr) (k : ℕ) (n : ℕ), (c =
  match m.val with
  | 0 => Instr.dmaRows p { det := det, upTo := upTo : Stretch }
  | 1 => Instr.dmaGather p { det := det, upTo := upTo : Stretch }
  | _ => Instr.dmaScatter p { det := det, upTo := upTo : Stretch }) ∧ s.dmaHead p.val m.val = some (q, j, l) ∧
    s.portFull q.bytes = false ∧ dmRowBytes q.bytes ≠ 0 ∧
    State.moveRows (p.val) j.context j.id l q det (s.dmaStop (p.val) q.bytes upTo) (dmRows q.bytes + 1) (s.chanStart (p.val) j.context
    (s.plate p.val).dmaDone (s.rd Reg.MEM_CH_BYTES_DONE p.val) j.tag false) (s.rd Reg.MEM_CH_BYTES_DONE p.val / dmRowBytes q.bytes) (s.rd
    Reg.MEM_CH_BYTES_DONE p.val % dmRowBytes q.bytes) = (v, k, Moved.did n) ∧ dmRows q.bytes * dmRowBytes q.bytes ≤ k) ∧
    (∃ (s : State) (sq : Fin 64) (d : List Byte), s.alive = true ∧ s.inSession = true ∧ s.flag Reg.HTP_SQ_EN sq.val = true ∧
    (s.rd Reg.HTP_SQ_IDX_TAIL sq.val + 2 ^ 32 - s.rd Reg.HTP_SQ_IDX_FREED sq.val) % 2 ^ 32 < 2 ^ s.rd Reg.HTP_SQ_LOG2_SIZE sq.val ∧
    d.length = 64 ∧ fld d 0 2 = 16) ∧
    (∃ (s : State) (u : State) (job : ℕ) (j : Job), s.startedJob job 16 = some j ∧ j.param ≠ [] ∧ (∀ p ∈ s.launchPlates j,
    s.plateUsable p = true ∧ s.plateFree p = true ∧ s.sliced (unitId 1 p) = false) ∧ s.mayRun j = true ∧ s.launchFirst j = true ∧
    s.makeRoom (s.launchPlates j) j.part j.id = (u, true)) ∧
    (∃ (s : State) (job : ℕ) (j : Job) (l : Launch), s.job job = some j ∧ s.launches.find job = some l ∧ j.phase = Phase.running ∧
    s.launchOver l = true ∧ l.dataErr = none) :=
  ⟨⟨running (coreAt), _, 33, 63, 10, 0, launchJob .running, launch [33], pair_snd (by decide +kernel), by decide +kernel⟩,
  ⟨moving (dmaDesc 1 0), 33, dmaDesc 1 0, launchJob .running, launch [33], by decide +kernel⟩,
  ⟨moving (dmaDesc 1 4), _, 33, ⟨0, 0⟩, none, dmaDesc 1 4, launchJob .running, launch [33], 0, _, _, 0, rfl,
    and3 (by decide +kernel) ⟨triple_snd (by decide +kernel), by decide +kernel⟩⟩,
  ⟨inSession.wr Reg.HTP_SQ_EN 1 63, 63, descOf 0x10 0 [], by decide +kernel⟩,
  ⟨(withJob (launchJob .started) mapped).wr Reg.PLT_STAT_STATE 1 0, _, 1, launchJob .started,
    and5 (by decide +kernel) (pair_snd (by decide +kernel))⟩,
  ⟨running { coreRun with exited := true } plateRun { launch [33] with cores := 0 }, 1, launchJob .running,
    { launch [33] with cores := 0 }, by decide +kernel⟩⟩

theorem witness_PlateDmaAndLaunchCommandsComplete_2 :
    (∃ (s : State) (job : ℕ) (j : Job) (l : Launch) (tile : ℕ) (unit : ℕ) (cause : ℕ), s.job job = some j ∧
    s.launches.find job = some l ∧ j.phase = Phase.running ∧ s.launchOver l = true ∧ l.dataErr = some (tile, unit, cause)) ∧
    (∃ (s : State) (p : Fin 34) (j : Job) (l : Launch), s.runningOn p.val = some (j, l) ∧ s.rd Reg.PLT_STAT_STATE p.val = 3 ∧
    s.dmaStopped p.val = true ∧ (s.flag Reg.PLT_ARR_STAT_AT_TB p.val = true ∨ s.tbOver (p.val) l = true)) ∧
    (∃ (s : State) (u : State) (v : State) (job : ℕ) (j : Job) (l : Launch), s.job job = some j ∧ s.launches.find job = some l ∧
    j.phase = Phase.saved ∧ s.mayRun j = true ∧ s.launchFirst j = true ∧ (∀ p ∈ l.plates, s.plateUsable p = true ∧
    (s.rd Reg.PLT_STAT_STATE p = 1 ∨ s.rd Reg.PLT_STAT_STATE p = 4)) ∧ s.makeRoom l.plates j.part j.id = (u, true) ∧
    u.restoreAll j l = (v, true)) :=
  ⟨⟨running coreRun plateRun { launch [33] with cores := 0, dataErr := some (5, 6, 1) }, 1, launchJob .running,
    { launch [33] with cores := 0, dataErr := some (5, 6, 1) }, 5, 6, 1, by decide +kernel⟩,
  ⟨running.wr Reg.PLT_STAT_STATE 3 33, 33, launchJob .running, launch [33], by decide +kernel⟩,
  ⟨({ withJob (launchJob .saved) mapped with launches := mapped.launches.set 1 savedLaunch } : State).wr Reg.PLT_STAT_STATE 4 0, _, _, 1,
    launchJob .saved, savedLaunch, and6 (by decide +kernel) ⟨pair_snd (by decide +kernel), pair_snd (by decide +kernel)⟩⟩⟩

theorem witness_NeedleScalarCommandsComplete_1 :
    (∃ (s : State) (u : State) (p : Fin 34) (c : Fin 64) (w : BitVec 32), s.issue (p.val) (c.val) 4 noHold = (u, true) ∧
    bits w.toNat 0 7 = 19 ∧ iF3 w.toNat = 0) ∧
    (∃ (s : State) (u : State) (p : Fin 34) (c : Fin 64) (w : BitVec 32), s.issue (p.val) (c.val) 4 noHold = (u, true) ∧
    w.toNat % 4 = 3 ∧ (bits w.toNat 0 7 = 11 ∨ bits w.toNat 0 7 = 43 → isXneedle w.toNat = false)) ∧
    (∃ (s : State) (u : State) (p : Fin 34) (c : Fin 64) (w : BitVec 32) (v : ℕ), s.issue (p.val) (c.val) 2 noHold = (u, true) ∧
    w.toNat % 4 ≠ 3 ∧ expandC (w.toNat % 65536) = some v) ∧
    (∃ (s : State) (u : State) (p : Fin 34) (c : Fin 64), s.issue (p.val) (c.val) 4 noHold = (u, true) ∧ (u.core p.val c.val).xr 17 = 0 ∧
    (u.core p.val c.val).machine = false) ∧
    (∃ (s : State) (u : State) (p : Fin 34) (c : Fin 64) (rs1 : Fin 32) (j : Job) (l : Launch), s.issue (p.val) (c.val) 4 noHold = (u,
    true) ∧ u.coreMayUse (p.val) ((u.core p.val c.val).xr rs1.val % 65536) = true ∧ u.runningOn p.val = some (j, l)) ∧
    (∃ (s : State) (u : State) (p : Fin 34) (c : Fin 64) (rs1 : Fin 32) (rs2 : Fin 32), s.issue (p.val) (c.val) 4 isWait = (u, true) ∧
    (u.core p.val c.val).hold = none ∧ bits ((u.core p.val c.val).xr rs1.val) 48 16 = 0 ∧
    u.coreMayUse (p.val) ((u.core p.val c.val).xr rs1.val % 65536) = true ∧
    u.reached ((u.core p.val c.val).xr rs1.val % 65536) ((u.core p.val c.val).xr rs2.val) = true) :=
  ⟨⟨running, _, 33, 63, 0x13, pair_snd (by decide +kernel), by decide +kernel⟩,
  ⟨running, _, 33, 63, 0x33, pair_snd (by decide +kernel), by decide +kernel⟩,
  ⟨running, _, 33, 63, 1, mkI 0 0 0 0 0x13, pair_snd (by decide +kernel), by decide +kernel⟩,
  ⟨running, _, 33, 63, pair_snd (by decide +kernel), by decide +kernel⟩,
  ⟨running, _, 33, 63, 11, launchJob .running, launch [33], pair_snd (by decide +kernel), by decide +kernel⟩,
  ⟨running (coreAt), _, 33, 63, 11, 0, pair_snd (by decide +kernel), by decide +kernel⟩⟩

theorem witness_NeedleScalarCommandsComplete_2 :
    (∃ (s : State) (u : State) (p : Fin 34) (c : Fin 64) (rs1 : Fin 32) (rs2 : Fin 32), s.issue (p.val) (c.val) 4 isWait = (u, true) ∧
    (u.core p.val c.val).hold = none ∧ bits ((u.core p.val c.val).xr rs1.val) 48 16 = 0 ∧
    u.coreMayUse (p.val) ((u.core p.val c.val).xr rs1.val % 65536) = true ∧
    u.reached ((u.core p.val c.val).xr rs1.val % 65536) ((u.core p.val c.val).xr rs2.val) = false ∧
    bits ((u.core p.val c.val).xr rs1.val) 16 32 ≠ 0 ∧ (u.core p.val c.val).waitTill = none) ∧
    (∃ (s : State) (p : Fin 34) (c : Fin 64) (o : ℕ) (v : ℕ) (rd : ℕ) (d : Option ℕ), s.coreRuns p.val c.val = true ∧
    (s.core p.val c.val).hold = some (Hold.wait o v d rd) ∧ s.reached o v = true) ∧
    (∃ (s : State) (p : Fin 34) (c : Fin 64) (o : ℕ) (v : ℕ) (rd : ℕ) (t : ℕ), s.coreRuns p.val c.val = true ∧
    (s.core p.val c.val).hold = some (Hold.wait o v (some t) rd) ∧ s.reached o v = false ∧ t ≤ s.dt64) ∧
    (∃ (s : State) (u : State) (p : Fin 34) (c : Fin 64) (rs1 : Fin 32), s.issue (p.val) (c.val) 4 noHold = (u, true) ∧
    u.coreMayUse (p.val) ((u.core p.val c.val).xr rs1.val % 65536) = true) ∧
    (∃ (s : State) (u : State) (p : Fin 34) (c : Fin 64), s.issue (p.val) (c.val) 4 noHold = (u, true)) :=
  ⟨⟨running (coreAt (1 * 65536)), _, 33, 63, 11, 11, pair_snd (by decide +kernel), by decide +kernel⟩,
  ⟨running { coreRun with hold := some (.wait 0 0 none 0) }, 33, 63, 0, 0, 0, none, by decide +kernel⟩,
  ⟨running { coreRun with hold := some (.wait 0 1 (some 0) 0) }, 33, 63, 0, 1, 0, 0, by decide +kernel⟩,
  ⟨running (coreAt 0xFFFF), _, 33, 63, 11, pair_snd (by decide +kernel), by decide +kernel⟩,
  ⟨running, _, 33, 63, pair_snd (by decide +kernel)⟩⟩

theorem witness_NeedleVectorCommandsComplete_1 :
    (∃ (s : State) (u : State) (p : Fin 34) (c : Fin 64) (vm : Bool) (vs2 : Fin 32) (k : CoreSt), s.issue (p.val) (c.val) 4 noHold = (u,
    true) ∧ k = u.core p.val c.val ∧ groupOk (vs2.val) (lmul8 k.vtype) = true ∧ k.vecOk vm true = true ∧ k.vl ≠ 0) ∧
    (∃ (s : State) (u : State) (p : Fin 34) (c : Fin 64) (vm : Bool) (d : Fin 32) (vs2 : Fin 32) (k : CoreSt),
    s.issue (p.val) (c.val) 4 noHold = (u, true) ∧ k = u.core p.val c.val ∧ groupOk (vs2.val) (lmul8 k.vtype) = true ∧
    k.vecOk vm false = true ∧ groupOk (d.val) (lmul8 k.vtype) = true) ∧
    (∃ (s : State) (u : State) (p : Fin 34) (c : Fin 64) (vm : Bool) (d : Fin 32) (vs2 : Fin 32) (rs1 : Fin 32) (k : CoreSt) (o : ℕ),
    s.issue (p.val) (c.val) 4 noHold = (u, true) ∧ k = u.core p.val c.val ∧ groupOk (vs2.val) (lmul8 k.vtype) = true ∧
    k.vecOk vm false = true ∧ groupOk (d.val) (lmul8 k.vtype) = true ∧ u.ownLm (p.val) (c.val) (k.xr rs1.val) 8 2064 = some o) ∧
    (∃ (s : State) (u : State) (p : Fin 34) (c : Fin 64) (vm : Bool) (vs2 : Fin 32) (k : CoreSt), s.issue (p.val) (c.val) 4 noHold = (u,
    true) ∧ k = u.core p.val c.val ∧ groupOk (vs2.val) (lmul8 k.vtype) = true ∧ k.vecOk vm false = true) ∧
    (∃ (s : State) (u : State) (p : Fin 34) (c : Fin 64) (vm : Bool) (fmt : Fin 5) (d : Fin 32) (vs2 : Fin 32) (k : CoreSt),
    s.issue (p.val) (c.val) 4 noHold = (u, true) ∧ k = u.core p.val c.val ∧ groupOk (vs2.val) (lmul8 k.vtype) = true ∧
    k.vecOk vm false = true ∧ packedOk (d.val) (lmul8 k.vtype) (fmtBits fmt.val) = true) ∧
    (∃ (s : State) (u : State) (p : Fin 34) (c : Fin 64) (vm : Bool) (fmt : Fin 5) (d : Fin 32) (vs2 : Fin 32) (k : CoreSt),
    s.issue (p.val) (c.val) 4 noHold = (u, true) ∧ k = u.core p.val c.val ∧ groupOk (vs2.val) (lmul8 k.vtype) = true ∧
    k.vecOk vm false = true ∧ groupOk (d.val) (lmul8 k.vtype) = true ∧ packedOk (vs2.val) (lmul8 k.vtype) (fmtBits fmt.val) = true) :=
  ⟨⟨running (coreAt), _, 33, 63, true, 31, _, pair_snd (by decide +kernel), rfl, by decide +kernel⟩,
  ⟨running (coreAt), _, 33, 63, true, 31, 0, _, pair_snd (by decide +kernel), rfl, by decide +kernel⟩,
  ⟨running (coreAt), _, 33, 63, true, 31, 0, 10, _, 0, pair_snd (by decide +kernel), rfl, by decide +kernel⟩,
  ⟨running (coreAt), _, 33, 63, true, 31, _, pair_snd (by decide +kernel), rfl, by decide +kernel⟩,
  ⟨running (coreAt), _, 33, 63, true, 4, 31, 0, _, pair_snd (by decide +kernel), rfl, by decide +kernel⟩,
  ⟨running (coreAt), _, 33, 63, true, 0, 31, 31, _, pair_snd (by decide +kernel), rfl, by decide +kernel⟩⟩

theorem witness_NeedleVectorCommandsComplete_2 : ∃ (s : State) (u : State) (p : Fin 34) (c : Fin 64) (vm : Bool) (vs2 : Fin 32) (k :
    CoreSt), s.issue (p.val) (c.val) 4 noHold = (u, true) ∧ k = u.core p.val c.val ∧ groupOk (vs2.val) (lmul8 k.vtype) = true ∧
    k.vecOk vm false = true ∧ k.vl ≤ 32 :=
  ⟨running (coreAt), _, 33, 63, true, 31, _, pair_snd (by decide +kernel), rfl, by decide +kernel⟩

theorem witness_TracerCommandsComplete :
    (∃ (s : State) (v : State) (w : State) (t : Fin 2) (cmd : List Byte) (ch : ℕ) (st : ℕ) (n : ℕ) (r : List (List Byte × ℕ)) (c :
    KvCache), (s.tracer t.val).queue = (cmd, ch) :: r ∧ s.tracerUp t.val = true ∧
    v = s.setTracer (t.val) ({ s.tracer t.val with queue := r : TracerSt }) ∧ v.caches.find (fld cmd 1 1) = some c ∧
    tracerBadField c (t.val) cmd = false ∧ v.seqState (fld cmd 1 1) (fld cmd 4 4) = some sqActive ∧
    v.stBad (fld cmd 1 1) (fld cmd 4 4) (fld cmd 8 2) 0 64 = false ∧ st ≠ stDataErr ∧ fld cmd 0 1 = 1 ∧
    commitRun v cmd (fld cmd 1 1) (fld cmd 4 4) (fld cmd 8 2) = some (w, st, n)) ∧
    (∃ (s : State) (v : State) (w : State) (t : Fin 2) (cmd : List Byte) (ch : ℕ) (st : ℕ) (n : ℕ) (r : List (List Byte × ℕ)) (c :
    KvCache), (s.tracer t.val).queue = (cmd, ch) :: r ∧ s.tracerUp t.val = true ∧
    v = s.setTracer (t.val) ({ s.tracer t.val with queue := r : TracerSt }) ∧ v.caches.find (fld cmd 1 1) = some c ∧
    tracerBadField c (t.val) cmd = false ∧ v.seqState (fld cmd 1 1) (fld cmd 4 4) = some sqActive ∧
    v.stBad (fld cmd 1 1) (fld cmd 4 4) (fld cmd 8 2) 0 64 = false ∧ st ≠ stDataErr ∧ fld cmd 0 1 = 2 ∧
    scoreRun v cmd (fld cmd 1 1) (fld cmd 4 4) (fld cmd 8 2) = some (w, st, n)) ∧
    (∃ (s : State) (v : State) (w : State) (t : Fin 2) (cmd : List Byte) (ch : ℕ) (st : ℕ) (n : ℕ) (r : List (List Byte × ℕ)) (c :
    KvCache), (s.tracer t.val).queue = (cmd, ch) :: r ∧ s.tracerUp t.val = true ∧
    v = s.setTracer (t.val) ({ s.tracer t.val with queue := r : TracerSt }) ∧ v.caches.find (fld cmd 1 1) = some c ∧
    tracerBadField c (t.val) cmd = false ∧ v.seqState (fld cmd 1 1) (fld cmd 4 4) = some sqActive ∧
    v.stBad (fld cmd 1 1) (fld cmd 4 4) (fld cmd 8 2) 0 64 = false ∧ st ≠ stDataErr ∧ fld cmd 0 1 = 3 ∧
    mapRun v cmd (fld cmd 1 1) (fld cmd 4 4) (fld cmd 8 2) = some (w, st, n)) ∧
    (∃ (s : State) (w : State) (t : Fin 2) (ci : Fin 4) (q : ℕ) (l : ℕ) (b : Bool), (s.kv ci.val).held.contains (q, l) = true ∧
    q % 2 = t.val ∧ s.flush (ci.val) q l = some (w, b)) ∧
    (∃ (s : State) (w : State) (p : Fin 34) (ci : Fin 4) (q : ℕ) (l : ℕ) (pg : ℕ) (m : LabMap), (s.caches.find ci.val).isSome = true ∧
    q < (s.kv ci.val).maxSeqs ∧ l < (s.kv ci.val).layers ∧ s.tracerUp (q % 2) = true ∧
    ((s.labs.get [] p.val).any fun e => e.cache == ci.val && e.seq == q && e.layer == l && e.page == pg) = false ∧
    s.labWalk (p.val) (ci.val) q l pg = some (w, m)) ∧
    (∃ (s : State) (v : State) (w : State) (t : Fin 2) (ci : Fin 4) (slot : ℕ) (n : ℕ) (tag : ℕ),
    List.find? (fun x => x.1 == slot) (s.kv ci.val).quar = some (n, tag) ∧ n % 2 = t.val ∧ (∀ r ∈ (s.tracer t.val).pins.rows, r.2 = 0) ∧
    s.slotCount (ci.val) n = some 0 ∧ s.setSlot (ci.val) n 0 slFree = some v ∧ (w =
  v.setKv (ci.val)
    ({ v.kv ci.val with quar := List.filter (fun y => y.1 != n) (s.kv ci.val).quar : KvCache }))) :=
  ⟨⟨tracing 1 1, _, _, 0, trcCmd 1 1, 0, 0, _, [], cache0, and2 (by decide +kernel) ⟨rfl,
    and6 (by decide +kernel) (some_mid (by decide +kernel) (by decide +kernel))⟩⟩,
  ⟨tracing 2 1, _, _, 0, trcCmd 2 1, 0, 0, _, [], cache0, and2 (by decide +kernel) ⟨rfl,
    and6 (by decide +kernel) (some_mid (by decide +kernel) (by decide +kernel))⟩⟩,
  ⟨tracing 3 1, _, _, 0, trcCmd 3 1, 0, 0, _, [], cache0, and2 (by decide +kernel) ⟨rfl,
    and6 (by decide +kernel) (some_mid (by decide +kernel) (by decide +kernel))⟩⟩,
  ⟨cached cacheFull 1 0 0 0 64, _, 0, 0, 0, 0, _, and2 (by decide +kernel) (some_pair (by decide +kernel))⟩,
  ⟨cached cache0 1 0 0 0 0, _, 33, 0, 0, 0, 0, _, and5 (by decide +kernel) (some_pair (by decide +kernel))⟩,
  ⟨cached { cache0 with quar := [(0, 7)] } 1 0 (2 * 2 ^ 24) 0 0, _, _, 0, 0, 0, 0, 7, and2 (by decide +kernel) ⟨(by decide +kernel),
    by decide +kernel, some_get (by decide +kernel), rfl⟩⟩⟩

theorem witness_CacheCommandsComplete_1 :
    (∃ (s : State) (u : State) (job : ℕ) (j : Job) (c : KvCache), s.startedOp job 19 1 = some j ∧ j.param ≠ [] ∧
    c = { block := j.param, bufs := Tbl.empty, held := [], quar := [], remote := Tbl.empty : KvCache } ∧ s.kvFits c = true ∧
    s.caches.find (j.arg 33 1) = none ∧ (s.setKv (j.arg 33 1) c).kvClear (j.arg 33 1) (c.b 40 8 / 4096 + 2) c.tables (8 * c.maxSeqs + 16
    * c.entries + 64 * c.slots) = some u) ∧
    (∃ (s : State) (job : ℕ) (j : Job) (ci : ℕ), s.startedOp job 19 2 = some j ∧ ci = j.arg 33 1 ∧ (s.caches.find ci).isSome = true ∧
    s.sliced (unitId 5 0) = false ∧ s.sliced (unitId 5 1) = false ∧ (∀ q < (s.kv ci).maxSeqs, s.seqState ci q = some sqFree) ∧
    (s.kv ci).quar = []) ∧
    (∃ (s : State) (u : State) (v : State) (w : State) (job : ℕ) (j : Job) (ci : ℕ) (q : ℕ) (l : List ℕ), s.startedOp job 19 3 = some j ∧
    ci = j.arg 33 1 ∧ q = j.arg 36 4 ∧ (s.caches.find ci).isSome = true ∧ q < (s.kv ci).maxSeqs ∧ s.tracerUp (q % 2) = true ∧
    s.sliced (unitId 5 0) = false ∧ s.sliced (unitId 5 1) = false ∧ (j.arg 40 4 = 0 ∨ (s.kv ci).recent + 2 ≤ j.arg 40 4) ∧
    j.arg 40 4 ≤ 65535 ∧ s.seqState ci q = some sqFree ∧ s.freeBufs ci (q % 2) (s.kv ci).layers = some l ∧
    ((s.dropSeqLabs ci q).setKv ci ({ s.kv ci with bufs := (s.kv ci).bufs.set q l : KvCache })).setSeq ci q sqActive = some u ∧
    u.setTab ci (q % 2) (dirOfs q + 2) 2 (j.arg 40 4) = some v ∧
    List.foldlM (fun x ly => x.openBuffer ci q ly 0) v (List.range (s.kv ci).layers) = some w) ∧
    (∃ (s : State) (job : ℕ) (j : Job) (ci : ℕ) (q : ℕ), s.startedOp job 19 4 = some j ∧ ci = j.arg 33 1 ∧ q = j.arg 36 4 ∧
    (s.caches.find ci).isSome = true ∧ q < (s.kv ci).maxSeqs ∧ s.tracerUp (q % 2) = true ∧ s.sliced (unitId 5 0) = false ∧
    s.sliced (unitId 5 1) = false ∧ j.arg 40 4 < (s.kv ci).maxSeqs ∧ j.arg 40 4 % 2 = q % 2 ∧ j.arg 44 4 = 0) ∧
    (∃ (s : State) (u : State) (v : State) (w : State) (job : ℕ) (j : Job) (ci : ℕ) (q : ℕ) (n : ℕ) (len : ℕ) (budget : ℕ) (bufs : List
    ℕ) (lens : List ℕ) (fs : List (Option (Option ℕ))), s.startedOp job 19 4 = some j ∧ ci = j.arg 33 1 ∧ q = j.arg 36 4 ∧
    (s.caches.find ci).isSome = true ∧ q < (s.kv ci).maxSeqs ∧ s.tracerUp (q % 2) = true ∧ s.sliced (unitId 5 0) = false ∧
    s.sliced (unitId 5 1) = false ∧ j.arg 40 4 < (s.kv ci).maxSeqs ∧ j.arg 40 4 % 2 = q % 2 ∧ len = j.arg 44 4 ∧ len ≠ 0 ∧
    s.seqState ci q = some sqFree ∧ s.seqState ci (j.arg 40 4) = some sqActive ∧
    List.mapM (fun l => s.layerLen ci (j.arg 40 4) l) (List.range (s.kv ci).layers) = some lens ∧ (∀ x ∈ lens, x = lens.getD 0 0) ∧
    len ≤ lens.getD 0 0 ∧ (List.mapM (fun p => s.pageFails ci (j.arg 40 4) p.1 p.2) (if len % 64 = 0 then [] else List.map (fun l => (l,
    len / 64)) (List.range (s.kv ci).layers)) = some fs) ∧ List.findSome? id fs = none ∧
    s.freeBufs ci (q % 2) (s.kv ci).layers = some bufs ∧
    ((s.dropSeqLabs ci q).setKv ci ({ s.kv ci with bufs := (s.kv ci).bufs.set q bufs : KvCache })).setSeq ci q sqActive = some u ∧
    u.tab ci (dirOfs (j.arg 40 4) + 2) 2 = some budget ∧ u.setTab ci (q % 2) (dirOfs q + 2) 2 budget = some v ∧
    List.foldlM (State.forkLayer ci q (j.arg 40 4) len) (v, 0) (List.range (s.kv ci).layers) = some (w, n)) ∧
    (∃ (s : State) (job : ℕ) (j : Job) (ci : ℕ) (q : ℕ), s.startedOp job 19 5 = some j ∧ ci = j.arg 33 1 ∧ q = j.arg 36 4 ∧
    (s.caches.find ci).isSome = true ∧ q < (s.kv ci).maxSeqs ∧ s.tracerUp (q % 2) = true ∧ s.sliced (unitId 5 0) = false ∧
    s.sliced (unitId 5 1) = false ∧ j.arg 44 4 = 0) :=
  ⟨⟨withJob (cacheJob 1 0 0 0 kvBlock) mapped, _, 1, cacheJob 1 0 0 0 kvBlock, _, and2 (by decide +kernel) ⟨rfl,
    and2 (by decide +kernel) (some_get (by decide +kernel))⟩⟩,
  ⟨withJob (cacheJob 2 0 0 0) { on with caches := on.caches.set 0 kvEmpty }, 1, cacheJob 2 0 0 0, 0, by decide +kernel⟩,
  ⟨withJob (cacheJob 3 0 0 0) (cached cache0 0 0 0 0 0), _, _, _, 1, cacheJob 3 0 0 0, 0, 0, _,
    and9 (by decide +kernel) (and2 (by decide +kernel) ⟨some_get (by decide +kernel), some_get (by decide +kernel),
    some_get (by decide +kernel), some_get (by decide +kernel)⟩)⟩,
  ⟨withJob (cacheJob 4 2 0 0) (cached cache0 1 0 0 0 0), 1, cacheJob 4 2 0 0, 0, 2, by decide +kernel⟩,
  ⟨withJob (cacheJob 4 2 0 64) (cached cache0 1 1 (1 + 2 ^ 24) 1 0), _, _, _, 1, cacheJob 4 2 0 64, 0, 2, _, 64, _, _, _, _,
    and9 (by decide +kernel) (and5 (by decide +kernel) ⟨some_get (by decide +kernel),
    and2 (by decide +kernel) ⟨some_get (by decide +kernel), by decide +kernel, some_get (by decide +kernel),
    some_get (by decide +kernel), some_get (by decide +kernel), some_get (by decide +kernel), some_pair (by decide +kernel)⟩⟩)⟩,
  ⟨withJob (cacheJob 5 0 0 0) (cached cache0 1 0 0 0 0), 1, cacheJob 5 0 0 0, 0, 0, by decide +kernel⟩⟩

theorem witness_CacheCommandsComplete_2 :
    (∃ (s : State) (w : State) (job : ℕ) (j : Job) (ci : ℕ) (q : ℕ) (n : ℕ) (l : List (Bool × Bool)) (cut : List (List (ℕ × ℕ))) (fs :
    List (Option (Option ℕ))), s.startedOp job 19 5 = some j ∧ ci = j.arg 33 1 ∧ q = j.arg 36 4 ∧ (s.caches.find ci).isSome = true ∧
    q < (s.kv ci).maxSeqs ∧ s.tracerUp (q % 2) = true ∧ s.sliced (unitId 5 0) = false ∧ s.sliced (unitId 5 1) = false ∧ j.arg 44 4 ≠ 0 ∧
    s.seqState ci q = some sqActive ∧ List.mapM (s.truncCheck ci q (j.arg 44 4)) (List.range (s.kv ci).layers) = some l ∧ (∀ x ∈ l,
    x = (false, false)) ∧ List.mapM (s.truncReads ci q (j.arg 44 4)) (List.range (s.kv ci).layers) = some cut ∧
    List.mapM (fun p => s.pageFails ci q p.1 p.2) (List.flatMap id cut) = some fs ∧ List.findSome? id fs = none ∧
    List.foldlM (State.truncStep ci q (j.arg 44 4)) (s, 0) (List.range (s.kv ci).layers) = some (w, n)) ∧
    (∃ (s : State) (v : State) (w : State) (job : ℕ) (j : Job) (ci : ℕ) (q : ℕ) (st : ℕ) (n : ℕ), s.startedOp job 19 6 = some j ∧
    ci = j.arg 33 1 ∧ q = j.arg 36 4 ∧ (s.caches.find ci).isSome = true ∧ q < (s.kv ci).maxSeqs ∧ s.tracerUp (q % 2) = true ∧
    s.sliced (unitId 5 0) = false ∧ s.sliced (unitId 5 1) = false ∧ s.seqState ci q = some st ∧ st ≠ sqFree ∧
    List.foldlM (State.freePage ci q) (s.dropSeqLabs ci q, 0) (List.flatMap (fun l => List.map (fun p => (l,
    p)) (List.range (s.kv ci).maxPages)) (List.range (s.kv ci).layers)) = some (v, n) ∧ v.setSeq ci q sqFree = some w) ∧
    (∃ (s : State) (job : ℕ) (j : Job) (ci : ℕ) (q : ℕ), s.startedOp job 19 7 = some j ∧ ci = j.arg 33 1 ∧ q = j.arg 36 4 ∧
    (s.caches.find ci).isSome = true ∧ q < (s.kv ci).maxSeqs ∧ s.tracerUp (q % 2) = true ∧ s.sliced (unitId 5 0) = false ∧
    s.sliced (unitId 5 1) = false ∧ j.arg 44 4 = 0) ∧
    (∃ (s : State) (w : State) (job : ℕ) (j : Job) (ci : ℕ) (q : ℕ) (n : ℕ) (top : ℕ) (rs : List ℕ) (pages : List (ℕ × ℕ × ℕ)) (x :
    Member) (fs : List (Option (Option ℕ))), s.startedOp job 19 7 = some j ∧ ci = j.arg 33 1 ∧ q = j.arg 36 4 ∧
    (s.caches.find ci).isSome = true ∧ q < (s.kv ci).maxSeqs ∧ s.tracerUp (q % 2) = true ∧ s.sliced (unitId 5 0) = false ∧
    s.sliced (unitId 5 1) = false ∧ j.arg 44 4 ≠ 0 ∧ s.seqState ci q = some sqActive ∧ s.layerLen ci q 0 = some top ∧
    s.placeable ci q (j.arg 44 4) = some pages ∧ j.arg 44 4 ≤ top ∧ s.moduleIn (j.arg 40 4) = some x ∧ 3 ≤ x.role ∧
    j.arg 40 4 ≠ s.rd Reg.RNG_STAT_MODULE ∧ pages.length ≤ rs.length ∧
    List.mapM (fun p => s.pageFails ci q p.1 p.2) (List.map (fun e => (e.1, e.2.1)) pages) = some fs ∧ List.findSome? id fs = none ∧
    List.foldlM (State.placePage ci q (j.arg 40 4)) (s, 0) (pages.zip rs) = some (w, n)) :=
  ⟨⟨withJob (cacheJob 5 0 0 64) (cached cache0 1 1 (1 + 2 ^ 24) 1 0), _, 1, cacheJob 5 0 0 64, 0, 0, _, _, _, _,
    and9 (by decide +kernel) ⟨by decide +kernel, some_get (by decide +kernel), by decide +kernel, some_get (by decide +kernel),
    some_get (by decide +kernel), by decide +kernel, some_pair (by decide +kernel)⟩⟩,
  ⟨withJob (cacheJob 6 0 0 0) (cached cache0 1 1 (1 + 2 ^ 24) 1 0), _, _, 1, cacheJob 6 0 0 0, 0, 0, 1, _,
    and9 (by decide +kernel) ⟨by decide +kernel, some_pair (by decide +kernel), some_get (by decide +kernel)⟩⟩,
  ⟨withJob (cacheJob 7 0 1 0) (cached cache0 1 0 0 0 0), 1, cacheJob 7 0 1 0, 0, 0, by decide +kernel⟩,
  ⟨{ withJob (cacheJob 7 0 1 64) (cached cache0 1 1 (1 + 2 ^ 24) 1 0) with ring := { on.ring with members := [member1] } }, _, 1,
    cacheJob 7 0 1 64, 0, 0, _, 64, [5], _, member1, _, and9 (by decide +kernel) (and2 (by decide +kernel) ⟨some_get (by decide +kernel),
    and5 (by decide +kernel) ⟨some_get (by decide +kernel), by decide +kernel, some_pair (by decide +kernel)⟩⟩)⟩⟩

theorem witness_BurnisherTableCommandsComplete_1 :
    (∃ (s : State) (job : ℕ) (j : Job) (i : ℕ) (r : List Byte) (prog : List Byte) (rp : List Byte) (cols : List Byte) (units : ℕ) (left :
    ℕ), i = j.arg 33 1 ∧ (s.unit brnUnit).offline = false ∧ s.unitUp brnUnit = true ∧ s.brnTurn i job = true ∧
    s.startedOp job 18 1 = some j ∧ j.param ≠ [] ∧ s.prob i = none ∧ r = List.take 256 j.param ∧
    prog = slice j.param 256 (16 * recSteps r) ∧ rp = slice j.param (256 + 16 * recSteps r) (4 * (recN r + 1)) ∧
    cols = List.drop (256 + 16 * recSteps r + 4 * (recN r + 1)) j.param ∧
    units = memUnits r (csrRows (leList 4 (recN r + 1) rp) (leList 2 (recNnz r) cols)) ∧ left = s.rd Reg.BRN_MEM_FREE_4K ∧ units ≤ left) ∧
    (∃ (s : State) (job : ℕ) (j : Job) (i : ℕ) (v : State) (p : BrnProb) (l : List Byte) (bad : Bool), i = j.arg 33 1 ∧
    (s.unit brnUnit).offline = false ∧ s.unitUp brnUnit = true ∧ s.brnTurn i job = true ∧ s.startedOp job 18 2 = some j ∧
    s.brnTaken job = false ∧ j.arg 36 4 ≠ 0 ∧ s.prob i = some p ∧ j.arg 36 4 = 4 * recNnz p.record ∧ recCommons p.record = false ∧
    recStreamed p.record = false ∧ s.brnRead false j.context job (j.arg 40 8) (j.arg 36 4) = (v, Except.ok (l, bad))) ∧
    (∃ (s : State) (job : ℕ) (j : Job) (i : ℕ) (p : BrnProb) (slot : ℕ) (first : ℕ) (count : ℕ), i = j.arg 33 1 ∧
    (s.unit brnUnit).offline = false ∧ s.unitUp brnUnit = true ∧ s.brnTurn i job = true ∧ s.startedOp job 18 3 = some j ∧ j.param ≠ [] ∧
    s.prob i = some p ∧ slot = fld j.param 0 1 ∧ first = fld j.param 4 4 ∧ count = fld j.param 8 4 ∧ first + count ≤ recN p.record ∧
    slot < recUser p.record ∧ p.state ≠ 3 ∧ count ≠ 0) ∧
    (∃ (s : State) (job : ℕ) (j : Job) (i : ℕ) (p : BrnProb), i = j.arg 33 1 ∧ (s.unit brnUnit).offline = false ∧
    s.unitUp brnUnit = true ∧ s.brnTurn i job = true ∧ s.startedOp job 18 4 = some j ∧ s.prob i = some p ∧ p.state = 2 ∧
    p.queued.contains job = false) ∧
    (∃ (s : State) (job : ℕ) (j : Job) (i : ℕ) (p : BrnProb), i = j.arg 33 1 ∧ (s.unit brnUnit).offline = false ∧
    s.unitUp brnUnit = true ∧ s.brnTurn i job = true ∧ s.startedOp job 18 5 = some j ∧ s.prob i = some p ∧ p.state = 2 ∧ p.armed = none) ∧
    (∃ (s : State) (job : ℕ) (j : Job) (i : ℕ) (p : BrnProb), i = j.arg 33 1 ∧ (s.unit brnUnit).offline = false ∧
    s.unitUp brnUnit = true ∧ s.brnTurn i job = true ∧ s.startedOp job 18 6 = some j ∧ s.prob i = some p ∧ p.armed.isSome = true ∧
    p.trigRun = none ∧ ((s.brnAhead i job).any fun k => !k.freed) = false) :=
  ⟨⟨withJob (brnJob 1 brnBlock) (on.wr Reg.BRN_MEM_FREE_4K 100), 1, brnJob 1 brnBlock, 0, _, _, _, _, _, _,
    and7 (by decide +kernel) ⟨rfl, rfl, rfl, rfl, rfl, rfl, by decide +kernel⟩⟩,
  (let ⟨o, h⟩ := exc_ok (x := (burnishing (brnJob 2) (brnProb 1)).brnRead false 0 1 0 4) (by decide +kernel); ⟨burnishing (brnJob 2)
    (brnProb 1), 1, brnJob 2, 0, _, brnProb 1, o.1, o.2, by refine ⟨?_, ?_, ?_, ?_, ?_, ?_, ?_, ?_, ?_, ?_, ?_, h⟩ <;> decide +kernel⟩),
  ⟨burnishing (brnJob 3 (putAt (zeros 36) 8 (le 4 1))) (brnProb 2), 1, brnJob 3 (putAt (zeros 36) 8 (le 4 1)), 0, brnProb 2, _, _, _,
    and7 (by decide +kernel) ⟨rfl, rfl, rfl, by decide +kernel⟩⟩,
  ⟨burnishing (brnJob 4) (brnProb 2), 1, brnJob 4, 0, brnProb 2, by decide +kernel⟩,
  ⟨burnishing (brnJob 5) (brnProb 2), 1, brnJob 5, 0, brnProb 2, by decide +kernel⟩,
  ⟨burnishing (brnJob 6) { brnProb 2 with armed := some (brnJob 5) }, 1, brnJob 6, 0, { brnProb 2 with armed := some (brnJob 5) },
    by decide +kernel⟩⟩

theorem witness_BurnisherTableCommandsComplete_2 :
    (∃ (s : State) (job : ℕ) (j : Job) (i : ℕ) (p : BrnProb), i = j.arg 33 1 ∧ (s.unit brnUnit).offline = false ∧
    s.unitUp brnUnit = true ∧ s.brnTurn i job = true ∧ s.startedOp job 18 7 = some j ∧ s.prob i = some p ∧ p.armed = none ∧
    ((s.brnAhead i job).any fun k => k.arg 32 1 == 4) = false) ∧
    (∃ (s : State) (prob : Fin 8) (p : BrnProb) (a : Job) (k : Job), s.unitUp brnUnit = true ∧ s.prob prob.val = some p ∧
    p.armed = some a ∧ recTrig p.record ≠ 65535 ∧ (s.obj (recTrig p.record)).value = p.vNext ∧ p.trigRun = none ∧
    k = s.trigJob a (s.obj (recTrig p.record)).taint ∧ s.retractedIn k.taint = none) :=
  ⟨⟨burnishing (brnJob 7) (brnProb 2), 1, brnJob 7, 0, brnProb 2, by decide +kernel⟩,
  ⟨burnishing (brnJob 5) { brnProb 2 with armed := some (brnJob 5), record := brnRecord 3, vNext := 0 }, 0,
    { brnProb 2 with armed := some (brnJob 5), record := brnRecord 3, vNext := 0 }, brnJob 5, _, and6 (by decide +kernel) ⟨rfl,
    by decide +kernel⟩⟩⟩

theorem witness_BurnisherRunCommandsComplete_1 :
    (∃ (s : State) (i : ℕ) (id : ℕ) (p : BrnProb) (j : Job) (rk : ℕ), (s.unit brnUnit).offline = false ∧ s.brnTaken s.nextJob = false ∧
    s.gated islBrn = false ∧ s.unitUp brnUnit = true ∧ s.sliced brnUnit = false ∧ s.brn.cur = none ∧ brnFirst s.brnReady = some (i, rk,
    id) ∧ s.prob i = some p ∧ s.job id = some j ∧ p.run = none ∧ s.flag Reg.BRN_CTRL_HOLD = false ∧ p.state = 2) ∧
    (∃ (s : State) (v : State) (i : ℕ) (p : BrnProb) (r : BrnRun) (j : Job) (op : ℕ) (a : Mat) (l : List ℤ) (g : Prog),
    s.brnCur = some (i, p, r, j) ∧ (s.unit brnUnit).offline = false ∧ s.brnTaken j.id = false ∧ s.gated islBrn = false ∧
    s.unitUp brnUnit = true ∧ s.brnGranted j.part = true ∧ s.brnDue r = false ∧ r.inputs = 4 ∧ r.refetch = false ∧ p.poison = [] ∧
    (op = if r.step < recSteps p.record then stOp p.program r.step else opEnd) ∧ op = opSpmv ∧ s.brnMat p j = (v, Except.ok (a, false)) ∧
    StateT.run (ExceptT.run (a.mul (p.slot (stA p.program r.step)) (p.q (stA p.program r.step)) (p.q (stDst p.program r.step))))
    { sats := 0, iters := 0, x := [], res := 0 : Prog } = (Except.ok l, g)) ∧
    (∃ (s : State) (i : ℕ) (p : BrnProb) (r : BrnRun) (j : Job) (op : ℕ) (l : List ℤ) (g : Prog), s.brnCur = some (i, p, r, j) ∧
    (s.unit brnUnit).offline = false ∧ s.brnTaken j.id = false ∧ s.gated islBrn = false ∧ s.unitUp brnUnit = true ∧
    s.brnGranted j.part = true ∧ s.brnDue r = false ∧ r.inputs = 4 ∧ r.refetch = false ∧ p.poison = [] ∧
    (op = if r.step < recSteps p.record then stOp p.program r.step else opEnd) ∧ op = opAxpby ∧ (StateT.run
    (ExceptT.run do
      let x ← scConst (stS1 p.program r.step)
      let y ← scConst (stS2 p.program r.step)
      comb (recN p.record) (p.q (stDst p.program r.step)) [(x, p.slot (stA p.program r.step), p.q (stA p.program r.step)), (y,
    p.slot (stB p.program r.step), p.q (stB p.program r.step))])
    { sats := 0, iters := 0, x := [], res := 0 : Prog } =
  (Except.ok l, g))) ∧
    (∃ (s : State) (i : ℕ) (p : BrnProb) (r : BrnRun) (j : Job) (op : ℕ) (l : List ℤ) (g : Prog), s.brnCur = some (i, p, r, j) ∧
    (s.unit brnUnit).offline = false ∧ s.brnTaken j.id = false ∧ s.gated islBrn = false ∧ s.unitUp brnUnit = true ∧
    s.brnGranted j.part = true ∧ s.brnDue r = false ∧ r.inputs = 4 ∧ r.refetch = false ∧ p.poison = [] ∧
    (op = if r.step < recSteps p.record then stOp p.program r.step else opEnd) ∧ op = opClamp ∧
    StateT.run (ExceptT.run (List.mapM (fun e => fixWord (p.q (stDst p.program r.step)) [fixMin (fixMax (vec (p.slot (stA p.program
    r.step)) e, p.q (stA p.program r.step)) (vec (p.slot (stB p.program r.step)) e,
    p.q (stB p.program r.step))) (vec (p.slot (stAux p.program r.step)) e,
    p.q (stAux p.program r.step))]) (List.range (recN p.record)))) { sats := 0, iters := 0, x := [], res := 0 : Prog } = (Except.ok l,
    g)) ∧
    (∃ (s : State) (i : ℕ) (p : BrnProb) (r : BrnRun) (j : Job) (op : ℕ) (l : List ℤ) (g : Prog), s.brnCur = some (i, p, r, j) ∧
    (s.unit brnUnit).offline = false ∧ s.brnTaken j.id = false ∧ s.gated islBrn = false ∧ s.unitUp brnUnit = true ∧
    s.brnGranted j.part = true ∧ s.brnDue r = false ∧ r.inputs = 4 ∧ r.refetch = false ∧ p.poison = [] ∧
    (op = if r.step < recSteps p.record then stOp p.program r.step else opEnd) ∧ op = opCopy ∧
    StateT.run (ExceptT.run (List.mapM (fun w => fixWord (p.q (stDst p.program r.step)) [(w,
    p.q (stA p.program r.step))]) (p.slot (stA p.program r.step)))) { sats := 0, iters := 0, x := [], res := 0 : Prog } = (Except.ok l,
    g)) ∧
    (∃ (s : State) (v : State) (i : ℕ) (p : BrnProb) (r : BrnRun) (j : Job) (op : ℕ) (a : Mat) (env : SolveEnv) (u : State) (w : State)
    (st : SolveSt) (r' : BrnRun) (p' : BrnProb) (x : Solved), s.brnCur = some (i, p, r, j) ∧ (s.unit brnUnit).offline = false ∧
    s.brnTaken j.id = false ∧ s.gated islBrn = false ∧ s.unitUp brnUnit = true ∧ s.brnGranted j.part = true ∧ s.brnDue r = false ∧
    r.inputs = 4 ∧ r.refetch = false ∧ p.poison = [] ∧ (op = if r.step < recSteps p.record then stOp p.program r.step else opEnd) ∧
    op = opSolve ∧ env.det = BrnDet.none ∧ (u, st) = s.brnSolveBegin p r j ∧ r' = { r with solve := some st : BrnRun } ∧
    p' = { p with run := some r' : BrnProb } ∧ (u.setProb i p').brnMat p' j = (v, Except.ok (a, false)) ∧
    x = runSolve (p'.solve r' a st.x0 env) p'.stale st ∧ v.brnFactor p' j a x.built.isSome = (w, none)) :=
  ⟨⟨burnishing (brnJob 4) { brnProb 2 with queued := [1] }, 0, 1, { brnProb 2 with queued := [1] }, brnJob 4, 0, by decide +kernel⟩,
  ⟨brnAt (brnStepProb 2), _, 0, brnStepProb 2, brnRun0, brnJob 4 [] .running, 2, brnMat0, _, _,
    and9 (by decide +kernel) (and3 (by decide +kernel) ⟨pair_snd (by decide +kernel), (ok_exc (by decide +kernel)).choose_spec⟩)⟩,
  ⟨brnAt (brnStepProb 3), 0, brnStepProb 3, brnRun0, brnJob 4 [] .running, 3, _, _,
    and9 (by decide +kernel) (and3 (by decide +kernel) (ok_exc (by decide +kernel)).choose_spec)⟩,
  ⟨brnAt (brnStepProb 4), 0, brnStepProb 4, brnRun0, brnJob 4 [] .running, 4, _, _,
    and9 (by decide +kernel) (and3 (by decide +kernel) (ok_exc (by decide +kernel)).choose_spec)⟩,
  ⟨brnAt (brnStepProb 5), 0, brnStepProb 5, brnRun0, brnJob 4 [] .running, 5, _, _,
    and9 (by decide +kernel) (and3 (by decide +kernel) (ok_exc (by decide +kernel)).choose_spec)⟩,
  ⟨brnAt (brnStepProb 1), _, 0, brnStepProb 1, brnRun0, brnJob 4 [] .running, 1, brnMat0, brnEnv, _, _, _, _, _, _,
    and9 (by decide +kernel) (and4 (by decide +kernel) ⟨rfl, rfl, rfl, pair_snd (by decide +kernel), rfl, pair_snd (by decide +kernel)⟩)⟩⟩

theorem witness_BurnisherRunCommandsComplete_2 :
    (∃ (s : State) (i : ℕ) (p : BrnProb) (r : BrnRun) (j : Job) (op : ℕ), s.brnCur = some (i, p, r, j) ∧
    (s.unit brnUnit).offline = false ∧ s.brnTaken j.id = false ∧ s.gated islBrn = false ∧ s.unitUp brnUnit = true ∧
    s.brnGranted j.part = true ∧ s.brnDue r = false ∧ r.inputs = 4 ∧ r.refetch = false ∧ p.poison = [] ∧
    (op = if r.step < recSteps p.record then stOp p.program r.step else opEnd) ∧ op = opLoop ∧
    r.passes.get 0 r.step < stCount p.program r.step) ∧
    (∃ (s : State) (i : ℕ) (p : BrnProb) (r : BrnRun) (j : Job) (op : ℕ), s.brnCur = some (i, p, r, j) ∧
    (s.unit brnUnit).offline = false ∧ s.brnTaken j.id = false ∧ s.gated islBrn = false ∧ s.unitUp brnUnit = true ∧
    s.brnGranted j.part = true ∧ s.brnDue r = false ∧ r.inputs = 4 ∧ r.refetch = false ∧ p.poison = [] ∧
    (op = if r.step < recSteps p.record then stOp p.program r.step else opEnd) ∧ op = opLoop ∧
    stCount p.program r.step ≤ r.passes.get 0 r.step) ∧
    (∃ (s : State) (i : ℕ) (p : BrnProb) (r : BrnRun) (j : Job) (op : ℕ) (g : Prog) (m : Brn Bool) (yes : Bool), s.brnCur = some (i, p,
    r, j) ∧ (s.unit brnUnit).offline = false ∧ s.brnTaken j.id = false ∧ s.gated islBrn = false ∧ s.unitUp brnUnit = true ∧
    s.brnGranted j.part = true ∧ s.brnDue r = false ∧ r.inputs = 4 ∧ r.refetch = false ∧ p.poison = [] ∧
    (op = if r.step < recSteps p.record then stOp p.program r.step else opEnd) ∧ op = opTest ∧ (m = do
  let n ← testNorms p (stA p.program r.step) (stB p.program r.step)
  let t ← threshold (stS1 p.program r.step) n.2
  pure (scLe n.1 t)) ∧ StateT.run (ExceptT.run m) { sats := 0, iters := 0, x := [], res := 0 : Prog } = (Except.ok yes, g)) ∧
    (∃ (s : State) (i : ℕ) (p : BrnProb) (r : BrnRun) (j : Job) (op : ℕ), s.brnCur = some (i, p, r, j) ∧
    (s.unit brnUnit).offline = false ∧ s.brnTaken j.id = false ∧ s.gated islBrn = false ∧ s.unitUp brnUnit = true ∧
    s.brnGranted j.part = true ∧ s.brnDue r = false ∧ r.inputs = 4 ∧ r.refetch = false ∧ p.poison = [] ∧
    (op = if r.step < recSteps p.record then stOp p.program r.step else opEnd) ∧ op = opOut ∧
    bit (outPolicy p.record (stB p.program r.step)) r.reason = false ∧ r.late = false) ∧
    (∃ (s : State) (i : ℕ) (p : BrnProb) (r : BrnRun) (j : Job) (op : ℕ), s.brnCur = some (i, p, r, j) ∧
    (s.unit brnUnit).offline = false ∧ s.brnTaken j.id = false ∧ s.gated islBrn = false ∧ s.unitUp brnUnit = true ∧
    s.brnGranted j.part = true ∧ s.brnDue r = false ∧ r.inputs = 4 ∧ r.refetch = false ∧ p.poison = [] ∧
    (op = if r.step < recSteps p.record then stOp p.program r.step else opEnd) ∧ op = opOut ∧
    bit (outPolicy p.record (stB p.program r.step)) r.reason = true ∧ r.late = false ∧ outKind p.record (stB p.program r.step) = 2) ∧
    (∃ (s : State) (i : ℕ) (p : BrnProb) (r : BrnRun) (j : Job) (op : ℕ), s.brnCur = some (i, p, r, j) ∧
    (s.unit brnUnit).offline = false ∧ s.brnTaken j.id = false ∧ s.gated islBrn = false ∧ s.unitUp brnUnit = true ∧
    s.brnGranted j.part = true ∧ s.brnDue r = false ∧ r.inputs = 4 ∧ r.refetch = false ∧ p.poison = [] ∧
    (op = if r.step < recSteps p.record then stOp p.program r.step else opEnd) ∧ op = opUpdateIn ∧
    inKind p.record (stA p.program r.step) = 0) :=
  ⟨⟨brnAt (brnStepProb 6 2), 0, brnStepProb 6 2, brnRun0, brnJob 4 [] .running, 6, by decide +kernel⟩,
  ⟨brnAt (brnStepProb 6), 0, brnStepProb 6, brnRun0, brnJob 4 [] .running, 6, by decide +kernel⟩,
  ⟨brnAt (brnStepProb 7), 0, brnStepProb 7, brnRun0, brnJob 4 [] .running, 7, _, _, _,
    and9 (by decide +kernel) (and3 (by decide +kernel) ⟨rfl, (ok_exc (by decide +kernel)).choose_spec⟩)⟩,
  ⟨brnAt (brnStepProb 8), 0, brnStepProb 8, brnRun0, brnJob 4 [] .running, 8, by decide +kernel⟩,
  ⟨brnAt { brnStepProb 8 with run := some { brnRun0 with reason := 2 } }, 0,
    { brnStepProb 8 with run := some { brnRun0 with reason := 2 } }, { brnRun0 with reason := 2 }, brnJob 4 [] .running, 8,
    by decide +kernel⟩,
  ⟨brnAt (brnStepProb 9), 0, brnStepProb 9, brnRun0, brnJob 4 [] .running, 9, by decide +kernel⟩⟩

theorem witness_BurnisherRunCommandsComplete_3 :
    (∃ (s : State) (i : ℕ) (p : BrnProb) (r : BrnRun) (j : Job) (op : ℕ), s.brnCur = some (i, p, r, j) ∧
    (s.unit brnUnit).offline = false ∧ s.brnTaken j.id = false ∧ s.gated islBrn = false ∧ s.unitUp brnUnit = true ∧
    s.brnGranted j.part = true ∧ s.brnDue r = false ∧ r.inputs = 4 ∧ r.refetch = false ∧ p.poison = [] ∧
    (op = if r.step < recSteps p.record then stOp p.program r.step else opEnd) ∧ op = opEnd ∧ r.late = false) ∧
    (∃ (s : State) (i : ℕ) (p : BrnProb) (r : BrnRun), i < 8 ∧ s.brn.cur = some i ∧ s.prob i = some p ∧ p.run = some r ∧
    s.brnDue r = true ∧ r.solve = none ∧ s.chanJob.find brnChan ≠ some r.job ∧ r.inputs = 4) :=
  ⟨⟨brnAt (brnStepProb 0), 0, brnStepProb 0, brnRun0, brnJob 4 [] .running, 0, by decide +kernel⟩,
  ⟨brnAt { brnStepProb 0 with run := some { brnRun0 with deadline := some 0 } }, 0,
    { brnStepProb 0 with run := some { brnRun0 with deadline := some 0 } }, { brnRun0 with deadline := some 0 }, by decide +kernel⟩⟩

theorem witness_MemoryCommandsComplete_1 :
    (∃ (s : State) (job : ℕ) (j : Job), s.startedOp job 1 1 = some j ∧ s.ctxs.find j.context = none) ∧
    (∃ (s : State) (job : ℕ) (j : Job) (u : State), s.startedOp job 1 2 = some j ∧ (∀ k ∈ s.jobs, k.context = j.context → k.id = job) ∧
    s.ctxHeld j.context = false ∧ u = s.dropWalks fun w => w.context == j.context) ∧
    (∃ (s : State) (job : ℕ) (j : Job), s.startedOp job 1 3 = some j ∧ bit (j.arg 34 2) 0 = true) ∧
    (∃ (s : State) (job : ℕ) (j : Job), s.startedOp job 1 3 = some j ∧ bit (j.arg 34 2) 0 = false ∧ j.arg 48 8 ≠ 0 ∧
    (∀ r ∈ s.pinnedRanges j.context, rangesMeet r.1 r.2 (j.arg 40 8) (j.arg 48 8) = false)) ∧
    (∃ (s : State) (job : ℕ) (j : Job), s.startedOp job 1 4 = some j ∧ s.chan (j.arg 33 1) = chFaulted ∧
    s.chanMine (j.arg 33 1) j.context = true ∧ resumable (s.rd Reg.MEM_CH_KIND (j.arg 33 1)) = true) ∧
    (∃ (s : State) (job : ℕ) (j : Job), s.startedOp job 1 5 = some j ∧ s.chan (j.arg 33 1) = chFaulted ∧
    s.chanMine (j.arg 33 1) j.context = true) :=
  ⟨⟨opState 1 1, 1, opJob 1 1, by decide +kernel⟩,
  ⟨opState 1 2, 1, opJob 1 2, _, and3 (by decide +kernel) rfl⟩,
  ⟨opState 1 3 [(34, [1])], 1, opJob 1 3 [(34, [1])], by decide +kernel⟩,
  ⟨opState 1 3 [(48, [1])] [] mapped, 1, opJob 1 3 [(48, [1])], by decide +kernel⟩,
  ⟨((opState 1 4 [(33, [97])]).wr Reg.MEM_CH_STATE chFaulted 97).wr Reg.MEM_CH_KIND fkNotMapped 97, 1, opJob 1 4 [(33, [97])],
    by decide +kernel⟩,
  ⟨(opState 1 5 [(33, [0])]).wr Reg.MEM_CH_STATE chFaulted 0, 1, opJob 1 5 [(33, [0])], by decide +kernel⟩⟩

theorem witness_MemoryCommandsComplete_2 :
    (∃ (s : State) (job : ℕ) (j : Job), s.startedOp job 1 6 = some j ∧ j.arg 36 4 = 0) ∧
    (∃ (s : State) (job : ℕ) (j : Job) (det : ReadFault) (upTo : Option ℕ) (c : ℕ) (k : ℕ) (n : ℕ) (from' : ℕ) (mine : Bool) (u : State)
    (w : State), s.startedOp job 1 6 = some j ∧ n = j.arg 36 4 ∧ n ≠ 0 ∧ s.copyChan j = some c ∧ s.chan c ≠ chFaulted ∧
    mine = (s.chanJob.find c == some job) ∧ (mine = true → s.copyWanted c = false) ∧ (u = if mine = true then s else s.copyLeave c) ∧
    (from' = if mine = true then s.rd Reg.MEM_CH_BYTES_DONE c else u.copyDone.get 0 job) ∧
    State.copyLoop c j.context job (j.arg 40 8) (j.arg 48 8) n (upTo.getD n) det (n / 16 + 16)
    ({ u with chanJob := u.chanJob.set c job, copyDone := u.copyDone.erase job : State }.chanStart c j.context 0 from' j.tag false) from'
    = (w, k, none) ∧ n ≤ k) ∧
    (∃ (s : State) (c : Fin 98), s.chan c.val = chFaulted ∧
    (s.rd Reg.MEM_CH_KIND c.val = fkNotReleased ∨ s.rd Reg.MEM_CH_KIND c.val = fkOffline) ∧ s.nowReady c.val = true) ∧
    (∃ (s : State) (c : Fin 98), s.chan c.val = chFaulted ∧ s.flag Reg.MEM_CH_PHYSICAL c.val = false ∧
    s.recOver (s.chanRec c.val) = true) ∧
    (∃ (s : State) (c : Fin 8), bit s.chanMap c.val = true) ∧
    (∃ (s : State) (c : Fin 8), bit s.chanMap c.val = true ∧ (s.unit (unitId 7 c.val)).offline = true ∧
    (s.unit (unitId 7 c.val)).bad = false) :=
  ⟨⟨opState 1 6, 1, opJob 1 6, by decide +kernel⟩,
  ⟨opState 1 6 [(36, [8]), (48, le 8 64)] [] mapped, 1, opJob 1 6 [(36, [8]), (48, le 8 64)], ⟨0, 0⟩, none, _, _, 8, _, false, _, _,
    and3 (by decide +kernel) ⟨some_get (by decide +kernel), and3 (by decide +kernel) ⟨rfl, rfl, triple_snd (by decide +kernel),
    by decide +kernel⟩⟩⟩,
  ⟨((mapped.wr Reg.MEM_CH_STATE chFaulted 97).wr Reg.MEM_CH_KIND fkOffline 97), 97, by decide +kernel⟩,
  ⟨(({ on with chanMap := 0xFF, ctxs := on.ctxs.set 0 ⟨0x100000000, 0, 0, 1⟩, tm := { on.tm with dt96 := 10 ^ 11 * 2 ^ 32 } } : State).wr
    Reg.MEM_CH_STATE chFaulted 97).wr Reg.MEM_CH_KIND fkOffline 97, 97, by decide +kernel⟩,
  ⟨mapped, 7, by decide +kernel⟩,
  ⟨{ mapped with units := on.units.set (unitId 7 7) { on.unit (unitId 7 7) with offline := true } }, 7, by decide +kernel⟩⟩

theorem witness_SyncCommandsComplete :
    (∃ (s : State) (job : ℕ) (j : Job), s.startedOp job 2 1 = some j ∧ s.waiters (j.arg 34 2) = 0 ∧ s.objBound (j.arg 34 2) = false) ∧
    (∃ (s : State) (job : ℕ) (j : Job), s.startedOp job 2 2 = some j ∧ j.arg 34 2 ≠ 65535) ∧
    (∃ (s : State) (job : ℕ) (j : Job), s.startedOp job 2 3 = some j ∧ s.groupWaited (j.arg 34 1) = false) :=
  ⟨⟨opState 2 1 [(34, le 2 65534)], 1, opJob 2 1 [(34, le 2 65534)], by decide +kernel⟩,
  ⟨opState 2 2, 1, opJob 2 2, by decide +kernel⟩,
  ⟨opState 2 3 [(34, [255])], 1, opJob 2 3 [(34, [255])], by decide +kernel⟩⟩

theorem witness_PartitionCommandsComplete_1 :
    (∃ (s : State) (job : ℕ) (j : Job), s.startedOp job 3 1 = some j ∧ j.param ≠ [] ∧ s.flag Reg.PAR_STAT_SWAP_PENDING = false) ∧
    (∃ (s : State) (job : ℕ) (j : Job), s.startedOp job 3 2 = some j ∧ j.param ≠ [] ∧ s.partBusy (j.arg 33 1) j.id = false ∧
    (bit (fld j.param 0 1) 0 = true ∨ s.partNamed (j.arg 33 1) = false)) ∧
    (∃ (s : State) (job : ℕ) (j : Job), s.startedOp job 3 3 = some j ∧ j.param ≠ [] ∧ s.taskValid (j.arg 33 1) = false) ∧
    (∃ (s : State) (job : ℕ) (j : Job), s.startedOp job 3 4 = some j ∧
    (s.chainsWith fun c => s.chainRec c 1 1 == j.arg 33 1 || s.chainRec c 2 1 == j.arg 33 1) = []) ∧
    (∃ (s : State) (job : ℕ) (j : Job), s.startedOp job 3 5 = some j ∧ j.param ≠ [] ∧ s.taskValid (fld j.param 1 1) = true ∧
    s.taskValid (fld j.param 2 1) = true ∧ s.chainValid (j.arg 33 1) = false) ∧
    (∃ (s : State) (job : ℕ) (j : Job), s.startedOp job 3 6 = some j) :=
  ⟨⟨opState 3 1 [] [1], 1, opJob 3 1 [] [1], by decide +kernel⟩,
  ⟨opState 3 2 [(33, [15])] [1], 1, opJob 3 2 [(33, [15])] [1], by decide +kernel⟩,
  ⟨opState 3 3 [(33, [255])] [1], 1, opJob 3 3 [(33, [255])] [1], by decide +kernel⟩,
  ⟨opState 3 4 [(33, [5])] [] tasked, 1, opJob 3 4 [(33, [5])], by decide +kernel⟩,
  ⟨opState 3 5 [(33, [31])] [1, 5, 5] tasked, 1, opJob 3 5 [(33, [31])] [1, 5, 5], by decide +kernel⟩,
  ⟨opState 3 6 [(33, [3])], 1, opJob 3 6 [(33, [3])], by decide +kernel⟩⟩

theorem witness_PartitionCommandsComplete_2 :
    (∃ (s : State), s.flag Reg.PAR_STAT_SWAP_PENDING = false ∧ s.flag Reg.HTP_CTRL_SETUP_DONE = false) ∧
    (∃ (s : State) (b : ℕ), b = s.frameFloor (schedFrameUs s.activeSched * 1000) ∧ (b ≠ s.par.frameStart ∨ s.par.hold = true ∧
    b = s.dt64)) ∧
    (∃ (s : State), s.window + 1 < schedWindows s.activeSched ∧ s.par.hold = false ∧
    s.par.frameStart + winStartUs s.activeSched (s.window + 1) * 1000 ≤ s.dt64) :=
  ⟨⟨on, by decide +kernel⟩,
  ⟨tasked, _, rfl, by decide +kernel⟩,
  ⟨(tasked.store (schedAddr 0) [232, 3, 2]).store (schedAddr 0 + 64) [1, 0], by decide +kernel⟩⟩

theorem witness_TaskSupervisionComplete :
    (∃ (s : State) (t : Fin 256) (x : TaskSt) (a : ℕ), x = s.taskSt t.val ∧ s.taskValid t.val = true ∧ x.lateFrom = some a ∧
    s.taskRec (t.val) 12 4 ≠ 0 ∧ s.taskRec (t.val) 12 4 ≤ usBetween a s.dt64) ∧
    (∃ (s : State) (t : Fin 256) (x : TaskSt) (a : Activation), x = s.taskSt t.val ∧ s.taskValid t.val = true ∧
    s.taskRec (t.val) 16 4 ≠ 0 ∧ List.find? (fun a => !a.budgetHit && decide (s.taskRec (t.val) 16 4 < s.actTicks (t.val) a / 250))
    (x.acts ++ x.past) = some a) ∧
    (∃ (s : State) (t : Fin 256) (x : TaskSt) (a : Activation), x = s.taskSt t.val ∧ s.taskValid t.val = true ∧
    s.taskRec (t.val) 20 4 ≠ 0 ∧ List.find? (fun a => !a.deadHit && decide (a.arriveNs + s.taskRec (t.val) 20 4 * 1000 ≤ s.dt64)) x.acts
    = some a) ∧
    (∃ (s : State) (c : Fin 32) (x : ChainSt) (a : ChainAct), x = s.chainSt c.val ∧ s.chainValid c.val = true ∧
    List.find? (fun a => !a.lateHit && decide (s.chainRec (c.val) 8 4 ≤ usBetween a.armNs s.dt64)) x.armed = some a) :=
  ⟨⟨withTask { TaskSt.reset with lateFrom := some 0 }, 5, _, 0, rfl, by decide +kernel⟩,
  ⟨withTask { TaskSt.reset with acts := [act5] }, 5, _, act5, rfl, by decide +kernel⟩,
  ⟨withTask { TaskSt.reset with acts := [act5] }, 5, _, act5, rfl, by decide +kernel⟩,
  ⟨{ chained with chains := chained.chains.set 3 ⟨0, 0, [⟨1, 0, false⟩]⟩ }, 3, _, ⟨1, 0, false⟩, rfl, by decide +kernel⟩⟩

theorem witness_SessionCommandsComplete_1 :
    (∃ (s : State) (v : State) (port : Fin 2) (f : HostFrame) (u : State) (w : State) (sid : ℕ), s.rxOf (port.val) f = Rx.taken ∧
    v = { s.rollAssoc (port.val) f with ht := { (s.rollAssoc (port.val) f).ht with hostMac := (s.rollAssoc (port.val) f).ht.hostMac.set (port.val) f.src.toNat : HtSt } : State } ∧ frType f = 1 ∧ sid = fld (frPayload f) 0 4 ∧ sid ≠ 0 ∧ v.dev ≠ stRestart ∧ v.inSession = false ∧ u = v.openSession sid ∧ (w = (if v.dev = stHostLost then u.hostBack else u).grantCredits)) ∧
    (∃ (s : State) (v : State) (port : Fin 2) (f : HostFrame), s.rxOf (port.val) f = Rx.taken ∧
    v = { s.rollAssoc (port.val) f with ht := { (s.rollAssoc (port.val) f).ht with hostMac := (s.rollAssoc (port.val) f).ht.hostMac.set (port.val) f.src.toNat : HtSt } : State } ∧ frType f = 2 ∧ v.dev = stRestart) ∧
    (∃ (s : State) (v : State) (port : Fin 2) (f : HostFrame), s.rxOf (port.val) f = Rx.taken ∧
    v = { s.rollAssoc (port.val) f with ht := { (s.rollAssoc (port.val) f).ht with hostMac := (s.rollAssoc (port.val) f).ht.hostMac.set (port.val) f.src.toNat : HtSt } : State } ∧ frType f = 2 ∧ v.dev ≠ stRestart ∧ (v.takeAcks f).inSession = true) ∧
    (∃ (s : State) (port : Fin 2) (f : HostFrame), s.rxOf (port.val) f = Rx.bad) ∧
    (∃ (s : State) (v : State), s.alive = true ∧ s.inSession = true ∧ s.passed s.ht.devHb (msTicks 10) = true ∧
    v = { s with ht := { s.ht with devHb := s.ticks : HtSt } : State } ∧ s.portUp 0 = true ∧ (v.sendStatus 0 2).portUp 1 = true) ∧
    (∃ (s : State), s.alive = true ∧ s.inSession = true ∧ s.dev ≠ stHostLost ∧ s.dev ≠ stRestart ∧
    s.passed s.ht.lastHb (msTicks (s.rd Reg.HTP_CFG_HOSTLOSS_MS)) = true) :=
  ⟨⟨linked, _, 0, hostFrame 1 0 (le 4 7), _, _, _, by decide +kernel, rfl, by decide +kernel, rfl, and3 (by decide +kernel) ⟨rfl, rfl⟩⟩,
  ⟨linked.wr Reg.HTP_STAT_STATE stRestart, _, 0, hostFrame 2 0 [], by decide +kernel, rfl, by decide +kernel⟩,
  ⟨linkedSession, _, 0, hostFrame 2 0 [], by decide +kernel, rfl, by decide +kernel⟩,
  ⟨linked, 0, hostFrame 3 0 [], by decide +kernel⟩,
  ⟨{ linkedSession.wr Reg.HTP_PORT_LINK 1 1 with ticks := 10 ^ 9 }, _, and3 (by decide +kernel) ⟨rfl, by decide +kernel⟩⟩,
  ⟨{ linkedSession with ticks := 10 ^ 12 }, by decide +kernel⟩⟩

theorem witness_SessionCommandsComplete_2 :
    (∃ (s : State) (port : Fin 2), s.alive = true ∧ s.inSession = false ∧ s.dev ≠ stRestart ∧ s.fnState 1 = rdReady ∧
    s.portUp port.val = true ∧ (∀ (t : ℕ), s.ht.lastHello.find port.val = some t → s.passed t (msTicks 100) = true)) ∧
    (∃ (s : State) (port : Fin 2), s.flag Reg.HTP_PORT_LINK port.val = true ∧
    (((s.setLink (port.val) false).wr Reg.HTP_PORT_LINK 0 port.val).wr Reg.HTP_PORT_SQI 0 port.val).fnState (1792 + port.val) ≠ rdReady) ∧
    (∃ (s : State) (t : ℕ), (s.stream false).ackDue = some t ∧ s.passed t (usTicks 50) = true) ∧
    (∃ (s : State) (v : State) (bulk : Bool) (x : Machine.Stream) (f : TxFrame) (r : List TxFrame), x = s.stream bulk ∧
    x.unacked = f :: r ∧ s.alive = true ∧ s.dev ≠ stHostLost ∧ s.passed f.sentAt (usTicks 200) = true ∧
    v = s.setStream bulk { x with periods := x.periods + 1 : Stream } ∧ x.periods < 15 ∧ v.portUp (v.streamPort bulk) = true ∧
    (v.stream bulk).periods = x.periods + 1) :=
  ⟨⟨linked.setFn 1 rdReady 0, 0, and5 (by decide +kernel) (none_all _ (by decide +kernel))⟩,
  ⟨linked, 0, by decide +kernel⟩,
  ⟨{ on.setStream false { on.stream false with ackDue := some 0 } with ticks := 10 ^ 9 }, 0, by decide +kernel⟩,
  ⟨{ linked.setStream false { on.stream false with unacked := [⟨0, 0, 0x21, []⟩] } with ticks := 10 ^ 9 }, _, false, _, ⟨0, 0, 0x21, []⟩,
    [], rfl, and4 (by decide +kernel) ⟨rfl, by decide +kernel⟩⟩⟩

theorem witness_RequestCommandsComplete_1 :
    (∃ (s : State) (v : State) (port : Fin 2) (f : HostFrame) (p : List Byte) (w : State), s.rxOf (port.val) f = Rx.taken ∧
    p = frPayload f ∧ v =
    ({ s.rollAssoc (port.val) f with ht := { (s.rollAssoc (port.val) f).ht with hostMac := (s.rollAssoc (port.val) f).ht.hostMac.set (port.val) f.src.toNat : HtSt } : State }).takeAcks f ∧ v.sequence false (port.val) f = (w, true) ∧ frType f = 16 ∧ requestError false p = stOk) ∧
    (∃ (s : State) (v : State) (port : Fin 2) (f : HostFrame) (p : List Byte) (w : State), s.rxOf (port.val) f = Rx.taken ∧
    p = frPayload f ∧ v =
    ({ s.rollAssoc (port.val) f with ht := { (s.rollAssoc (port.val) f).ht with hostMac := (s.rollAssoc (port.val) f).ht.hostMac.set (port.val) f.src.toNat : HtSt } : State }).takeAcks f ∧ v.sequence false (port.val) f = (w, true) ∧ frType f = 17 ∧ requestError true p = stOk ∧ w.writeError (requestWrite p) = 0 ∧ (requestWrite p).restarts = false) ∧
    (∃ (s : State) (v : State) (port : Fin 2) (f : HostFrame) (p : List Byte) (w : State) (u : State), s.rxOf (port.val) f = Rx.taken ∧
    p = frPayload f ∧ v =
    ({ s.rollAssoc (port.val) f with ht := { (s.rollAssoc (port.val) f).ht with hostMac := (s.rollAssoc (port.val) f).ht.hostMac.set (port.val) f.src.toNat : HtSt } : State }).takeAcks f ∧ v.sequence false (port.val) f = (w, true) ∧ frType f = 32 ∧ fld p 2 2 ≠ 0 ∧ w.bellError p ≠ some 5 ∧ (u = (if fld p 1 1 ≠ 255 then w.setCqHead (fld p 1 1) (fld p 12 4) else w).takeReady) ∧ u.bellError p = none) ∧
    (∃ (s : State) (v : State) (port : Fin 2) (f : HostFrame) (p : List Byte) (w : State), s.rxOf (port.val) f = Rx.taken ∧
    p = frPayload f ∧ v =
    ({ s.rollAssoc (port.val) f with ht := { (s.rollAssoc (port.val) f).ht with hostMac := (s.rollAssoc (port.val) f).ht.hostMac.set (port.val) f.src.toNat : HtSt } : State }).takeAcks f ∧ v.sequence true (port.val) f = (w, true) ∧ frType f = 48 ∧ s.inSession = true ∧ s.ht.usedIn < s.ht.creditIn) ∧
    (∃ (s : State) (v : State) (port : Fin 2) (f : HostFrame) (p : List Byte) (w : State), s.rxOf (port.val) f = Rx.taken ∧
    p = frPayload f ∧ v =
    ({ s.rollAssoc (port.val) f with ht := { (s.rollAssoc (port.val) f).ht with hostMac := (s.rollAssoc (port.val) f).ht.hostMac.set (port.val) f.src.toNat : HtSt } : State }).takeAcks f ∧ v.sequence true (port.val) f = (w, true) ∧ frType f = 49 ∧ pullError p = none ∧ w.inSession = true) ∧
    (∃ (s : State) (v : State) (port : Fin 2) (f : HostFrame) (p : List Byte) (w : State), s.rxOf (port.val) f = Rx.taken ∧
    p = frPayload f ∧ v =
    ({ s.rollAssoc (port.val) f with ht := { (s.rollAssoc (port.val) f).ht with hostMac := (s.rollAssoc (port.val) f).ht.hostMac.set (port.val) f.src.toNat : HtSt } : State }).takeAcks f ∧ v.sequence true (port.val) f = (w, true) ∧ frType f = 50 ∧ w.inSession = true) :=
  ⟨⟨linkedSession, _, 0, hostFrame 16 1 (le 4 0x90000 ++ le 4 1), _, _, by decide +kernel, rfl, rfl, pair_snd (by decide +kernel),
    by decide +kernel⟩,
  ⟨linkedSession, _, 0, hostFrame 17 1 (le 4 0x90000 ++ le 4 1 ++ le 4 0), _, _, by decide +kernel, rfl, rfl,
    pair_snd (by decide +kernel), by decide +kernel⟩,
  ⟨linkedSession.wr Reg.HTP_SQ_EN 1 63, _, 0, bell (zeros 64), _, _, _, by decide +kernel, rfl, rfl, pair_snd (by decide +kernel),
    and3 (by decide +kernel) ⟨rfl, by decide +kernel⟩⟩,
  ⟨{ linkedSession with ht := { on.ht with creditIn := 1 } }, _, 0, hostFrame 48 3 (zeros 32), _, _, by decide +kernel, rfl, rfl,
    pair_snd (by decide +kernel), by decide +kernel⟩,
  ⟨linkedSession, _, 0, hostFrame 49 3 (putAt (zeros 32) 16 (le 4 1)), _, _, by decide +kernel, rfl, rfl, pair_snd (by decide +kernel),
    by decide +kernel⟩,
  ⟨linkedSession, _, 0, hostFrame 50 3 (zeros 32), _, _, by decide +kernel, rfl, rfl, pair_snd (by decide +kernel), by decide +kernel⟩⟩

theorem witness_RequestCommandsComplete_2 : ∃ (s : State), s.dev = stSetup :=
  ⟨on.wr Reg.HTP_STAT_STATE stSetup, by decide +kernel⟩

theorem witness_DescriptorCommandsComplete_1 :
    (∃ (s : State) (job : ℕ) (j : Job), s.job job = some j ∧ s.waitMet j = true ∧ j.phase = Phase.waiting ∧ s.alive = true ∧
    s.retractedIn (s.startTaint j) = none ∧ (s.startTaint j = [] ∨ s.taints.length < 1024) ∧ waitsForEngine j = false) ∧
    (∃ (s : State) (job : ℕ) (j : Job), s.job job = some j ∧ s.waitMet j = true ∧ j.phase = Phase.waiting ∧ s.alive = true ∧
    s.retractedIn (s.startTaint j) = none ∧ (s.startTaint j = [] ∨ s.taints.length < 1024) ∧ waitsForEngine j = true ∧ j.opcode ≠ 16) ∧
    (∃ (s : State) (job : ℕ) (j : Job), s.job job = some j ∧ s.waitMet j = true ∧ j.phase = Phase.waiting ∧ s.alive = true ∧
    s.retractedIn (s.startTaint j) = none ∧ (s.startTaint j = [] ∨ s.taints.length < 1024) ∧ j.opcode = 16 ∧ waitsForEngine j = true) ∧
    (∃ (s : State) (job : ℕ) (j : Job), s.job job = some j ∧ s.waitMet j = false ∧ j.phase = Phase.waiting ∧ s.partRec j.part 2 2 ≠ 0 ∧
    s.passed j.atTick (msTicks (s.partRec j.part 2 2)) = true) ∧
    (∃ (s : State) (job : ℕ) (j : Job), s.startedJob job 0 = some j) ∧
    (∃ (s : State) (job : ℕ) (j : Job) (t : State), s.startedJob job 32 = some j ∧ loadLen j ≠ 0 ∧ s.loadPending j = false ∧
    (loadFamily j = 2 → s.oldBusy = false) ∧ t = s.store (loadAddr j (s.loadBank j) (loadFirst j)) j.param ∧ loadSwap j = false ∧
    (blockBad (loadEntryBad j s.epochLen) (loadSize j) (loadCount j) j.param).bind blockField = none) :=
  ⟨⟨withJob (jobOf .waiting 2 2 [(16, le 2 0xFFFF)]), 1, jobOf .waiting 2 2 [(16, le 2 0xFFFF)], by decide +kernel⟩,
  ⟨withJob (jobOf .waiting 0x11 2 []), 1, jobOf .waiting 0x11 2 [], by decide +kernel⟩,
  ⟨withJob (jobOf .waiting 0x10 0 []), 1, jobOf .waiting 0x10 0 [], by decide +kernel⟩,
  ⟨{ withJob (jobOf .waiting 0 0 [(16, le 2 5), (24, le 8 1)]) (on.store (winAddr 0xE3002) [1]) with ticks := 10 ^ 9 }, 1,
    jobOf .waiting 0 0 [(16, le 2 5), (24, le 8 1)], by decide +kernel⟩,
  ⟨withJob (jobOf .started 0 0 []), 1, jobOf .started 0 0 [], by decide +kernel⟩,
  ⟨opState 0x20 0 [(36, [32])] (zeros 32), 1, opJob 0x20 0 [(36, [32])] (zeros 32), _, and3 (by decide +kernel) ⟨(by decide +kernel),
    rfl, by decide +kernel⟩⟩⟩

theorem witness_DescriptorCommandsComplete_2 :
    (∃ (s : State) (job : ℕ) (j : Job), s.startedOp job 33 1 = some j ∧ s.rd Reg.HAT_VSTATE_STATE (j.arg 33 1) ≠ 0) ∧
    (∃ (s : State) (c : Fin 64) (l : List (List Byte)) (n : ℕ), s.alive = true ∧ s.inSession = true ∧ l = s.ht.cq.get [] c.val ∧
    n = s.sendable c.val ∧ n ≠ 0 ∧ s.canSend false = true) ∧
    (∃ (s : State) (t : State) (l : List Byte), s.alive = true ∧ s.inSession = true ∧ s.canSend false = true ∧ s.ht.againEvents = [] ∧
    State.gatherEvents ((s.queue 48).stream.length + (s.queue 49).stream.length) s [] = (t, l) ∧ l ≠ []) ∧
    (∃ (s : State) (t : State) (h : QItem) (ws : List QItem) (p : List QItem), s.alive = true ∧ s.dev ≠ stRestart ∧
    s.ht.againEpochs = [] ∧ s.dequeue 50 = some (h, ws, t) ∧ (p = (if packetBad h ws = true then h.damaged else h) :: ws) ∧
    s.canStream (streamPacket 50 p) = true) ∧
    (∃ (s : State) (v : State) (q : Fin 51) (c : List QItem) (r : List (List QItem)), s.alive = true ∧ s.dev ≠ stRestart ∧ q.val ≠ 50 ∧
    (s.queue q.val).copies = c :: r ∧ v = s.setQueue (q.val) ({ s.queue q.val with copies := r : Queue })) :=
  ⟨⟨(opState 0x21 1).wr Reg.HAT_VSTATE_STATE 1 0, 1, opJob 0x21 1, by decide +kernel⟩,
  ⟨{ linkedSession.wr Reg.HTP_CQ_IDX_PROD 1 63 with ht := { on.ht with cq := on.ht.cq.set 63 [zeros 64] } }, 63, _, _,
    and2 (by decide +kernel) ⟨rfl, rfl, by decide +kernel⟩⟩,
  ⟨{ linkedSession with queues := (queued 0x30 [⟨2, lengthWord 0 0 ⟨0, 63, 1, 0, 0⟩ 0⟩]).queues }, _, _,
    and4 (by decide +kernel) ⟨pair_eta, by decide +kernel⟩⟩,
  ⟨{ linked with queues := (queued 50 [⟨2, lengthWord 0 0 ⟨0, 63, 1, 0, 0⟩ 0⟩]).queues }, _, _, _, _,
    and3 (by decide +kernel) ⟨some_triple (by decide +kernel), rfl, by decide +kernel⟩⟩,
  ⟨on.setQueue 49 { Queue.reset with copies := [[⟨2, []⟩]] }, _, 49, [⟨2, []⟩], [], and4 (by decide +kernel) rfl⟩⟩

theorem witness_RingLinkCommandsComplete_1 :
    (∃ (s : State) (port : Fin 2) (fl : Flit), s.alive = true ∧ s.ringUp port.val = true ∧ fl.bytes.length ≠ 144) ∧
    (∃ (s : State) (port : Fin 2) (fl : Flit), s.alive = true ∧ s.ringUp port.val = true ∧
    fld fl.bytes 136 4 ≠ crc32c (List.take 136 fl.bytes)) ∧
    (∃ (s : State) (v : State) (port : Fin 2) (fl : Flit), s.alive = true ∧ s.ringUp port.val = true ∧ fl.bytes.length = 144 ∧
    fld fl.bytes 136 4 = crc32c (List.take 136 fl.bytes) ∧
    v = (s.flitAck (port.val) (fld fl.bytes 4 2)).flitCredit (port.val) (fld fl.bytes 6 1) (fld fl.bytes 7 1) ∧ fld fl.bytes 0 1 = 0) ∧
    (∃ (s : State) (v : State) (w : State) (port : Fin 2) (fl : Flit), s.alive = true ∧ s.ringUp port.val = true ∧
    fl.bytes.length = 144 ∧ fld fl.bytes 136 4 = crc32c (List.take 136 fl.bytes) ∧
    v = (s.flitAck (port.val) (fld fl.bytes 4 2)).flitCredit (port.val) (fld fl.bytes 6 1) (fld fl.bytes 7 1) ∧ fld fl.bytes 0 1 = 1 ∧
    fld fl.bytes 2 2 = (s.rx port.val).expect ∧
    w = v.setRx (port.val) ({ v.rx port.val with expect := ((v.rx port.val).expect + 1) % 65536, nak := false : PortRx })) ∧
    (∃ (s : State) (v : State) (w : State) (port : Fin 2) (fl : Flit), s.alive = true ∧ s.ringUp port.val = true ∧
    fl.bytes.length = 144 ∧ fld fl.bytes 136 4 = crc32c (List.take 136 fl.bytes) ∧
    v = (s.flitAck (port.val) (fld fl.bytes 4 2)).flitCredit (port.val) (fld fl.bytes 6 1) (fld fl.bytes 7 1) ∧ fld fl.bytes 0 1 = 2 ∧
    fld fl.bytes 2 2 = (s.rx port.val).expect ∧
    w = v.setRx (port.val) ({ v.rx port.val with expect := ((v.rx port.val).expect + 1) % 65536, nak := false : PortRx })) ∧
    (∃ (s : State) (port : Fin 2), s.alive = true ∧ s.ringUp port.val = true ∧ (s.tx port.val).kept ≠ [] ∧
    s.passed (s.tx port.val).keptAt (usTicks 4) = true) :=
  ⟨⟨ringed, 0, ⟨[]⟩, by decide +kernel⟩,
  ⟨ringed, 0, ⟨zeros 136 ++ [1]⟩, by decide +kernel⟩,
  ⟨ringed, _, 0, flitOf 0 0, and4 (by decide +kernel) ⟨rfl, by decide +kernel⟩⟩,
  ⟨ringed, _, _, 0, flitOf 1 0, and4 (by decide +kernel) ⟨rfl, and2 (by decide +kernel) rfl⟩⟩,
  ⟨ringed, _, _, 0, flitOf 2 0, and4 (by decide +kernel) ⟨rfl, and2 (by decide +kernel) rfl⟩⟩,
  ⟨{ ringed with ticks := 10 ^ 9, ring := { ringed.ring with tx := ringed.ring.tx.set 0 { PortTx.reset with kept := [(0, [])] } } }, 0,
    by decide +kernel⟩⟩

theorem witness_RingLinkCommandsComplete_2 :
    (∃ (s : State) (i : Fin 8), s.alive = true ∧ s.lanePassed i.val = true ∧ s.rd Reg.RNG_LANE_STATE i.val ≠ 3 ∧
    s.rd Reg.RNG_LANE_STATE i.val ≠ laneFailed ∧ (∀ l < 4,
    i.val / 4 * 4 + l ≠ i.val → s.rd Reg.RNG_LANE_STATE (i.val / 4 * 4 + l) ≠ laneRetrain)) ∧
    (∃ (s : State) (v : State) (i : Fin 8), s.alive = true ∧ s.rd Reg.RNG_LANE_STATE i.val = laneRetrain ∧
    (s.unit (laneUnit i.val)).offline = false ∧
    v = { s with ring := { s.ring with passed := putBit s.ring.passed (i.val) true,
                                       locked := putBit s.ring.locked (i.val) true : RingSt } : State }) ∧
    (∃ (s : State) (port : Fin 2), s.alive = true ∧ s.ringUp port.val = true ∧ (∀ (t : ℕ),
    s.ring.helloAt.find port.val = some t → s.passed t (msTicks 1) = true)) ∧
    (∃ (s : State) (port : Fin 2) (n : Neighbour), s.alive = true ∧ s.ringUp port.val = true ∧ s.ring.neigh.find port.val = some n ∧
    s.passed n.lastAt (msTicks 3) = true) ∧
    (∃ (s : State) (t : ℕ), Option.map (fun x => x.2) s.ring.census = some t ∧ s.alive = true ∧ s.passed t (usTicks 100) = true) :=
  ⟨⟨ringed, 3, by decide +kernel⟩,
  ⟨on.wr Reg.RNG_LANE_STATE laneRetrain 7, _, 7, and3 (by decide +kernel) rfl⟩,
  ⟨ringed, 0, and2 (by decide +kernel) (none_all _ (by decide +kernel))⟩,
  ⟨{ ringed with ticks := 10 ^ 9, ring := { ringed.ring with neigh := ringed.ring.neigh.set 0 ⟨5, 0, 0, 0, 0⟩ } }, 0, ⟨5, 0, 0, 0, 0⟩,
    by decide +kernel⟩,
  ⟨{ ringed with ticks := 10 ^ 9, ring := { ringed.ring with census := some (1, 0) } }, 0, by decide +kernel⟩⟩

theorem witness_CollectiveCommandsComplete_1 :
    (∃ (s : State) (job : ℕ) (j : Job), s.startedOp job 48 1 = some j ∧ j.param ≠ [] ∧ (∀ c ∈ s.ring.colls, c.startAt = none) ∧
    (((roleEntry j.param s.part.serial).getD (255, 0)).2 < 3 → s.ring.placed = [])) ∧
    (∃ (s : State) (u : State) (v : State) (job : ℕ) (op : ℕ) (j : Job) (c : Coll) (r : List Coll), s.job job = some j ∧ j.opcode = 48 ∧
    j.arg 32 1 = op ∧ j.phase = Phase.started ∧ s.gated islRng = false ∧ j.arg 36 4 ≠ 0 ∧ s.ring.colls = c :: r ∧ c.job = job ∧
    s.collRefusal j = none ∧ (u =
  { s with ring := { s.ring with early := List.filter (fun x => x.coll != c.number) s.ring.early : RingSt } : State }.modColl
    job fun y => { y with startAt := some s.ticks, progressAt := s.ticks,
                          received := List.filter (fun x => x.coll == c.number) s.ring.early : Coll }) ∧
    v = ({ u.setJob { j with phase := Phase.running : Job } with chanJob := (u.setJob { j with phase := Phase.running : Job }).chanJob.set ringChan job : State }).chanStart ringChan j.context 0 0 j.tag false ∧ op = 2) ∧
    (∃ (s : State) (u : State) (v : State) (job : ℕ) (op : ℕ) (j : Job) (c : Coll) (r : List Coll), s.job job = some j ∧ j.opcode = 48 ∧
    j.arg 32 1 = op ∧ j.phase = Phase.started ∧ s.gated islRng = false ∧ j.arg 36 4 ≠ 0 ∧ s.ring.colls = c :: r ∧ c.job = job ∧
    s.collRefusal j = none ∧ (u =
  { s with ring := { s.ring with early := List.filter (fun x => x.coll != c.number) s.ring.early : RingSt } : State }.modColl
    job fun y => { y with startAt := some s.ticks, progressAt := s.ticks,
                          received := List.filter (fun x => x.coll == c.number) s.ring.early : Coll }) ∧
    v = ({ u.setJob { j with phase := Phase.running : Job } with chanJob := (u.setJob { j with phase := Phase.running : Job }).chanJob.set ringChan job : State }).chanStart ringChan j.context 0 0 j.tag false ∧ op = 3) ∧
    (∃ (s : State) (u : State) (v : State) (job : ℕ) (op : ℕ) (j : Job) (c : Coll) (r : List Coll), s.job job = some j ∧ j.opcode = 48 ∧
    j.arg 32 1 = op ∧ j.phase = Phase.started ∧ s.gated islRng = false ∧ j.arg 36 4 ≠ 0 ∧ s.ring.colls = c :: r ∧ c.job = job ∧
    s.collRefusal j = none ∧ (u =
  { s with ring := { s.ring with early := List.filter (fun x => x.coll != c.number) s.ring.early : RingSt } : State }.modColl
    job fun y => { y with startAt := some s.ticks, progressAt := s.ticks,
                          received := List.filter (fun x => x.coll == c.number) s.ring.early : Coll }) ∧
    v = ({ u.setJob { j with phase := Phase.running : Job } with chanJob := (u.setJob { j with phase := Phase.running : Job }).chanJob.set ringChan job : State }).chanStart ringChan j.context 0 0 j.tag false ∧ op = 4) ∧
    (∃ (s : State) (job : ℕ) (t : ℕ) (c : Coll), List.find? (fun c => c.job == job) s.ring.colls = some c ∧ c.startAt = some t ∧
    s.passed t (msTicks (s.rd Reg.RNG_CFG_JOIN_MS)) = true ∧ c.step = 0 ∧ c.received = []) ∧
    (∃ (s : State) (job : ℕ) (t : ℕ) (c : Coll), List.find? (fun c => c.job == job) s.ring.colls = some c ∧ c.startAt = some t ∧
    s.chan ringChan ≠ chFaulted ∧ s.passed c.progressAt (msTicks (s.rd Reg.RNG_CFG_JOIN_MS)) = true) :=
  ⟨⟨opState 0x30 1 [] [1], 1, opJob 0x30 1 [] [1], by decide +kernel⟩,
  ⟨gathering 2, _, _, 1, 2, collJob 2, coll0, [], and9 (by decide +kernel) ⟨rfl, rfl, by decide +kernel⟩⟩,
  ⟨gathering 3, _, _, 1, 3, collJob 3, coll0, [], and9 (by decide +kernel) ⟨rfl, rfl, by decide +kernel⟩⟩,
  ⟨gathering 4, _, _, 1, 4, collJob 4, coll0, [], and9 (by decide +kernel) ⟨rfl, rfl, by decide +kernel⟩⟩,
  ⟨colling { coll0 with startAt := some 0 }, 1, 0, { coll0 with startAt := some 0 }, by decide +kernel⟩,
  ⟨colling { coll0 with startAt := some 0 }, 1, 0, { coll0 with startAt := some 0 }, by decide +kernel⟩⟩

theorem witness_CollectiveCommandsComplete_2 :
    (∃ (s : State) (e : ℕ × List ℕ × List ℕ) (r : List (ℕ × List ℕ × List ℕ)), s.ring.sent = e :: r ∧ s.alive = true ∧
    s.epochOver e.1 = true ∧ s.covered e = true) ∧
    (∃ (s : State) (e : ℕ × List ℕ × List ℕ) (r : List (ℕ × List ℕ × List ℕ)), s.ring.sent = e :: r ∧ s.alive = true ∧
    s.epochOver e.1 = true ∧ s.rd Reg.RNG_CHECK_PERIOD_US * 1000 + s.rd Reg.RNG_CHECK_LIMIT_US * 1000 ≤ (s.checkEpoch + 2 ^ 32 - e.1) % 2
    ^ 32 * (s.rd Reg.RNG_CHECK_PERIOD_US * 1000) + toU 64 ((↑s.dt64 - ↑(s.rd Reg.RUL_EPOCH_OFS_OFS_NS)) % ↑(s.rd Reg.RNG_CHECK_PERIOD_US
    * 1000))) :=
  ⟨⟨{ on with tm := { on.tm with dt96 := 10 ^ 11 * 2 ^ 32 }, ring := { on.ring with sent := [(0, [], [])] } }, (0, [], []), [],
    by decide +kernel⟩,
  ⟨{ on with tm := { on.tm with dt96 := 10 ^ 11 * 2 ^ 32 }, ring := { on.ring with sent := [(0, [], [])] } }, (0, [], []), [],
    by decide +kernel⟩⟩

theorem witness_ProofCommandsComplete_1 :
    (∃ (c : Fin 12) (u : BitVec 32), c.val ≠ 0 ∧ (u.toNat = 0 ∨ unitBuilt u.toNat = true) ∧ c.val ≠ 11) ∧
    (∃ (s : State) (c : Fin 12) (u : BitVec 32), c.val ≠ 0 ∧ (u.toNat = 0 ∨ unitBuilt u.toNat = true) ∧ c.val = 11 ∧ s.alive = true) ∧
    (∃ (s : State), s.alive = true) ∧
    (∃ (s : State) (p : Fin 34) (k : Fin 2) (upset : BitVec 64) (r : ProofRec) (c : ℕ) (crc : ℕ) (others : List ℕ),
    (s.plate p.val).slots[k.val]? = some r ∧ s.checkers p.val = c :: others ∧ r.checkCrc = none ∧ s.recordCrc c r upset = some crc ∧
    r.crc = some crc) ∧
    (∃ (s : State) (v : State) (p : Fin 34) (k : Fin 2) (upset : BitVec 64) (r : ProofRec) (c : ℕ) (crc : ℕ) (others : List ℕ),
    (s.plate p.val).slots[k.val]? = some r ∧ s.checkers p.val = c :: others ∧ r.checkCrc = none ∧ s.recordCrc c r upset = some crc ∧
    r.crc ≠ some crc ∧ v = (s.bump Reg.PRF_CNT_PROOF_TILES).bump Reg.PRF_CNT_PROOF_MISMATCH) ∧
    (∃ (s : State) (p : Fin 34) (k : Fin 2) (upset : BitVec 64) (r : ProofRec) (c : ℕ) (crc : ℕ) (others : List ℕ) (b : ℕ) (a : ℕ),
    (s.plate p.val).slots[k.val]? = some r ∧ s.checkers p.val = c :: others ∧ r.checkCrc = some b ∧ others.head? = some a ∧
    s.recordCrc a r upset = some crc) :=
  ⟨⟨10, 0, by decide +kernel⟩,
  ⟨on, 11, BitVec.ofNat 32 (unitId 5 1), by decide +kernel⟩,
  ⟨on, by decide +kernel⟩,
  ⟨(proving 2 (plateRec (some 7) none)).wr Reg.PLT_ARR_STAT_AT_TB 1 1, 0, 0, 7, plateRec (some 7) none, 1, 7, [], by decide +kernel⟩,
  ⟨(proving 2 (plateRec (some 7) none)).wr Reg.PLT_ARR_STAT_AT_TB 1 1, _, 0, 0, 6, plateRec (some 7) none, 1, 6, [],
    and5 (by decide +kernel) rfl⟩,
  ⟨(proving 3 (plateRec (some 7) (some 8))).wr Reg.PLT_ARR_STAT_AT_TB 1 2, 0, 0, 8, plateRec (some 7) (some 8), 1, 8, [2], 8, 2,
    by decide +kernel⟩⟩

theorem witness_ProofCommandsComplete_2 :
    (∃ (s : State) (u : State) (i : Fin 64) (step : ℕ), s.alive = true ∧ s.regionState i.val = rgValid ∧
    step = (s.obj (fld (s.region i.val).block 4 2)).value / max 1 (fld (s.region i.val).block 2 2) * max 1 (fld (s.region i.val).block 2
    2) ∧ (s.region i.val).lastStep < step ∧ s.regionDigest (i.val) false = (s.region i.val).ref ∧ fld (s.region i.val).block 0 1 = 255 ∧
    u = s.bump Reg.PRF_CNT_DIGESTS) ∧
    (∃ (s : State) (i : Fin 64) (w : ℕ × ℕ × ℕ),
    List.find? (fun w => w.1 == i.val && s.passed w.2.2 (msTicks (s.rd Reg.PRF_CFG_DIGEST_WAIT_MS))) s.prf.digestWait = some w) :=
  ⟨⟨digesting, _, 63, _, and2 (by decide +kernel) ⟨rfl, and3 (by decide +kernel) rfl⟩⟩,
  ⟨{ on with ticks := 10 ^ 10, prf := { on.prf with digestWait := [(63, 0, 0)] } }, 63, (63, 0, 0), by decide +kernel⟩⟩

theorem witness_DiagCommandsComplete_1 :
    (∃ (s : State) (u : State) (job : ℕ) (j : Job) (us : List ℕ), s.startedOp job 64 1 = some j ∧ us = targetUnits (j.arg 36 4) ∧
    (∀ x ∈ us, (s.unit x).test = false) ∧ (∀ x ∈ us, x / 2 ^ 24 = 1 → s.plateHeld (bits x 0 24) = false) ∧
    u = List.foldl (fun s x => s.beginTest x) s us) ∧
    (∃ (s : State) (v : State) (u : BitVec 32) (t : FieldTest) (j : Job), s.prf.tests = [t] ∧ t.ended = false ∧ t.unit = u.toNat ∧
    v = (s.bump Reg.PRF_CNT_FIELD_TESTS).leaveTest t.unit true ∧ v.prf.tests = [t] ∧ v.job t.job = some j ∧ unitBuilt u.toNat = true) ∧
    (∃ (s : State) (job : ℕ) (j : Job), s.startedOp job 64 2 = some j ∧ (∃ u ∈ targetUnits (j.arg 36 4), (s.unit u).offline = false)) ∧
    (∃ (s : State) (job : ℕ) (j : Job) (u : ℕ), s.startedOp job 64 3 = some j ∧
    List.filter s.canOnline (targetUnits (j.arg 36 4)) = [u]) ∧
    (∃ (s : State) (job : ℕ) (j : Job) (v : State), s.startedOp job 64 4 = some j ∧ j.param ≠ [] ∧ s.regionState (j.arg 36 1) = 0 ∧
    s.regionClash j.context (j.arg 36 1) j.param = none ∧
    s.vcheck j.context Access.read (fld j.param 16 8 / 4096 + 2) (fld j.param 8 8) (fld j.param 16 8) = none ∧
    v = s.putRegion (j.arg 36 1) j.context
    { block := j.param, ref := 0, root := (Option.map (fun x => x.root) (s.ctxs.find j.context)).getD 0,
      lastStep := (s.obj (fld j.param 4 2)).value / max 1 (fld j.param 2 2) * max 1 (fld j.param 2 2) : Region }) ∧
    (∃ (s : State) (job : ℕ) (j : Job), s.startedOp job 64 5 = some j ∧ s.regionState (j.arg 36 1) ≠ 0) :=
  ⟨⟨opState 0x40 1 [(36, le 4 (unitId 1 3))], _, 1, opJob 0x40 1 [(36, le 4 (unitId 1 3))], _, by decide +kernel, rfl,
    and2 (by decide +kernel) rfl⟩,
  ⟨{ opState 0x40 1 with prf := { on.prf with tests := [field0] } }, _, BitVec.ofNat 32 (unitId 1 3), field0, opJob 0x40 1,
    and3 (by decide +kernel) ⟨rfl, by decide +kernel⟩⟩,
  ⟨opState 0x40 2 [(36, le 4 (unitId 1 3))], 1, opJob 0x40 2 [(36, le 4 (unitId 1 3))], by decide +kernel⟩,
  ⟨unitWith (unitId 1 3) { UnitSt.reset with offline := true } (opState 0x40 3 [(36, le 4 (unitId 1 3))]), 1, opJob 0x40 3 [(36,
    le 4 (unitId 1 3))], unitId 1 3, by decide +kernel⟩,
  ⟨opState 0x40 4 [(36, [63])] regionBlock, 1, opJob 0x40 4 [(36, [63])] regionBlock, _, and5 (by decide +kernel) rfl⟩,
  ⟨withJob (opJob 0x40 5 [(36, [63])]) digesting, 1, opJob 0x40 5 [(36, [63])], by decide +kernel⟩⟩

theorem witness_DiagCommandsComplete_2 :
    (∃ (s : State) (job : ℕ) (j : Job), s.startedOp job 64 6 = some j ∧ s.regionState (j.arg 36 1) ≠ 0 ∧
    (bit (j.arg 33 1) 0 = true → bit (fld (s.region (j.arg 36 1)).block 1 1) 0 = true)) ∧
    (∃ (s : State) (job : ℕ) (j : Job) (v : State) (n : ℕ), s.startedOp job 64 7 = some j ∧ s.chan 48 ≠ chFaulted ∧ j.arg 40 4 ≠ 0 ∧
    s.vwrite 48 j.context (j.arg 48 8) (List.flatMap (fun r => historyBytes r.1 r.2) (List.take (j.arg 40 4 / 32) s.nv.history.rows)) =
    (v, n, none)) ∧
    (∃ (s : State) (u : BitVec 32), s.power ≠ Power.off ∧ s.classOf u.toNat < (s.history u.toNat).state) ∧
    (∃ (s : State) (v : State) (i : Fin 64) (g : Region) (ctx : ℕ), s.nv.regions.find i.val = some (g, ctx) ∧ s.boot.warm = true ∧
    s.power = Power.up ∧ s.boot.fwHeader ≠ [] ∧ s.regionState i.val = 0 ∧
    v = { s with prf := { s.prf with regions := s.prf.regions.set i.val { g with lastStep := 0 : Region } : PrfSt } : State } ∧
    v.regionDigest (i.val) false = g.ref) :=
  ⟨⟨withJob (opJob 0x40 6 [(33, [1]), (36, [63])]) digesting, 1, opJob 0x40 6 [(33, [1]), (36, [63])], by decide +kernel⟩,
  ⟨opState 0x40 7 [(40, [32])], 1, opJob 0x40 7 [(40, [32])], _, _, and3 (by decide +kernel) (triple_snd (by decide +kernel))⟩,
  ⟨{ on with nv := { on.nv with history := on.nv.history.set (unitId 1 3) { History.reset with state := 2 } } },
    BitVec.ofNat 32 (unitId 1 3), by decide +kernel⟩,
  ⟨{ booted with boot := { booted.boot with warm := true }, nv := { on.nv with regions := on.nv.regions.set 63 (⟨regionBlock, crc64 [],
                                                                               0, 5⟩, 0) } }, _, 63, ⟨regionBlock, crc64 [], 0, 5⟩, 0,
    and5 (by decide +kernel) ⟨rfl, by decide +kernel⟩⟩⟩

theorem witness_SafeCommandsComplete_1 :
    (∃ (s : State) (v : State), s.supplied = true ∧ s.flag Reg.SUP_STAT_LOCKED = false ∧
    v = { s with sup := { s.sup with safeInAt := some (s.sup.safeInAt.getD (s.ticks - usTicks 100)) : SupSt } : State }.wr
    Reg.SUP_STAT_SAFE_IN 1) ∧
    (∃ (s : State) (v : State) (t : ℕ), s.sup.safeInAt = some t ∧ s.supplied = true ∧ s.flag Reg.SUP_STAT_LOCKED = false ∧
    v = { s with sup := { s.sup with safeInAt := none : SupSt } : State }.wr Reg.SUP_STAT_SAFE_IN 0 ∧ v.supplied = true ∧
    v.flag Reg.SUP_STAT_LOCKED = false ∧ s.ticks < t + msTicks 10) ∧
    (∃ (s : State) (v : State) (t : ℕ), s.sup.safeInAt = some t ∧ s.supplied = true ∧ s.flag Reg.SUP_STAT_LOCKED = false ∧
    v = { s with sup := { s.sup with safeInAt := none : SupSt } : State }.wr Reg.SUP_STAT_SAFE_IN 0 ∧ v.supplied = true ∧
    v.flag Reg.SUP_STAT_LOCKED = false ∧ t + msTicks 10 ≤ s.ticks) ∧
    (∃ (s : State) (n : Fin 9), s.supplied = true ∧ s.holdOver n.val = true) ∧
    (∃ (s : State), s.supplied = true) ∧
    (∃ (s : State) (k : Fin 2), s.supplied = true ∧ bit s.sup.lineBad k.val = false) :=
  ⟨⟨on, _, and2 (by decide +kernel) rfl⟩,
  ⟨on, _, 0, and3 (by decide +kernel) ⟨rfl, by decide +kernel⟩⟩,
  ⟨{ on with ticks := 10 ^ 9 }, _, 0, and3 (by decide +kernel) ⟨rfl, by decide +kernel⟩⟩,
  ⟨holding 8 3 false, 8, by decide +kernel⟩,
  ⟨on, by decide +kernel⟩,
  ⟨on, 1, by decide +kernel⟩⟩

theorem witness_SafeCommandsComplete_2 :
    (∃ (s : State) (k : Fin 2), s.supplied = true ∧ bit s.sup.lineBad k.val = true) ∧
    (∃ (s : State) (v : State) (tj : ℤ), s.alive = true ∧ 1150 ≤ tj ∧ s.flag Reg.SUP_THERM_THROTTLE = false ∧
    v = ((s.wr Reg.SUP_THERM_TJ (toU 12 tj)).wr Reg.SUP_THERM_THROTTLE 1).reclock s) ∧
    (∃ (s : State) (v : State) (tj : ℤ), s.alive = true ∧ 1250 ≤ tj ∧
    v = (((s.requestHeld srcThermal).wr Reg.SUP_THERM_TJ (toU 12 tj)).wr Reg.SUP_THERM_TRIPPED 1).warmStart startThermal true) ∧
    (∃ (s : State) (v : State) (tj : ℤ), s.power = Power.held ∧ s.sup.thermalHold = true ∧ s.prf.heldReset = false ∧ tj ≤ 1050 ∧
    v = ({ s with power := Power.starting, sup := { s.sup with thermalHold := false : SupSt } : State }.wr Reg.SUP_THERM_TJ (toU 12
    tj)).wr Reg.SUP_THERM_THROTTLE 0) :=
  ⟨⟨{ on with sup := { on.sup with lineBad := 2 } }, 1, by decide +kernel⟩,
  ⟨on, _, 1150, and3 (by decide +kernel) rfl⟩,
  ⟨on, _, 1250, and2 (by decide +kernel) rfl⟩,
  ⟨{ on with power := .held, sup := { on.sup with thermalHold := true } }, _, 1050, and4 (by decide +kernel) rfl⟩⟩

theorem witness_SupplyCommandsComplete_1 :
    (∃ (s : State) (v : State) (mv : ℕ), 9300 ≤ mv ∧ mv ≤ 59600 ∧
    v = (({ s with pwr := { s.pwr with vin := mv, underSince := none, overSince := none, surgeSince := none : PwrSt } : State }.wr
    Reg.PWR_SUPPLY_VIN_MV mv).wr Reg.PWR_STAT_UNDERVOLT 0).wr Reg.PWR_STAT_OVERVOLT 0) ∧
    (∃ (s : State) (v : State), s.supplied = true ∧ s.brownOutDue = true ∧ v = s.cutAdvance) ∧
    (∃ (s : State), s.flag Reg.PWR_STAT_WAKE = true) ∧
    (∃ (s : State) (v : State) (t : ℕ), s.pwr.wakeLow = some t ∧ s.supplied = true ∧
    t + msTicks (1000 * s.rd Reg.PWR_WAKE_DELAY_S) ≤ s.ticks ∧ v = s.cutAdvance.powerOff) ∧
    (∃ (s : State), s.power = Power.off ∧ s.pwr.wakeOff = true) ∧
    (∃ (s : State) (v : State) (n : Fin 12) (l : List ℕ), s.alive = true ∧ s.pocOn n.val = true ∧
    l = s.ticks :: List.filter (fun t => decide (s.ticks < t + msTicks 60000)) (s.pwr.pocFaults.get [] n.val) ∧
    v = { s with pwr := { s.pwr with pocFaults := s.pwr.pocFaults.set (n.val) l,
                                     pocLocked := s.pwr.pocLocked.set (n.val) (decide (3 ≤ l.length)),
                                     pocOpen := s.pwr.pocOpen.set (n.val) s.ticks : PwrSt } : State }.wr Reg.PWR_POC_FAULT (s.rd
    Reg.PWR_POC_FAULT + 2 ^ n.val)) :=
  ⟨⟨on, _, 9300, and2 (by decide +kernel) rfl⟩,
  ⟨{ on with ticks := 10 ^ 9, pwr := { on.pwr with surgeSince := some 0 } }, _, and2 (by decide +kernel) rfl⟩,
  ⟨on, by decide +kernel⟩,
  ⟨{ on with ticks := 10 ^ 12, pwr := { on.pwr with wakeLow := some 0 } }, _, 0, and3 (by decide +kernel) rfl⟩,
  ⟨{ State.reset with pwr := { on.pwr with wakeOff := true } }, by decide +kernel⟩,
  ⟨on.wr Reg.PWR_POC_ENABLE 0xFFF, _, 11, _, and2 (by decide +kernel) ⟨rfl, rfl⟩⟩⟩

theorem witness_SupplyCommandsComplete_2 :
    (∃ (s : State) (n : Fin 12), s.alive = true ∧ bit (s.rd Reg.PWR_POC_FAULT) n.val = true ∧ s.pwr.pocLocked.get false n.val = false ∧
    s.passed (s.pwr.pocOpen.get 0 n.val) (msTicks 1000) = true) ∧
    (∃ (s : State), s.alive = true ∧ s.flag Reg.HTP_CTRL_SETUP_DONE = false) ∧
    (∃ (s : State) (v : State) (mv : BitVec 16), 9000 ≤ mv.toNat ∧ mv.toNat ≤ 16000 ∧
    v = (s.wr Reg.PWR_SUPPLY_VCAM_MV mv.toNat).wr Reg.PWR_STAT_VCAM_BAD 0) ∧
    (∃ (t : ℤ), t ≤ 950 ∧ -400 ≤ t) ∧
    (∃ (s : State) (t : ℤ), (950 < t ∨ t < -400) ∧ s.flag Reg.PWR_STAT_BASE_RANGE = false) ∧
    (∃ (s : State), s.alive = true ∧ 162000000 ≤ s.nv.seconds ∧ s.pwr.missionTold = false) :=
  ⟨⟨{ on.wr Reg.PWR_POC_FAULT (2 ^ 11) with ticks := 10 ^ 10 }, 11, by decide +kernel⟩,
  ⟨on, by decide +kernel⟩,
  ⟨on, _, 9000, and2 (by decide +kernel) rfl⟩,
  ⟨-400, by decide +kernel⟩,
  ⟨on, -401, by decide +kernel⟩,
  ⟨{ on with nv := { on.nv with seconds := 162000000 } }, by decide +kernel⟩⟩

theorem witness_BringUpCommandsComplete_1 :
    (∃ (s : State) (mv : ℕ), s.power = Power.off ∧ s.flag Reg.PWR_STAT_WAKE = true ∧ 9500 ≤ mv ∧ mv ≤ 60000) ∧
    (∃ (s : State), s.power = Power.starting ∧ s.boot.bistDone = false ∧ (∀ u ∈ coreUnits, s.permanent u = false)) ∧
    (∃ (s : State), s.power = Power.starting ∧ s.boot.bistDone = false ∧ (∃ u ∈ coreUnits, s.permanent u = true)) ∧
    (∃ (s : State) (v : State), s.power = Power.starting ∧ s.boot.bistDone = true ∧ s.nv.brownOut = none ∧
    (v = List.foldl (fun s i => s.setIngest i (if s.sensor i 0 1 = 0 then 0 else 1)) { s with power := Power.up : State }.loadCal
    (List.range 64))) ∧
    (∃ (s : State) (v : State) (c : Fin 8), s.alive = true ∧ bit s.chanMap c.val = true ∧ bit s.boot.trained c.val = false ∧
    bit s.pwr.domains (41 + c.val / 4) = true ∧ bit s.nv.training c.val = true ∧
    v = ({ s with boot := { s.boot with trained := s.boot.trained ||| 2 ^ c.val : BootSt } : State }.wr Reg.EAS_BOOT_TRAIN_SAVED (s.rd
    Reg.EAS_BOOT_TRAIN_SAVED ||| 2 ^ c.val)).fnReady (512 + c.val) ∧ v.allTrained = false) ∧
    (∃ (s : State), s.power = Power.up ∧ s.allTrained = true ∧ s.bootOver = false) :=
  ⟨⟨State.reset, 9500, by decide +kernel⟩,
  ⟨starting, by decide +kernel⟩,
  ⟨{ starting with nv := { on.nv with history := on.nv.history.set (unitId 0x10 0) { History.reset with state := 3 } } },
    and2 (by decide +kernel) ⟨unitId 0x10 0, by decide +kernel⟩⟩,
  ⟨{ starting with boot := { on.boot with bistDone := true } }, _, and3 (by decide +kernel) rfl⟩,
  ⟨{ on with chanMap := 0xFF, nv := { on.nv with training := 0xFF }, pwr := { on.pwr with domains := 2 ^ 43 - 1 } }, _, 7,
    and5 (by decide +kernel) ⟨rfl, by decide +kernel⟩⟩,
  ⟨{ on with chanMap := 0xFF, boot := { on.boot with trained := 0xFF } }, by decide +kernel⟩⟩

theorem witness_BringUpCommandsComplete_2 :
    (∃ (s : State) (r : Fin 17), r.val ≠ 16 ∧ s.regionTurn r.val = true) ∧
    (∃ (s : State) (v : State) (r : Fin 17) (k : Fin 3), r.val ≠ 16 ∧ s.regionTurn r.val = true ∧
    v = ({ s with boot := { s.boot with failed := s.boot.failed.set (r.val) (3 + k.val) : BootSt } : State }.wr Reg.EAS_MEMTEST_FAILED
    (s.rd Reg.EAS_MEMTEST_FAILED ||| 2 ^ r.val)).setFn (256 + r.val) rdFailed (3 + k.val)) ∧
    (∃ (s : State) (h : Fin 2), s.power = Power.up ∧ s.allTrained = true ∧ s.bootOver = true ∧ s.regionOver 0 = true ∧
    s.retentionOver h.val = false) ∧
    (∃ (s : State) (v : State) (x : ℕ) (h : List Byte) (e : Option (ℕ × ℕ)), s.boot.verify = some x ∧ s.power = Power.up ∧
    s.dev = stRom ∧ h = s.staged 0 1024 ∧
    v = { s with ht := { s.ht with pushed := s.ht.pushed.erase x : HtSt }, boot := { s.boot with verify := none : BootSt } : State } ∧
    e = v.imageError h none) ∧
    (∃ (s : State) (v : State) (got : List ℕ), s.power = Power.up ∧ s.boot.fwHeader ≠ [] ∧ s.boot.needleFw = false ∧
    s.gated islFab = false ∧ (∀ p ∈ s.platesOn, bit s.pwr.domains (1 + p) = true) ∧
    got = multicastFrom 13 aonNode (mapBits 48 fun n => s.platesOn.any fun p => plateNode p == n) ∧
    v = { s with boot := { s.boot with needleFw := true, fwPlates := mapBits 34 fun p => got.contains (plateNode p) : BootSt } : State })
    ∧
    (∃ (s : State) (f : BitVec 16), s.power = Power.up ∧ s.boot.fwHeader ≠ [] ∧ s.unitUp (s.fnUnit f.toNat) = true ∧
    bit s.pwr.domains (domainOf (s.fnUnit f.toNat)) = true ∧ (f = 7 ∨ f = 8)) :=
  ⟨⟨tested, 0, by decide +kernel⟩,
  ⟨tested, _, 0, 2, and2 (by decide +kernel) rfl⟩,
  ⟨tested.wr Reg.MEM_RELEASE_REGION 1, 1, by decide +kernel⟩,
  ⟨{ on with boot := { on.boot with verify := some 7 } }, _, 7, _, _, and3 (by decide +kernel) ⟨rfl, rfl, rfl⟩⟩,
  ⟨{ booted with plateMap := 2 ^ 34 - 1 }, _, _, and5 (by decide +kernel) ⟨rfl, rfl⟩⟩,
  ⟨booted, 8, by decide +kernel⟩⟩

theorem witness_BringUpCommandsComplete_3 :
    (∃ (s : State) (f : BitVec 16), s.power = Power.up ∧ s.boot.fwHeader ≠ [] ∧ s.unitUp (s.fnUnit f.toNat) = true ∧
    bit s.pwr.domains (domainOf (s.fnUnit f.toNat)) = true ∧ (f = 9 ∨ f = 10)) ∧
    (∃ (s : State) (f : BitVec 16), s.power = Power.up ∧ s.boot.fwHeader ≠ [] ∧ s.unitUp (s.fnUnit f.toNat) = true ∧
    bit s.pwr.domains (domainOf (s.fnUnit f.toNat)) = true ∧ 768 ≤ f.toNat ∧ f.toNat < 768 + s.platesOn.length ∧
    bit s.boot.fwPlates (bits (s.fnUnit f.toNat) 0 24) = true ∧ s.rd Reg.PLT_STAT_STATE (bits (s.fnUnit f.toNat) 0 24) = 0) ∧
    (∃ (s : State), s.power = Power.up ∧ s.flag Reg.HTP_CTRL_SETUP_DONE = false ∧ s.boot.saving = none ∧ s.calNow.size ≤ 4194304) ∧
    (∃ (s : State) (c : CalSet), s.boot.saving = some c) ∧
    (∃ (s : State), s.alive = true ∧ s.flag Reg.HTP_CTRL_SETUP_DONE = false) :=
  ⟨⟨booted, 10, by decide +kernel⟩,
  ⟨{ booted with plateMap := 2 ^ 33, boot := { booted.boot with fwPlates := 2 ^ 33 } }, 768, by decide +kernel⟩,
  ⟨on, by decide +kernel⟩,
  ⟨{ on with boot := { on.boot with saving := some ⟨[], 0, true⟩ } }, ⟨[], 0, true⟩, by decide +kernel⟩,
  ⟨on, by decide +kernel⟩⟩

theorem witness_SecurityCommandsComplete :
    (∃ (s : State), s.alive = true ∧ s.flag Reg.HTP_CTRL_SETUP_DONE = false) ∧
    (∃ (s : State), s.alive = true ∧ s.flag Reg.HTP_CTRL_SETUP_DONE = false ∧ s.advanceError = none) ∧
    (∃ (s : State), s.alive = true ∧ s.unlockError = none) ∧
    (∃ (s : State) (v : State) (n : List Byte) (r : List (List Byte)) (gen : ℕ), s.alive = true ∧ s.sec.reports = n :: r ∧
    gen = (s.rd Reg.SEC_ATTEST_GEN_GENERATION + 2) % 2 ^ 32 ∧
    v = { s with sec := { s.sec with reports := r : SecSt } : State }.store (winAddr 139264) (List.take 1024 (s.attestReport n))) ∧
    (∃ (s : State) (t : ℕ) (n : ℕ), s.alive = true ∧ s.sec.target = some t ∧ n = s.blowBit.rd Reg.SEC_ROLLBACK_COUNTER ∧ n < t) ∧
    (∃ (s : State) (t : ℕ) (n : ℕ), s.alive = true ∧ s.sec.target = some t ∧ n = s.blowBit.rd Reg.SEC_ROLLBACK_COUNTER ∧ t ≤ n) :=
  ⟨⟨on, by decide +kernel⟩,
  ⟨booted.wr Reg.HTP_STAT_STATE stSetup, by decide +kernel⟩,
  ⟨on, by decide +kernel⟩,
  ⟨{ on with sec := { on.sec with reports := [zeros 8] } }, _, zeros 8, [], _, and2 (by decide +kernel) ⟨rfl, rfl⟩⟩,
  ⟨advancing 2, 2, _, and2 (by decide +kernel) ⟨rfl, by decide +kernel⟩⟩,
  ⟨advancing 1, 1, _, and2 (by decide +kernel) ⟨rfl, by decide +kernel⟩⟩⟩

theorem witness_MarginCommandsComplete :
    (∃ (s : State), s.power = Power.up) ∧
    (∃ (s : State) (code : ℕ) (t : List Byte) (raw : List Byte), s.power = Power.up ∧ s.locked = false ∧
    s.flag Reg.HTP_CTRL_SETUP_DONE = false ∧ s.loadTable = (code, t, raw)) :=
  ⟨⟨on, by decide +kernel⟩,
  ⟨on, _, _, _, and3 (by decide +kernel) rfl⟩⟩

theorem witness_FrontCommandRuns : ∃ (c : Instr) (r : List Instr) (s : State), s.pending = c :: r :=
  ⟨.missionEnd, [], { on with pending := [.missionEnd] }, by decide +kernel⟩

theorem witness_IdleOnEmptyQueue : ∃ (s : State), s.pending = [] :=
  ⟨on, by decide +kernel⟩

theorem witness_StepKeepsMemoryCanonical : ∃ (s : State) (t : State), Safety.Inv s ∧ step s = Host.Outcome.next t :=
  ⟨{ on with pending := [.missionEnd] }, _, (by decide +kernel : Memory.wf on.mem = true), rfl⟩

theorem witness_StepTakesTheFrontCommand : ∃ (s : State) (t : State), step s = Host.Outcome.next t :=
  ⟨{ on with pending := [.missionEnd] }, _, rfl⟩

theorem witness_FusesKeptAndRollbackNeverFalls : ∃ (s : State) (t : State), step s = Host.Outcome.next t :=
  ⟨{ on with pending := [.missionEnd] }, _, rfl⟩

theorem witness_PermanentUnitsStayPermanent : ∃ (s : State) (t : State) (u : ℕ), step s = Host.Outcome.next t ∧ s.permanent u = true :=
  ⟨{ on with pending := [.missionEnd],
             nv := { on.nv with history := on.nv.history.set (unitId 1 3) { History.reset with state := 3 } } }, _, unitId 1 3, rfl,
    by decide +kernel⟩

theorem witness_OperatingSecondsNeverFall : ∃ (s : State) (t : State), step s = Host.Outcome.next t :=
  ⟨{ on with pending := [.missionEnd] }, _, rfl⟩

theorem witness_AtMostFourDomainsSwitchOn :
    (∃ (s : State) (t : State), step s = Host.Outcome.next t ∧
    (List.filter (fun k => decide (s.ticks < k + usTicks 250)) s.pwr.switched).length ≤ 4) ∧
    (∃ (s : State) (t : State), step s = Host.Outcome.next t) :=
  ⟨⟨{ on with pending := [.missionEnd] }, _, rfl, by decide +kernel⟩,
  ⟨{ on with pending := [.missionEnd] }, _, rfl⟩⟩

theorem witness_TickAddsIncrement : ∃ (s : State), s.power ≠ Power.off :=
  ⟨on, by decide +kernel⟩

theorem witness_BreakingPulsesAreSuppressed :
    (∃ (s : State) (v : State) (e : Fin 256) (t : ℕ) (u : ℕ) (k : ℕ) (w : ℕ) (least : ℕ) (duty : ℕ), s.power = Power.up ∧
    s.rulKind e.val = rkLine ∧ s.dueTrig (e.val) 0 = some t ∧ k = s.rulIndex e.val ∧ w = (s.rul (e.val) 12 4 + 3) / 4 * 4 ∧
    v = s.served (e.val) t ∧ (s.tm.lines.get { untilNs := 0, lastStart := none : Line } k).lastStart = some u ∧ (least,
    duty) = s.lineLimit k ∧ (s.dt64 - u < least ∨ duty * (s.dt64 - u) < w * 256)) ∧
    (∃ (s : State) (v : State) (e : Fin 256) (t : ℕ) (u : ℕ) (k : ℕ) (w : ℕ) (least : ℕ) (duty : ℕ), s.power = Power.up ∧
    s.rulKind e.val = rkLine ∧ s.dueTrig (e.val) 0 = some t ∧ k = s.rulIndex e.val ∧ w = (s.rul (e.val) 12 4 + 3) / 4 * 4 ∧
    v = s.served (e.val) t ∧ (s.tm.lines.get { untilNs := 0, lastStart := none : Line } k).lastStart = some u ∧ (least,
    duty) = s.lineLimit k ∧ least ≤ s.dt64 - u ∧ w * 256 ≤ duty * (s.dt64 - u)) :=
  ⟨⟨{ ruling 1 with tm := { (ruling 1).tm with lines := (ruling 1).tm.lines.set 0 ⟨0, some 0⟩ } }, _, 0, 1, 0, _, _, 1000000, 64,
    and3 (by decide +kernel) ⟨rfl, rfl, rfl, by decide +kernel⟩⟩,
  ⟨{ ruling 1 with tm := { (ruling 1).tm with dt96 := 10 ^ 7 * 2 ^ 32, lines := (ruling 1).tm.lines.set 0 ⟨0, some 0⟩ } }, _, 0, 1, 0, _,
    _, 1000000, 64, and3 (by decide +kernel) ⟨rfl, rfl, rfl, by decide +kernel⟩⟩⟩

theorem witness_EmptyQueueReadsIdle :
    (∃ (s : State) (q : Fin 51), (s.queue q.val).items = [] ∧ queueBuilt q.val = true ∧ (s.queue q.val).torn = false ∧
    s.hardwareRead q.val = true) ∧
    (∃ (s : State) (q : Fin 51), (s.queue q.val).items = [] ∧ queueBuilt q.val = true ∧ (s.queue q.val).torn = false) ∧
    (∃ (s : State) (q : Fin 51), (s.queue q.val).items = [] ∧ queueBuilt q.val = true ∧ (s.queue q.val).torn = true ∧
    s.hardwareRead q.val = true) :=
  ⟨⟨on, 50, by decide +kernel⟩,
  ⟨on, 50, by decide +kernel⟩,
  ⟨on.setQueue 50 { Queue.reset with headCopy := 1 }, 50, by decide +kernel⟩⟩

theorem witness_SyncOperationsFollowTheirRule :
    (∃ (s : State) (job : ℕ) (j : Job), s.startedOp job 2 1 = some j ∧ s.waiters (j.arg 34 2) = 0 ∧ (∀ r ∈ s.brn.probs.rows,
    r.2.armed.isSome = true → fld r.2.record 56 2 ≠ j.arg 34 2) ∧ (∀ t < 256, s.taskValid t = true → s.taskRec t 2 2 ≠ j.arg 34 2 ∧
    s.taskRec t 4 2 ≠ j.arg 34 2)) ∧
    (∃ (s : State) (job : ℕ) (j : Job), s.startedOp job 2 1 = some j ∧ (s.waiters (j.arg 34 2) ≠ 0 ∨ (∃ r ∈ s.brn.probs.rows,
    r.2.armed.isSome = true ∧ fld r.2.record 56 2 = j.arg 34 2) ∨ ∃ t < 256, s.taskValid t = true ∧
    (s.taskRec t 2 2 = j.arg 34 2 ∨ s.taskRec t 4 2 = j.arg 34 2))) ∧
    (∃ (j : Job), j.arg 32 1 = 1 ∧ j.arg 34 2 = 65535) ∧
    (∃ (s : State) (job : ℕ) (j : Job), s.startedOp job 2 2 = some j ∧ j.arg 34 2 ≠ 65535) ∧
    (∃ (s : State) (job : ℕ) (j : Job), s.startedOp job 2 3 = some j ∧ s.groupWaited (j.arg 34 1) = false) ∧
    (∃ (s : State) (job : ℕ) (j : Job), s.startedOp job 2 3 = some j ∧ s.groupWaited (j.arg 34 1) = true) :=
  ⟨⟨opState 2 1 [(34, le 2 65534)], 1, opJob 2 1 [(34, le 2 65534)], by decide +kernel⟩,
  ⟨opState 2 1 [(34, le 2 7)] [] (tasked.store (winAddr (0xE4000 + 32 * 5 + 2)) (le 2 7)), 1, opJob 2 1 [(34, le 2 7)],
    by decide +kernel, Or.inr (Or.inr ⟨5, by decide +kernel⟩)⟩,
  ⟨opJob 2 1 [(34, le 2 65535)], by decide +kernel⟩,
  ⟨opState 2 2, 1, opJob 2 2, by decide +kernel⟩,
  ⟨opState 2 3 [(34, [255])], 1, opJob 2 3 [(34, [255])], by decide +kernel⟩,
  ⟨{ opState 2 3 with jobs := [opJob 2 3, { jobOf .waiting 0 0 [(16, le 2 5), (24, le 8 1)] with id := 2 }] }, 1, opJob 2 3,
    by decide +kernel⟩⟩

theorem witness_NullObject :
    (∃ (j : Job), j.waitObj = 65535) ∧
    (∃ (s : State) (job : ℕ) (j : Job), s.startedOp job 2 2 = some j ∧ j.arg 34 2 = 65535) ∧
    (∃ (j : Job), (j.confirm = false ∨ j.taint = []) ∧ j.sigObj = 65535) :=
  ⟨⟨opJob 2 2 [(16, le 2 65535)], by decide +kernel⟩,
  ⟨opState 2 2 [(34, le 2 65535)], 1, opJob 2 2 [(34, le 2 65535)], by decide +kernel⟩,
  ⟨opJob 2 2, by decide +kernel⟩⟩

theorem witness_WaitTimeoutRule :
    (∃ (s : State) (job : ℕ) (j : Job), s.job job = some j ∧ j.phase = Phase.waiting ∧ s.waitMet j = false ∧ s.partRec j.part 2 2 ≠ 0 ∧
    j.atTick + msTicks (s.partRec j.part 2 2) ≤ s.ticks) ∧
    (∃ (s : State) (job : ℕ) (j : Job), s.job job = some j ∧ j.phase = Phase.waiting ∧
    (s.waitMet j = true ∨ s.partRec j.part 2 2 = 0 ∨ s.ticks < j.atTick + msTicks (s.partRec j.part 2 2))) :=
  ⟨⟨{ withJob (jobOf .waiting 0 0 [(16, le 2 5), (24, le 8 1)]) (on.store (winAddr 0xE3002) [1]) with ticks := 10 ^ 9 }, 1,
    jobOf .waiting 0 0 [(16, le 2 5), (24, le 8 1)], by decide +kernel⟩,
  ⟨withJob (jobOf .waiting 0 0 []), 1, jobOf .waiting 0 0 [], by decide +kernel⟩⟩

theorem witness_HoldReleasesAfterItsTime :
    (∃ (s : State) (n : Fin 9), (s.policy n.val).2.1 = false ∧ s.supplied = true ∧ s.flag Reg.SUP_STAT_LOCKED = false ∧
    (s.source n.val).cause = false ∧ (s.source n.val).clearedAt + msTicks (s.policy n.val).2.2 ≤ s.ticks ∧ (s.source n.val).lines ≠ 0) ∧
    (∃ (s : State) (n : Fin 9), (s.policy n.val).2.1 = false ∧ s.supplied = true ∧ s.flag Reg.SUP_STAT_LOCKED = false ∧
    (s.source n.val).cause = false ∧ s.ticks < (s.source n.val).clearedAt + msTicks (s.policy n.val).2.2) ∧
    (∃ (s : State) (n : Fin 9), (s.policy n.val).2.1 = false ∧ s.supplied = true ∧ s.flag Reg.SUP_STAT_LOCKED = false) :=
  ⟨⟨holding 8 3 false, 8, by decide +kernel⟩,
  ⟨{ holding 3 3 false with ticks := 0 }, 3, by decide +kernel⟩,
  ⟨holding 8 3 true, 8, by decide +kernel⟩⟩

theorem witness_LatchKeepsUntilSafeIn :
    (∃ (s : State) (n : Fin 9), (s.policy n.val).2.1 = true) ∧
    (∃ (s : State) (t0 : ℕ), s.sup.safeInAt = some t0 ∧ s.supplied = true ∧ s.flag Reg.SUP_STAT_LOCKED = false) :=
  ⟨⟨on, 5, by decide +kernel⟩,
  ⟨on, 0, by decide +kernel⟩⟩

theorem witness_ClosedPathsDropCommands : ∃ (s : State) (p : Fin 10) (f : EgressFrame) (c : ℕ),
    matchCmd s.mgd.table (p.val) f.ident.toNat f.bytes = some c ∧ (bit (s.pathFlags p.val) 2 = true ∧
    s.flag Reg.SUP_STAT_SAFE_A = true ∨ bit (s.pathFlags p.val) 3 = true ∧ s.flag Reg.SUP_STAT_SAFE_B = true) :=
  ⟨{ on with mgd := { on.mgd with table := closedTable } }, 0, ⟨[], 0⟩, 0, by decide +kernel⟩

theorem witness_CommonsHalvesStartAtZero :
    (∃ (s : State) (d : Fin 43), (d.val = 35 ∨ d.val = 36) ∧ s.alive = true ∧ bit s.pwr.domains d.val = false ∧ s.pwr.switched = []) ∧
    (∃ (h : ℕ) (o : ℕ), h < 2 ∧ o < 10485760) ∧
    (∃ (o : ℕ), o < 2 * 10485760) :=
  ⟨⟨{ on with pwr := { on.pwr with domains := 1 } }, 35, by decide +kernel⟩,
  ⟨1, 10485759, by decide +kernel⟩,
  ⟨20971519, by decide +kernel⟩⟩

theorem witness_BasePlateRange : ∃ (s : State) (u : State) (t : ℤ), (950 < t ∨ t < -400) ∧ s.flag Reg.PWR_STAT_BASE_RANGE = false ∧
    s.supplied = true ∧ u = (s.wr Reg.PWR_TEMP_BASE (toU 16 t)).wr Reg.PWR_STAT_BASE_RANGE 1 :=
  ⟨on, _, 951, and3 (by decide +kernel) rfl⟩

theorem witness_MissionEndOnce :
    (∃ (s : State), s.alive = true ∧ 162000000 ≤ s.nv.seconds ∧ s.pwr.missionTold = false) ∧
    (∃ (s : State), (s.pwr.missionTold = true ∨ s.nv.seconds < 162000000)) :=
  ⟨⟨{ on with nv := { on.nv with seconds := 162000000 } }, by decide +kernel⟩,
  ⟨on, by decide +kernel⟩⟩

theorem witness_PartitionTableStoreFrame :
    (∃ (s : State) (t : State) (job : ℕ) (op : ℕ) (a : ℕ) (n : ℕ) (j : Job) (l : List Byte) (c : Instr), s.startedOp job 3 op = some j ∧
    j.taint = [] ∧ j.sigObj = 65535 ∧ n = l.length ∧ (op = 1 ∧ c = Instr.schedLoad job ∧ a = schedAddr (1 - s.rd Reg.PAR_STAT_BANK) ∧
    l = j.param ∧ s.flag Reg.PAR_STAT_SWAP_PENDING = false ∨ op = 2 ∧ c = Instr.partSet job ∧ a = winAddr (929792 + 32 * j.arg 33 1) ∧
    l = j.param ∧ s.partBusy (j.arg 33 1) j.id = false ∧ s.partNamed (j.arg 33 1) = false ∨ op = 3 ∧ c = Instr.taskSet job ∧
    a = winAddr (933888 + 32 * j.arg 33 1) ∧ l = j.param ∧ s.taskValid (j.arg 33 1) = false ∨ op = 4 ∧ c = Instr.taskClear job ∧
    a = winAddr (933888 + 32 * j.arg 33 1) ∧ l = zeros 32 ∨ op = 5 ∧ c = Instr.chainSet job ∧ a = winAddr (942080 + 16 * j.arg 33 1) ∧
    l = j.param ∧ s.chainValid (j.arg 33 1) = false ∧ s.taskValid (fld j.param 1 1) = true ∧
    s.taskValid (fld j.param 2 1) = true ∨ op = 6 ∧ c = Instr.chainClear job ∧ a = winAddr (942080 + 16 * j.arg 33 1) ∧ l = zeros 16) ∧
    (op = 4 → (s.chainsWith fun c => s.chainRec c 1 1 == j.arg 33 1 || s.chainRec c 2 1 == j.arg 33 1) = []) ∧
    exec c s = Host.Outcome.next t) ∧
    (∃ (s : State) (t : State) (job : ℕ) (op : ℕ) (a : ℕ) (n : ℕ) (j : Job) (l : List Byte) (c : Instr) (b : ℕ),
    s.startedOp job 3 op = some j ∧ j.taint = [] ∧ j.sigObj = 65535 ∧ n = l.length ∧ (op = 1 ∧ c = Instr.schedLoad job ∧
    a = schedAddr (1 - s.rd Reg.PAR_STAT_BANK) ∧ l = j.param ∧ s.flag Reg.PAR_STAT_SWAP_PENDING = false ∨ op = 2 ∧
    c = Instr.partSet job ∧ a = winAddr (929792 + 32 * j.arg 33 1) ∧ l = j.param ∧ s.partBusy (j.arg 33 1) j.id = false ∧
    s.partNamed (j.arg 33 1) = false ∨ op = 3 ∧ c = Instr.taskSet job ∧ a = winAddr (933888 + 32 * j.arg 33 1) ∧ l = j.param ∧
    s.taskValid (j.arg 33 1) = false ∨ op = 4 ∧ c = Instr.taskClear job ∧ a = winAddr (933888 + 32 * j.arg 33 1) ∧
    l = zeros 32 ∨ op = 5 ∧ c = Instr.chainSet job ∧ a = winAddr (942080 + 16 * j.arg 33 1) ∧ l = j.param ∧
    s.chainValid (j.arg 33 1) = false ∧ s.taskValid (fld j.param 1 1) = true ∧ s.taskValid (fld j.param 2 1) = true ∨ op = 6 ∧
    c = Instr.chainClear job ∧ a = winAddr (942080 + 16 * j.arg 33 1) ∧ l = zeros 16) ∧
    (op = 4 → (s.chainsWith fun c => s.chainRec c 1 1 == j.arg 33 1 || s.chainRec c 2 1 == j.arg 33 1) = []) ∧
    exec c s = Host.Outcome.next t ∧ (b < a ∨ a + n ≤ b)) :=
  ⟨⟨opState 3 6 [(33, [31])], _, 1, 6, _, _, opJob 3 6 [(33, [31])], zeros 16, .chainClear 1, and3 (by decide +kernel) ⟨rfl,
    Or.inr (Or.inr (Or.inr (Or.inr (Or.inr ⟨rfl, rfl, rfl, rfl⟩)))), by decide +kernel, rfl⟩⟩,
  ⟨opState 3 6 [(33, [31])], _, 1, 6, _, _, opJob 3 6 [(33, [31])], zeros 16, .chainClear 1, 0, and3 (by decide +kernel) ⟨rfl,
    Or.inr (Or.inr (Or.inr (Or.inr (Or.inr ⟨rfl, rfl, rfl, rfl⟩)))), by decide +kernel, rfl, Or.inl (by decide +kernel)⟩⟩⟩

theorem witness_InputCommandsFrame : ∃ (s : State) (t : State) (c : Instr), (c = Instr.timeTick ∨ (∃ i k,
    c = Instr.islandRelock i k) ∨ (∃ d k, c = Instr.powerLimitAdjust d k) ∨ (∃ d, c = Instr.powerMonitorTrip d) ∨ (∃ d,
    c = Instr.powerMonitorRelease d) ∨ c = Instr.safeInAssert ∨ c = Instr.safeInRelease ∨ (∃ n, c = Instr.safeHoldExpiry n) ∨ (∃ b,
    c = Instr.clockSupervision b) ∨ (∃ k m, c = Instr.safeLineFault k m) ∨ (∃ k, c = Instr.safeLineFaultCured k) ∨ (∃ x,
    c = Instr.thermalThrottle x) ∨ (∃ x, c = Instr.baseRange x) ∨ c = Instr.missionEnd ∨ c = Instr.wakeLow ∨ (∃ m u,
    c = Instr.supplyBandChange m u) ∨ (∃ i x, c = Instr.refreshRateChange i x) ∨ c = Instr.parSwap) ∧ exec c s = Host.Outcome.next t :=
  ⟨on, _, .timeTick, Or.inl rfl, rfl⟩

end Sys2Proof.Tests
end

section
/-! SUPPORT. The commons: where its bytes lie, what they read as when nothing has written them, and that an erased half holds zero
with valid parity (R440, R592). -/

namespace Sys2Proof.Machine

/-! ### Addresses of the commons -/

/-- The offsets of a memory stay below the bits that name it. -/
theorem gaddr_div_space (space : Nat) {o : Nat} (h : o < 2 ^ 44) : gaddr space o / 2 ^ 44 = space := by
  unfold gaddr; omega

theorem memDefault_eq_zero {a : Nat} (h : a / 2 ^ 44 ≠ spWindow) : memDefault a = 0#8 := if_neg h

theorem memDefault_commons {o : Nat} (h : o < 2 ^ 44) : memDefault (gaddr spCommons o) = 0#8 :=
  memDefault_eq_zero (by rw [gaddr_div_space _ h]; decide)

/-- The parity of the commons covers words of 8 bytes (R440). -/
theorem checkKey_commons {o : Nat} (h : o < 2 ^ 44) : checkKey (gaddr spCommons o) = gaddr spCommons (o / 8 * 8) := by
  have hs : gaddr spCommons o / 2 ^ 44 ≠ spDdr := by rw [gaddr_div_space _ h]; decide
  rw [checkKey, if_neg hs]
  unfold gaddr; omega

/-! ### Erasure -/

/-- An erasure leaves of the marks of failing codes those outside its range. -/
theorem State.mem_bad_eraseRange (s : State) (a n k : Nat) :
    k ∈ (s.eraseRange a n).bad ↔ k ∈ s.bad ∧ ¬(a ≤ k ∧ k < a + n) := by
  simp only [State.eraseRange, List.mem_filter, Bool.not_eq_true', ← Bool.decide_and, decide_eq_false_iff_not]

/-- Commons half `h` holds zero with valid parity (R592). -/
def State.CommonsHalfZero (s : State) (h : Nat) : Prop :=
  ∀ o, o < 10485760 → s.byte (gaddr spCommons (h * 10485760 + o)) = 0#8 ∧ checkKey (gaddr spCommons (h * 10485760 + o)) ∉ s.bad

/-- A half is a whole number of check units, so its erasure leaves no failing code that one of its bytes shares. -/
theorem State.commonsHalfZero_eraseRange (s : State) {h : Nat} (hh : h < 2) :
    (s.eraseRange (gaddr spCommons (h * 10485760)) 10485760).CommonsHalfZero h := by
  intro o ho
  have hlt : h * 10485760 + o < 2 ^ 44 := by omega
  have hin : gaddr spCommons (h * 10485760) ≤ gaddr spCommons (h * 10485760 + o) ∧
      gaddr spCommons (h * 10485760 + o) < gaddr spCommons (h * 10485760) + 10485760 := by
    unfold gaddr; omega
  have hkey : gaddr spCommons (h * 10485760) ≤ gaddr spCommons ((h * 10485760 + o) / 8 * 8) ∧
      gaddr spCommons ((h * 10485760 + o) / 8 * 8) < gaddr spCommons (h * 10485760) + 10485760 := by
    unfold gaddr; omega
  constructor
  · rw [State.byte_eraseRange, if_pos hin, memDefault_commons hlt]
  · rw [checkKey_commons hlt, State.mem_bad_eraseRange]
    exact fun hbad => hbad.2 hkey

/-- The state of a half is in memory and its codes alone. -/
theorem State.CommonsHalfZero.congr {s t : State} {h : Nat} (hz : s.CommonsHalfZero h) (hm : t.mem = s.mem) (hb : t.bad = s.bad) :
    t.CommonsHalfZero h := by
  intro o ho
  obtain ⟨hbyte, hcode⟩ := hz o ho
  refine ⟨?_, by rwa [hb]⟩
  rwa [State.byte, hm]

/-! ### Switch-on and field test of a half -/

/-- A fold of register writes changes registers only. -/
theorem State.foldl_wr_shape {α : Type} (f : RegField) (v : State → α → Nat) (i : α → Nat) (l : List α) (s : State) :
    ∃ r, l.foldl (fun s x => s.wr f (v s x) (i x)) s = { s with regs := r } := by
  induction l generalizing s with
  | nil => exact ⟨_, rfl⟩
  | cons x xs ih =>
    obtain ⟨r, e⟩ := ih (s.wr f (v s x) (i x))
    exact ⟨r, e⟩

theorem State.showClocks_shape (s : State) : ∃ r, s.showClocks = { s with regs := r } :=
  State.wr_shape _ _ _ (State.foldl_wr_shape ..)

@[simp] theorem State.showClocks_mem (s : State) : s.showClocks.mem = s.mem := by
  obtain ⟨r, e⟩ := State.showClocks_shape s
  rw [e]

@[simp] theorem State.showClocks_bad (s : State) : s.showClocks.bad = s.bad := by
  obtain ⟨r, e⟩ := State.showClocks_shape s
  rw [e]

/-- The switch-on of one commons domain, with none switched on lately, erases its half and shows the clocks. -/
theorem execDomainSwitchOn_commons (s : State) (d : Fin 43) (hd : d.val = 35 ∨ d.val = 36) (halive : s.alive = true)
    (hoff : bit s.pwr.domains d = false) (hsw : s.pwr.switched = []) :
    execDomainSwitchOn [d] s = .next ((({ s with
      pwr := { s.pwr with domains := s.pwr.domains ||| 2 ^ d.val, switched := [s.ticks] } } : State).eraseRange
        (gaddr spCommons ((d - 35) * 10485760)) 10485760).showClocks) := by
  have h0 : d.val ≠ 0 := by omega
  have hddr : ¬(d.val = 41 ∨ d.val = 42) := by omega
  have hds : [d.val].eraseDups.filter (fun k => k != 0 && !bit s.pwr.domains k) = [d.val] := by
    simp [List.eraseDups_cons, h0, hoff]
  simp [execDomainSwitchOn, hds, halive, hsw, hd, hddr]

/-- The end of a commons half's field test erases the half, whatever the test found. -/
theorem State.leaveTest_commons (s : State) {h : Nat} (hh : h < 2) (pass : Bool) :
    s.leaveTest (unitId 5 h) pass =
      (s.changeUnit (unitId 5 h) (fun x => { x with test := false })).eraseRange (gaddr spCommons (h * 10485760)) 10485760 := by
  have hcls : unitId 5 h / 16777216 = 5 := by unfold unitId; omega
  have hidx : bits (unitId 5 h) 0 24 = h := by unfold bits unitId; omega
  simp [State.leaveTest, testOnline, hcls, hidx]

/-- Settles O53: switch-on and the end of a field test both end in an erasure of the half. -/
theorem commonsHalvesStartAtZero : Obligations.CommonsHalvesStartAtZero := by
  unfold Obligations.CommonsHalvesStartAtZero
  refine ⟨fun s d hd halive hoff hsw => ?_, fun s h pass o hh ho => ?_, fun o ho => memDefault_commons (by omega)⟩
  · refine ⟨_, execDomainSwitchOn_commons s d hd halive hoff hsw, ?_⟩
    exact (State.commonsHalfZero_eraseRange _ (by omega)).congr (State.showClocks_mem _) (State.showClocks_bad _)
  · rw [State.leaveTest_commons s hh]
    exact State.commonsHalfZero_eraseRange _ hh o ho

end Sys2Proof.Machine
end

section
/-! SUPPORT. Trigger lines: when a pulse breaks its line's limits, and what a due trigger then leaves (R57, R503). -/

namespace Sys2Proof.Machine

/-- A line that has pulsed before is judged by the time since that pulse alone (R57, R503). -/
theorem State.linePast_iff (s : State) {k u : Nat} (t w : Nat) (hu : (s.tm.lines.get ⟨0, none⟩ k).lastStart = some u) :
    s.linePast k t w = true ↔ t - u < (s.lineLimit k).1 ∨ (s.lineLimit k).2 * (t - u) < w * 256 := by
  simp [State.linePast, hu]

/-- That a trigger has been served says nothing of the lines. -/
@[simp] theorem State.linePast_served (s : State) (e t k now w : Nat) : (s.served e t).linePast k now w = s.linePast k now w := rfl

/-- The width of an entry's pulse in whole ticks of 4 ns (R54). -/
def State.pulseWidth (s : State) (e : Nat) : Nat := (s.rul e 12 4 + 3) / 4 * 4

/-- The state after trigger `t` of entry `e` has been served by a pulse that starts now. -/
def State.pulsed (s : State) (e t : Nat) : State :=
  ((s.served e t).setTm { (s.served e t).tm with
    lines := s.tm.lines.set (s.rulIndex e) ⟨s.dt64 + s.pulseWidth e, some s.dt64⟩ }).emit .trigger (s.rulIndex e)
      (le 8 s.dt64 ++ le 4 (s.pulseWidth e) ++ le 1 (bits (s.rul e 3 1) 1 1))

/-- A due pulse is suppressed and counted when it breaks its line's limits, and emitted otherwise; served it is either way. -/
theorem execTriggerFire_of_due {s : State} {e : Fin 256} {t : Nat} (hp : s.power = .up) (hk : s.rulKind e = rkLine)
    (hd : s.dueTrig e 0 = some t) :
    exec (.triggerFire e) s = .next (if s.linePast (s.rulIndex e) s.dt64 (s.pulseWidth e) = true then
      (s.served e t).bump Reg.RUL_TRGSUP_SUPPRESSED (s.rulIndex e) else s.pulsed e t) := by
  have hrun : ¬(s.power ≠ .up ∨ s.rulKind e ≠ rkLine) := by simp [hp, hk]
  change execTriggerFire e s = _
  simp only [execTriggerFire, if_neg hrun, hd, State.linePast_served]
  rw [apply_ite Host.Outcome.next]
  rfl

/-- Settles O45: the limits split the due pulses into the suppressed and the emitted. -/
theorem breakingPulsesAreSuppressed : Obligations.BreakingPulsesAreSuppressed := by
  unfold Obligations.BreakingPulsesAreSuppressed
  rintro s v e t u k w least duty hp hk hd rfl rfl rfl hu hlim
  have hfire := execTriggerFire_of_due hp hk hd
  have hpast := s.linePast_iff s.dt64 (s.pulseWidth e) hu
  rw [← hlim] at hpast
  refine ⟨fun hbreak => ?_, fun hleast hduty => ⟨s.pulsed e t, ?_, rfl, rfl, rfl⟩⟩
  · rw [hfire, if_pos (hpast.mpr hbreak)]
  · have hkeeps : ¬(s.dt64 - u < least ∨ duty * (s.dt64 - u) < s.pulseWidth e * 256) :=
      not_or.mpr ⟨hleast.not_gt, hduty.not_gt⟩
    rw [hfire, if_neg (mt hpast.mp hkeeps)]

end Sys2Proof.Machine
end

section
/-! SUPPORT. The counter between ticks: making error records, which a tick does, and all that follows from a unit's classification leave
DT96 alone (R32, R464, R467). -/

namespace Sys2Proof.Machine

variable (s : State)

/-- What each step of a fold leaves alone, the fold leaves alone. -/
theorem State.foldl_keeps {α β : Type} (p : State → β) (f : State → α → State) (hf : ∀ t a, p (f t a) = p t) (l : List α) :
    p (l.foldl f s) = p s :=
  List.foldlRecOn (motive := fun t => p t = p s) l f rfl (fun t ht a _ => (hf t a).trans ht)

/-! ### Events, records and readiness -/

@[simp] theorem State.raise_tm (c u : Nat) (d : List Byte) : (s.raise c u d).tm = s.tm := by
  obtain ⟨_, _, _, _, e⟩ := s.raise_shape c u d
  rw [e]

@[simp] theorem State.record_tm (u op t cls n : Nat) (d : List (Nat × Nat)) : (s.record u op t cls n d).tm = s.tm := by
  obtain ⟨_, _, _, _, _, _, e⟩ := s.record_shape u op t cls n d
  rw [e]

@[simp] theorem State.setFn_tm (f st r : Nat) : (s.setFn f st r).tm = s.tm := by
  obtain ⟨_, _, _, _, _, _, e⟩ := s.setFn_shape f st r
  rw [e]

@[simp] theorem State.fnOffline_tm (f : Nat) (off : Bool) : (s.fnOffline f off).tm = s.tm := by
  unfold State.fnOffline
  dsimp only
  (repeat' split) <;> simp [State.setFnQuiet]

@[simp] theorem State.emptyQueue_tm (q : Nat) : (s.emptyQueue q).tm = s.tm := rfl

/-! ### Sensors -/

/-- A sensor's drift tracking starts anew, and the counter stays. -/
@[simp] theorem State.setIngest_dt96 (i v : Nat) : (s.setIngest i v).tm.dt96 = s.tm.dt96 := by
  unfold State.setIngest
  dsimp only
  (repeat' split) <;> simp [State.setTrack, State.setSens]

@[simp] theorem State.sensorsAbsent_dt96 (l : List Nat) : (s.sensorsAbsent l).tm.dt96 = s.tm.dt96 :=
  s.foldl_keeps (·.tm.dt96) _ (fun t i => by split <;> simp) l

/-! ### Host ports -/

@[simp] theorem State.police_tm (i cost : Nat) : (s.police i cost).1.tm = s.tm := by
  unfold State.police
  dsimp only
  (repeat' split) <;> rfl

@[simp] theorem State.countSecured_tm (p : Nat) : (s.countSecured p).tm = s.tm := by
  unfold State.countSecured
  dsimp only
  (repeat' split) <;> rfl

@[simp] theorem State.sendFrame_tm (p dst session type seq : Nat) (l : List Byte) :
    (s.sendFrame p dst session type seq l).tm = s.tm := by
  unfold State.sendFrame
  extract_lets flags body least frame
  split
  · rfl
  · have hpol := s.police_tm (12 + p) (frame.length + 4 + s.macsecBytes p)
    split
    · next heq => rw [heq] at hpol; simpa using hpol
    · next heq => rw [heq] at hpol; exact hpol

@[simp] theorem State.transmit_tm (bulk : Bool) (f : TxFrame) : (s.transmit bulk f).tm = s.tm := s.sendFrame_tm ..

@[simp] theorem State.resend_tm (bulk : Bool) : (s.resend bulk).tm = s.tm := by
  unfold State.resend
  simp only [State.bump_tm]
  rw [State.foldl_keeps _ (·.tm) _ (fun t f => t.transmit_tm bulk f)]
  exact State.setStream_tm ..

@[simp] theorem State.failover_tm (bulk : Bool) : (s.failover bulk).tm = s.tm := by
  unfold State.failover State.moveStream State.markShared
  dsimp only
  (repeat' split) <;> simp

@[simp] theorem State.failoverDue_tm : s.failoverDue.tm = s.tm := by
  unfold State.failoverDue
  dsimp only
  (repeat' split) <;> simp

/-! ### Units -/

@[simp] theorem State.unitShown_dt96 (u : Nat) : (s.unitShown u).tm.dt96 = s.tm.dt96 := by
  unfold State.unitShown
  extract_lets i up fn t
  have ht : t.tm = s.tm := by
    change (if fn = 0 then s else s.fnOffline fn (!up)).tm = s.tm
    split <;> simp
  (repeat' split) <;> simp [ht]

@[simp] theorem State.changeUnit_dt96 (u : Nat) (f : UnitSt → UnitSt) : (s.changeUnit u f).tm.dt96 = s.tm.dt96 := by
  unfold State.changeUnit State.liveUpdate
  dsimp only
  split <;> simp

@[simp] theorem State.offlineNow_dt96 (u : Nat) : (s.offlineNow u).tm.dt96 = s.tm.dt96 := by
  unfold State.offlineNow
  split <;> simp

@[simp] theorem State.takeOffline_dt96 (u : Nat) : (s.takeOffline u).tm.dt96 = s.tm.dt96 := by
  unfold State.takeOffline
  split <;> simp

@[simp] theorem State.actPermanent_dt96 (u : Nat) : (s.actPermanent u).tm.dt96 = s.tm.dt96 := by
  unfold State.actPermanent
  dsimp only
  (repeat' split) <;> simp

/-! ### History and gathered records -/

@[simp] theorem State.setClass_dt96 (u c : Nat) : (s.setClass u c).tm.dt96 = s.tm.dt96 := by
  unfold State.setClass
  dsimp only
  (repeat' split) <;> simp

@[simp] theorem State.histEvent_dt96 (u source : Nat) : (s.histEvent u source).tm.dt96 = s.tm.dt96 := by
  unfold State.histEvent
  simp

@[simp] theorem State.flushGathers_dt96 : s.flushGathers.tm.dt96 = s.tm.dt96 :=
  State.foldl_keeps _ (·.tm.dt96) _ (fun t g => by split <;> simp) _

/-! ### The tick -/

/-- DT96 set first and the ticks and seconds advanced then, or all at once. It is stated for any `k`: with a tick's own number of seconds
the kernel would evaluate the remainder by 250000000. -/
theorem State.setTm_advance (x : TimeSt) (n k : Nat) :
    ({ s.setTm x with ticks := n, nv := { (s.setTm x).nv with seconds := (s.setTm x).nv.seconds + k } } : State) =
      { s with tm := x, ticks := n, nv := { s.nv with seconds := s.nv.seconds + k } } := rfl

/-- What a tick of a supplied module leaves: the counter, the ticks and the operating seconds have advanced, and then the due error
records are made (R32, R464). -/
theorem execTimeTick_of_on (h : s.power ≠ .off) :
    exec .timeTick s = .next ({ s with
      tm := { s.tm with dt96 := (s.tm.dt96 + s.inc) % 2 ^ 96 }, ticks := s.ticks + 1,
      nv := { s.nv with seconds := s.nv.seconds + (if (s.ticks + 1) % 250000000 = 0 then 1 else 0) } } : State).flushGathers := by
  have hon : ¬(s.power == .off) = true := by simpa using h
  exact (if_neg hon).trans (congrArg (fun t : State => Host.Outcome.next t.flushGathers) (s.setTm_advance ..))

/-- RUL_INC is its integer part followed by its 32 fraction bits (R32). -/
theorem State.inc_eq : s.inc = s.rd Reg.RUL_INC_INT * 2 ^ 32 + s.rd Reg.RUL_INC_FRAC := Nat.add_comm ..

/-- Settles O44: DT96 grows by RUL_INC before the due records are made, and these leave it alone. -/
theorem tickAddsIncrement : Obligations.TickAddsIncrement := by
  unfold Obligations.TickAddsIncrement
  refine ⟨fun s h => ⟨_, execTimeTick_of_on s h, ?_⟩, rfl, rfl, by decide⟩
  rw [State.flushGathers_dt96, State.inc_eq]

end Sys2Proof.Machine
end

section
/-! SUPPORT. Reads of an empty spill queue: the comparison of the pointers is all that an access makes of it (R83, R86, R87). -/

namespace Sys2Proof.Machine

variable (s : State)

/-! ### The queue that an access leaves -/

@[simp] theorem State.gather_queues (u op cls : Nat) (d : List (Nat × Nat)) : (s.gather u op cls d).queues = s.queues := by
  obtain ⟨p, e⟩ := s.gather_shape u op cls d
  rw [e]

@[simp] theorem State.showQueue_queues (q : Nat) : (s.showQueue q).queues = s.queues := by
  obtain ⟨r, e⟩ := s.showQueue_shape q
  rw [e]

@[simp] theorem State.resetQueue_items (q : Nat) : ((s.resetQueue q).queue q).items = [] := by
  simp [State.resetQueue, State.queue]

theorem State.access_of_torn {q : Nat} (h : (s.queue q).torn = true) : s.access q = s.resetQueue q := if_pos h

theorem State.access_of_not_torn {q : Nat} (h : (s.queue q).torn = false) : s.access q = s := if_neg (by simp [h])

/-- An access can empty a queue and never fills one. -/
theorem State.access_items_of_empty {q : Nat} (h : (s.queue q).items = []) : ((s.access q).queue q).items = [] := by
  cases ht : (s.queue q).torn with
  | true => rw [s.access_of_torn ht, s.resetQueue_items]
  | false => rw [s.access_of_not_torn ht, h]

/-! ### The reads -/

/-- No word comes from an empty queue, and the access itself is all that it sees (R83, R86). -/
theorem State.popWord_of_empty {q : Nat} (bad : Bool) (h : (s.queue q).items = []) : s.popWord q bad = (none, s.access q) := by
  simp only [State.popWord, s.access_items_of_empty h]

/-- The hardware consumer of an empty queue takes no word in hand. -/
theorem execQueueRead_of_empty {q : Fin 51} (bad : Bool) (hhw : s.hardwareRead q = true) (h : (s.queue q).items = []) :
    exec (.queueRead q bad false) s = .next (s.access q) := by
  change execQueueRead q bad false s = _
  simp [execQueueRead, hhw, s.popWord_of_empty bad h]

/-- SPQ_POP of an empty queue whose pointers agree shows the IDLE tag, whoever its consumer is (R83, R87). -/
theorem State.spqPop_of_empty {q : Nat} (bad : Bool) (ht : (s.queue q).torn = false) (h : (s.queue q).items = []) :
    s.spqPop q bad false = s.wr Reg.SPQ_POP_TAG 0 q := by
  cases hc : s.flag Reg.SPQ_CTRL_CONS q with
  | false => simp [State.spqPop, hc]
  | true => simp [State.spqPop, hc, s.popWord_of_empty bad h, s.access_of_not_torn ht]

theorem execSpqPop_of_built {q : Fin 51} (bad upset : Bool) (hb : queueBuilt q = true) :
    exec (.spqPop q bad upset) s = .next (s.spqPop q bad upset) := by
  change execSpqPop q bad upset s = _
  simp [execSpqPop, hb]

/-- Settles O46: a read of an empty queue leaves what the access to it leaves, the state itself or the queue reset. -/
theorem emptyQueueReadsIdle : Obligations.EmptyQueueReadsIdle := by
  unfold Obligations.EmptyQueueReadsIdle
  refine fun s q bad hempty hb => ⟨fun ht hhw => ?_, fun ht => ?_, fun ht hhw => ?_⟩
  · rw [execQueueRead_of_empty s bad hhw hempty, s.access_of_not_torn ht]
  · rw [execSpqPop_of_built s bad false hb, s.spqPop_of_empty bad ht hempty]
  · rw [execQueueRead_of_empty s bad hhw hempty, s.access_of_torn ht]

end Sys2Proof.Machine
end

section
/-! SUPPORT. Sync objects: the null object, which refusal a sync operation meets, and when a descriptor's wait has run out (R368, R371,
R376). -/

namespace Sys2Proof.Machine

variable (s : State) {job : Nat} {j : Job}

/-! ### The null object (R368) -/

@[simp] theorem State.signal_null (n : Nat) (l : List Taint) : s.signal 0xFFFF n l = s := if_pos rfl

@[simp] theorem State.reached_null (v : Nat) : s.reached 0xFFFF v = true := rfl

/-- A completion that nothing holds back for its confirmation and that signals the null object writes its record and does no more
(R372, R438). -/
theorem State.finish_of_null_signal (st r d : Nat) (hfree : j.confirm = false ∨ j.taint = []) (hsig : j.sigObj = 0xFFFF) :
    s.finish j st r d = s.finishQuiet j st r d := by
  have hheld : ¬(j.confirm && !j.taint.isEmpty && (st == 0 || st == 6)) = true := by
    rcases hfree with h | h <;> simp [h]
  simp only [State.finish, if_neg hheld, hsig, State.signal_null, ite_self]

/-! ### Operations on objects and groups (R376) -/

theorem State.mem_tasksWith {p : Nat → Bool} {t : Nat} : t ∈ s.tasksWith p ↔ t < 256 ∧ s.taskValid t = true ∧ p t = true := by
  simp [State.tasksWith]

theorem State.objBound_iff (o : Nat) :
    s.objBound o = true ↔ (∃ r ∈ s.brn.probs.rows, r.2.armed.isSome = true ∧ fld r.2.record 56 2 = o) ∨
      ∃ t, t < 256 ∧ s.taskValid t = true ∧ (s.taskRec t 2 2 = o ∨ s.taskRec t 4 2 = o) := by
  have htasks (p : Nat → Bool) : (!(s.tasksWith p).isEmpty) = true ↔ ∃ t, t < 256 ∧ s.taskValid t = true ∧ p t = true := by
    simp only [Bool.not_eq_true', List.isEmpty_eq_false_iff_exists_mem, State.mem_tasksWith]
  simp only [State.objBound, Bool.or_eq_true, List.any_eq_true, Bool.and_eq_true, beq_iff_eq, htasks]

/-- A started SET is refused for a waiter first and for a binding then, or it writes the value. -/
theorem execSyncSet_of_started (h : s.startedOp job 2 1 = some j) :
    exec (.syncSet job) s = .next (
      if s.waiters (j.arg 34 2) ≠ 0 then s.refuse j ⟨stWrongState, 7 * 256 + 1⟩
      else if s.objBound (j.arg 34 2) = true then s.refuse j ⟨stWrongState, 7 * 256 + 2⟩
      else ((s.setObj (j.arg 34 2) ⟨j.arg 40 8, false, []⟩).stepsSet (j.arg 34 2) (j.arg 40 8)).finishOk j) := by
  change execSyncSet job s = _
  simp only [execSyncSet, h]
  by_cases hw : s.waiters (j.arg 34 2) = 0
  · cases hb : s.objBound (j.arg 34 2) <;> simp [hw, firstOf, wrongState]
  · simp [hw, firstOf, wrongState]

/-- A SET that names the null object is refused at its object, unless its byte 33 is refused before. -/
theorem State.syncAccept_set_null (hop : j.arg 32 1 = 1) (hobj : j.arg 34 2 = 0xFFFF) :
    State.syncAccept j = .error ⟨stBadField, if j.arg 33 1 = 0 then 34 else 33⟩ := by
  by_cases h33 : j.arg 33 1 = 0
  · simp [State.syncAccept, hop, hobj, h33, firstOf, badField]
  · have hbad : (j.arg 33 1 != 0) = true := bne_iff_ne.mpr h33
    simp [State.syncAccept, hop, hbad, h33, firstOf, badField]

/-- A started READ finds nothing in the null object, and reports any other object as it stands. -/
theorem execSyncRead_of_started (h : s.startedOp job 2 2 = some j) :
    exec (.syncRead job) s = .next (if j.arg 34 2 = 0xFFFF then s.finish j stOk 0 0
      else s.finish j stOk (s.waiters (j.arg 34 2)) (s.obj (j.arg 34 2)).value) := by
  change execSyncRead job s = _
  simp only [execSyncRead, h]
  rfl

/-- A started GRANT is refused while a wait is held in the group, or it sets the owner. -/
theorem execSyncGrant_of_started (h : s.startedOp job 2 3 = some j) :
    exec (.syncGrant job) s = .next (if s.groupWaited (j.arg 34 1) = true then s.refuse j ⟨stWrongState, 7 * 256 + 1⟩
      else (s.setOwner (j.arg 34 1) (j.arg 33 1)).finishOk j) := by
  change execSyncGrant job s = _
  simp only [execSyncGrant, h]
  cases s.groupWaited (j.arg 34 1) <;> rfl

/-- Settles O47: what refuses each operation is told apart, and an operation that nothing refuses has its effect. -/
theorem syncOperationsFollowTheirRule : Obligations.SyncOperationsFollowTheirRule := by
  unfold Obligations.SyncOperationsFollowTheirRule
  refine fun s job j => ⟨fun h hw htrig htask => ?set, fun h hbusy => ?setRefused,
    fun hop hobj => ⟨_, State.syncAccept_set_null hop hobj⟩, fun h hobj => ?read, fun h hw => ?grant, fun h hw => ?grantRefused⟩
  case set =>
    have hfree : ¬s.objBound (j.arg 34 2) = true := by
      rw [State.objBound_iff]
      rintro (⟨r, hr, harmed, ho⟩ | ⟨t, ht, hv, ho⟩)
      · exact htrig r hr harmed ho
      · exact not_or.mpr (htask t ht hv) ho
    rw [execSyncSet_of_started s h, if_neg (not_not.mpr hw), if_neg hfree]
  case setRefused =>
    rw [← State.objBound_iff] at hbusy
    rw [execSyncSet_of_started s h]
    by_cases hw : s.waiters (j.arg 34 2) ≠ 0
    · exact ⟨_, by rw [if_pos hw]⟩
    · exact ⟨_, by rw [if_neg hw, if_pos (hbusy.resolve_left hw)]⟩
  case read => rw [execSyncRead_of_started s h, if_neg hobj]
  case grant => rw [execSyncGrant_of_started s h, if_neg (by simp [hw])]
  case grantRefused => exact ⟨_, by rw [execSyncGrant_of_started s h, if_pos hw]⟩

/-- Settles O48: signals, waits and reads each have a case of their own for the null object. -/
theorem nullObject : Obligations.NullObject := by
  unfold Obligations.NullObject
  refine ⟨State.signal_null, fun s j h => ?_, fun s job j h hobj => ?_, fun s j st r d => s.finish_of_null_signal st r d⟩
  · rw [State.waitMet, h, State.reached_null]
  · rw [execSyncRead_of_started s h, if_pos hobj]

/-! ### Waits that run out (R371) -/

/-- The wait of a descriptor has run out: it is not satisfied, and the limit that the partition sets has passed since acceptance. -/
def State.WaitExpired (s : State) (j : Job) : Prop :=
  s.waitMet j = false ∧ s.partRec j.part 2 2 ≠ 0 ∧ j.atTick + msTicks (s.partRec j.part 2 2) ≤ s.ticks

theorem execWaitTimeout_of_expired (hj : s.job job = some j) (hp : j.phase = .waiting) (h : s.WaitExpired j) :
    exec (.waitTimeout job) s = .next (((s.stopJob j).bump Reg.SYN_CNT_WAIT_TIMEOUTS).finishQuiet j stWaitTimeout 0 0) := by
  obtain ⟨hunmet, hlimit, hpassed⟩ := h
  change execWaitTimeout job s = _
  simp [execWaitTimeout, hj, hp, hunmet, hlimit, State.passed, hpassed]

theorem execWaitTimeout_of_not_expired (hj : s.job job = some j) (h : ¬s.WaitExpired j) : exec (.waitTimeout job) s = .next s := by
  change execWaitTimeout job s = _
  simp only [execWaitTimeout, hj]
  refine if_neg fun ⟨_, hunmet, hlimit, hpassed⟩ => h ⟨?_, hlimit, of_decide_eq_true hpassed⟩
  simpa using hunmet

/-- Settles O49: a wait runs out only while it is unsatisfied, so satisfaction wins. -/
theorem waitTimeoutRule : Obligations.WaitTimeoutRule := by
  unfold Obligations.WaitTimeoutRule
  refine fun s job j hj hp => ⟨fun hunmet hlimit hpassed => execWaitTimeout_of_expired s hj hp ⟨hunmet, hlimit, hpassed⟩,
    fun hno => execWaitTimeout_of_not_expired s hj ?_⟩
  rintro ⟨hunmet, hlimit, hpassed⟩
  rcases hno with hmet | hnone | hearly
  · simp [hmet] at hunmet
  · exact hlimit hnone
  · exact hearly.not_ge hpassed

end Sys2Proof.Machine
end

section
/-! SUPPORT. Registers below those of the spill queues: a queue and an event show in the block SPQ_ alone, so every register below it
keeps its value (R80, R81, R86, R407). -/

namespace Sys2Proof.Machine

/-- Element `j` of field `g` lies below the registers of the spill queues (block SPQ_). -/
def BelowQueues (g : RegField) (j : Nat) : Prop := regKey g j < 0x80000 * 8

variable (s : State) {f g : RegField} {j : Nat}

/-- Fields are read from the registers alone. -/
theorem State.rd_of_regs {t : State} (h : t.regs = s.regs) : t.rd g j = s.rd g j := by
  rw [State.rd, h, State.rd]

/-- A write to a queue's register, whatever the queue. -/
theorem State.rd_wr_queue (v q : Nat) (hf : 0x80000 ≤ f.addr) (hg : BelowQueues g j) : (s.wr f v q).rd g j = s.rd g j := by
  refine s.rd_wr_ne v (Nat.ne_of_lt (Nat.lt_of_lt_of_le hg ?_))
  unfold regKey
  omega

theorem State.rd_bump_queue (q n : Nat) (hf : 0x80000 ≤ f.addr) (hg : BelowQueues g j) : (s.bump f q n).rd g j = s.rd g j :=
  s.rd_wr_queue _ q hf hg

theorem State.rd_gather (u op cls : Nat) (d : List (Nat × Nat)) : (s.gather u op cls d).rd g j = s.rd g j := by
  obtain ⟨p, e⟩ := s.gather_shape u op cls d
  rw [e]
  rfl

variable (hg : BelowQueues g j)
include hg

theorem State.rd_showQueue (q : Nat) : (s.showQueue q).rd g j = s.rd g j := by
  rw [State.showQueue, State.rd_wr_queue _ _ _ (by decide) hg, State.rd_wr_queue _ _ _ (by decide) hg]

theorem State.rd_resetQueue (q : Nat) : (s.resetQueue q).rd g j = s.rd g j := by
  rw [State.resetQueue, State.rd_gather, State.rd_bump_queue _ _ _ (by decide) hg, State.rd_showQueue _ hg]
  rfl

theorem State.rd_access (q : Nat) : (s.access q).rd g j = s.rd g j := by
  unfold State.access
  split
  · exact s.rd_resetQueue hg q
  · rfl

theorem State.rd_closePacket (q : Nat) (l : List QItem) : (s.closePacket q l).rd g j = s.rd g j :=
  State.rd_showQueue _ hg q

theorem State.rd_enqueue (q : Nat) (h : LenHead) (l : List Byte) : (s.enqueue q h l).1.rd g j = s.rd g j := by
  have hfull (t : State) (v : Nat) : (t.wr Reg.SPQ_COUNT_OVERRUN v q).rd g j = t.rd g j := t.rd_wr_queue v q (by decide) hg
  have hdrop (t : State) : (t.bump Reg.SPQ_EVENTS_DROPPED q).rd g j = t.rd g j := t.rd_bump_queue q 1 (by decide) hg
  unfold State.enqueue
  dsimp only
  split
  · exact hdrop s
  · split
    · rw [hfull, hdrop, s.rd_access hg]
    · rw [State.rd_closePacket _ hg]
      split
      · exact s.rd_access hg q
      · rw [hfull, s.rd_access hg]

theorem State.rd_enqueueOwn (q : Nat) (l : List Byte) : (s.enqueueOwn q l).1.rd g j = s.rd g j := by
  have hin (h : LenHead) : ((s.access q).enqueue q h l).1.rd g j = s.rd g j := by
    rw [State.rd_enqueue _ hg, s.rd_access hg]
  unfold State.enqueueOwn
  dsimp only
  generalize hw : State.enqueue _ q _ l = w
  have hout : w.1.rd g j = s.rd g j := hw ▸ hin _
  split
  · exact (w.1.rd_of_regs rfl).trans hout
  · exact hout

/-- An event shows in the registers of the event queue only (R407). -/
theorem State.rd_raise (c u : Nat) (d : List Byte) : (s.raise c u d).rd g j = s.rd g j := by
  unfold State.raise
  dsimp only
  generalize hw : State.enqueueOwn s 0x30 _ = w
  exact (w.1.rd_of_regs rfl).trans (hw ▸ s.rd_enqueueOwn hg 0x30 _)

end Sys2Proof.Machine
end

section
/-! SUPPORT. The supervisor's sources: what a request, a release and the end of a cause make of each source, and that none of them
changes a policy (R484 to R486). -/

namespace Sys2Proof.Machine

variable (s : State) {m n : Nat}

/-! ### What the lines show -/

@[simp] theorem State.showLines_sup : (s.showLines n).sup = s.sup := by
  obtain ⟨_, _, _, _, e⟩ := s.showLines_shape n
  rw [e]

@[simp] theorem State.showLines_mgd : (s.showLines n).mgd = s.mgd := by
  obtain ⟨_, _, _, _, e⟩ := s.showLines_shape n
  rw [e]

@[simp] theorem State.showLines_source : (s.showLines n).source m = s.source m := by
  rw [State.source, State.showLines_sup, State.source]

@[simp] theorem State.raise_locked (c u : Nat) (d : List Byte) : (s.raise c u d).locked = s.locked := by
  have hbelow : BelowQueues Reg.MGD_STAT_LOAD 0 := by unfold BelowQueues; decide
  rw [State.locked, s.rd_raise hbelow, State.locked]

/-- Whether a limit table is locked is in MGD_STAT alone (R499). -/
theorem State.wr_locked {f : RegField} (v i : Nat) (h : regKey Reg.MGD_STAT_LOAD 0 ≠ regKey f i) : (s.wr f v i).locked = s.locked := by
  rw [State.locked, s.rd_wr_ne v h, State.locked]

@[simp] theorem State.showLines_locked : (s.showLines n).locked = s.locked := by
  unfold State.showLines
  dsimp only
  (repeat' split) <;> simp (disch := decide) only [State.raise_locked, State.wr_locked]

@[simp] theorem State.showLines_policy : (s.showLines n).policy m = s.policy m := by
  simp only [State.policy, State.showLines_locked, State.showLines_mgd]

/-! ### The sources (R484 to R486) -/

@[simp] theorem State.source_setSource_self (x : SrcSt) : (s.setSource n x).source n = x := Tbl.get_set_self ..

theorem State.source_setSource_ne (x : SrcSt) (h : m ≠ n) : (s.setSource n x).source m = s.source m := Tbl.get_set_ne _ _ _ h

@[simp] theorem State.setSource_policy (x : SrcSt) : (s.setSource n x).policy m = s.policy m := rfl

@[simp] theorem State.requestLines_source_self (l : Nat) (stays : Bool) :
    (s.requestLines n l stays).source n = ⟨(s.source n).lines ||| l, stays || (s.source n).cause, s.ticks⟩ := by
  simp [State.requestLines]

@[simp] theorem State.releaseSource_source_self : (s.releaseSource n).source n = { s.source n with lines := 0 } := by
  simp [State.releaseSource]

theorem State.releaseSource_source_ne (h : m ≠ n) : (s.releaseSource n).source m = s.source m := by
  simp [State.releaseSource, s.source_setSource_ne _ h]

@[simp] theorem State.releaseSource_policy : (s.releaseSource n).policy m = s.policy m := by
  simp [State.releaseSource]

@[simp] theorem State.clearCause_policy : (s.clearCause n).policy m = s.policy m := by
  unfold State.clearCause
  dsimp only
  (repeat' split) <;> simp

theorem State.clearCause_source_ne (h : m ≠ n) : (s.clearCause n).source m = s.source m := by
  unfold State.clearCause
  dsimp only
  (repeat' split) <;> simp [State.releaseSource_source_ne _ h, s.source_setSource_ne _ h]

/-- A hold is over only under HOLD, with the cause gone, a line held and hold_ms past (R485, R488). -/
theorem State.holdOver_iff :
    s.holdOver n = true ↔ (s.policy n).2.1 = false ∧ (s.source n).cause = false ∧ (s.source n).lines ≠ 0 ∧
      s.flag Reg.SUP_STAT_LOCKED = false ∧ (s.source n).clearedAt + msTicks (s.policy n).2.2 ≤ s.ticks := by
  simp [State.holdOver, State.passed, and_assoc]

theorem State.holdOver_of_latch (h : (s.policy n).2.1 = true) : s.holdOver n = false := by
  simp [State.holdOver, h]

/-- Under LATCH the end of a cause takes no line from its source (R486). -/
theorem State.clearCause_source_of_latch (h : (s.policy n).2.1 = true) :
    ((s.clearCause n).source n).lines = (s.source n).lines ∧ ((s.clearCause n).source n).cause = false := by
  have hholds (x : SrcSt) : (s.setSource n x).holdOver n = false := State.holdOver_of_latch _ h
  unfold State.clearCause
  dsimp only
  rw [hholds]
  cases hc : (s.source n).cause <;> simp [hc]

/-- The end of any cause takes no line from a latched source, and gives none a cause. -/
theorem State.clearCause_keeps_latched (m : Nat) (h : (s.policy n).2.1 = true) :
    ((s.clearCause m).source n).lines = (s.source n).lines ∧
      ((s.source n).cause = false → ((s.clearCause m).source n).cause = false) := by
  by_cases hnm : n = m
  · subst hnm
    exact ⟨(s.clearCause_source_of_latch h).1, fun _ => (s.clearCause_source_of_latch h).2⟩
  · rw [s.clearCause_source_ne hnm]
    exact ⟨rfl, id⟩

/-! ### The end of a hold (R485) -/

theorem execSafeHoldExpiry_of_over (n : Fin 9) (hs : s.supplied = true) (h : s.holdOver n = true) :
    exec (.safeHoldExpiry n) s = .next (s.releaseSource n) := by
  change execSafeHoldExpiry n s = _
  rw [execSafeHoldExpiry, if_pos ⟨hs, h⟩]

theorem execSafeHoldExpiry_of_not_over (n : Fin 9) (h : ¬s.holdOver n = true) : exec (.safeHoldExpiry n) s = .next s := by
  change execSafeHoldExpiry n s = _
  rw [execSafeHoldExpiry, if_neg fun hover => h hover.2]

/-- Settles O50: the hold is over from hold_ms after the cause cleared, and a request sets that moment anew. -/
theorem holdReleasesAfterItsTime : Obligations.HoldReleasesAfterItsTime := by
  unfold Obligations.HoldReleasesAfterItsTime
  refine fun s n hhold hs hun => ⟨fun hcause hpassed hlines => ?_, fun hcause hearly => ?_, fun l => ?_⟩
  · have hover : s.holdOver n = true := s.holdOver_iff.mpr ⟨hhold, hcause, hlines, hun, hpassed⟩
    refine ⟨_, execSafeHoldExpiry_of_over s n hs hover, ?_, fun m hm => s.releaseSource_source_ne hm⟩
    rw [State.releaseSource_source_self]
  · refine execSafeHoldExpiry_of_not_over s n fun hover => ?_
    obtain ⟨-, -, -, -, hpassed⟩ := s.holdOver_iff.mp hover
    exact hearly.not_ge hpassed
  · rw [State.requestLines_source_self]

/-! ### The release of SAFE_IN (R486) -/

theorem State.latched_iff :
    s.latched n = true ↔ (s.policy n).2.1 = true ∧ (s.source n).cause = false ∧ (s.source n).lines ≠ 0 := by
  simp [State.latched, and_assoc]

/-- The latched sources of a list let their lines go, as at a long release of SAFE_IN. -/
def State.freeLatched (l : List Nat) : State := l.foldl (fun s n => if s.latched n then s.releaseSource n else s) s

/-- Whether a source is latched is in its policy and its own state. -/
theorem State.latched_congr {s t : State} (hp : t.policy n = s.policy n) (hx : t.source n = s.source n) : t.latched n = s.latched n := by
  rw [State.latched, hp, hx, State.latched]

/-- A latched source of the list holds no line after, and its place in the list does not matter: the others leave it as it is. -/
theorem State.freeLatched_lines (l : List Nat) :
    ((s.freeLatched l).source n).lines = if n ∈ l ∧ s.latched n = true then 0 else (s.source n).lines := by
  induction l generalizing s with
  | nil => simp [State.freeLatched]
  | cons m l ih =>
    change ((State.freeLatched (if s.latched m then s.releaseSource m else s) l).source n).lines = _
    rw [ih]
    by_cases hm : s.latched m = true
    · rw [if_pos hm]
      by_cases hnm : n = m
      · subst hnm
        simp [hm]
      · rw [State.latched_congr s.releaseSource_policy (s.releaseSource_source_ne hnm), s.releaseSource_source_ne hnm]
        simp [hnm]
    · rw [if_neg hm]
      by_cases hnm : n = m
      · subst hnm
        simp [hm]
      · simp [hnm]

/-- A source under LATCH whose cause has cleared holds no line once the latched sources are freed, held one before or not. -/
theorem State.freeLatched_lines_of_cleared {l : List Nat} (hn : n ∈ l) (hp : (s.policy n).2.1 = true)
    (hc : (s.source n).cause = false) : ((s.freeLatched l).source n).lines = 0 := by
  rw [State.freeLatched_lines]
  by_cases hl : (s.source n).lines = 0
  · rw [hl, ite_self]
  · rw [if_pos ⟨hn, s.latched_iff.mpr ⟨hp, hc, hl⟩⟩]

/-- The state in which SAFE_IN shows released and nothing has followed from it. -/
def State.safeInDropped : State := ({ s with sup := { s.sup with safeInAt := none } } : State).wr Reg.SUP_STAT_SAFE_IN 0

@[simp] theorem State.safeInDropped_source : s.safeInDropped.source n = s.source n := rfl

@[simp] theorem State.safeInDropped_policy : s.safeInDropped.policy n = s.policy n := by
  have hlocked : s.safeInDropped.locked = s.locked := State.wr_locked _ 0 0 (by decide)
  rw [State.policy, hlocked]
  rfl

theorem State.safeInDropped_flag_locked : s.safeInDropped.flag Reg.SUP_STAT_LOCKED = s.flag Reg.SUP_STAT_LOCKED := by
  rw [State.flag, State.safeInDropped, State.rd_wr_ne _ _ (by decide)]
  rfl

/-- The release of SAFE_IN ends its source's cause, and frees the latched sources after at least 10 ms (R486, R488). -/
theorem execSafeInRelease_of_asserted {t0 : Nat} (hat : s.sup.safeInAt = some t0) (hs : s.supplied = true)
    (hun : s.flag Reg.SUP_STAT_LOCKED = false) :
    exec .safeInRelease s = .next (if t0 + msTicks 10 ≤ s.ticks then (s.safeInDropped.clearCause srcSafeIn).freeLatched (List.range 9)
      else s.safeInDropped.clearCause srcSafeIn) := by
  have hacts : ¬((!s.safeInDropped.supplied) = true ∨ s.safeInDropped.flag Reg.SUP_STAT_LOCKED = true) := by
    have hsupplied : s.safeInDropped.supplied = true := hs
    simp [hsupplied, s.safeInDropped_flag_locked, hun]
  change execSafeInRelease s = _
  simp only [execSafeInRelease, hat]
  refine (if_neg hacts).trans ?_
  simp only [State.passed, decide_eq_true_eq]
  rfl

/-- Settles O51: no hold ends under LATCH, and the release of SAFE_IN frees by its length alone. -/
theorem latchKeepsUntilSafeIn : Obligations.LatchKeepsUntilSafeIn := by
  unfold Obligations.LatchKeepsUntilSafeIn
  refine ⟨fun s n hlatch => ?_, fun s t0 hat hs hun => ⟨_, execSafeInRelease_of_asserted s hat hs hun, fun n hn hlatch => ?_⟩⟩
  · exact execSafeHoldExpiry_of_not_over s n (by simp [s.holdOver_of_latch hlatch])
  · have hdropped : (s.safeInDropped.policy n).2.1 = true := by rwa [State.safeInDropped_policy]
    obtain ⟨hlines, hcleared⟩ := s.safeInDropped.clearCause_keeps_latched srcSafeIn hdropped
    rw [State.safeInDropped_source] at hlines hcleared
    refine ⟨fun hlong hcause => ?_, fun hshort => ?_⟩
    · rw [if_pos hlong]
      refine State.freeLatched_lines_of_cleared _ (List.mem_range.mpr hn) ?_ (hcleared hcause)
      rwa [State.clearCause_policy]
    · rw [if_neg hshort.not_ge]
      exact hlines

end Sys2Proof.Machine
end

section
/-! SUPPORT. Paths of the margin guard that a safe-state line closes (R497). -/

namespace Sys2Proof.Machine

variable (s : State)

theorem State.pathClosed_of_line {p : Nat}
    (h : (bit (s.pathFlags p) 2 = true ∧ s.flag Reg.SUP_STAT_SAFE_A = true) ∨
      (bit (s.pathFlags p) 3 = true ∧ s.flag Reg.SUP_STAT_SAFE_B = true)) : s.pathClosed p = true := by
  rcases h with ⟨hclose, hline⟩ | ⟨hclose, hline⟩ <;> simp [State.pathClosed, hclose, hline]

/-- A command frame on a closed path is dropped, whether the path is open in the table or not. -/
theorem State.offerFrame_of_closed {p ident c : Nat} {l : List Byte} (hm : matchCmd s.mgd.table p ident l = some c)
    (h : s.pathClosed p = true) : s.offerFrame p ident l = s := by
  simp only [State.offerFrame, hm, if_pos h, ite_self]

/-- Settles O52: either line closes its paths, and a closed path leaves the state as it is. -/
theorem closedPathsDropCommands : Obligations.ClosedPathsDropCommands := by
  unfold Obligations.ClosedPathsDropCommands
  intro s p f c hm hline
  change execMarginFrame p f s = _
  rw [execMarginFrame, s.offerFrame_of_closed hm (s.pathClosed_of_line hline), ite_self]

end Sys2Proof.Machine
end

section
/-! SUPPORT. The module's hardware: the range of the base plate and the end of the mission's hours, and what each start leaves of having
told the latter (R585, R587). -/

namespace Sys2Proof.Machine

variable (s : State)

/-! ### Base plate (R585) -/

theorem State.tellSupply_of_supplied (kind : Nat) (h : s.supplied = true) :
    s.tellSupply kind = s.raise 0x0D01 0 (s.supplyData kind s.nv.seconds) := if_pos h

@[simp] theorem State.wr_supplied (f : RegField) (v i : Nat) : (s.wr f v i).supplied = s.supplied := rfl

/-- A base plate newly beyond its range, in either direction, is shown and told. -/
theorem execBaseRange_of_newly_out {t : Int} (hout : 950 < t ∨ t < -400) (hold : s.flag Reg.PWR_STAT_BASE_RANGE = false) :
    exec (.baseRange t) s = .next (((s.wr Reg.PWR_TEMP_BASE (toU 16 t)).wr Reg.PWR_STAT_BASE_RANGE 1).tellSupply 5) := by
  change execBaseRange t s = _
  simp [execBaseRange, hout, hold]

/-- Settles O54: newly beyond the range, the flag is set first, and the supplied module tells it. -/
theorem basePlateRange : Obligations.BasePlateRange := by
  unfold Obligations.BasePlateRange
  rintro s u t hout hold hsupplied rfl
  constructor
  · rw [execBaseRange_of_newly_out s hout hold, State.tellSupply_of_supplied _ 5 (by simpa using hsupplied)]
  · simp [State.flag, Reg.PWR_STAT_BASE_RANGE]

/-! ### The end of the mission's hours (R587) -/

theorem execMissionEnd_of_due (halive : s.alive = true) (hhours : 162000000 ≤ s.nv.seconds) (huntold : s.pwr.missionTold = false) :
    exec .missionEnd s = .next (({ s with pwr := { s.pwr with missionTold := true } } : State).raise 0x0D04 0 (le 8 s.nv.seconds)) := by
  have hdue : ¬((!s.alive) = true ∨ s.nv.seconds < 162000000 ∨ s.pwr.missionTold = true) := by
    simp [halive, huntold, hhours]
  change execMissionEnd s = _
  rw [execMissionEnd, if_neg hdue]

theorem execMissionEnd_of_told_or_early (h : s.pwr.missionTold = true ∨ s.nv.seconds < 162000000) : exec .missionEnd s = .next s := by
  change execMissionEnd s = _
  rw [execMissionEnd, if_pos (Or.inr h.symm)]

/-! ### What a start leaves of the supply's state -/

@[simp] theorem State.setFnQuiet_pwr (f st r : Nat) : (s.setFnQuiet f st r).pwr = s.pwr := by
  simp [State.setFnQuiet]

@[simp] theorem State.startReadiness_pwr : s.startReadiness.pwr = s.pwr := by
  unfold State.startReadiness
  rw [State.foldl_keeps _ (·.pwr) _ (fun t n => by split <;> simp), s.foldl_keeps (·.pwr) _ (fun t f => by simp)]

@[simp] theorem State.startRegs_pwr (kind : Nat) : (s.startRegs kind).pwr = s.pwr := by
  unfold State.startRegs
  dsimp only
  rw [State.foldl_keeps _ (·.pwr) _ (fun t n => by simp)]
  simp

@[simp] theorem State.startLatencies_pwr : s.startLatencies.pwr = s.pwr := by
  unfold State.startLatencies
  exact s.foldl_keeps (·.pwr) _ (fun t n => by simp) _

/-- A cold start keeps of the supply's state what is measured at the inputs (R546, R574). -/
@[simp] theorem State.coldStart_pwr : s.coldStart.pwr = s.pwr.inputs := by
  unfold State.coldStart
  simp only [State.wr_pwr, State.startLatencies_pwr, State.startRegs_pwr]
  split <;> rfl

/-- A warm start keeps of the supply's state what is measured at the inputs (R469, R488). -/
@[simp] theorem State.warmStart_pwr (kind : Nat) (time : Bool) : (s.warmStart kind time).pwr = s.pwr.inputs := by
  unfold State.warmStart
  simp only [State.wr_pwr, State.startLatencies_pwr, State.startRegs_pwr]
  (repeat' split) <;> rfl

/-- Settles O55: MISSION_END is told once, and no start keeps that it has been told. -/
theorem missionEndOnce : Obligations.MissionEndOnce := by
  unfold Obligations.MissionEndOnce
  refine ⟨execMissionEnd_of_due, execMissionEnd_of_told_or_early, fun s => ⟨?_, fun k b => ?_⟩⟩
  · rw [State.coldStart_pwr]
    rfl
  · rw [State.warmStart_pwr]
    rfl

end Sys2Proof.Machine
end

section
/-! SUPPORT. What every step keeps, as a relation of a state to a later one, and how it passes through the forms in which the model's
operations are written. -/

namespace Sys2Proof.Machine

/-- The array's failure is pending on the core of key `k` as interrupt 16 (R199, R213). -/
def State.failurePending (s : State) (k : Nat) : Prop := bit (s.cores.get .reset k).irq 16 = true

/-- What a state keeps of an earlier one, whatever happened between them: the canonical form of memory, the queue, the fuses but for a
rollback counter that has not fallen, the PERMANENT units, and the counts and emissions that only grow. Where `calm` holds, nothing between
them was a failure of an array: no core has its interrupt 16 newly pending. -/
structure Evolves (calm : Prop) (s t : State) : Prop where
  wf : Memory.wf s.mem = true → Memory.wf t.mem = true
  pending : t.pending = s.pending
  part : t.part = { s.part with rollback := t.part.rollback }
  rollback : rollbackCount s.part.rollback ≤ rollbackCount t.part.rollback
  permanent : ∀ u, s.permanent u = true → t.permanent u = true
  seconds : s.nv.seconds ≤ t.nv.seconds
  ticks : s.ticks ≤ t.ticks
  emitted : s.emitted <+: t.emitted
  quiet : calm → ∀ k, t.failurePending k → s.failurePending k

theorem State.not_failurePending_of_empty {s : State} (h : s.cores = .empty) (k : Nat) : ¬s.failurePending k := by
  simp [State.failurePending, h, Tbl.get, Tbl.find, Tbl.findIn, Tbl.empty, CoreSt.reset, bit]

theorem State.failurePending_iff {s : State} {p c : Nat} : s.failurePending (coreKey p c) ↔ bit (s.core p c).irq 16 = true := Iff.rfl

@[simp] theorem State.core_setM (s : State) (p c n v i j : Nat) : (s.setM p c n v).core i j = s.core i j := rfl

theorem State.failurePending_of_setCore {s : State} {p c k : Nat} {x : CoreSt} (h : (s.setCore p c x).failurePending k)
    (hx : bit x.irq 16 = true → s.failurePending (coreKey p c)) : s.failurePending k := by
  by_cases hkey : k = coreKey p c
  · subst hkey
    refine hx ?_
    simpa [State.failurePending] using h
  · simpa [State.failurePending, Tbl.get_set_ne _ _ _ hkey] using h

theorem Tbl.findIn_map {α : Type} {f : Nat × α → Nat × α} (hf : ∀ r, (f r).1 = r.1) (l : List (Nat × α)) (k : Nat) :
    Tbl.findIn (l.map f) k = (Tbl.findIn l k).map (fun v => (f (k, v)).2) := by
  induction l with
  | nil => rfl
  | cons r l ih =>
    rw [List.map_cons, Tbl.findIn, Tbl.findIn, hf]
    split
    · next hk => rw [← hk, Option.map_some]
    · exact ih

/-- A reservation that breaks leaves the interrupts of its core. -/
theorem State.breakResv_failurePending (s : State) (p ofs n : Nat) (keep : Option Nat) (k : Nat) :
    (s.breakResv p ofs n keep).failurePending k ↔ s.failurePending k := by
  unfold State.failurePending State.breakResv Tbl.get Tbl.find
  dsimp only
  rw [Tbl.findIn_map]
  · cases Tbl.findIn s.cores.rows k with
    | none => rfl
    | some x =>
      rw [Option.map_some, Option.getD_some, Option.getD_some]
      split
      · split
        · split <;> rfl
        · rfl
      · rfl
  · intro r
    split
    · split
      · split <;> rfl
      · rfl
    · rfl

/-- Every state that an optional result holds has evolved from `s`; `f` finds the state in the result. -/
def EvolvesOpt {α : Type} (calm : Prop) (s : State) (f : α → State) (o : Option α) : Prop := ∀ a, o = some a → Evolves calm s (f a)

/-- A meaning answers a next state that has evolved from `s`. -/
def Advances (s : State) (r : Res) : Prop := ∃ t, r = .next t ∧ Evolves False s t

theorem State.classOf_of_permanent (s : State) {u : Nat} (h : s.permanent u = true) : s.classOf u = 3 := by
  rw [State.classOf, if_pos (by simpa [State.permanent] using h)]

/-- The fold of `rollbackCount` over the first `n` bits. -/
def leadingOnes (field n : Nat) : Nat := (List.range n).foldl (fun n i => if n = i ∧ bit field i then n + 1 else n) 0

theorem rollbackCount_eq (field : Nat) : rollbackCount field = leadingOnes field 128 := rfl

theorem leadingOnes_succ (field n : Nat) : leadingOnes field (n + 1) =
    if leadingOnes field n = n ∧ bit field n = true then leadingOnes field n + 1 else leadingOnes field n := by
  rw [leadingOnes, List.range_succ, List.foldl_append]
  rfl

theorem leadingOnes_le (field n : Nat) : leadingOnes field n ≤ n := by
  induction n with
  | zero => rfl
  | succ n ih =>
    rw [leadingOnes_succ]
    split <;> omega

theorem leadingOnes_mono {a b : Nat} (h : ∀ i, bit a i = true → bit b i = true) (n : Nat) : leadingOnes a n ≤ leadingOnes b n := by
  induction n with
  | zero => rfl
  | succ n ih =>
    have hb := leadingOnes_le b n
    rw [leadingOnes_succ, leadingOnes_succ]
    by_cases ha : leadingOnes a n = n ∧ bit a n = true
    · have hbn : leadingOnes b n = n ∧ bit b n = true := ⟨by omega, h n ha.2⟩
      rw [if_pos ha, if_pos hbn]
      omega
    · rw [if_neg ha]
      split <;> omega

/-- A further blown bit never lowers the anti-rollback counter (R560). -/
theorem rollbackCount_le_or (field k : Nat) : rollbackCount field ≤ rollbackCount (field ||| k) := by
  rw [rollbackCount_eq, rollbackCount_eq]
  exact leadingOnes_mono (fun i hi => by simp_all [bit]) 128

/-! ### Operations that a policer's answer splits

The lemmas are stated of the functions, not of their values: to compare the values the kernel would evaluate the policer. -/

theorem State.emitPoliced_eq (s : State) (k : EmitKind) (port i cost : Nat) (l : List Byte) :
    s.emitPoliced k port i cost l = if (s.police i cost).2 then (s.police i cost).1.emit k port l else (s.police i cost).1 := by
  have e : State.emitPoliced = fun s k port i cost l =>
      if (s.police i cost).2 then (s.police i cost).1.emit k port l else (s.police i cost).1 := by
    delta State.emitPoliced
    funext s k port i cost l
    rcases s.police i cost with ⟨t, ok⟩
    cases ok <;> rfl
  rw [e]

theorem State.sendPath_eq (s : State) (p ident : Nat) (l : List Byte) :
    s.sendPath p ident l =
      let r := s.police (pathPolicer p) (if p < 6 then 1 else l.length + 4)
      if r.2 then (r.1.emit .egress p (if p < 6 then le 4 ident ++ l else l), true) else (r.1, false) := by
  have e : State.sendPath = fun s p ident l => 
      let r := s.police (pathPolicer p) (if p < 6 then 1 else l.length + 4)
      if r.2 then (r.1.emit .egress p (if p < 6 then le 4 ident ++ l else l), true) else (r.1, false) := by
    delta State.sendPath
    funext s p ident l
    rcases s.police (pathPolicer p) (if p < 6 then 1 else l.length + 4) with ⟨t, ok⟩
    cases ok <;> rfl
  rw [e]

/-- The state that the outcome of a needle instruction leaves, if it leaves one, has evolved from `s`. -/
def EvolvesDid (s : State) : Did → Prop
  | .retire t _ => Evolves False s t
  | .jump t _ _ => Evolves False s t
  | .trap _ _ => True

variable {calm : Prop} {s x t : State}

namespace Evolves

theorem refl (s : State) : Evolves calm s s where
  wf := id
  pending := rfl
  part := rfl
  rollback := le_rfl
  permanent _ h := h
  seconds := le_rfl
  ticks := le_rfl
  emitted := List.prefix_rfl
  quiet _ _ := id

theorem trans (h : Evolves calm s x) (g : Evolves calm x t) : Evolves calm s t where
  wf := g.wf ∘ h.wf
  pending := g.pending.trans h.pending
  part := by rw [g.part, h.part]
  rollback := h.rollback.trans g.rollback
  permanent u hu := g.permanent u (h.permanent u hu)
  seconds := h.seconds.trans g.seconds
  ticks := h.ticks.trans g.ticks
  emitted := h.emitted.trans g.emitted
  quiet hcalm k := h.quiet hcalm k ∘ g.quiet hcalm k

/-- A state with other fields than those that the relation speaks of. -/
theorem of_eq (h : Evolves calm s x) (hm : t.mem = x.mem) (hp : t.pending = x.pending) (hpart : t.part = x.part)
    (hh : t.nv.history = x.nv.history) (hs : t.nv.seconds = x.nv.seconds) (ht : t.ticks = x.ticks) (he : t.emitted = x.emitted)
    (hc : calm → t.cores = x.cores) : Evolves calm s t :=
  h.trans {
    wf := by rw [hm]; exact id
    pending := hp
    part := by rw [hpart]
    rollback := by rw [hpart]
    permanent := fun u => by rw [State.permanent, State.permanent, State.history, State.history, hh]; exact id
    seconds := hs.ge
    ticks := ht.ge
    emitted := by rw [he]
    quiet := fun hcalm k => by rw [State.failurePending, hc hcalm]; exact id }

/-- An update of any other fields. -/
theorem upd {regs bad free power nv tm ing hat gold queues units ddtGen plateMap ddrBytes chanMap prf jobs nextJob ht sync tasks chains
    reacts par sup mgd ctxs tlbs chanJob copyDone plates cores mcsr launches stp boot sec pwr caches tracers labs ring brn}
    (h : Evolves calm s x) (hh : nv.history = x.nv.history := by rfl) (hs : nv.seconds = x.nv.seconds := by rfl)
    (hc : calm → cores = x.cores := by exact fun _ => rfl) :
    Evolves calm s ⟨x.pending, regs, x.mem, bad, free, x.ticks, x.emitted, power, x.part, nv, tm, ing, hat, gold, queues, units, ddtGen,
      plateMap, ddrBytes, chanMap, prf, jobs, nextJob, ht, sync, tasks, chains, reacts, par, sup, mgd, ctxs, tlbs, chanJob, copyDone,
      plates, cores, mcsr, launches, stp, boot, sec, pwr, caches, tracers, labs, ring, brn⟩ :=
  h.of_eq rfl rfl rfl hh hs rfl rfl hc

theorem ticked {tm : TimeSt} {n k} (h : Evolves calm s x) (hn : x.ticks ≤ n) :
    Evolves calm s { x with tm := tm, ticks := n, nv := { x.nv with seconds := x.nv.seconds + k } } := 
  h.trans
    { wf := id, pending := rfl, part := rfl, rollback := le_rfl, permanent := fun _ => id, seconds := Nat.le_add_right .., ticks := hn,
      emitted := List.prefix_rfl, quiet := fun _ _ => id }

/-! ### Conditions, pairs and folds -/

theorem ite {c : Prop} [Decidable c] {a b : State} (ha : Evolves calm s a) (hb : Evolves calm s b) : Evolves calm s (if c then a else b) := by
  split
  · exact ha
  · exact hb

theorem ite_fst {α : Type} {c : Prop} [Decidable c] {a b : State × α} (ha : Evolves calm s a.1) (hb : Evolves calm s b.1) :
    Evolves calm s (if c then a else b).1 := by
  split
  · exact ha
  · exact hb

theorem ite_snd {α : Type} {c : Prop} [Decidable c] {a b : α × State} (ha : Evolves calm s a.2) (hb : Evolves calm s b.2) :
    Evolves calm s (if c then a else b).2 := by
  split
  · exact ha
  · exact hb

theorem pair {α : Type} {a : α} (h : Evolves calm s t) : Evolves calm s (t, a).1 := h

theorem of_fst {α : Type} {p : State × α} {a : α} (h : Evolves calm s p.1) (e : p = (t, a)) : Evolves calm s t := by
  rwa [e] at h

theorem of_snd {α : Type} {p : α × State} {a : α} (h : Evolves calm s p.2) (e : p = (a, t)) : Evolves calm s t := by
  rwa [e] at h

theorem foldl {α : Type} {f : State → α → State} {l : List α} (h : Evolves calm s x) (hf : ∀ t a, Evolves calm s t → Evolves calm s (f t a)) :
    Evolves calm s (l.foldl f x) :=
  List.foldlRecOn l f h fun t ht a _ => hf t a ht

theorem foldl_fst {α β : Type} {f : State × β → α → State × β} {l : List α} {p : State × β} (h : Evolves calm s p.1)
    (hf : ∀ t a, Evolves calm s t.1 → Evolves calm s (f t a).1) : Evolves calm s (l.foldl f p).1 :=
  List.foldlRecOn (motive := fun t => Evolves calm s t.1) l f h fun t ht a _ => hf t a ht

theorem next (h : Evolves False s t) : Advances s (.next t) := ⟨t, rfl, h⟩

end Evolves

/-! ### Optional results -/

namespace EvolvesOpt

variable {α β : Type} {f : α → State} {g : β → State}

theorem some {a : α} (h : Evolves calm s (f a)) : EvolvesOpt calm s f (some a) := by
  rintro _ ⟨⟩
  exact h

theorem none : EvolvesOpt calm s f none := nofun

theorem pure {a : α} (h : Evolves calm s (f a)) : EvolvesOpt calm s f (pure a) := .some h

theorem bind {o : Option α} {k : α → Option β} (ho : EvolvesOpt calm s f o) (hk : ∀ a, Evolves calm s (f a) → EvolvesOpt calm s g (k a)) :
    EvolvesOpt calm s g (o >>= k) := by
  cases o with
  | none => exact .none
  | some a => exact hk a (ho a rfl)

/-- A part that holds no state. -/
theorem bind_val {o : Option α} {k : α → Option β} (hk : ∀ a, EvolvesOpt calm s g (k a)) : EvolvesOpt calm s g (o >>= k) := by
  cases o with
  | none => exact .none
  | some a => exact hk a

theorem ite {c : Prop} [Decidable c] {a b : Option α} (ha : EvolvesOpt calm s f a) (hb : EvolvesOpt calm s f b) :
    EvolvesOpt calm s f (if c then a else b) := by
  split
  · exact ha
  · exact hb

theorem foldlM {k : β → α → Option β} {l : List α} {p : β} (h : Evolves calm s (g p)) (hk : ∀ t a, Evolves calm s (g t) → EvolvesOpt calm s g (k t a)) :
    EvolvesOpt calm s g (l.foldlM k p) := by
  induction l generalizing p with
  | nil => exact .some h
  | cons a l ih => exact .bind (hk p a h) fun _ ht => ih ht

theorem map {k : α → β} {o : Option α} (ho : EvolvesOpt calm s f o) (hk : ∀ a, Evolves calm s (f a) → Evolves calm s (g (k a))) :
    EvolvesOpt calm s g (o.map k) := by
  cases o with
  | none => exact .none
  | some a => exact .some (hk a (ho a rfl))

theorem getD {o : Option State} (ho : EvolvesOpt calm s id o) (h : Evolves calm s x) : Evolves calm s (o.getD x) := by
  cases o with
  | none => exact h
  | some a => exact ho a rfl

end EvolvesOpt

/-! ### Needle instructions and meanings -/

namespace EvolvesDid

theorem ite {c : Prop} [Decidable c] {a b : Did} (ha : EvolvesDid s a) (hb : EvolvesDid s b) : EvolvesDid s (if c then a else b) := by
  split
  · exact ha
  · exact hb

theorem trap {c v : Nat} : EvolvesDid s (.trap c v) := trivial

theorem retire {k : CoreSt} (h : Evolves False s t) : EvolvesDid s (.retire t k) := h

theorem jump {k : CoreSt} {pc : Nat} (h : Evolves False s t) : EvolvesDid s (.jump t k pc) := h

end EvolvesDid


namespace Advances

theorem ite {c : Prop} [Decidable c] {a b : Res} (ha : Advances s a) (hb : Advances s b) : Advances s (if c then a else b) := by
  split
  · exact ha
  · exact hb

end Advances

end Sys2Proof.Machine
end

section
/-! SUPPORT AND OBLIGATIONS (the invariants of every step). Every function of the model that answers a state answers one that has
evolved from its argument: a lemma per function, in the order of the model's files, and from them the statements about every step. -/

namespace Sys2Proof.Machine

-- One declaration at a time: elaborated at once, so many lemmas take a thread each, and the check's memory limit counts their stacks.
set_option Elab.async false

variable {calm : Prop} {s x : State}

namespace Evolves

/-! ### Sys2Proof/Machine/Ops.lean -/

theorem wr {f v i} (h : Evolves calm s x) : Evolves calm s (x.wr f v i) := h.upd

theorem bump {f i n} (h : Evolves calm s x) : Evolves calm s (x.bump f i n) := h.wr

theorem usedFree (h : Evolves calm s x) : Evolves calm s x.usedFree := h.upd

theorem store {a l} (h : Evolves calm s x) : Evolves calm s (x.store a l) := by
  obtain ⟨m, b, e⟩ := x.store_shape a l
  have hm := x.wf_store a l
  rw [e] at hm ⊢
  exact h.trans { refl x with wf := hm }

theorem storeNum {a n v} (h : Evolves False s x) : Evolves False s (x.storeNum a n v) := h.store

theorem storeBad {a l} (h : Evolves calm s x) : Evolves calm s (x.storeBad a l) := h.ite h.store.upd

theorem eraseRange {a n} (h : Evolves False s x) : Evolves False s (x.eraseRange a n) := h.trans { refl x with wf := x.wf_eraseRange a n }

theorem emit {k port l} (h : Evolves calm s x) : Evolves calm s (x.emit k port l) := h.trans { refl x with emitted := List.prefix_append .. }

theorem setUnit {u f} (h : Evolves calm s x) : Evolves calm s (x.setUnit u f) := h.upd

theorem setQueue {q x'} (h : Evolves calm s x) : Evolves calm s (x.setQueue q x') := h.upd

theorem showQueue {q} (h : Evolves calm s x) : Evolves calm s (x.showQueue q) := h.wr.wr

theorem gather {unit op cls detail} (h : Evolves calm s x) : Evolves calm s (x.gather unit op cls detail) := h.upd.ite h.upd

theorem resetQueue {q} (h : Evolves False s x) : Evolves False s (x.resetQueue q) := h.setQueue.showQueue.bump.gather

theorem access {q} (h : Evolves False s x) : Evolves False s (x.access q) := h.resetQueue.ite h

theorem closePacket {q items} (h : Evolves False s x) : Evolves False s (x.closePacket q items) := h.setQueue.showQueue

theorem emptyQueue {q} (h : Evolves calm s x) : Evolves calm s (x.emptyQueue q) := h.setQueue.showQueue

theorem enqueue {q h' l} (h : Evolves False s x) : Evolves False s (x.enqueue q h' l).1 :=
  h.bump.ite_fst (h.access.bump.wr.ite_fst (h.access.ite h.access.wr).closePacket)

theorem dequeue {q} (h : Evolves False s x) : EvolvesOpt False s (·.2.2) (x.dequeue q) := by
  unfold State.dequeue
  refine .ite .none ?_
  extract_lets s1 _
  have h1 : Evolves False s s1 := h.access
  split
  · exact .none
  · exact .some h1.setQueue.showQueue

theorem enqueueOwn {q l} (h : Evolves False s x) : Evolves False s (x.enqueueOwn q l).1 := by
  obtain ⟨r, y, p, ht, e⟩ := x.enqueueOwn_shape q l
  rw [e]
  exact h.upd

theorem raise {code unit data} (h : Evolves calm s x) : Evolves calm s (x.raise code unit data) := by
  obtain ⟨r, y, p, ht, e⟩ := x.raise_shape code unit data
  rw [e]
  exact h.upd

theorem setSens {i f} (h : Evolves calm s x) : Evolves calm s (x.setSens i f) := h.upd

theorem setTrack {i x'} (h : Evolves calm s x) : Evolves calm s (x.setTrack i x') := h.upd

theorem setIngest {i v} (h : Evolves calm s x) : Evolves calm s (x.setIngest i v) :=
  h.ite (h.wr.raise.setTrack.setSens.ite (h.wr.raise.setTrack.setSens.ite h.wr.raise.setTrack))

theorem sensorsAbsent {l} (h : Evolves calm s x) : Evolves calm s (x.sensorsAbsent l) := h.foldl fun _ _ h1 => h1.ite h1.setIngest

/-! ### Sys2Proof/Machine/Frames.lean -/

theorem police {i cost} (h : Evolves calm s x) : Evolves calm s (x.police i cost).1 := by
  unfold State.police
  split
  · extract_lets _ _ _ _ _ _
    refine Evolves.ite_fst h.upd ?_
    split
    · exact h.upd.bump
    · exact h.upd

theorem emitPoliced {k port i cost l} (h : Evolves False s x) : Evolves False s (x.emitPoliced k port i cost l) := by
  rw [State.emitPoliced_eq]
  exact h.police.emit.ite h.police

theorem setStream {bulk x'} (h : Evolves calm s x) : Evolves calm s (x.setStream bulk x') := h.upd.ite h.upd

theorem countSecured {port} (h : Evolves calm s x) : Evolves calm s (x.countSecured port) := h.ite (h.upd.ite h.upd.wr)

theorem sendFrame {port dst session type seq payload} (h : Evolves calm s x) : Evolves calm s (x.sendFrame port dst session type seq payload) := by
  unfold State.sendFrame
  extract_lets _ _ _ _
  refine Evolves.ite h ?_
  split
  · next e3 => exact (h.police.of_fst e3).emit.countSecured.upd
  · next e6 => exact h.police.of_fst e6

theorem transmit {bulk f} (h : Evolves calm s x) : Evolves calm s (x.transmit bulk f) := h.sendFrame

theorem sendReliable {bulk type payload} (h : Evolves False s x) : Evolves False s (x.sendReliable bulk type payload) :=
  h.setStream.transmit.ite h.setStream

theorem pump {bulk a1} (h : Evolves False s x) : Evolves False s (State.pump bulk a1 x) := by
  induction a1 generalizing x with
  | zero => exact h
  | succ _ ih =>
    rw [State.pump]
    split
    · exact h
    · exact (ih h.setStream.transmit).ite h

theorem acked {bulk ack} (h : Evolves False s x) : Evolves False s (x.acked bulk ack) := h.setStream.pump.ite h

theorem resend {bulk} (h : Evolves calm s x) : Evolves calm s (x.resend bulk) := (h.setStream.foldl fun _ _ h1 => h1.transmit).bump

theorem markShared (h : Evolves calm s x) : Evolves calm s x.markShared := h.upd.ite h

theorem moveStream {bulk port} (h : Evolves calm s x) : Evolves calm s (x.moveStream bulk port) := h.wr.markShared

theorem failover {bulk} (h : Evolves calm s x) : Evolves calm s (x.failover bulk) := h.moveStream.setStream.resend.raise.bump.ite h

theorem setLink {port up} (h : Evolves False s x) : Evolves False s (x.setLink port up) := h.upd

theorem failoverDue (h : Evolves calm s x) : Evolves calm s x.failoverDue := (h.failover.ite h).failover.ite (h.failover.ite h)

/-! ### Sys2Proof/Machine/Ready.lean -/

theorem setFnQuiet {fn st reason} (h : Evolves calm s x) : Evolves calm s (x.setFnQuiet fn st reason) := h.store

theorem setFn {fn st reason} (h : Evolves calm s x) : Evolves calm s (x.setFn fn st reason) :=
  h.ite (h.setFnQuiet.raise.ite (h.setFnQuiet.raise.ite h.setFnQuiet))

theorem fnReady {fn} (h : Evolves False s x) : Evolves False s (x.fnReady fn) := h.setFn

theorem fnOffline {fn off} (h : Evolves calm s x) : Evolves calm s (x.fnOffline fn off) := (h.ite h.upd.setFnQuiet).ite (h.setFn.ite h)

/-! ### Sys2Proof/Machine/Records.lean -/

theorem unitShown {u} (h : Evolves calm s x) : Evolves calm s (x.unitShown u) := by
  unfold State.unitShown
  extract_lets _ _ _ s1
  have h1 : Evolves calm s s1 := h.ite h.fnOffline
  split
  · exact h1.wr
  · exact h1.wr
  · exact h1.ite h1.sensorsAbsent
  · exact h1.ite h1.sensorsAbsent
  · exact h1.wr.ite h1
  · exact h1.failoverDue
  · exact h1.ite h1.emptyQueue
  · exact h1

theorem liveUpdate {u} (h : Evolves calm s x) : Evolves calm s (x.liveUpdate u) := h.upd.raise

theorem changeUnit {u f} (h : Evolves calm s x) : Evolves calm s (x.changeUnit u f) := h.setUnit.unitShown.ite h.setUnit.unitShown.liveUpdate

theorem offlineNow {u} (h : Evolves calm s x) : Evolves calm s (x.offlineNow u) := h.ite h.changeUnit

theorem onlineNow {u} (h : Evolves False s x) : Evolves False s (x.onlineNow u) := h.changeUnit.ite h.setUnit

theorem takeOffline {u} (h : Evolves calm s x) : Evolves calm s (x.takeOffline u) := h.setUnit.ite h.offlineNow

theorem actPermanent {u} (h : Evolves calm s x) : Evolves calm s (x.actPermanent u) := by
  unfold State.actPermanent
  extract_lets _
  split
  · exact h.takeOffline
  · exact h.takeOffline
  · exact h.takeOffline
  · exact h.takeOffline
  · exact h.offlineNow
  · exact h.offlineNow
  · exact h.offlineNow
  · exact h.offlineNow
  · exact h.offlineNow
  · exact h.offlineNow
  · exact h.offlineNow
  · exact h.offlineNow
  · exact h.offlineNow.ite h
  · exact h.offlineNow
  · exact h.offlineNow
  · exact h

/-- A new history entry keeps the unit PERMANENT if it was so. -/
theorem setHistory {u hist} (h : Evolves calm s x) (hist3 : x.permanent u = true → hist.state = 3) : Evolves calm s (x.setHistory u hist) := by
  unfold State.setHistory
  refine ite (h.trans { refl x with permanent := fun v hv => ?_ }) h
  by_cases hvu : v = u
  · subst hvu
    simp [State.permanent, State.history, hist3 hv]
  · simpa [State.permanent, State.history, Tbl.get_set_ne _ _ _ hvu] using hv

theorem setClass {u c} (h : Evolves calm s x) (hc : x.permanent u = true → c = 3) : Evolves calm s (x.setClass u c) :=
  have h1 := (h.setHistory (hist := { x.history u with state := c }) hc).raise
  h.ite (h1.bump.actPermanent.ite h1)

theorem histEvent {u source} (h : Evolves calm s x) : Evolves calm s (x.histEvent u source) := by
  unfold State.histEvent
  extract_lets h0 h1 s1
  have hs : h1.state = h0.state := by
    unfold h1
    split
    · split <;> rfl
    · rfl
  have g : Evolves calm s s1 := h.setHistory fun hp => by simpa [hs, h0, State.permanent] using hp
  exact g.setClass (State.classOf_of_permanent _)

theorem histFailed {u} (h : Evolves False s x) : Evolves False s (x.histFailed u) :=
  (h.setHistory fun hp => by simpa [State.permanent] using hp).setClass fun _ => rfl

theorem record {unit op timeNs cls count detail} (h : Evolves False s x) : Evolves False s (x.record unit op timeNs cls count detail) := by
  unfold State.record
  extract_lets _ _ t
  have ht : Evolves False s t := (h.setHistory fun hp => by simpa [State.permanent] using hp).ite h
  exact ht.upd.enqueueOwn.bump

theorem detect {unit op cls detail} (h : Evolves calm s x) : Evolves calm s (x.detect unit op cls detail) := h.histEvent.gather

theorem flushGathers (h : Evolves False s x) : Evolves False s x.flushGathers := h.upd.foldl fun _ _ h1 => (h1.histEvent.ite h1).record

theorem sramDetect {unit cls ofs stored} (h : Evolves calm s x) : Evolves calm s (x.sramDetect unit cls ofs stored) := h.bump.detect.usedFree

theorem ddrDetect {cls pa passed stored} (h : Evolves calm s x) : Evolves calm s (x.ddrDetect cls pa passed stored) :=
  (h.bump.bump.ite h.bump).detect.usedFree

/-! ### Sys2Proof/Machine/Supervisor.lean -/

theorem setSource {n x'} (h : Evolves calm s x) : Evolves calm s (x.setSource n x') := h.upd

theorem showLines {n} (h : Evolves calm s x) : Evolves calm s (x.showLines n) := by
  unfold State.showLines
  extract_lets _ _ _ _ s1 s2 s3
  have h1 : Evolves calm s s1 := h.wr.wr.wr
  have h2 : Evolves calm s s2 := h1.wr.wr
  have h3 : Evolves calm s s3 := h2.raise.ite h2
  exact h3.raise.ite h3

theorem requestLines {n lines stays} (h : Evolves calm s x) : Evolves calm s (x.requestLines n lines stays) := h.setSource.showLines

theorem requestHeld {n} (h : Evolves False s x) : Evolves False s (x.requestHeld n) := h.requestLines

theorem requestOnce {n} (h : Evolves False s x) : Evolves False s (x.requestOnce n) := h.requestLines

theorem releaseSource {n} (h : Evolves False s x) : Evolves False s (x.releaseSource n) := h.setSource.showLines

theorem clearCause {n} (h : Evolves False s x) : Evolves False s (x.clearCause n) := (h.setSource.releaseSource.ite h.setSource.showLines).ite h

/-! ### Sys2Proof/Machine/Mmu.lean -/

theorem countMirror {pa n} (h : Evolves calm s x) : Evolves calm s (x.countMirror pa n) := h.bump.ite h

theorem physPiece {pa l} (h : Evolves False s x) : Evolves False s (x.physPiece pa l) := (h.store.ite h).store.ite (h.store.ite h)

theorem physLoop {a0 a2 a3} (h : Evolves False s x) : Evolves False s (State.physLoop a0 x a2 a3) := by
  induction a0 generalizing x a2 a3 with
  | zero => exact h
  | succ _ ih => exact h.ite (ih h.physPiece)

theorem physWrite {pa l} (h : Evolves False s x) : Evolves False s (x.physWrite pa l) := h.physLoop

theorem walked {root va} (h : Evolves calm s x) : Evolves calm s (x.walked root va) := by
  unfold State.walked
  extract_lets _ s1
  have h2 : Evolves calm s s1 := h.foldl fun _ _ h1 => h1.countMirror
  split
  · exact h2.ddrDetect
  · exact h2

theorem translateOn {ch ctx va acc} (h : Evolves calm s x) : Evolves calm s (x.translateOn ch ctx va acc).1 := by
  unfold State.translateOn
  extract_lets _ r s1
  have h1 : Evolves calm s s1 := by
    unfold s1
    split
    · exact h.walked
    · exact h
  split
  · exact h
  · clear_value r
    split
    · exact h1
    · exact h1.upd

theorem dropWalks {p'} (h : Evolves False s x) : Evolves False s (x.dropWalks p') := h.upd

theorem vreadLoop {ch ctx acc a3 a5 a6 a7} (h : Evolves calm s x) : Evolves calm s (State.vreadLoop ch ctx acc a3 x a5 a6 a7).1 := by
  induction a3 generalizing x a5 a6 a7 with
  | zero => exact h
  | succ _ ih =>
    rw [State.vreadLoop]
    refine Evolves.ite_fst h ?_
    split
    · next e4 => exact h.translateOn.of_fst e4
    · next e8 => exact ih (h.translateOn.of_fst e8).countMirror

theorem vread {ch ctx va n} (h : Evolves calm s x) : Evolves calm s (x.vread ch ctx va n).1 := h.vreadLoop

theorem vwriteLoop {ch ctx poison a3 a5 a6 a7} (h : Evolves calm s x) : Evolves calm s (State.vwriteLoop ch ctx poison a3 x a5 a6 a7).1 := by
  induction a3 generalizing x a5 a6 a7 with
  | zero => exact h
  | succ _ ih =>
    rw [State.vwriteLoop]
    refine Evolves.ite_fst h ?_
    split
    · next e4 => exact h.translateOn.of_fst e4
    · next e8 => exact ih ((h.translateOn.of_fst e8).storeBad.ite (h.translateOn.of_fst e8).store)

theorem vwrite {ch ctx va l} (h : Evolves calm s x) : Evolves calm s (x.vwrite ch ctx va l).1 := h.vwriteLoop

theorem chanClear {c} (h : Evolves False s x) : Evolves False s (x.chanClear c) := h.wr.wr.wr.wr.wr.wr.wr.wr.wr.wr

theorem chanStart {c ctx descPos bytesDone tag physical} (h : Evolves False s x) : Evolves False s (x.chanStart c ctx descPos bytesDone tag physical) :=
  h.wr.wr.wr.wr.wr.wr.wr.wr

/-! ### Sys2Proof/Machine/Restart.lean -/

theorem startReadiness (h : Evolves calm s x) : Evolves calm s x.startReadiness :=
  (h.foldl fun _ _ h1 => h1.setFnQuiet).foldl fun _ _ h2 => h2.setFnQuiet.ite h2

theorem startRegs {kind} (h : Evolves calm s x) : Evolves calm s (x.startRegs kind) :=
  h.wr.startReadiness.wr.wr.wr.wr.wr.wr.wr.upd.store.foldl fun _ _ h1 => h1.wr.wr.wr

theorem startLatencies (h : Evolves calm s x) : Evolves calm s x.startLatencies := h.foldl fun _ _ h1 => h1.wr.wr

theorem cleared (h : Evolves False s x) : Evolves False s x.cleared := h.trans { refl (calm := False) x with wf := fun _ => rfl, quiet := fun h => h.elim }

theorem coldStart (h : Evolves False s x) : Evolves False s x.coldStart := by
  unfold State.coldStart
  extract_lets _ src _ _ _ t2 t3
  have h1 : Evolves False s src := h.cleared
  have h2 : Evolves False s t2 := h1.upd.wr
  have h3 : Evolves False s t3 := by
    unfold t3
    split
    · exact h2.wr.wr
    · exact h2
  exact h3.startRegs.startLatencies.wr

theorem warmStart {kind time} (h : Evolves calm s x) : Evolves calm s (x.warmStart kind time) := by
  unfold State.warmStart
  extract_lets _ _ _ _ _ _ _ t u
  have ht : Evolves calm s t := h.trans
    { wf := Memory.wf_filter _, pending := rfl, part := rfl, rollback := le_rfl, permanent := fun _ => id, seconds := le_rfl,
      ticks := le_rfl, emitted := List.prefix_rfl, quiet := fun _ k hk => absurd hk (State.not_failurePending_of_empty rfl k) } 
  have hu : Evolves calm s u := by
    unfold u
    split
    · exact ht.ite ht.wr.wr
    · exact ht
  exact hu.startRegs.startLatencies.wr.wr.wr.wr

theorem contain {code unit} (h : Evolves calm s x) : Evolves calm s (x.contain code unit) :=
  h.ite (h.requestLines.wr.wr.wr.wr.upd.warmStart.upd.wr.ite h.requestLines.wr.wr.wr.wr.upd.warmStart)

theorem bootWrite {u pa l} (h : Evolves False s x) : Evolves False s (x.bootWrite u pa l) := h.physWrite.ite h.contain

theorem chanEvent {c} (h : Evolves False s x) : Evolves False s (x.chanEvent c) := h.raise

theorem chanFault {c kind bytesDone va} (h : Evolves False s x) : Evolves False s (x.chanFault c kind bytesDone va) :=
  h.contain.ite h.wr.wr.wr.wr.wr.chanEvent.bump

/-! ### Sys2Proof/Machine/RingLink.lean -/

theorem setTx {p' x'} (h : Evolves calm s x) : Evolves calm s (x.setTx p' x') := h.upd

theorem setRx {p' x'} (h : Evolves False s x) : Evolves False s (x.setRx p' x') := h.upd

theorem flitOut {p' type code seq crCtrl crData payload} (h : Evolves calm s x) : Evolves calm s (x.flitOut p' type code seq crCtrl crData payload) :=
  h.emit

theorem idleFlit {p' crCtrl crData nak} (h : Evolves False s x) : Evolves False s (x.idleFlit p' crCtrl crData nak) := h.flitOut

theorem sendKept {p' f} (h : Evolves calm s x) : Evolves calm s (x.sendKept p' f) := h.setTx.flitOut

theorem drainPort {p' a1} (h : Evolves calm s x) : Evolves calm s (State.drainPort p' a1 x) := by
  induction a1 generalizing x with
  | zero => exact h
  | succ _ ih =>
    rw [State.drainPort]
    split
    · exact (ih h.setTx.sendKept).ite h
    · exact (ih h.setTx.sendKept).ite h
    · exact h

theorem sendFlit {p' type code payload} (h : Evolves calm s x) : Evolves calm s (x.sendFlit p' type code payload) := h.ite h.setTx.drainPort

theorem sendCtrl {p' code payload} (h : Evolves False s x) : Evolves False s (x.sendCtrl p' code payload) := h.sendFlit

theorem noteSent {k jobs ctx} (h : Evolves calm s x) : Evolves calm s (x.noteSent k jobs ctx) := h.upd

theorem xferOut {p' x'} (h : Evolves calm s x) : Evolves calm s (x.xferOut p' x') := h.foldl fun _ _ h1 => h1.sendFlit

theorem kvSend {m op ci ctx n arg data} (h : Evolves calm s x) : Evolves calm s (x.kvSend m op ci ctx n arg data) := (h.ite h.noteSent).xferOut

/-! ### Sys2Proof/Machine/Engines.lean -/

theorem setJob {j} (h : Evolves False s x) : Evolves False s (x.setJob j) := h.upd

theorem addFlag {id bitNo} (h : Evolves calm s x) : Evolves calm s (x.addFlag id bitNo) := h.upd

theorem showCtx {c} (h : Evolves False s x) : Evolves False s (x.showCtx c) := h.wr.wr

theorem showTracer {t} (h : Evolves calm s x) : Evolves calm s (x.showTracer t) := h.wr.wr.wr.wr

theorem setTracer {t x'} (h : Evolves calm s x) : Evolves calm s (x.setTracer t x') := h.upd.showTracer

theorem pin {t e' more} (h : Evolves calm s x) : Evolves calm s (x.pin t e' more) := h.setTracer

theorem releaseLab {e'} (h : Evolves calm s x) : Evolves calm s (x.releaseLab e') := by
  unfold State.releaseLab
  extract_lets _
  split
  · exact h.pin.kvSend
  · exact h.pin

theorem dropLabs {p'} (h : Evolves calm s x) : Evolves calm s (x.dropLabs p') := h.upd.foldl fun _ _ h1 => h1.releaseLab

theorem dropPlateLabs {plate} (h : Evolves False s x) : Evolves False s (x.dropPlateLabs plate) := h.upd.foldl fun _ _ h1 => h1.releaseLab

theorem setPlate {p' x'} (h : Evolves calm s x) : Evolves calm s (x.setPlate p' x') := h.upd

/-- A core's new state, which has the array's failure pending only if the core had. -/
theorem setCore {p' c x'} (h : Evolves calm s x)
    (hirq : calm → bit x'.irq 16 = true → x.failurePending (coreKey p' c) := by exact fun h => h.elim) :
    Evolves calm s (x.setCore p' c x') :=
  h.trans { refl (calm := calm) x with quiet := fun hcalm _ hk => State.failurePending_of_setCore hk (hirq hcalm) }

theorem showPlate {p'} (h : Evolves calm s x) : Evolves calm s (x.showPlate p') := h.wr.wr.wr.wr.wr.wr.wr

theorem idleCore {p' c} (h : Evolves False s x) : Evolves False s (x.idleCore p' c) := h.ite h.wr.wr

theorem showCores {p'} (h : Evolves False s x) : Evolves False s (x.showCores p') := h.wr

theorem offlineDeferred {p'} (h : Evolves False s x) : Evolves False s (x.offlineDeferred p') := h.offlineNow.ite h

theorem setChanRec {c st r} (h : Evolves False s x) : Evolves False s (x.setChanRec c st r) := h.wr.wr.wr.wr.wr.wr.wr.wr.wr.wr

theorem showIdle {p'} (h : Evolves False s x) : Evolves False s (x.showIdle p') := by
  unfold State.showIdle
  extract_lets s1 s2
  have h1 : Evolves False s s1 := h.wr.wr
  have h2 : Evolves False s s2 := by
    unfold s2
    split
    · exact h1.wr.setChanRec.setChanRec
    · exact h1.wr.chanClear.chanClear
  exact h2.showPlate

theorem clearPlate {p'} (h : Evolves False s x) : Evolves False s (x.clearPlate p') :=
  ((h.setPlate.foldl fun _ _ h1 => h1.idleCore).upd (hc := fun h => h.elim)).dropPlateLabs

theorem freePlate {p'} (h : Evolves False s x) : Evolves False s (x.freePlate p') := h.clearPlate.showIdle.offlineDeferred

theorem stopLaunch {id} (h : Evolves False s x) : Evolves False s (x.stopLaunch id) := by
  unfold State.stopLaunch
  split
  · exact h
  · exact h.upd.foldl fun _ _ h1 => h1.freePlate.ite (h1.showIdle.offlineDeferred.ite h1)

theorem freeChans {id} (h : Evolves False s x) : Evolves False s (x.freeChans id) := h.foldl fun _ _ h1 => h1.upd.chanClear

theorem showProb {i} (h : Evolves False s x) : Evolves False s (x.showProb i) := by
  unfold State.showProb
  extract_lets s1 _
  have h1 : Evolves False s s1 := by
    unfold s1
    split <;> exact h.wr.wr.wr.wr
  split <;> exact h1.wr.wr.wr.wr

theorem dropRun {id} (h : Evolves False s x) : Evolves False s (x.dropRun id) := (h.upd.chanClear.ite h.upd).foldl fun _ _ h1 => h1.showProb

theorem spoil {ctx r} (h : Evolves False s x) : Evolves False s (x.spoil ctx r) := h.upd.vwrite

theorem stpSpoil {j} (h : Evolves False s x) : Evolves False s (x.stpSpoil j) :=
  (h.foldl fun _ _ h1 => h1.spoil).vwrite.ite (h.foldl fun _ _ h2 => h2.spoil)

theorem stpIdle (h : Evolves False s x) : Evolves False s x.stpIdle := h.upd.wr.wr.wr

theorem setColls {l} (h : Evolves False s x) : Evolves False s (x.setColls l) := h.upd.wr

theorem stopJob {j} (h : Evolves False s x) : Evolves False s (x.stopJob j) := by
  unfold State.stopJob
  extract_lets s1
  have h1 : Evolves False s s1 := h.freeChans
  split
  · exact h1.stopLaunch
  · exact h1.stpSpoil.stpIdle.ite h1
  · exact h1.dropRun
  · exact h1.setColls
  · exact h1

theorem requestPreempt {id} (h : Evolves False s x) : Evolves False s (x.requestPreempt id) := by
  unfold State.requestPreempt
  split
  · exact (h.upd.foldl fun _ _ h1 => h1.wr).ite h
  · exact h

theorem withdraw {part} (h : Evolves False s x) : Evolves False s (x.withdraw part) := h.upd.foldl fun _ _ h1 => h1.requestPreempt

theorem writeRecord {ring r} (h : Evolves False s x) : Evolves False s (x.writeRecord ring r) := h.upd.bump

theorem freeSlot {ring} (h : Evolves False s x) : Evolves False s (x.freeSlot ring) := h.bump

theorem chargeJob {j} (h : Evolves False s x) : Evolves False s (x.chargeJob j) := by
  unfold State.chargeJob
  split
  · exact h
  · exact h.upd

theorem dropJob {j} (h : Evolves False s x) : Evolves False s (x.dropJob j) := h.upd.showCtx

theorem finishQuiet {j status result detail} (h : Evolves False s x) : Evolves False s (x.finishQuiet j status result detail) := by
  unfold State.finishQuiet
  extract_lets _ _ s1 s2 s3 _
  have h1 : Evolves False s s1 := h.chargeJob.dropJob
  have h2 : Evolves False s s2 := h1.writeRecord
  have h3 : Evolves False s s3 := h2.ite h2.freeSlot
  exact h3.upd.ite h3

theorem holdConfirm {j status result detail} (h : Evolves False s x) : Evolves False s (x.holdConfirm j status result detail) :=
  (h.chargeJob.dropJob.ite h.chargeJob.dropJob.freeSlot).upd

theorem retractJob {j m k} (h : Evolves False s x) : Evolves False s (x.retractJob j m k) := h.stopJob.finishQuiet

theorem absorb {id t} (h : Evolves False s x) : Evolves False s (x.absorb id t) := by
  unfold State.absorb
  extract_lets _
  split
  · exact h.upd
  · split
    · exact h.upd.retractJob
    · exact h.upd

/-! ### Sys2Proof/Machine/Sync.lean -/

theorem killTask {t} (h : Evolves False s x) : Evolves False s (x.killTask t) := h.ite (h.foldl fun _ _ h1 => h1.stopJob.finishQuiet)

theorem countReaction {e'} (h : Evolves False s x) : Evolves False s (x.countReaction e').1 := h.upd

theorem violate {srcKind src unit kind e' activation measuredUs tasks parts} (h : Evolves False s x) : Evolves False s (x.violate srcKind src unit kind e' activation measuredUs tasks parts) := by
  unfold State.violate
  split
  · next e4 =>
      extract_lets s1 _
      have h1 : Evolves False s s1 := (h.countReaction.of_fst e4).raise
      split
      · exact h1.foldl fun _ _ h2 => h2.killTask
      · exact h1.foldl fun _ _ h3 => h3.withdraw
      · exact h1.upd.requestOnce
      · exact h1

theorem setTask {t x'} (h : Evolves False s x) : Evolves False s (x.setTask t x') := h.upd.wr.wr

theorem setChain {c x'} (h : Evolves False s x) : Evolves False s (x.setChain c x') := h.upd

theorem taskViolation {t kind activation measuredUs} (h : Evolves False s x) : Evolves False s (x.taskViolation t kind activation measuredUs) :=
  h.bump.wr.bump.violate

theorem chainViolation {c kind activation measuredUs} (h : Evolves False s x) : Evolves False s (x.chainViolation c kind activation measuredUs) :=
  h.bump.violate

theorem setObj {o x'} (h : Evolves False s x) : Evolves False s (x.setObj o x') := h.upd

theorem stopChains {t num} (h : Evolves False s x) : Evolves False s (x.stopChains t num) := by
  unfold State.stopChains
  refine Evolves.foldl h (fun _ _ h1 => ?_)
  extract_lets _
  split
  · exact h1
  · exact h1.setChain.chainViolation.ite h1.setChain

theorem completeActs {t a1} (h : Evolves False s x) : Evolves False s (State.completeActs t a1 x) := by
  induction a1 generalizing x with
  | zero => exact h
  | succ _ ih =>
    rw [State.completeActs]
    split
    · exact h
    · exact (ih h.setTask.stopChains).ite h

theorem arrive {t} (h : Evolves False s x) : Evolves False s (x.arrive t) := by
  unfold State.arrive
  extract_lets _ _ _ _ _ _ _ _ s1 s2 _
  have h1 : Evolves False s s1 := h.setTask
  have h3 : Evolves False s s2 := h1.ite (h1.foldl fun _ _ h2 => h2.setChain)
  exact (h3.taskViolation.ite h3).completeActs

theorem signal {o add taint} (h : Evolves False s x) : Evolves False s (x.signal o add taint) := by
  unfold State.signal
  refine Evolves.ite h ?_
  extract_lets _ _ _ s1 s2 _ s3
  have h1 : Evolves False s s1 := h.setObj
  have h2 : Evolves False s s2 := h1.bump.ite h1
  have h4 : Evolves False s s3 := (h2.foldl fun _ _ h3 => h3.arrive).ite h2
  exact h4.foldl fun _ _ h5 => h5.completeActs

theorem beginJob {j ph} (h : Evolves False s x) : Evolves False s (x.beginJob j ph) := h.setJob.bump.ite h.setJob

theorem wroteOut {id} (h : Evolves False s x) : Evolves False s (x.wroteOut id) := h.upd

theorem finish {j status result detail} (h : Evolves False s x) : Evolves False s (x.finish j status result detail) :=
  h.holdConfirm.ite (h.finishQuiet.signal.ite h.finishQuiet)

theorem finishNow {id status result detail} (h : Evolves False s x) : Evolves False s (x.finishNow id status result detail) := by
  unfold State.finishNow
  split
  · exact h.finish
  · exact h

theorem finishOk {j} (h : Evolves False s x) : Evolves False s (x.finishOk j) := h.finish

/-! ### Sys2Proof/Machine/Flags.lean -/

theorem refuse {j r} (h : Evolves False s x) : Evolves False s (x.refuse j r) := h.finishQuiet

theorem runOr {j c run} (h : Evolves False s x) (hk0 : ∀ t, Evolves False s t → Evolves False s (run t)) : Evolves False s (x.runOr j c run) := by
  unfold State.runOr
  split
  · exact h.refuse
  · exact hk0 _ h

/-! ### Sys2Proof/Machine/Partition.lean -/

theorem beginWindow {w} (h : Evolves False s x) : Evolves False s (x.beginWindow w) := h.wr.foldl fun _ _ h1 => h1.ite h1.requestPreempt.bump

theorem dropUnscheduled (h : Evolves False s x) : Evolves False s x.dropUnscheduled := h.foldl fun _ _ h1 => h1.ite h1.finishQuiet

theorem swapSchedule {b} (h : Evolves False s x) : Evolves False s (x.swapSchedule b) := by
  unfold State.swapSchedule
  refine Evolves.ite h ?_
  extract_lets _ _
  split
  · exact h.wr.wr.wr
  · exact h.wr.wr.dropUnscheduled.ite h

theorem execMajorFrameBoundary (h : Evolves False s x) : Advances s (execMajorFrameBoundary x) :=
  .ite h.next h.upd.swapSchedule.beginWindow.next

theorem execWindowStart (h : Evolves False s x) : Advances s (execWindowStart x) := .ite h.beginWindow.next h.next

theorem execParSwap (h : Evolves False s x) : Advances s (execParSwap x) := .ite h.next h.wr.next

theorem holdWindow (h : Evolves False s x) : Evolves False s x.holdWindow := h.upd

theorem execSchedLoad {job} (h : Evolves False s x) : Advances s (execSchedLoad job x) := by
  unfold Machine.execSchedLoad
  split
  · exact h.next
  · exact (h.runOr fun _ h1 => h1.finishOk.ite h1.store.wr.finishOk).next

theorem execPartSet {job} (h : Evolves False s x) : Advances s (execPartSet job x) := by
  unfold Machine.execPartSet
  split
  · exact h.next
  · exact (h.runOr fun _ h1 => (h1.ite h1.store).finishOk).next

theorem execTaskSet {job} (h : Evolves False s x) : Advances s (execTaskSet job x) := by
  unfold Machine.execTaskSet
  split
  · exact h.next
  · exact (h.runOr fun _ h1 => h1.finishOk.ite h1.store.setTask.finishOk).next

theorem execTaskClear {job} (h : Evolves False s x) : Advances s (execTaskClear job x) := by
  unfold Machine.execTaskClear
  split
  · exact h.next
  · exact (h.runOr fun _ h1 => h1.store.setTask.finishOk).next

theorem execChainSet {job} (h : Evolves False s x) : Advances s (execChainSet job x) := by
  unfold Machine.execChainSet
  split
  · exact h.next
  · exact (h.runOr fun _ h1 => h1.finishOk.ite h1.store.setChain.finishOk).next

theorem execChainClear {job} (h : Evolves False s x) : Advances s (execChainClear job x) := by
  unfold Machine.execChainClear
  split
  · exact h.next
  · exact h.store.setChain.finishOk.next

theorem execLateArrival {task} (h : Evolves False s x) : Advances s (execLateArrival task x) := by
  unfold Machine.execLateArrival
  extract_lets _ _
  split
  · exact .ite h.setTask.taskViolation.next h.next
  · exact h.next

theorem execBudgetViolation {task} (h : Evolves False s x) : Advances s (execBudgetViolation task x) := by
  unfold Machine.execBudgetViolation
  extract_lets _ _ _
  split
  · exact .ite h.setTask.taskViolation.next h.next
  · exact h.next

theorem execDeadlineViolation {task} (h : Evolves False s x) : Advances s (execDeadlineViolation task x) := by
  unfold Machine.execDeadlineViolation
  extract_lets _ _ _
  split
  · exact .ite h.setTask.taskViolation.next h.next
  · exact h.next

theorem execChainLate {chain} (h : Evolves False s x) : Advances s (execChainLate chain x) := by
  unfold Machine.execChainLate
  extract_lets _ _
  split
  · exact .ite h.setChain.chainViolation.next h.next
  · exact h.next

/-! ### Sys2Proof/Machine/SyncOps.lean -/

theorem stepsSet {o v} (h : Evolves False s x) : Evolves False s (x.stepsSet o v) := h.upd

theorem execSyncSet {job} (h : Evolves False s x) : Advances s (execSyncSet job x) := by
  unfold Machine.execSyncSet
  split
  · exact h.next
  · exact (h.runOr fun _ h1 => h1.setObj.stepsSet.finishOk).next

theorem execSyncRead {job} (h : Evolves False s x) : Advances s (execSyncRead job x) := by
  unfold Machine.execSyncRead
  split
  · exact h.next
  · exact (h.finishOk.ite h.finish).next

theorem setOwner {g p'} (h : Evolves False s x) : Evolves False s (x.setOwner g p') := h.wr

theorem execSyncGrant {job} (h : Evolves False s x) : Advances s (execSyncGrant job x) := by
  unfold Machine.execSyncGrant
  split
  · exact h.next
  · exact (h.runOr fun _ h1 => h1.setOwner.finishOk).next

/-! ### Sys2Proof/Machine/Ruling.lean -/

theorem served {e' t} (h : Evolves False s x) : Evolves False s (x.served e' t) := h.upd

theorem showLock (h : Evolves False s x) : Evolves False s x.showLock := h.wr

theorem pairFrame {i cap ctr} (h : Evolves False s x) : Evolves False s (x.pairFrame i cap ctr) := by
  unfold State.pairFrame
  split
  · exact h.setSens
  · exact h.setSens.ite ((h.setSens.setTrack.setTrack.raise.ite h.setSens.setTrack).ite h.setSens.setTrack)

theorem goodFrame {i frozen} (h : Evolves False s x) : Evolves False s (x.goodFrame i frozen) := h.setTrack.ite h

theorem relock {i} (h : Evolves False s x) : Evolves False s (x.relock i) := by
  unfold State.relock
  split
  · exact h
  · exact h.ite (h.setTrack.ite (h.setTrack.raise.ite h))

theorem rearm {i} (h : Evolves False s x) : Evolves False s (x.rearm i) := by
  unfold State.rearm
  split
  · exact h.emit.ite h
  · exact h

/-! ### Sys2Proof/Machine/HatchFrames.lean -/

theorem showHat (h : Evolves calm s x) : Evolves calm s x.showHat := h.wr

theorem setEpochs {l} (h : Evolves calm s x) : Evolves calm s (x.setEpochs l) := h.upd.showHat

theorem modEpoch {n f} (h : Evolves False s x) : Evolves False s (x.modEpoch n f) := h.setEpochs

theorem endFrame {n i t st} (h : Evolves False s x) : Evolves False s (x.endFrame n i t st) := h.modEpoch

theorem markFrame {i at0 frozen} (h : Evolves False s x) : Evolves False s (x.markFrame i at0 frozen) := by
  unfold State.markFrame
  extract_lets _ _ s1
  have h1 : Evolves False s s1 := h.bump.ite h
  split
  · exact h1
  · exact h1.endFrame.ite h1

theorem acceptPlanes (h : Evolves calm s x) : Evolves calm s x.acceptPlanes := h.setEpochs

theorem evidenceWrite {ofs l} (h : Evolves calm s x) : Evolves calm s (x.evidenceWrite ofs l) :=
  ((h.foldl fun _ _ h1 => h1.store).bump.ite (h.foldl fun _ _ h2 => h2.store)).acceptPlanes

theorem startStage {k no} (h : Evolves False s x) : Evolves False s (x.startStage k no) := h.upd

theorem stageDone {k input} (h : Evolves False s x) : Evolves False s (x.stageDone k input) := by
  unfold State.stageDone
  split
  · exact h
  · exact h.upd

theorem startH1 (h : Evolves False s x) : Evolves False s x.startH1 := by
  unfold State.startH1
  refine .ite ?_ h
  split
  · exact h.startStage
  · exact h

/-! ### Sys2Proof/Machine/Ingest.lean -/

theorem discoverCam {i} (h : Evolves False s x) : Evolves False s (x.discoverCam i) := (h.setIngest.setSens.ite h.setIngest.setSens.setIngest).ite h

theorem discoverEth {i} (h : Evolves False s x) : Evolves False s (x.discoverEth i) := h.setIngest.ite h

theorem discover {i} (h : Evolves False s x) : Evolves False s (x.discover i) := by
  unfold State.discover
  split
  · exact h.discoverCam
  · exact h.discoverEth
  · exact h.discoverEth
  · exact h.setIngest.ite h
  · exact h

theorem discoverAll (h : Evolves False s x) : Evolves False s x.discoverAll := h.foldl fun _ _ h1 => h1.discover

theorem identityRead {i v} (h : Evolves False s x) : Evolves False s (x.identityRead i v) := by
  unfold State.identityRead
  split
  · exact h.setIngest
  · exact h.setSens.setIngest.ite h.setSens

theorem execIdReadAttempt {sensor read} (h : Evolves False s x) : Advances s (execIdReadAttempt sensor read x) :=
  .ite h.identityRead.next h.next

theorem execLldpRx {port chassis} (h : Evolves False s x) : Advances s (execLldpRx port chassis x) := .ite h.upd.discoverAll.next h.next

theorem execImuSelfCheckDone {pass} (h : Evolves False s x) : Advances s (execImuSelfCheckDone pass x) := h.upd.discoverAll.next

theorem execSensorTimeout {sensor} (h : Evolves False s x) : Advances s (execSensorTimeout sensor x) := .ite h.setIngest.next h.next

theorem openPacket {q h' l n} (h : Evolves False s x) : Evolves False s (x.openPacket q h' l n) :=
  h.bump.ite (h.access.bump.wr.ite (h.access.enqueue.ite h.access.setQueue.showQueue))

theorem closeOpen {q} (h : Evolves False s x) : Evolves False s (x.closeOpen q) := by
  unfold State.closeOpen
  extract_lets s1 _
  have h1 : Evolves False s s1 := h.access
  split
  · exact h1
  · exact h1.setQueue.closePacket

theorem receivePacket {q h' l cutAt} (h : Evolves False s x) : Evolves False s (x.receivePacket q h' l cutAt) := by
  unfold State.receivePacket
  extract_lets s1
  have h1 : Evolves False s s1 := h.closeOpen
  split
  · exact h1.openPacket
  · exact h1.enqueue

theorem charge {i n stamp} (h : Evolves False s x) : Evolves False s (x.charge i n stamp).1 := h.setSens.ite_fst h.bump

theorem frameStart {i no stamp} (h : Evolves False s x) : Evolves False s (x.frameStart i no stamp) := h.setSens.pairFrame

theorem frameEnd {i} (h : Evolves False s x) : Evolves False s (x.frameEnd i).1 := (h.bump.ite h).goodFrame.setSens

theorem execCsi2PacketRx {port p'} (h : Evolves False s x) : Advances s (execCsi2PacketRx port p' x) := by
  unfold Machine.execCsi2PacketRx
  extract_lets _ _ _ _ _
  refine .ite h.next ?_
  refine .ite h.bump.next ?_
  split
  · exact h.next
  · extract_lets _ s1
    have h1 : Evolves False s s1 := h.frameStart
    refine .ite h1.receivePacket.next ?_
    refine .ite h.frameEnd.receivePacket.startH1.next ?_
    split
    · next e8 => exact (h.charge.of_fst e8).setSens.next
    · next e11 =>
        extract_lets s2
        have h2 : Evolves False s s2 := (h.charge.of_fst e11).setSens.ite ((h.charge.of_fst e11).setSens.ite (h.charge.of_fst e11))
        exact h2.receivePacket.next

theorem packetFrame {i stamp payload} (h : Evolves False s x) : Evolves False s (x.packetFrame i stamp payload) := by
  unfold State.packetFrame
  extract_lets ctr t frozen u
  have ht : Evolves False s t := h.pairFrame
  have hu : Evolves False s u := ht.bump.ite ht
  exact hu.goodFrame.setSens.markFrame

theorem ethPacket {port f i} (h : Evolves False s x) : Evolves False s (x.ethPacket port f i) := h.receivePacket

theorem execEthFrameRx {port f} (h : Evolves False s x) : Advances s (execEthFrameRx port f x) := by
  unfold Machine.execEthFrameRx
  extract_lets _
  refine .ite h.next ?_
  refine .ite ?_ ?_
  · split
    · exact h.next
    · split
      · next e8 => exact (h.charge.of_fst e8).next
      · next e11 => exact (h.charge.of_fst e11).ethPacket.next
  · split
    · exact h.ethPacket.next
    · split
      · next e19 => exact (h.charge.of_fst e19).next
      · next e22 => exact (h.charge.of_fst e22).packetFrame.ethPacket.next

theorem execCanFrameRx {chan f} (h : Evolves False s x) : Advances s (execCanFrameRx chan f x) := by
  unfold Machine.execCanFrameRx
  extract_lets _ _ s1 _
  have h2 : Evolves False s s1 := h.foldl fun _ _ h1 => h1.setIngest.ite h1
  refine .ite h.next ?_
  split
  · exact h2.bump.next
  · split
    · next e8 => exact (h2.charge.of_fst e8).next
    · next e11 => exact (h2.charge.of_fst e11).packetFrame.receivePacket.next

theorem execDataReadyEdge {port d} (h : Evolves False s x) : Advances s (execDataReadyEdge port d x) := by
  unfold Machine.execDataReadyEdge
  extract_lets _ _ s1 _
  have h2 : Evolves False s s1 := by
    unfold s1
    refine .ite ?_ h
    refine Evolves.foldl h (fun _ _ h1 => ?_)
    refine .ite ?_ h1
    refine .ite ?_ h1.setIngest
    split
    · exact h1.identityRead
    · exact h1
  refine .ite h.next ?_
  split
  · split
    · next e13 => exact (h2.charge.of_fst e13).next
    · next e16 => exact (h2.charge.of_fst e16).packetFrame.receivePacket.next
  · exact h2.next

theorem sensorLinkDown {k} (h : Evolves False s x) : Evolves False s (x.sensorLinkDown k) :=
  (h.closeOpen.wr.wr.wr.setFnQuiet.ite h.closeOpen.wr.wr.wr).sensorsAbsent

theorem execIngestLinkDown {link} (h : Evolves False s x) : Advances s (execIngestLinkDown link x) := h.sensorLinkDown.next

theorem execIngSwap (h : Evolves False s x) : Advances s (execIngSwap x) := .ite h.next h.wr.next

theorem swapSensors (h : Evolves False s x) : Evolves False s x.swapSensors := (h.wr.foldl fun _ _ h1 => h1.ite h1.setIngest).discoverAll

theorem spqWrite {q word value} (h : Evolves False s x) : Evolves False s (x.spqWrite q word value) :=
  (h.wr.wr.wr.ite h.wr.wr.wr.emptyQueue).ite h.wr

theorem execSpqCtrlWrite {queue word value} (h : Evolves False s x) : Advances s (execSpqCtrlWrite queue word value x) :=
  .ite h.spqWrite.next h.next

theorem upsetPointer {q} (h : Evolves False s x) : Evolves False s (x.upsetPointer q) := h.setQueue

theorem popWord {q codeBad} (h : Evolves False s x) : Evolves False s (x.popWord q codeBad).2 := by
  unfold State.popWord
  extract_lets s1 _ _ _
  have h1 : Evolves False s s1 := h.access
  split
  · exact h1
  · exact (h1.bump.ite h1).setQueue.showQueue

theorem execQueueRead {queue codeBad upset} (h : Evolves False s x) : Advances s (execQueueRead queue codeBad upset x) := by
  unfold Machine.execQueueRead
  extract_lets _ s1
  have h1 : Evolves False s s1 := h.upsetPointer.ite h
  refine .ite h1.next ?_
  split
  · next e3 => exact (h1.popWord.of_snd e3).next
  · next e7 => exact (h1.popWord.of_snd e7).setQueue.next

theorem showWord {q i} (h : Evolves False s x) : Evolves False s (x.showWord q i) := h.wr.foldl fun _ _ h1 => h1.wr

theorem spqPop {q codeBad upset} (h : Evolves False s x) : Evolves False s (x.spqPop q codeBad upset) := by
  unfold State.spqPop
  extract_lets s1
  have h1 : Evolves False s s1 := h.upsetPointer.ite h
  refine Evolves.ite h1.wr ?_
  split
  · next e3 => exact (h1.popWord.of_snd e3).wr
  · next e7 => exact (h1.popWord.of_snd e7).showWord

theorem execSpqPop {queue codeBad upset} (h : Evolves False s x) : Advances s (execSpqPop queue codeBad upset x) := .ite h.next h.spqPop.next

/-! ### Sys2Proof/Machine/HatchCore.lean -/

theorem openEpoch {no start} (h : Evolves False s x) : Evolves False s (x.openEpoch no start) := h.ite h.setEpochs

theorem watchdogFail {k late} (h : Evolves False s x) : Evolves False s (x.watchdogFail k late) :=
  h.modEpoch.raise.violate.modEpoch.ite h.modEpoch.raise.violate

theorem execHatchWatchdog {stage late} (h : Evolves False s x) : Advances s (execHatchWatchdog stage late x) := by
  unfold Machine.execHatchWatchdog
  extract_lets _ _
  refine .ite ?_ (.ite h.upd.watchdogFail.next h.next)
  split
  · exact .ite h.upd.watchdogFail.next h.next
  · exact h.next

theorem closeInput {n} (h : Evolves False s x) : Evolves False s (x.closeInput n) := h.modEpoch.stageDone.startStage

theorem execHatchInputClose (h : Evolves False s x) : Advances s (execHatchInputClose x) := by
  unfold Machine.execHatchInputClose
  split
  · exact h.next
  · exact .ite h.closeInput.next h.next

theorem stepEpoch (h : Evolves False s x) : Evolves False s x.stepEpoch := by
  unfold State.stepEpoch
  split
  · exact h
  · exact h.modEpoch.modEpoch.closeInput.ite h.modEpoch

/-! ### Sys2Proof/Machine/HatchCamera.lean -/

theorem placeImage {dst l} (h : Evolves False s x) : Evolves False s (x.placeImage dst l) := by
  unfold State.placeImage
  refine Evolves.ite (h.bump.ite (h.upd.bootWrite.ite h.upd)) ?_
  split
  · exact h.store.ite h.bump
  · exact h.bump

theorem takeFrame {q a1 a2} (h : Evolves False s x) : EvolvesOpt False s (·.2) (State.takeFrame q a1 a2 x) := by
  induction a1 generalizing a2 x with
  | zero => exact .none
  | succ _ ih =>
    rw [State.takeFrame]
    split
    · exact .none
    · next e7 => exact .ite (.some (h.dequeue _ e7)) (ih (h.dequeue _ e7))

theorem writeImage {b i t frame epoch valid lines} (h : Evolves False s x) : Evolves False s (x.writeImage b i t frame epoch valid lines) :=
  h.upd.placeImage.upd.placeImage.ite h.upd.placeImage

theorem cameraFrame {i l} (h : Evolves False s x) : Evolves False s (x.cameraFrame i l) := by
  unfold State.cameraFrame
  extract_lets _ _ _ _ _ _ _ _ _ _ s1 _ _ s2 _ _ _ s4 _
  have h1 : Evolves False s s1 := h.bump.ite h
  have h2 : Evolves False s s2 := h1.endFrame.ite h1
  have h3 : Evolves False s s4 := h2.upd.acceptPlanes
  split
  · exact h3.ite h3.writeImage
  · exact h3

theorem execH1FrameDone {port} (h : Evolves False s x) : Advances s (execH1FrameDone port x) := by
  unfold Machine.execH1FrameDone
  extract_lets _
  split
  · exact h.next
  · next e6 => exact .ite (EvolvesOpt.ite h.takeFrame .none _ e6).upd.cameraFrame.stageDone.startH1.next h.next

/-! ### Sys2Proof/Machine/HatchLidar.lean -/

theorem setSweep {p' x'} (h : Evolves False s x) : Evolves False s (x.setSweep p' x') := h.upd

theorem closeSweep {p' i} (h : Evolves False s x) : Evolves False s (x.closeSweep p' i) := by
  unfold State.closeSweep
  extract_lets _
  split
  · exact h
  · extract_lets s1 _ s3 _ s4 _ _ _
    have h1 : Evolves False s s1 := h.setSweep.startStage
    have h2 : Evolves False s s3 := (h1.bump.ite h1).goodFrame
    have h3 : Evolves False s s4 := h2.bump.ite h2
    split
    · exact h3
    · exact h3.ite h3.endFrame.modEpoch

theorem openSweep {p' i cap payload} (h : Evolves False s x) : Evolves False s (x.openSweep p' i cap payload) := h.ite h.pairFrame.setSens.setSweep

theorem addPoint {p' q} (h : Evolves False s x) : Evolves False s (x.addPoint p' q) := (h.modEpoch.ite h.modEpoch.bump).setSweep

theorem seqCheck {p' t payload} (h : Evolves False s x) : Evolves False s (x.seqCheck p' t payload) := by
  unfold State.seqCheck
  split
  · exact h.ite (h.bump.ite h).setSweep
  · exact h

theorem addPoints {p i f payload stamp n k t l} (h : Evolves False s x) : Evolves False s (State.addPoints p i f payload stamp n k t l x) := by
  induction k generalizing x t l with
  | zero => exact h
  | succ k ih =>
    cases l with
    | nil => exact h
    | cons q r =>
      rw [State.addPoints]
      exact ((ih h.closeSweep.openSweep.addPoint).ite (ih h.closeSweep.openSweep)).ite (ih h.addPoint)

theorem decodeInto {p' i f t payload stamp} (h : Evolves False s x) : Evolves False s (x.decodeInto p' i f t payload stamp) := by
  unfold State.decodeInto
  extract_lets _ s1 _ _ _ _ _ _ _ s4
  have h1 : Evolves False s s1 := h.openSweep
  have h2 : Evolves False s s4 := h1.upd.bump.addPoints
  split
  · split
    · exact h2.modEpoch
    · exact h2
  · exact h2

theorem lidarPacket {p' i l stamp} (h : Evolves False s x) : Evolves False s (x.lidarPacket p' i l stamp) := by
  unfold State.lidarPacket
  extract_lets _ _ _
  refine Evolves.ite h ?_
  split
  · exact h
  · split
    · exact h.bump
    · extract_lets s1
      have h1 : Evolves False s s1 := h.setSweep
      split
      · exact h1
      · exact h1.seqCheck.decodeInto
      · exact h1.seqCheck.decodeInto.closeSweep
      · exact h1.openSweep.closeSweep
      · exact h1.bump

theorem execH2PacketDecode {port} (h : Evolves False s x) : Advances s (execH2PacketDecode port x) := by
  unfold Machine.execH2PacketDecode
  extract_lets _
  refine .ite h.next ?_
  split
  · exact h.next
  · next e7 => exact .ite (h.dequeue _ e7).stageDone.next (h.dequeue _ e7).stageDone.lidarPacket.next

/-! ### Sys2Proof/Machine/Array.lean -/

theorem showCore {p' c} (h : Evolves calm s x) : Evolves calm s (x.showCore p' c) := h.wr.wr.wr

theorem breakResv {p' ofs n keep} (h : Evolves calm s x) : Evolves calm s (x.breakResv p' ofs n keep) :=
  h.trans { refl (calm := calm) x with quiet := fun _ k => (x.breakResv_failurePending p' ofs n keep k).mp }

theorem plateStore {p' ofs l keep} (h : Evolves calm s x) : Evolves calm s (x.plateStore p' ofs l keep) := h.store.breakResv

theorem setArr {p' x'} (h : Evolves calm s x) : Evolves calm s (x.setArr p' x') := h.setPlate

theorem setM {p' c n v} (h : Evolves calm s x) : Evolves calm s (x.setM p' c n v) := h.upd

theorem enterM {p' c cause tval} (h : Evolves calm s x) : Evolves calm s (x.enterM p' c cause tval) := by
  unfold State.enterM
  extract_lets k st t
  have ht : Evolves calm s t := h.setM.setM.setM.setM
  have hcore : t.core p' c = k := by simp only [t, k, State.core_setM]
  clear_value k st t
  refine (ht.setCore fun _ hk => ?_).showCore
  rw [State.failurePending_iff, hcore]
  exact hk

theorem leaveM {p' c} (h : Evolves calm s x) : Evolves calm s (x.leaveM p' c) := by
  unfold State.leaveM
  extract_lets st t
  have ht : Evolves calm s t := h.setM
  clear_value st t
  refine (ht.setCore fun _ hk => ?_).showCore
  rw [State.failurePending_iff]
  exact hk

theorem trap {p' c cause tval} (h : Evolves False s x) : Evolves False s (x.trap p' c cause tval) := by
  unfold State.trap
  split
  · exact h
  · exact h.enterM.ite h.setM.setM.setM.wr.wr.stopLaunch.finishQuiet

theorem retire {p' c k len} (h : Evolves False s x) : Evolves False s (x.retire p' c k len) := (h.bump.ite h).setCore.bump.showCore

theorem holdCore {p' c h'} (h : Evolves False s x) : Evolves False s (x.holdCore p' c h') := h.setCore.bump.showCore

theorem issue {p' c len held} (h : Evolves False s x) : Evolves False s (x.issue p' c len held).1 := by
  unfold State.issue
  extract_lets _ _ _ _ _
  split
  · exact h
  · refine Evolves.ite_fst h ?_
    refine Evolves.ite_fst h.enterM ?_
    refine Evolves.ite_fst h ?_
    refine Evolves.ite_fst h ?_
    refine Evolves.foldl_fst h (fun _ _ h1 => ?_)
    refine Evolves.ite_fst h1 ?_
    refine Evolves.ite_fst h1 ?_
    split
    · next e10 => exact h1.translateOn.of_fst e10
    · next e14 => exact (h1.translateOn.of_fst e14).ite_fst (h1.translateOn.of_fst e14).wr.wr.chanFault

theorem execXnBurin {plate core rd rs1} (h : Evolves False s x) : Advances s (execXnBurin plate core rd rs1 x) := by
  unfold Machine.execXnBurin
  extract_lets _ _
  split
  · next e3 => exact (h.issue.of_fst e3).next
  · next e6 =>
      extract_lets _ _ _
      split
      · exact (h.issue.of_fst e6).trap.next
      · exact .ite (h.issue.of_fst e6).holdCore.next (.ite (h.issue.of_fst e6).bump.trap.next (h.issue.of_fst e6).setPlate.showPlate.retire.next)

theorem arrFault {p' core x'} (h : Evolves False s x) : Evolves False s (x.arrFault p' core x') := h.wr.wr.wr.wr.setCore.setArr

theorem arrErr {p' cause stripe q} (h : Evolves False s x) : Evolves False s (x.arrErr p' cause stripe q) := h.arrFault

theorem arrParity {p' upset bad q ofs} (h : Evolves False s x) : Evolves False s (x.arrParity p' upset bad q ofs) := h.ite h.arrErr.bump.sramDetect

theorem burinDone {p' q j} (h : Evolves False s x) : Evolves False s (x.burinDone p' q j) := h.setArr.showPlate.signal.ite h.setArr.showPlate

theorem proofRecord {p' c ops} (h : Evolves False s x) : Evolves False s (x.proofRecord p' c ops) := by
  unfold State.proofRecord
  extract_lets _
  split
  · exact h
  · exact h.ite (h.setPlate.bump.ite h.setPlate)

theorem tileBegin {p' q j} (h : Evolves False s x) : Evolves False s (x.tileBegin p' q j) := by
  unfold State.tileBegin
  extract_lets _ s1 _ _
  have h1 : Evolves False s s1 := h.setArr
  refine Evolves.ite h1.setPlate ?_
  split
  · exact h1
  · exact h1.setPlate

theorem execLoadw {plate upset} (h : Evolves False s x) : Advances s (execLoadw plate upset x) := by
  unfold Machine.execLoadw
  extract_lets _
  split
  · exact h.next
  · exact h.setArr.proofRecord.arrParity.burinDone.next

theorem execLoadc {plate upset} (h : Evolves False s x) : Advances s (execLoadc plate upset x) := by
  unfold Machine.execLoadc
  extract_lets _
  split
  · exact h.next
  · exact h.setArr.proofRecord.arrParity.burinDone.next

theorem execBurinNop {plate} (h : Evolves False s x) : Advances s (execBurinNop plate x) := by
  unfold Machine.execBurinNop
  split
  · exact h.next
  · exact h.burinDone.next

theorem idxErrors {p' n q} (h : Evolves False s x) : Evolves False s (x.idxErrors p' n q) := h.ite h.arrErr.bump

theorem saturated {p' n j} (h : Evolves False s x) : Evolves False s (x.saturated p' n j) := h.bump.ite h.bump.addFlag

theorem execMatmul {plate upset} (h : Evolves False s x) : Advances s (execMatmul plate upset x) := by
  unfold Machine.execMatmul
  extract_lets _
  split
  · exact h.next
  · extract_lets _ _ _ _ s1 _ s3
    have h1 : Evolves False s s1 := h.setArr
    have h2 : Evolves False s s3 := (h1.tileBegin.ite h1).proofRecord
    exact .ite h.bump.next (.ite h.burinDone.next h2.setArr.bump.saturated.idxErrors.arrParity.burinDone.next)

theorem drainRow {p' c vals o} (h : Evolves False s x) : Evolves False s (x.drainRow p' c vals o).1 :=
  (h.foldl_fst fun _ _ h1 => h1.plateStore).ite_fst h.plateStore

theorem proofClose {p' tag crc} (h : Evolves False s x) : Evolves False s (x.proofClose p' tag crc) := by
  unfold State.proofClose
  extract_lets _
  split
  · exact h
  · exact h.ite h.setPlate

theorem drainOne {p' c sb d m} (h : Evolves False s x) : Evolves False s (x.drainOne p' c sb d m).1 := by
  unfold State.drainOne
  extract_lets _ _
  split
  · exact h
  · exact h.setArr.drainRow

theorem execDrain {plate upset} (h : Evolves False s x) : Advances s (execDrain plate upset x) := by
  unfold Machine.execDrain
  extract_lets _
  split
  · exact h.next
  · extract_lets _ _ _ s1 _
    have h1 : Evolves False s s1 := h.setArr.proofRecord
    split
    · next e10 =>
        extract_lets _ s3 s4 _ _ _
        have h4 : Evolves False s s3 := ((h1.foldl_fst fun _ _ h3 => h3.drainOne).of_fst e10).bump.saturated.idxErrors.arrParity
        have h5 : Evolves False s s4 := h4.proofClose
        exact (h5.setArr.ite h4).burinDone.next

/-! ### Sys2Proof/Machine/Cache.lean -/

theorem setKv {ci c} (h : Evolves False s x) : Evolves False s (x.setKv ci c) := h.upd

theorem kvPut {ci t va l} (h : Evolves calm s x) : EvolvesOpt calm s id (x.kvPut ci t va l) := by
  unfold State.kvPut
  split
  · exact .none
  · exact .some h.vwrite

theorem setTab {ci t ofs n v} (h : Evolves calm s x) : EvolvesOpt calm s id (x.setTab ci t ofs n v) := h.kvPut

theorem trcCount {f ci t a b} (h : Evolves calm s x) : Evolves calm s (x.trcCount f ci t a b) := h.wr

theorem setSeq {ci q st} (h : Evolves calm s x) : EvolvesOpt calm s id (x.setSeq ci q st) :=
  .bind_val fun _ => .bind h.setTab fun _ h1 => .pure h1.trcCount

theorem setPageEntry {ci q l p' v} (h : Evolves False s x) : EvolvesOpt False s id (x.setPageEntry ci q l p' v) := h.setTab

theorem setSlot {ci n count st} (h : Evolves calm s x) : EvolvesOpt calm s id (x.setSlot ci n count st) :=
  .bind_val fun _ => .bind h.setTab fun _ h1 => .pure h1.trcCount.trcCount

theorem stPut {ci q l o x'} (h : Evolves calm s x) : EvolvesOpt calm s id (x.stPut ci q l o x') := .ite h.kvPut (.some h.store)

theorem putHeader {ci q l flushed fill scales} (h : Evolves False s x) : EvolvesOpt False s id (x.putHeader ci q l flushed fill scales) := h.stPut

theorem openBuffer {ci q l flushed} (h : Evolves False s x) : EvolvesOpt False s id (x.openBuffer ci q l flushed) := .bind_val fun _ => h.putHeader

theorem dropPages {ci q l lo} (h : Evolves False s x) : Evolves False s (x.dropPages ci q l lo) := h.dropLabs

theorem dropSeqLabs {ci q} (h : Evolves calm s x) : Evolves calm s (x.dropSeqLabs ci q) := h.dropLabs

theorem quarantine {ci n} (h : Evolves False s x) : EvolvesOpt False s id (x.quarantine ci n) :=
  .bind h.setSlot fun _ h1 => .pure h1.setKv.setTracer

theorem dropRef {ci n} (h : Evolves False s x) : EvolvesOpt False s id (x.dropRef ci n) :=
  .bind_val fun _ => .bind_val fun _ => .ite h.quarantine h.setSlot

theorem dropEntry {ci e'} (h : Evolves False s x) : EvolvesOpt False s id (x.dropEntry ci e') := .ite (.some h) (.ite (.some h.kvSend) h.dropRef)

theorem invalidate {ci q} (h : Evolves calm s x) : EvolvesOpt calm s id (x.invalidate ci q) :=
  .bind_val fun _ => .ite (.bind h.setSeq fun _ h1 => .pure h1.dropSeqLabs) (.pure h)

theorem poisonSlot {ci n} (h : Evolves calm s x) : EvolvesOpt calm s id (x.poisonSlot ci n) :=
  .bind_val fun _ => .bind_val fun _ => .ite (.pure h) (.bind h.setSlot fun _ h1 => .pure h1.bump)

theorem pageDetected {ci q slot} (h : Evolves calm s x) : EvolvesOpt calm s id (x.pageDetected ci q slot) := by
  unfold State.pageDetected
  refine .bind h.invalidate (fun _ h1 => ?_)
  split
  · exact h1.poisonSlot
  · exact .pure h1

theorem evict {ci q l flushed} (h : Evolves False s x) : EvolvesOpt False s id (x.evict ci q l flushed) := by
  unfold State.evict
  refine .bind_val (fun _ => ?_)
  refine .bind_val (fun _ => ?_)
  refine .ite (.pure h) ?_
  refine .bind_val (fun _ => ?_)
  split
  · exact .pure h
  · exact .bind_val fun _ => .bind h.dropLabs.setPageEntry fun _ h1 => .bind h1.dropEntry fun _ h2 => .pure h2.bump

theorem flush {ci q l} (h : Evolves False s x) : EvolvesOpt False s (·.1) (x.flush ci q l) := by
  unfold State.flush
  extract_lets _ _ s1
  have h1 : Evolves False s s1 := h.usedFree
  refine .bind_val (fun _ => ?_)
  refine .bind_val (fun _ => ?_)
  split
  · exact .pure h.setKv
  · exact .ite (.pure h) (.bind_val fun _ => .bind_val fun _ => .bind h1.dropPages.kvPut fun _ h2 => .bind h2.setSlot fun _ h3 => .bind h3.kvPut fun _ h4 => .bind h4.setPageEntry fun _ h5 => .bind h5.setTab fun _ h6 => .bind h6.openBuffer fun _ h7 => .bind h7.setKv.bump.evict fun _ h8 => .pure h8)

theorem kvResult {t r} (h : Evolves False s x) (hk0 : EvolvesOpt False s id r) : Evolves False s (x.kvResult t r) := by
  unfold State.kvResult
  split
  · exact hk0 _ rfl
  · exact h.contain

theorem trcDone {cmd status value} (h : Evolves False s x) : Evolves False s (x.trcDone cmd status value) := (h.storeNum.ite h).signal

theorem launchFailed {plate q} (h : Evolves calm s x) : Evolves calm s (x.launchFailed plate q) := by
  unfold State.launchFailed
  split
  · exact h
  · exact h.upd

theorem tracerRun {t mine run} (h : Evolves False s x) (hk : ∀ t a1 a2 a3 a4, Evolves False s t → EvolvesOpt False s (·.1) (run t a1 a2 a3 a4)) : Advances s (x.tracerRun t mine run) := by
  unfold State.tracerRun
  split
  · exact h.next
  · refine .ite h.next ?_
    extract_lets _ y
    have hy : Evolves False s y := h.setTracer
    split
    · exact hy.bump.next
    · refine .ite hy.trcDone.next ?_
      split
      · exact hy.contain.next
      · refine .ite hy.trcDone.next (.ite ?_ ?_)
        · exact (hy.kvResult (hy.pageDetected.map fun _ ht => ht.launchFailed.trcDone)).next
        · split
          · exact hy.contain.next
          · next e' => 
            have hu := hk _ _ _ _ _ hy _ e'
            exact (hu.launchFailed.ite hu).trcDone.next

theorem commitRun {cmd ci q l} (h : Evolves False s x) : EvolvesOpt False s (·.1) (commitRun x cmd ci q l) :=
  .bind_val fun _ => .bind_val fun _ => .ite (.pure h) (.ite (.pure h) (.ite (.pure h) (.bind h.stPut fun _ h1 => .ite (.ite (.bind h1.pageDetected fun _ h2 => .pure h2) (.bind h1.flush fun _ h3 => .pure h3)) (.pure h1))))

theorem execTrcCommit {tracer} (h : Evolves False s x) : Advances s (execTrcCommit tracer x) := h.tracerRun fun _ _ _ _ _ h1 => h1.commitRun

theorem scoreRun {cmd ci q l} (h : Evolves False s x) : EvolvesOpt False s (·.1) (scoreRun x cmd ci q l) :=
  .bind (.foldlM h fun _ _ h1 => .ite (.pure h1) (.bind_val fun _ => .ite (.pure h1) (.bind_val fun _ => .bind_val fun _ => h1.setTab))) fun _ h2 => .pure h2

theorem execTrcScore {tracer} (h : Evolves False s x) : Advances s (execTrcScore tracer x) := h.tracerRun fun _ _ _ _ _ h1 => h1.scoreRun

theorem mapRun {cmd ci q l} (h : Evolves False s x) : EvolvesOpt False s (·.1) (mapRun x cmd ci q l) :=
  .bind (.foldlM h fun _ _ h1 => .bind_val fun _ => .pure h1.store) fun _ h2 => .pure h2

theorem execTrcMap {tracer} (h : Evolves False s x) : Advances s (execTrcMap tracer x) := h.tracerRun fun _ _ _ _ _ h1 => h1.mapRun

theorem execDeferredFlush {tracer cache seq layer} (h : Evolves False s x) : Advances s (execDeferredFlush tracer cache seq layer x) :=
  .ite (h.kvResult (h.flush.map fun _ h1 => h1)).next h.next

theorem portWrite {t chan ofs l} (h : Evolves calm s x) : Evolves calm s (x.portWrite t chan ofs l) := h.bump.ite h.setTracer

theorem walkPage {ci q l p'} (h : Evolves calm s x) : EvolvesOpt calm s (·.1) (x.walkPage ci q l p') :=
  .bind_val fun _ => .ite (.pure h) (.ite (.bind h.pageDetected fun _ h1 => .pure h1) (.bind_val fun _ => .ite (.pure h) (.ite (.pure h) (.bind_val fun _ => .ite (.pure h) (.ite (.ite (.pure h) (.bind h.invalidate fun _ h2 => .pure h2)) (.bind_val fun _ => .ite (.bind h.invalidate fun _ h3 => .pure h3) (.pure h)))))))

theorem labWalk {plate ci q l p'} (h : Evolves calm s x) : EvolvesOpt calm s (·.1) (x.labWalk plate ci q l p') := by
  unfold State.labWalk
  extract_lets _ _ s2
  have h1 : Evolves calm s s2 := h.bump.bump.ite h.bump
  refine .bind_val (fun _ => ?_)
  extract_lets _
  refine .bind (h1.launchFailed.ite h1).usedFree.walkPage (fun _ h2 => ?_)
  split
  · extract_lets _ _ _ _ s5 s6
    have h3 : Evolves calm s s5 := h2.pin.upd
    have h4 : Evolves calm s s6 := by
      unfold s6
      split
      · exact h3.kvSend
      · exact h3
    exact .pure (h4.foldl fun _ _ h5 => h5.releaseLab)

theorem labFind {plate ci q l p'} (h : Evolves calm s x) : EvolvesOpt calm s (·.1) (x.labFind plate ci q l p') := by
  unfold State.labFind
  extract_lets _
  split
  · exact .some h.upd
  · exact h.labWalk

theorem kvDetected {plate ci q m} (h : Evolves calm s x) : EvolvesOpt calm s id (x.kvDetected plate ci q m) :=
  .bind h.pageDetected fun _ h1 => .pure h1.launchFailed

theorem execLabMissWalk {plate cache seq layer page det} (h : Evolves False s x) : Advances s (execLabMissWalk plate cache seq layer page det x) :=
  .ite h.next (h.kvResult (.bind h.labWalk fun _ h1 => .ite h1.kvDetected (.pure h1))).next

theorem usedRemote {plate m} (h : Evolves calm s x) : Evolves calm s (x.usedRemote plate m) := by
  unfold State.usedRemote
  split
  · exact h
  · exact h.upd

theorem labRead {plate ci q l m b n} (h : Evolves calm s x) : EvolvesOpt calm s (·.1) (x.labRead plate ci q l m b n) := by
  unfold State.labRead
  extract_lets _
  split
  · exact .pure h
  · exact .pure h.usedRemote
  · exact .ite (.bind h.kvDetected fun _ h1 => .pure h1) (.bind_val fun _ => .pure h)
  · exact .ite (.bind h.kvDetected fun _ h2 => .pure h2) (.bind_val fun _ => .pure h)

theorem winReadLoop {plate ci a2 a4 a5 a6} (h : Evolves calm s x) : EvolvesOpt calm s (·.1) (State.winReadLoop plate ci a2 x a4 a5 a6) := by
  induction a2 generalizing x a4 a5 a6 with
  | zero => exact .some h
  | succ _ ih => exact .ite (.some h) (.ite (ih h) (.bind h.labFind fun _ h1 => .bind h1.labRead fun _ h2 => ih h2))

theorem winRead {plate ci va n} (h : Evolves calm s x) : EvolvesOpt calm s (·.1) (x.winRead plate ci va n) := h.winReadLoop

theorem winWrite {plate ci va l} (h : Evolves calm s x) : EvolvesOpt calm s (·.1) (x.winWrite plate ci va l) := by
  unfold State.winWrite
  extract_lets _
  split
  · refine .ite (.pure h) ?_
    refine .bind h.labFind (fun _ h1 => ?_)
    split
    · split
      · exact .bind_val fun _ => .bind h1.stPut fun _ h2 => .pure h2
      · exact .pure h1

theorem execSlotRelease {tracer cache slot} (h : Evolves False s x) : Advances s (execSlotRelease tracer cache slot x) := by
  unfold Machine.execSlotRelease
  extract_lets _ _ _
  split
  · exact h.next
  · exact .ite h.next (h.kvResult (.bind_val fun _ => .ite (.pure h) (.bind h.setSlot fun _ h1 => .pure h1.setKv.bump))).next

theorem trcSet {f ci v} (h : Evolves False s x) : Evolves False s (x.trcSet f ci v) := h.wr.wr

theorem kvClear {ci a2 a3 a4} (h : Evolves False s x) : EvolvesOpt False s id (x.kvClear ci a2 a3 a4) := by
  induction a2 generalizing x a3 a4 with
  | zero => exact .some h
  | succ _ ih => exact .ite (.some h) (.bind h.kvPut fun _ h1 => ih h1)

theorem cacheOp {job op run} (h : Evolves False s x) (hk0 : ∀ t a1 a2, Evolves False s t → Advances s (run t a1 a2)) : Advances s (x.cacheOp job op run) := by
  unfold State.cacheOp
  split
  · exact h.next
  · exact .ite h.refuse.next (.ite h.refuse.next (.ite h.refuse.next (.ite h.next (hk0 _ _ _ h))))

theorem cacheDone {j t r} (h : Evolves False s x) (hk0 : EvolvesOpt False s (·.1) r) : Advances s (x.cacheDone j t r) := by
  unfold State.cacheDone
  split
  · exact h.contain.next
  · exact (hk0 _ rfl).finish.next

theorem execCacheRegister {job} (h : Evolves False s x) : Advances s (execCacheRegister job x) := by
  unfold Machine.execCacheRegister
  split
  · exact h.next
  · extract_lets _ _ _
    refine .ite h.finishOk.next ?_
    refine .ite h.refuse.next ?_
    refine .ite h.refuse.next ?_
    split
    · exact h.contain.next
    · next e10 => exact (h.setKv.kvClear _ e10).trcSet.trcSet.trcSet.trcSet.finishOk.next

theorem execCacheUnregister {job} (h : Evolves False s x) : Advances s (execCacheUnregister job x) := by
  unfold Machine.execCacheUnregister
  refine Evolves.cacheOp h (fun _ _ _ h1 => ?_)
  extract_lets _ _ _
  split
  · exact h1.contain.next
  · exact h1.refuse.next
  · exact .ite h1.refuse.next h1.upd.dropLabs.trcSet.trcSet.finishOk.next

theorem execCacheCreate {job} (h : Evolves False s x) : Advances s (execCacheCreate job x) := by
  unfold Machine.execCacheCreate
  refine Evolves.cacheOp h (fun _ _ _ h1 => ?_)
  extract_lets _ _ _
  refine .ite h1.refuse.next ?_
  split
  · exact h1.contain.next
  · refine .ite h1.refuse.next ?_
    split
    · exact h1.refuse.next
    · exact h1.cacheDone (.bind h1.dropSeqLabs.setKv.setSeq fun _ h2 => .bind h2.setTab fun _ h3 => .bind (.foldlM h3 fun _ _ h4 => h4.openBuffer) fun _ h5 => .pure h5)

theorem readingPages {j ci q pages run} (h : Evolves False s x) (hk0 : Advances s run) : Advances s (x.readingPages j ci q pages run) := by
  unfold State.readingPages
  split
  · exact h.contain.next
  · split
    · exact hk0
    · split
      · exact h.contain.next
      · next e15 => exact (h.pageDetected _ e15).finish.next

theorem fillFrom {ci q l flushed r page scales} (h : Evolves False s x) : EvolvesOpt False s id (x.fillFrom ci q l flushed r page scales) :=
  .bind_val fun _ => .bind h.putHeader fun _ h1 => .bind h1.stPut fun _ h2 => .pure h2.bump

theorem forkLayer {ci q par len l} {p} (h : Evolves False s p.1) : EvolvesOpt False s (·.1) (State.forkLayer ci q par len p l) :=
  .bind (.foldlM h fun _ _ h1 => .bind_val fun _ => .bind_val fun _ => .bind h1.setPageEntry fun _ h2 => .bind h2.setTab fun _ h3 => .ite (.pure h3) (.ite (.pure h3.kvSend) (.bind_val fun _ => .bind_val fun _ => .bind h3.setSlot fun _ h4 => .pure h4))) fun _ h5 => .ite (.bind h5.openBuffer fun _ h6 => .pure h6) (.bind_val fun _ => .bind h5.fillFrom fun _ h7 => .pure h7)

theorem execCacheFork {job} (h : Evolves False s x) : Advances s (execCacheFork job x) := by
  unfold Machine.execCacheFork
  refine Evolves.cacheOp h (fun _ _ _ h1 => ?_)
  extract_lets _ _ _ _ _
  refine .ite h1.refuse.next ?_
  refine .ite h1.finishOk.next ?_
  split
  · extract_lets _
    refine .ite h1.refuse.next ?_
    refine .ite h1.refuse.next ?_
    refine .ite h1.refuse.next ?_
    split
    · exact h1.refuse.next
    · exact h1.readingPages (h1.cacheDone (.bind h1.dropSeqLabs.setKv.setSeq fun _ h2 => .bind_val fun _ => .bind h2.setTab fun _ h3 => .foldlM h3 fun _ _ h4 => h4.forkLayer))
  · exact h1.contain.next

theorem truncateLayer {ci q l len} (h : Evolves False s x) : EvolvesOpt False s (·.1) (x.truncateLayer ci q l len) := by
  unfold State.truncateLayer
  refine .bind_val (fun _ => ?_)
  refine .bind_val (fun _ => ?_)
  extract_lets _ _ s1 _ s2 _
  have h1 : Evolves False s s1 := h.dropPages
  have h2 : Evolves False s s2 := h1.setKv
  refine .ite (.bind h2.stPut fun _ h3 => .pure h3) ?_
  refine .ite (.bind h2.openBuffer fun _ h4 => .foldlM h4 fun _ _ h5 => .bind_val fun _ => .bind h5.setPageEntry fun _ h6 => .bind h6.dropEntry fun _ h7 => .pure h7) ?_
  refine .bind_val (fun _ => ?_)
  split <;> exact .bind h2.fillFrom fun _ h8 => .foldlM h8 fun _ _ h9 => .bind_val fun _ => .bind h9.setPageEntry fun _ h10 => .bind h10.dropEntry fun _ h11 => .pure h11

theorem truncStep {ci q len l} {p} (h : Evolves False s p.1) : EvolvesOpt False s (·.1) (State.truncStep ci q len p l) :=
  .bind h.truncateLayer fun _ h1 => .pure h1

theorem execCacheTruncate {job} (h : Evolves False s x) : Advances s (execCacheTruncate job x) := by
  unfold Machine.execCacheTruncate
  refine Evolves.cacheOp h (fun _ _ _ h1 => ?_)
  extract_lets _ _ _
  refine .ite h1.finishOk.next ?_
  split
  · exact h1.contain.next
  · refine .ite h1.refuse.next ?_
    split
    · exact h1.contain.next
    · refine .ite h1.refuse.next ?_
      refine .ite h1.refuse.next ?_
      split
      · exact h1.contain.next
      · exact h1.readingPages (h1.cacheDone (.foldlM h1 fun _ _ h2 => h2.truncStep))

theorem freePage {ci q lp} {p} (h : Evolves False s p.1) : EvolvesOpt False s (·.1) (State.freePage ci q p lp) :=
  .bind_val fun _ => .ite (.pure h) (.bind h.setPageEntry fun _ h1 => .bind h1.dropEntry fun _ h2 => .pure h2)

theorem execCacheFree {job} (h : Evolves False s x) : Advances s (execCacheFree job x) := by
  unfold Machine.execCacheFree
  refine Evolves.cacheOp h (fun _ _ _ h1 => ?_)
  extract_lets _ _ _
  split
  · exact h1.contain.next
  · exact .ite h1.refuse.next (h1.cacheDone (.bind (.foldlM h1.dropSeqLabs fun _ _ h2 => h2.freePage) fun _ h3 => .bind h3.setSeq fun _ h4 => .pure h4.setKv))

theorem placePage {ci q m e'} {p} (h : Evolves False s p.1) : EvolvesOpt False s (·.1) (State.placePage ci q m p e') := by
  unfold State.placePage
  split <;> exact .bind_val fun _ => .bind_val fun _ => .bind h.dropLabs.kvSend.setKv.setPageEntry fun _ h1 => .bind h1.dropRef fun _ h2 => .pure h2

theorem placePages {j ci q m len remoteSlots} (h : Evolves False s x) : Advances s (x.placePages j ci q m len remoteSlots) := by
  unfold State.placePages
  split
  · exact h.contain.next
  · split
    · exact h.refuse.next
    · exact .ite h.refuse.next (h.readingPages (h.cacheDone (.foldlM h fun _ _ h1 => h1.placePage)))

theorem execCachePlace {job remoteSlots} (h : Evolves False s x) : Advances s (execCachePlace job remoteSlots x) := by
  unfold Machine.execCachePlace
  refine Evolves.cacheOp h (fun _ _ _ h1 => ?_)
  extract_lets _ _
  refine .ite h1.finishOk.next ?_
  split
  · exact h1.contain.next
  · refine .ite h1.refuse.next ?_
    split
    · exact h1.contain.next
    · exact .ite h1.refuse.next h1.placePages

theorem acceptPlaced {ci from' t data} (h : Evolves False s x) : EvolvesOpt False s id (x.acceptPlaced ci from' t data) := by
  unfold State.acceptPlaced
  extract_lets _
  refine .ite (.pure h) ?_
  refine .bind_val (fun _ => ?_)
  split
  · exact .pure h
  · exact .bind h.usedFree.kvPut fun _ h1 => .bind h1.setSlot fun _ h2 => .bind h2.kvPut fun _ h3 => .pure h3.upd

theorem unplaced {ci n} (h : Evolves False s x) : Evolves False s (x.unplaced ci n) := h.upd

theorem dropPlaced {ci n} (h : Evolves False s x) : EvolvesOpt False s id (x.dropPlaced ci n) := .bind_val fun _ => (h.unplaced.ite h).dropRef

theorem unpinRemote {m ci n} (h : Evolves False s x) : Evolves False s (x.unpinRemote m ci n) := by
  unfold State.unpinRemote
  split
  · exact h
  · exact h.upd.pin

theorem kvMessage {x'} (h : Evolves False s x) : EvolvesOpt False s id (x.kvMessage x') :=
  .ite h.acceptPlaced (.ite (.some h) (.ite (.some h.upd.pin) (.ite (.some h.unpinRemote) (.ite h.dropPlaced (.ite (.bind_val fun _ => .bind_val fun _ => h.setSlot) (.some h))))))

theorem kvIn {x'} (h : Evolves False s x) : Evolves False s (x.kvIn x') := h.kvResult h.kvMessage

theorem kvGone {m} (h : Evolves False s x) : Evolves False s (x.kvGone m) :=
  (h.foldl fun _ _ h1 => h1.unpinRemote).foldl fun _ _ h2 => h2.kvResult h2.unplaced.quarantine

/-! ### Sys2Proof/Machine/PlateDma.lean -/

theorem ddrGet {ch job ctx va pa n fails} (h : Evolves calm s x) : Evolves calm s (x.ddrGet ch job ctx va pa n fails).1 := by
  have flagged (id : Nat) (flag : Nat) (t : State) (ht : Evolves calm s t) : Evolves calm s (match job with | some id => t.addFlag id flag | none => t) := by
    split
    · exact ht.addFlag
    · exact ht
  unfold State.ddrGet
  extract_lets plain off bad used t u
  have hused (y : State) (hy : Evolves calm s y) : Evolves calm s (used y) := by
    unfold used
    dsimp only
    split
    · exact hy.bump.addFlag
    · exact hy.bump
  have ht : Evolves calm s t := (hused x h).ite h
  have hu : Evolves calm s u := ht.ddrDetect
  refine ite_fst ht (ite_fst ht.ddrDetect (ite_fst (hused u hu).bump ?_))
  split
  · split
    next v l f e =>
    have hv : Evolves calm s v := hu.vread.of_fst e
    extract_lets w
    have hw : Evolves calm s w := by
      unfold w
      split
      · exact hv.addFlag
      · exact hv
    exact hw.bump.ite_fst hw.bump
  · exact hu.bump

theorem execXnDmaq {plate core rd rs1} (h : Evolves False s x) : Advances s (execXnDmaq plate core rd rs1 x) := by
  unfold Machine.execXnDmaq
  extract_lets _ _
  split
  · next e6 _ =>
      extract_lets _ _
      split
      · exact (h.issue.of_fst e6).trap.next
      · exact .ite (h.issue.of_fst e6).holdCore.next (.ite (h.issue.of_fst e6).trap.next (h.issue.of_fst e6).setPlate.showPlate.retire.next)
  · next e17 _ => exact (h.issue.of_fst e17).next

theorem putSide {p' ctx dst l failed} (h : Evolves calm s x) : Evolves calm s (x.putSide p' ctx dst l failed).1 := by
  unfold State.putSide
  split
  · exact h.storeBad.breakResv.ite h.plateStore
  · exact h.storeBad.ite h.store
  · exact h.portWrite
  · exact h.evidenceWrite
  · exact h
  · split
    · split
      · next e => exact ite_fst (h.winWrite _ e) (h.winWrite _ e)
      · exact h.contain
    · split
      · next e => exact h.translateOn.of_fst e
      · next e =>
        have ht := h.translateOn.of_fst e
        split
        · exact ht.storeBad
        · exact ht.store

theorem movePiece {p' ctx job src dst n det} (h : Evolves calm s x) : Evolves calm s (x.movePiece p' ctx job src dst n det).1 := by
  unfold State.movePiece
  extract_lets _
  split
  · exact h.putSide
  · exact (h.sramDetect.ite h).putSide
  · exact (h.sramDetect.ite h).putSide
  · exact h.usedFree.putSide
  · exact h.putSide
  · split
    · split
      · next e => exact (h.winRead _ e).putSide
      · exact h.contain
    · split
      · next e => exact h.translateOn.of_fst e
      · next e =>
        have ht := h.translateOn.of_fst e
        extract_lets m
        split
        next e' => exact (ht.ddrGet.of_fst e').putSide

theorem moveRow {p' ctx job src dst len base det a8 a10} (h : Evolves calm s x) : Evolves calm s (State.moveRow p' ctx job src dst len base det a8 x a10).1 := by
  induction a8 generalizing x a10 with
  | zero => exact h
  | succ _ ih =>
    rw [State.moveRow]
    refine Evolves.ite_fst h ?_
    extract_lets _ _ _
    refine Evolves.ite_fst h ?_
    split
    · next e4 => exact (h.movePiece.of_fst e4).ite_fst (ih (h.movePiece.of_fst e4))
    · next e10 => exact h.movePiece.of_fst e10
    · next e16 => exact h.movePiece.of_fst e16

theorem dmaIdxErr {p' q} (h : Evolves False s x) : Evolves False s (x.dmaIdxErr p' q) := h.arrFault.bump

theorem moveRows {p' ctx job l q det stop a7 a9 a10} (h : Evolves False s x) : Evolves False s (State.moveRows p' ctx job l q det stop a7 x a9 a10).1 := by
  induction a7 generalizing x a9 a10 with
  | zero => exact h
  | succ _ ih =>
    rw [State.moveRows]
    refine Evolves.ite_fst h ?_
    split
    · extract_lets _ _
      split
      · next e10 => exact ((h.dmaIdxErr.ite h).moveRow.of_fst e10).ite_fst (ih ((h.dmaIdxErr.ite h).moveRow.of_fst e10))
      · next e16 => exact (h.dmaIdxErr.ite h).moveRow.of_fst e16

theorem fetchedFrom {p' q} (h : Evolves False s x) : Evolves False s (x.fetchedFrom p' q) := h.ite h.setPlate

theorem dmaDone {p' q j} (h : Evolves False s x) : Evolves False s (x.dmaDone p' q j) := by
  unfold State.dmaDone
  extract_lets _ _ _ _ s3 s4
  have h1 : Evolves False s s3 := h.setPlate.wr.wr.wr.fetchedFrom.showPlate
  have h2 : Evolves False s s4 := h1.wroteOut.ite h1
  exact h2.signal.ite h2

theorem runDma {p' mode det upTo} (h : Evolves False s x) : Advances s (x.runDma p' mode det upTo) := by
  unfold State.runDma
  split
  · exact h.next
  · dsimp only
    refine .ite h.next ?_
    split
    · next e12 => exact .ite ((h.chanStart.ite_fst h.chanStart.moveRows).of_fst e12).wr.showPlate.next ((h.chanStart.ite_fst h.chanStart.moveRows).of_fst e12).dmaDone.next
    · next e18 => exact ((h.chanStart.ite_fst h.chanStart.moveRows).of_fst e18).chanFault.showPlate.next
    · next e22 => exact ((h.chanStart.ite_fst h.chanStart.moveRows).of_fst e22).stopLaunch.finishNow.next
    · next e30 => exact ((h.chanStart.ite_fst h.chanStart.moveRows).of_fst e30).next

theorem execDmaRows {plate go} (h : Evolves False s x) : Advances s (execDmaRows plate go x) := h.runDma

theorem execDmaGather {plate go} (h : Evolves False s x) : Advances s (execDmaGather plate go x) := h.runDma

theorem execDmaScatter {plate go} (h : Evolves False s x) : Advances s (execDmaScatter plate go x) := h.runDma

theorem weightLost {i pa} (h : Evolves calm s x) : Evolves calm s (x.weightLost i pa) := h.raise

theorem refetch {p' j l c} (h : Evolves calm s x) : Evolves calm s (x.refetch p' j l c) := (h.foldl fun _ _ h1 => h1.moveRow).bump

theorem tileLost {p' j l x'} (h : Evolves calm s x) : Evolves calm s (x.tileLost p' j l x') := by
  unfold State.tileLost
  extract_lets _ _
  split
  · exact h.upd
  · split
    · exact h.upd.weightLost
    · exact h.upd

theorem undoTile {p' t} (h : Evolves calm s x) : Evolves calm s (x.undoTile p' t) := h.foldl fun _ _ h1 => h1.storeBad.breakResv.ite h1.plateStore

theorem repeatFrom {p' k} (h : Evolves calm s x) : Evolves calm s (x.repeatFrom p' k) := (h.foldl fun _ _ h1 => h1.undoTile).setArr.showPlate

theorem faultsTaken {p'} (h : Evolves False s x) : Evolves False s (x.faultsTaken p') :=
  h.foldl fun _ _ h1 => h1.ite (h1.ite h1.enterM).setCore.leaveM

theorem execTileRecompute {plate} (h : Evolves False s x) : Advances s (execTileRecompute plate x) := by
  unfold Machine.execTileRecompute
  extract_lets _ _ s1 _ _
  have h1 : Evolves False s s1 := h.faultsTaken
  split
  · exact h.next
  · refine .ite ?_ h.next
    split
    · exact h1.tileLost.setArr.next
    · split
      · exact h1.setArr.next
      · exact (h1.foldl fun _ _ h2 => h2.refetch).repeatFrom.setArr.upd.addFlag.bump.next

/-! ### Sys2Proof/Machine/HatchEgo.lean -/

theorem disagree {i n} (h : Evolves False s x) : Evolves False s (x.disagree i n) := h.bump

theorem setVote {i x'} (h : Evolves False s x) : Evolves False s (x.setVote i x') := h.upd

theorem disagreeShadow {i n} (h : Evolves False s x) : Evolves False s (x.disagreeShadow i n) := h.setVote

theorem newWindow {b no i} (h : Evolves False s x) : Evolves False s (x.newWindow b no i) := h.ite h.setVote.wr

theorem decodeOdo {b h' l} (h : Evolves False s x) : Evolves False s (x.decodeOdo b h' l) := h.foldl fun _ _ h1 => h1.ite h1.upd

theorem drain {q f n} (h : Evolves False s x) (hf : ∀ t i l, Evolves False s t → Evolves False s (f t i l)) : Evolves False s (State.drain q f n x) := by
  induction n generalizing x with
  | zero => exact h
  | succ n ih =>
    rw [State.drain]
    split
    · exact h
    · next e =>
      have ht := h.dequeue _ e
      exact ih (ht.ite (hf _ _ _ ht))

theorem takeEgoQueues {b} (h : Evolves False s x) : Evolves False s (x.takeEgoQueues b) :=
  (h.foldl fun _ _ h3 => h3.ite (h3.drain fun _ _ _ h4 => h4.decodeOdo)).foldl fun _ _ h5 => h5.ite (h5.drain fun _ _ _ h6 => h6)

theorem egoStep {e' env k} (h : Evolves False s x) : Evolves False s (x.egoStep e' env k).1 :=
  ((h.foldl fun _ _ h1 => h1.disagree).foldl fun _ _ h2 => h2.disagreeShadow).upd

theorem egoTrack {e' env a2 a3} (h : Evolves False s x) : Evolves False s (State.egoTrack e' env a2 a3 x).1 := by
  induction a2 generalizing a3 x with
  | zero => exact h
  | succ _ ih => exact ih h.egoStep

theorem execH3TrackDone {env} (h : Evolves False s x) : Advances s (execH3TrackDone env x) := by
  unfold Machine.execH3TrackDone
  split
  · exact h.next
  · extract_lets t u n
    have hu : Evolves False s u := (h.foldl fun _ _ h1 => h1.newWindow).takeEgoQueues
    split
    next v l degraded e =>
    have hv : Evolves False s v := by
      split at e
      · exact hu.egoTrack.of_fst e
      · exact (Prod.mk.inj e).1 ▸ hu
    exact hv.modEpoch.stageDone.startStage.next

theorem writePoints {no l} (h : Evolves False s x) : Evolves False s (x.writePoints no l) := h.bootWrite.ite h

theorem stippleStale {no} (h : Evolves False s x) : Evolves False s (x.stippleStale no) := h.foldl fun _ _ h1 => h1.stopJob.finishQuiet.bump

theorem endWait {n} (h : Evolves False s x) : Evolves False s (x.endWait n) := h.modEpoch.startStage

theorem waitDone (h : Evolves False s x) : Evolves False s x.waitDone := by
  unfold State.waitDone
  split
  · exact h.endWait.ite h
  · exact h

theorem execH4TransformDone (h : Evolves False s x) : Advances s (execH4TransformDone x) := by
  unfold Machine.execH4TransformDone
  split
  · exact h.next
  · exact h.bump.bump.bump.stippleStale.writePoints.modEpoch.upd.stageDone.waitDone.next

/-! ### Sys2Proof/Machine/HatchVote.lean -/

theorem execEvidencePlaneWrite {plate ofs data} (h : Evolves False s x) : Advances s (execEvidencePlaneWrite plate ofs data x) :=
  .ite h.evidenceWrite.waitDone.next h.next

theorem execEvidenceWaitExpiry (h : Evolves False s x) : Advances s (execEvidenceWaitExpiry x) := by
  unfold Machine.execEvidenceWaitExpiry
  split
  · exact .ite h.endWait.next h.next
  · exact h.next

theorem judge {b i} (h : Evolves False s x) : Evolves False s (x.judge b i) := (h.ite h.setVote).ite (h.setVote.raise.ite h)

theorem undegrade {i} (h : Evolves False s x) : Evolves False s (x.undegrade i) := h.wr.ite h

theorem judgePair {b p' cells} (h : Evolves False s x) : Evolves False s (x.judgePair b p' cells) :=
  (h.upd.raise.foldl fun _ _ h1 => h1.wr.ite h1).ite (h.upd.undegrade.undegrade.ite h.upd)

theorem judgePairs {b l} (h : Evolves False s x) : Evolves False s (x.judgePairs b l) := h.foldl fun _ _ h1 => h1.judgePair

theorem associate {e'} (h : Evolves False s x) : Evolves False s (x.associate e') :=
  h.upd.modEpoch.writePoints.bootWrite.ite h.upd.modEpoch.writePoints

theorem execH5VoteDone (h : Evolves False s x) : Advances s (execH5VoteDone x) := by
  unfold Machine.execH5VoteDone
  extract_lets s1
  have h1 : Evolves False s s1 := h.waitDone
  split
  · exact h1.next
  · extract_lets s2 _ _ _ _ _ _ _
    have h2 : Evolves False s s2 := h1.associate
    exact (((h2.foldl fun _ _ h14 => h14.disagree).foldl fun _ _ h15 => h15.disagreeShadow).foldl fun _ _ h16 => h16.judge).judgePairs.modEpoch.stageDone.startStage.next

theorem execH6EpochRecord (h : Evolves False s x) : Advances s (execH6EpochRecord x) := by
  unfold Machine.execH6EpochRecord
  split
  · exact h.next
  · extract_lets _ s1 s2 _ s4
    have h1 : Evolves False s s1 := h.bootWrite.ite h.usedFree
    have h2 : Evolves False s s2 := h1.bump.ite h1
    have h3 : Evolves False s s4 := h2.enqueue.stageDone
    exact h3.setEpochs.next

/-! ### Sys2Proof/Machine/Golden.lean -/

theorem setGold {g} (h : Evolves False s x) : Evolves False s (x.setGold g) := h.upd

theorem goldenStart (h : Evolves False s x) : Evolves False s x.goldenStart := h.setGold

theorem goldenDefer {t} (h : Evolves False s x) : Evolves False s (x.goldenDefer t) := h.bump.setGold

theorem goldenForce (h : Evolves False s x) : Evolves False s x.goldenForce := by
  unfold State.goldenForce
  extract_lets s1 _
  have h2 : Evolves False s s1 := h.foldl fun _ _ h1 => h1.requestPreempt
  exact h2.setGold.ite h2.goldenStart

theorem goldenAttempt {t} (h : Evolves False s x) : Evolves False s (x.goldenAttempt t) := h.goldenForce.ite (h.goldenDefer.ite h.goldenStart)

theorem execGoldenInstant (h : Evolves False s x) : Advances s (execGoldenInstant x) := by
  unfold Machine.execGoldenInstant
  refine .ite h.next ?_
  split
  · exact .ite h.next h.goldenStart.next
  · split
    · exact .ite h.served.setGold.goldenAttempt.next h.served.setGold.next
    · exact h.next

theorem execTestStarved (h : Evolves False s x) : Advances s (execTestStarved x) := by
  unfold Machine.execTestStarved
  split
  · exact .ite h.setGold.wr.bump.raise.requestOnce.next h.next
  · exact h.next

theorem goldenMismatch {k confirmed} (h : Evolves False s x) : Evolves False s (x.goldenMismatch k confirmed) :=
  (h.upd.requestHeld.ite h).bump.raise.histFailed.ite (h.upd.requestHeld.ite h).bump.raise

theorem goldenPassed {bad} (h : Evolves False s x) : Evolves False s (x.goldenPassed bad) := h.upd.clearCause.ite h.upd

theorem execGoldenRunDone {upsets} (h : Evolves False s x) : Advances s (execGoldenRunDone upsets x) := by
  unfold Machine.execGoldenRunDone
  refine .ite h.next ?_
  extract_lets _ s1 _ s2 _ _ s3 _ _ s4 _ s5 _
  have h1 : Evolves False s s1 := h.bump.wr
  have h2 : Evolves False s s2 := h1.bootWrite
  have h3 : Evolves False s s3 := h1.goldenPassed
  have h5 : Evolves False s s4 := h3.foldl fun _ _ h4 => h4.goldenMismatch
  have h7 : Evolves False s s5 := h3.foldl fun _ _ h6 => h6.goldenMismatch
  exact .ite h2.wr.setGold.next (.ite h3.setGold.next (.ite h5.setGold.next h7.setGold.next))

theorem goldenSkip {old} (h : Evolves False s x) : Evolves False s (x.goldenSkip old) := by
  unfold State.goldenSkip
  extract_lets due
  clear_value due
  split
  · exact h.ite h.goldenDefer
  · exact h

theorem execSelftestSlice {unit durNs} (h : Evolves False s x) : Advances s (execSelftestSlice unit durNs x) :=
  .ite h.next (.ite h.setGold.next h.bump.next)

theorem sliceFailed {u durNs} (h : Evolves False s x) : Evolves False s (x.sliceFailed u durNs) := h.histFailed.record.usedFree.requestOnce

theorem execSliceDone {unit pass} (h : Evolves False s x) : Advances s (execSliceDone unit pass x) := by
  unfold Machine.execSliceDone
  extract_lets _ _ _ _ _ _ s1
  have h1 : Evolves False s s1 := h.setGold.bump
  split
  · exact h.next
  · exact (h1.ite h1.sliceFailed).next

theorem abortSlices (h : Evolves False s x) : Evolves False s x.abortSlices := h.bump.setGold

theorem execSelftestLapsed {unit} (h : Evolves False s x) : Advances s (execSelftestLapsed unit x) := .ite h.setGold.raise.next h.next

/-! ### Sys2Proof/Machine/Time.lean -/

theorem setTm {x'} (h : Evolves False s x) : Evolves False s (x.setTm x') := h.upd

theorem setInc {v} (h : Evolves False s x) : Evolves False s (x.setInc v) := h.wr.wr

theorem execTimeTick (h : Evolves False s x) : Advances s (Machine.execTimeTick x) := by
  by_cases hp : x.power = .off
  · simpa [Machine.execTimeTick, hp] using h.next
  · exact ⟨_, execTimeTick_of_on x hp, flushGathers (h.ticked (Nat.le_succ _))⟩

theorem showTraceable (h : Evolves False s x) : Evolves False s x.showTraceable := h.wr.ite h

theorem enterLocked (h : Evolves False s x) : Evolves False s x.enterLocked := h.wr.showTraceable.fnReady

theorem enterFree (h : Evolves False s x) : Evolves False s x.enterFree := h.wr.wr.setInc

theorem enterHoldover (h : Evolves False s x) : Evolves False s x.enterHoldover := h.wr.setInc

theorem enterAcquiring (h : Evolves False s x) : Evolves False s x.enterAcquiring := h.wr.wr

theorem reselect (h : Evolves False s x) : Evolves False s x.reselect := by
  unfold State.reselect
  extract_lets _ s2 _ _ t1
  have h1 : Evolves False s s2 := by
    unfold s2
    split
    · exact h.wr.wr
    · exact h.wr
  have h2 : Evolves False s t1 := h1.setTm
  exact (h1.ite h1.setTm.enterFree).ite (h1.ite (h2.enterAcquiring.ite (h2.enterHoldover.ite (h2.ite h2.enterFree))))

theorem execReferenceLost (h : Evolves False s x) : Advances s (execReferenceLost x) := by
  unfold Machine.execReferenceLost
  refine .ite h.next ?_
  split
  · exact .ite h.setTm.reselect.next h.next
  · exact .ite h.setTm.reselect.next h.next
  · exact h.next

theorem execPpsEdge (h : Evolves False s x) : Advances s (execPpsEdge x) := .ite h.next h.setTm.reselect.next

theorem stepTime {d} (h : Evolves False s x) : Evolves False s (x.stepTime d) :=
  (h.setTm.wr.stepEpoch.setTm.goldenSkip.ite h.setTm.wr.stepEpoch.setTm).abortSlices.holdWindow

theorem setRun {run} (h : Evolves False s x) : Evolves False s (x.setRun run) := h.wr.setTm.ite h.wr

theorem secondsKnown (h : Evolves False s x) : Evolves False s x.secondsKnown := h.setTm.showTraceable

theorem stepGo (h : Evolves False s x) : Evolves False s x.stepGo := h.ite h.stepTime.secondsKnown

theorem execStepGo {runNew} (h : Evolves False s x) : Advances s (execStepGo runNew x) := .ite h.next h.setRun.stepGo.next

theorem loadInc {v} (h : Evolves False s x) : Evolves False s (x.loadInc v) := (h.ite h.bump).setInc.setTm

theorem saveRate (h : Evolves False s x) : Evolves False s x.saveRate := h.upd.ite h

theorem lockUpdate {within far} (h : Evolves False s x) : Evolves False s (x.lockUpdate within far) := by
  unfold State.lockUpdate
  extract_lets _ _ s1 _
  have h1 : Evolves False s s1 := h.setTm
  exact (h1.setTm.enterAcquiring.ite h1).ite (h1.enterLocked.ite (h1.ite h1.enterAcquiring))

theorem execServoUpdate {m} (h : Evolves False s x) : Advances s (execServoUpdate m x) := by
  unfold Machine.execServoUpdate
  refine .ite h.next ?_
  extract_lets _ _ _ _ s2 _ s3 _
  have h1 : Evolves False s s2 := h.wr.setInc
  have h2 : Evolves False s s3 := h.wr.stepTime.loadInc.ite (h1.setTm.ite h.wr.loadInc)
  exact (h2.secondsKnown.ite h2).lockUpdate.saveRate.next

theorem sendGptp {p' type seqId ns corr} (h : Evolves False s x) : Evolves False s (x.sendGptp p' type seqId ns corr) := h.emitPoliced

theorem keepStamp {tx p' x'} (h : Evolves False s x) : Evolves False s (x.keepStamp tx p' x').1 := h.bump.ite_fst h.setTm

theorem useStamp {tx p' type seqId} (h : Evolves False s x) : Evolves False s (x.useStamp tx p' type seqId) := h.setTm.ite h.setTm

theorem syncInterval {p' log} (h : Evolves False s x) : Evolves False s (x.syncInterval p' log) := h.setTm.ite h

theorem syncUsed {p' originNs} (h : Evolves False s x) : Evolves False s (x.syncUsed p' originNs) := h.setTm.ite h

theorem answerPdelay {p' seqId rx8} (h : Evolves False s x) : Evolves False s (x.answerPdelay p' seqId rx8) := by
  unfold State.answerPdelay
  extract_lets _ _
  split
  · next e3 => exact h.sendGptp.keepStamp.of_fst e3
  · next e6 => exact (h.sendGptp.keepStamp.of_fst e6).sendGptp.useStamp

theorem execGptpEventRx {port msg} (h : Evolves False s x) : Advances s (execGptpEventRx port msg x) := by
  unfold Machine.execGptpEventRx
  extract_lets _ _ _
  refine .ite h.next ?_
  split
  · next e3 => exact (h.keepStamp.of_fst e3).next
  · next e6 =>
      split
      · extract_lets _ s1
        have h1 : Evolves False s s1 := (h.keepStamp.of_fst e6).setTm.syncInterval.ite (h.keepStamp.of_fst e6)
        exact .ite h1.next h1.syncUsed.useStamp.next
      · exact (h.keepStamp.of_fst e6).answerPdelay.useStamp.next
      · exact (h.keepStamp.of_fst e6).setTm.discoverAll.next

theorem elect (h : Evolves False s x) : Evolves False s x.elect := h.setTm.reselect

theorem execGptpGeneralRx {port msg} (h : Evolves False s x) : Advances s (execGptpGeneralRx port msg x) := by
  unfold Machine.execGptpGeneralRx
  extract_lets _ _ _ _
  refine .ite h.next ?_
  split
  · exact .ite h.syncUsed.useStamp.next h.next
  · exact h.useStamp.useStamp.next
  · exact .ite h.setTm.elect.next h.next
  · exact h.next

theorem execGptpSyncTx {port seqId gm} (h : Evolves False s x) : Advances s (execGptpSyncTx port seqId gm x) := by
  unfold Machine.execGptpSyncTx
  extract_lets _ _ s1
  have h1 : Evolves False s s1 := h.keepStamp.useStamp
  refine .ite h.next ?_
  refine .ite h1.sendGptp.next ?_
  split
  · exact h1.sendGptp.next
  · exact h1.next

theorem execPdelayReqTx {port} (h : Evolves False s x) : Advances s (execPdelayReqTx port x) := .ite h.next h.setTm.keepStamp.sendGptp.next

theorem execRulSwap (h : Evolves False s x) : Advances s (execRulSwap x) := .ite h.next h.wr.next

theorem epochWrite {len ofs} (h : Evolves False s x) : Evolves False s (x.epochWrite len ofs) := h.wr.wr.setTm.holdWindow.ite h.wr.wr.setTm

theorem execRulEpochWrite {lenMs ofsNs} (h : Evolves False s x) : Advances s (execRulEpochWrite lenMs ofsNs x) :=
  .ite h.next h.epochWrite.next

theorem endLoads {family ok} (h : Evolves False s x) : Evolves False s (x.endLoads family ok) := h.foldl fun _ _ h1 => h1.finishOk.ite h1.refuse

theorem swapRuling (h : Evolves False s x) : Evolves False s x.swapRuling := by
  unfold State.swapRuling
  refine Evolves.ite h ?_
  extract_lets _ _ _ _ _
  split
  · exact h.wr.wr.wr.endLoads
  · exact h.wr.wr.setTm.endLoads

theorem swapSensing (h : Evolves False s x) : Evolves False s x.swapSensing := by
  unfold State.swapSensing
  refine Evolves.ite h ?_
  extract_lets _
  split
  · exact h.wr.wr.wr.endLoads
  · exact h.wr.swapSensors.endLoads

theorem swapHatch (h : Evolves False s x) : Evolves False s x.swapHatch := h.ite h.wr.wr.wr.showHat.endLoads

theorem readmitSensor {i} (h : Evolves False s x) : Evolves False s (x.readmitSensor i) := h.wr.setVote.upd

theorem revote {i} (h : Evolves False s x) : Evolves False s (x.revote i) := h.wr.setVote.ite (h.readmitSensor.ite h)

theorem endReadmits (h : Evolves False s x) : Evolves False s x.endReadmits := h.foldl fun _ _ h1 => h1.readmitSensor.finishOk

theorem freshQuotas (h : Evolves False s x) : Evolves False s x.freshQuotas := h.upd

theorem beginEpoch {no start} (h : Evolves False s x) : Evolves False s (x.beginEpoch no start) := h.openEpoch.fnReady.ite h.openEpoch

theorem execEpochBoundary (h : Evolves False s x) : Advances s (execEpochBoundary x) := by
  unfold Machine.execEpochBoundary
  extract_lets _ _ s2 _ _ _ _ s5
  have h2 : Evolves False s s2 := (h.swapRuling.swapSensing.swapHatch.foldl fun _ _ h1 => h1.revote).endReadmits.freshQuotas
  have h5 : Evolves False s s5 := (h2.setTm.foldl fun _ _ h4 => h4.relock.rearm).beginEpoch
  exact .ite h.next h5.signal.next

theorem execTriggerFire {entry} (h : Evolves False s x) : Advances s (execTriggerFire entry x) := by
  unfold Machine.execTriggerFire
  extract_lets _ _ _ _
  refine .ite h.next ?_
  split
  · exact h.next
  · exact .ite h.served.bump.next h.served.setTm.emit.next

theorem execBackChannelTrigger {entry} (h : Evolves False s x) : Advances s (execBackChannelTrigger entry x) := by
  unfold Machine.execBackChannelTrigger
  extract_lets _ _
  refine .ite h.next ?_
  split
  · exact h.next
  · exact h.served.emit.next

theorem execPhaseCommand {entry} (h : Evolves False s x) : Advances s (execPhaseCommand entry x) := by
  unfold Machine.execPhaseCommand
  extract_lets _ _
  refine .ite h.next ?_
  split
  · exact h.next
  · exact h.served.emitPoliced.next

/-! ### Sys2Proof/Machine/Loads.lean -/

theorem loadRequest {j} (h : Evolves False s x) : Evolves False s (x.loadRequest j) := h.wr.ite (h.wr.ite h.wr)

theorem execTableLoad {job} (h : Evolves False s x) : Advances s (execTableLoad job x) := by
  unfold Machine.execTableLoad
  split
  · exact h.next
  · exact .ite h.finishOk.next (h.runOr fun _ h1 => h.store.wroteOut.loadRequest.setJob.ite h.store.wroteOut.finishNow).next

theorem execReadmit {job} (h : Evolves False s x) : Advances s (execReadmit job x) := by
  unfold Machine.execReadmit
  split
  · exact h.next
  · exact (h.runOr fun _ h1 => h1.setJob).next

theorem execNop {job} (h : Evolves False s x) : Advances s (execNop job x) := by
  unfold Machine.execNop
  split
  · exact h.next
  · exact h.finishOk.next

/-! ### Sys2Proof/Machine/Bulk.lean -/

theorem grantCredits (h : Evolves False s x) : Evolves False s x.grantCredits := h.upd.sendReliable.ite h

theorem sendReport {xfer status rflags count} (h : Evolves False s x) : Evolves False s (x.sendReport xfer status rflags count) :=
  h.sendReliable.ite h

theorem endPush {xfer status last} (h : Evolves False s x) : Evolves False s (x.endPush xfer status last) := h.upd.sendReport

theorem endPull {b status} (h : Evolves False s x) : Evolves False s (x.endPull b status) := h.upd.sendReport

theorem endBulk {status} (h : Evolves False s x) : Evolves False s (x.endBulk status) := by
  unfold State.endBulk
  extract_lets s1
  have h1 : Evolves False s s1 := h.chanClear
  split
  · exact h1
  · exact h1.endPull.ite h1.endPush

theorem setHead {b} (h : Evolves False s x) : Evolves False s (x.setHead b) := h.upd

theorem markHead (h : Evolves False s x) : Evolves False s x.markHead := by
  unfold State.markHead
  split
  · exact h
  · exact h.setHead

theorem bulkFault {b kind va} (h : Evolves False s x) : Evolves False s (x.bulkFault b kind va) := h.setHead.chanStart.chanFault

theorem pushLoop {a0 a2} (h : Evolves False s x) : Evolves False s (State.pushLoop a0 x a2).1 := by
  induction a0 generalizing x a2 with
  | zero => exact h
  | succ _ ih =>
    rw [State.pushLoop]
    refine Evolves.ite_fst h ?_
    refine .ite_fst ?_ ?_
    · split
      · next e4 => exact (h.translateOn.of_fst e4).bulkFault.pair
      · next e8 => exact ih (h.translateOn.of_fst e8).store
    · refine .ite_fst ?_ (ih h.physWrite)
      split
      · exact h.setHead.chanClear.endPush.pair
      · exact h.bulkFault.pair
      · exact ih h.store

theorem pushDone {b} (h : Evolves False s x) : Evolves False s (x.pushDone b) := h.upd.ite (h.upd.upd.ite h.upd.sendReport.upd)

theorem pullRead {b det n y m l} (h : Evolves False s y) : Evolves False s (State.pullRead b det n y m l).1 := by
  induction n generalizing y l with
  | zero => exact h
  | succ n ih =>
    rw [State.pullRead]
    refine ite_fst h ?_
    extract_lets _ _ _ _ get
    have hget (t : State) (pa : Nat) (ht : Evolves False s t) : Evolves False s (get t pa).1 := by
      unfold get
      extract_lets u
      have hu : Evolves False s u := ht.markHead.ite ht
      split
      next e => exact (hu.ddrGet.of_fst e).ite_fst (ih (hu.ddrGet.of_fst e))
    split
    · split
      · next e => exact h.translateOn.of_fst e
      · next e => exact hget _ _ (h.translateOn.of_fst e)
    · split
      · exact h
      · exact h
      · exact hget _ _ h

theorem pullLoop {det a1 a3} (h : Evolves False s x) : Evolves False s (State.pullLoop det a1 x a3).1 := by
  induction a1 generalizing x a3 with
  | zero => exact h.setHead
  | succ _ ih =>
    rw [State.pullLoop]
    refine Evolves.ite_fst h.endPull.pair ?_
    refine Evolves.ite_fst h.setHead.chanStart.pair ?_
    split
    · next e5 =>
        extract_lets _ s1 _
        have h1 : Evolves False s s1 := (h.pullRead.of_fst e5).ite (h.pullRead.of_fst e5).sendReliable.upd
        split
        · exact ih h1
        · exact h1.setHead.chanClear.endPull.pair
        · exact h1.setHead.chanClear.endPull.pair
        · exact h1.bulkFault.pair

theorem bulkRun {det a1} (h : Evolves False s x) : Evolves False s (State.bulkRun det a1 x) := by
  induction a1 generalizing det x with
  | zero => exact h
  | succ _ ih =>
    rw [State.bulkRun]
    refine Evolves.ite h ?_
    split
    · exact h.chanClear
    · refine .ite ?_ ?_
      · split
        · next e9 => exact ih (h.pullLoop.of_fst e9)
        · next e12 => exact h.pullLoop.of_fst e12
      · split
        · next e15 => exact ih (h.pushLoop.of_fst e15).pushDone
        · next e18 => exact (h.pushLoop.of_fst e18).ite (ih (h.pushLoop.of_fst e18))

theorem bulkGo {det} (h : Evolves False s x) : Evolves False s (x.bulkGo det) := h.bulkRun

/-! ### Sys2Proof/Machine/Launch.lean -/

theorem claimPlates {j} (h : Evolves False s x) : Evolves False s (x.claimPlates j) := h.ite (h.foldl fun _ _ h1 => h1.requestPreempt.bump)

theorem endLaunch {id p' status} (h : Evolves False s x) : Evolves False s (x.endLaunch id p' status) := by
  unfold State.endLaunch
  split
  · exact h
  · exact h.stopLaunch.finishQuiet

theorem spillRanges {ctx p' a2} (h : Evolves False s x) : Evolves False s (State.spillRanges ctx p' a2 x).1 := by
  induction a2 generalizing x with
  | nil => exact h
  | cons _ _ ih =>
    rw [State.spillRanges]
    split
    · next e4 => exact ih (h.vwrite.of_fst e4)
    · next e9 => exact (h.vwrite.of_fst e9).contain

theorem spillOne {p' part id x'} (h : Evolves False s x) : Evolves False s (x.spillOne p' part id x').1 := by
  unfold State.spillOne
  split
  · extract_lets _ _ _
    refine Evolves.ite_fst h ?_
    refine Evolves.ite_fst h.endLaunch.bump ?_
    split
    · next e9 => exact h.spillRanges.of_fst e9
    · next e12 => exact (h.spillRanges.of_fst e12).upd.bump
  · exact h

theorem spillPlate {p' part keep} (h : Evolves False s x) : Evolves False s (x.spillPlate p' part keep).1 :=
  h.foldl_fst fun _ _ h1 => h1.spillOne.ite_fst h1

theorem makeRoom {ps part keep} (h : Evolves False s x) : Evolves False s (x.makeRoom ps part keep).1 :=
  h.foldl_fst fun _ _ h1 => h1.spillPlate.ite_fst h1

theorem restoreRanges {ctx p' a2} (h : Evolves False s x) : Evolves False s (State.restoreRanges ctx p' a2 x).1 := by
  induction a2 generalizing x with
  | nil => exact h
  | cons _ _ ih =>
    rw [State.restoreRanges]
    split
    · next e4 => exact ih (h.vread.of_fst e4).plateStore
    · next e9 => exact (h.vread.of_fst e9).contain

theorem setShares {p' part} (h : Evolves False s x) : Evolves False s (x.setShares p' part) := h.wr.wr.wr.wr

theorem takePlate {p' j} (h : Evolves False s x) : Evolves False s (x.takePlate p' j) := h.setShares.setPlate.wr.wr.showPlate

theorem startPlate {j plates rank p'} (h : Evolves False s x) : Evolves False s (x.startPlate j plates rank p') := by
  unfold State.startPlate
  extract_lets s1 _ _ _
  have h1 : Evolves False s s1 := h.chanClear.chanClear.takePlate
  exact (h1.plateStore.foldl fun _ _ h3 => h3.plateStore.setCore.showCore).showCores

theorem startLaunch {j ps} (h : Evolves False s x) : Evolves False s (x.startLaunch j ps) := by
  unfold State.startLaunch
  extract_lets _ s1 _ _ s3
  have h1 : Evolves False s s1 := h.beginJob
  have h3 : Evolves False s s3 := h1.upd.foldl fun _ _ h2 => h2.startPlate
  exact h3.bump.ite h3

theorem execLaunchStart {job} (h : Evolves False s x) : Advances s (execLaunchStart job x) := by
  unfold Machine.execLaunchStart
  split
  · exact h.next
  · refine .ite h.finishOk.next ?_
    extract_lets _
    refine .ite h.finishQuiet.next ?_
    refine .ite ?_ h.next
    split
    · next e8 => exact (h.makeRoom.of_fst e8).startLaunch.next
    · next e11 => exact (h.makeRoom.of_fst e11).next

theorem execLaunchComplete {job} (h : Evolves False s x) : Advances s (execLaunchComplete job x) := by
  unfold Machine.execLaunchComplete
  split
  · refine .ite ?_ h.next
    split <;> exact h.stopLaunch.finish.next
  · exact h.next

theorem savePlate {p' forced} (h : Evolves False s x) : Evolves False s (x.savePlate p' forced).1 :=
  h.plateStore.usedFree.foldl fun _ _ h1 => h1.plateStore.usedFree

theorem execPreemptRequest {plate late} (h : Evolves False s x) : Advances s (execPreemptRequest plate late x) := by
  unfold Machine.execPreemptRequest
  extract_lets _
  split
  · exact h.next
  · extract_lets _
    refine .ite h.next ?_
    split
    · next e10 =>
        extract_lets _ _ _ _ s3
        have h1 : Evolves False s s3 := (h.savePlate.of_fst e10).upd.clearPlate.showIdle.bump.bump
        exact .ite h1.setJob.showCtx.next h1.next

theorem restorePlate {p' j x'} (h : Evolves False s x) : Evolves False s (x.restorePlate p' j x').1 := by
  unfold State.restorePlate
  split
  · next e3 => exact h.restoreRanges.of_fst e3
  · next e6 =>
      extract_lets s1 _ _ s3 _ _
      have h1 : Evolves False s s1 := (h.restoreRanges.of_fst e6).takePlate
      have h3 : Evolves False s s3 := h1.setPlate.foldl fun _ _ h2 => h2.setCore.showCore
      exact h3.setChanRec.setChanRec.showCores.showPlate

theorem restoreAll {j l} (h : Evolves False s x) : Evolves False s (x.restoreAll j l).1 := by
  unfold State.restoreAll
  refine Evolves.foldl_fst h (fun _ _ h1 => ?_)
  refine .ite_fst ?_ h1
  split
  · exact h1.restorePlate
  · exact h1

theorem execLaunchResume {job} (h : Evolves False s x) : Advances s (execLaunchResume job x) := by
  unfold Machine.execLaunchResume
  split
  · extract_lets _
    refine .ite ?_ h.next
    split
    · next e9 => exact (h.makeRoom.of_fst e9).next
    · next e12 =>
        extract_lets _
        split
        · next e16 =>
            refine .ite ?_ ((h.makeRoom.of_fst e12).restoreAll.of_fst e16).next
            extract_lets s1 s2
            have h1 : Evolves False s s1 := ((h.makeRoom.of_fst e12).restoreAll.of_fst e16).upd
            have h2 : Evolves False s s2 := h1.setJob.showCtx
            exact (h2.bump.ite h2).next
  · exact h.next

/-! ### Sys2Proof/Machine/Memory.lean -/

theorem execCtxOpen {job} (h : Evolves False s x) : Advances s (execCtxOpen job x) := by
  unfold Machine.execCtxOpen
  split
  · exact h.next
  · exact (h.runOr fun _ h1 => h1.upd.wr.finishOk).next

theorem execCtxClose {job} (h : Evolves False s x) : Advances s (execCtxClose job x) := by
  unfold Machine.execCtxClose
  split
  · exact h.next
  · exact (h.runOr fun _ h1 => h1.dropWalks.upd.wr.finishOk).next

theorem execInvalidate {job} (h : Evolves False s x) : Advances s (execInvalidate job x) := by
  unfold Machine.execInvalidate
  split
  · exact h.next
  · exact .ite h.finishOk.next (h.runOr fun _ h1 => h1.dropWalks.bump.finishOk).next

theorem chanResume {c} (h : Evolves False s x) : Evolves False s (x.chanResume c) := h.wr.wr.bulkGo.ite h.wr.wr

theorem setSavedRec {c id x' r} (h : Evolves False s x) : Evolves False s (x.setSavedRec c id x' r) := by
  unfold State.setSavedRec
  extract_lets _ _ s1
  have h1 : Evolves False s s1 := by
    unfold s1
    split
    · exact h.upd
    · exact h
  exact h1.setChanRec.ite h1

theorem execResume {job} (h : Evolves False s x) : Advances s (execResume job x) := by
  unfold Machine.execResume
  split
  · exact h.next
  · extract_lets _ _
    refine .ite h.bump.chanResume.finishOk.next ?_
    split
    · exact .ite h.setSavedRec.bump.finishOk.next h.refuse.next
    · exact h.refuse.next

theorem endOwner {c status} (h : Evolves False s x) : Evolves False s (x.endOwner c status) := by
  unfold State.endOwner
  split
  · split
    · exact h.endLaunch
    · exact h
  · refine Evolves.ite h.endBulk ?_
    split
    · exact h.chanClear
    · split
      · exact h.chanClear
      · exact h.stopJob.finishQuiet

theorem execAbort {job} (h : Evolves False s x) : Advances s (execAbort job x) := by
  unfold Machine.execAbort
  split
  · exact h.next
  · extract_lets _
    refine .ite h.bump.endOwner.finishOk.next ?_
    split
    · exact h.bump.endLaunch.finishOk.next
    · exact h.refuse.next

theorem execChannelSelfResume {chan} (h : Evolves False s x) : Advances s (execChannelSelfResume chan x) := .ite h.bump.chanResume.next h.next

theorem execNrTimeout {chan} (h : Evolves False s x) : Advances s (execNrTimeout chan x) := by
  unfold Machine.execNrTimeout
  extract_lets _
  refine .ite h.bump.endOwner.next ?_
  split
  · exact h.next
  · split
    · exact h.bump.endLaunch.next
    · exact h.next

theorem copyLeave {c} (h : Evolves False s x) : Evolves False s (x.copyLeave c) := by
  unfold State.copyLeave
  split
  · exact h
  · exact h.upd.chanClear

theorem copyLoop {c ctx job src dst n lim det a8 a10} (h : Evolves False s x) : Evolves False s (State.copyLoop c ctx job src dst n lim det a8 x a10).1 := by
  induction a8 generalizing x a10 with
  | zero => exact h
  | succ _ ih =>
    rw [State.copyLoop]
    refine Evolves.ite_fst h ?_
    refine Evolves.ite_fst h ?_
    extract_lets _ _
    split
    · next e4 => exact h.translateOn.of_fst e4
    · next e8 =>
        extract_lets _ _
        split
        · next e12 => exact (h.translateOn.of_fst e8).translateOn.of_fst e12
        · next e16 =>
            split
            · next e21 => exact ih ((((h.translateOn.of_fst e8).translateOn.of_fst e16).ddrGet.of_fst e21).storeBad.ite (((h.translateOn.of_fst e8).translateOn.of_fst e16).ddrGet.of_fst e21).store)

theorem execMemCopy {job go} (h : Evolves False s x) : Advances s (execMemCopy job go x) := by
  unfold Machine.execMemCopy
  split
  · exact h.next
  · extract_lets _
    refine .ite h.finishOk.next ?_
    split
    · exact h.next
    · refine .ite h.next ?_
      extract_lets _ s1 _ _ _ _
      have h1 : Evolves False s s1 := h.ite h.copyLeave
      refine .ite h1.copyLeave.next ?_
      split
      · next e16 => exact (h1.upd.chanStart.copyLoop.of_fst e16).chanFault.next
      · next e20 => exact .ite (h1.upd.chanStart.copyLoop.of_fst e20).wr.next (h1.upd.chanStart.copyLoop.of_fst e20).freeChans.wroteOut.finishNow.next

theorem execRefreshRateChange {chan report} (h : Evolves False s x) : Advances s (execRefreshRateChange chan report x) :=
  .ite h.upd.wr.next h.next

theorem copyBack {c} (h : Evolves False s x) : Evolves False s (x.copyBack c) := h.foldl fun _ _ h1 => h1.store

theorem execDdrChannelOnline {chan} (h : Evolves False s x) : Advances s (execDdrChannelOnline chan x) :=
  .ite h.copyBack.onlineNow.next h.next

/-! ### Sys2Proof/Machine/Margin.lean -/

theorem mgdGo (h : Evolves False s x) : Evolves False s x.mgdGo := h.wr.upd.clearCause.clearCause.fnReady.ite h.wr

theorem execMgdGo (h : Evolves False s x) : Advances s (execMgdGo x) := .ite h.next h.mgdGo.next

theorem reportViolation {p' c dropped request v} (h : Evolves False s x) : Evolves False s (x.reportViolation p' c dropped request v) :=
  (h.requestLines.ite h).bump.raise

theorem sendPath {p' ident l} (h : Evolves False s x) : Evolves False s (x.sendPath p' ident l).1 := by
  rw [State.sendPath_eq]
  have hp := h.police (i := pathPolicer p') (cost := if p' < 6 then 1 else l.length + 4)
  generalize x.police _ _ = r at hp ⊢
  rcases r with ⟨t, _ | _⟩
  · exact hp
  · exact hp.emit

theorem guardFrame {p' c ident l} (h : Evolves False s x) : Evolves False s (x.guardFrame p' c ident l) := by
  unfold State.guardFrame
  extract_lets _ _ _
  refine Evolves.ite (h.foldl fun _ _ h1 => h1.reportViolation) ?_
  split
  · next e3 => exact (h.sendPath.of_fst e3).upd.foldl fun _ _ h2 => h2.reportViolation
  · next e6 => exact (h.sendPath.of_fst e6).foldl fun _ _ h3 => h3.reportViolation

theorem offerFrame {p' ident l} (h : Evolves False s x) : Evolves False s (x.offerFrame p' ident l) := by
  unfold State.offerFrame
  refine Evolves.ite h ?_
  split
  · exact h.ite h.sendPath
  · exact h.ite h.guardFrame

theorem execMarginFrame {path f} (h : Evolves False s x) : Advances s (execMarginFrame path f x) := .ite h.offerFrame.next h.next

theorem feedPath {u words point} (h : Evolves False s x) : Evolves False s (x.feedPath u words point) := by
  unfold State.feedPath
  split
  · exact h
  · exact h.ite (h.foldl fun _ _ h1 => h1.offerFrame)

/-! ### Sys2Proof/Machine/BrnAccept.lean -/

theorem setProb {i p'} (h : Evolves False s x) : Evolves False s (x.setProb i p') := h.upd.showProb

/-! ### Sys2Proof/Machine/Burnisher.lean -/

theorem brnDo {job op run} (h : Evolves False s x) (hk0 : ∀ t a1 a2, Evolves False s t → Advances s (run t a1 a2)) : Advances s (x.brnDo job op run) := by
  unfold State.brnDo
  split
  · exact h.next
  · exact .ite h.refuse.next (.ite h.next (hk0 _ _ _ h))

theorem brnReadLoop {ctx job n va len a bad} (h : Evolves False s x) : Evolves False s (State.brnReadLoop ctx job n x va len a bad).1 := by
  induction n generalizing x va len a bad with
  | zero => exact h
  | succ _ ih =>
    rw [State.brnReadLoop]
    refine ite_fst h ?_
    split
    · next e => exact h.translateOn.of_fst e
    · next t pa e =>
      have ht := (h.translateOn.of_fst e).ddrGet (ch := brnChan) (job := some job) (ctx := ctx) (va := va) (pa := pa)
        (n := chunk va len) (fails := 0)
      exact ih ht

theorem brnTook {job x'} (h : Evolves False s x) : Evolves False s (x.brnTook job x') := h.upd

theorem brnStopped {job x'} (h : Evolves False s x) : Evolves False s (x.brnStopped job x') := h.upd

theorem brnNoAccess (h : Evolves False s x) : Evolves False s x.brnNoAccess := h.upd

theorem brnRead {com ctx job a n} (h : Evolves False s x) : Evolves False s (x.brnRead com ctx job a n).1 := by
  unfold State.brnRead
  extract_lets _ _ _ _
  refine Evolves.ite_fst h.brnTook ?_
  refine Evolves.ite_fst (h.sramDetect.ite h).brnTook ?_
  split
  · next e4 => exact (h.brnReadLoop.of_fst e4).brnTook
  · next e9 => exact (h.brnReadLoop.of_fst e9).brnStopped

theorem brnWrite {ctx job va l} (h : Evolves False s x) : Evolves False s (x.brnWrite ctx job va l).1 := by
  unfold State.brnWrite
  extract_lets _
  split
  · next e4 => exact (h.vwrite.of_fst e4).brnTook
  · next e9 => exact (h.vwrite.of_fst e9).brnStopped

theorem brnFault {id ctx tag f} (h : Evolves False s x) : Evolves False s (x.brnFault id ctx tag f) := h.chanStart.upd.chanFault

theorem brnFree (h : Evolves False s x) : Evolves False s x.brnFree := h.brnNoAccess.upd.chanClear.ite h.brnNoAccess

theorem execBrnRegister {job} (h : Evolves False s x) : Advances s (execBrnRegister job x) :=
  h.brnDo fun _ _ _ h1 => .ite h1.next (.ite h1.finishOk.next (.ite h1.refuse.next (.ite h1.refuse.next h1.upd.setProb.wr.wr.finishOk.next)))

theorem execBrnValues {job} (h : Evolves False s x) : Advances s (execBrnValues job x) := by
  unfold Machine.execBrnValues
  refine Evolves.brnDo h (fun _ _ _ h1 => ?_)
  refine .ite h1.next ?_
  extract_lets _ _
  refine .ite h1.finishOk.next ?_
  split
  · exact h1.refuse.next
  · refine .ite h1.refuse.next ?_
    refine .ite h1.refuse.next ?_
    refine .ite h1.setProb.finishOk.next ?_
    split
    · next e9 => exact (h1.brnRead.of_fst e9).brnFault.next
    · next e14 => exact (h1.brnRead.of_fst e14).brnFree.setProb.finishOk.next

theorem execBrnUpdate {job} (h : Evolves False s x) : Advances s (execBrnUpdate job x) := by
  unfold Machine.execBrnUpdate
  refine Evolves.brnDo h (fun _ _ _ h1 => ?_)
  refine .ite h1.next ?_
  refine .ite h1.finishOk.next ?_
  split
  · exact h1.refuse.next
  · exact .ite h1.refuse.next (.ite h1.refuse.next (.ite h1.refuse.next (.ite h1.finishOk.next h1.setProb.finishOk.next)))

theorem execBrnRelease {job} (h : Evolves False s x) : Advances s (execBrnRelease job x) := by
  unfold Machine.execBrnRelease
  refine Evolves.brnDo h (fun _ _ _ h1 => ?_)
  refine .ite h1.refuse.next ?_
  refine .ite h1.next ?_
  split
  · exact h1.refuse.next
  · exact .ite h1.refuse.next h1.upd.showProb.wr.wr.finishOk.next

theorem execBrnRun {job} (h : Evolves False s x) : Advances s (execBrnRun job x) := by
  unfold Machine.execBrnRun
  refine Evolves.brnDo h (fun _ _ _ h1 => ?_)
  refine .ite h1.next ?_
  split
  · exact h1.refuse.next
  · exact .ite h1.refuse.next (.ite h1.next h1.setProb.next)

theorem execBrnArm {job} (h : Evolves False s x) : Advances s (execBrnArm job x) := by
  unfold Machine.execBrnArm
  refine Evolves.brnDo h (fun _ _ _ h1 => ?_)
  refine .ite h1.next ?_
  split
  · exact h1.refuse.next
  · exact .ite h1.refuse.next h1.setProb.finishOk.next

theorem execBrnDisarm {job} (h : Evolves False s x) : Advances s (execBrnDisarm job x) := by
  unfold Machine.execBrnDisarm
  refine Evolves.brnDo h (fun _ _ _ h1 => ?_)
  split
  · exact .ite h1.refuse.next h1.next
  · refine .ite h1.next ?_
    refine .ite h1.refuse.next ?_
    extract_lets _ s1
    have h2 : Evolves False s s1 := h1.setProb.finishOk
    split
    · exact h2.finishQuiet.next
    · exact h2.next

theorem execBrnTrigger {prob} (h : Evolves False s x) : Advances s (execBrnTrigger prob x) := by
  unfold Machine.execBrnTrigger
  extract_lets _
  split
  · exact h.next
  · split
    · exact h.next
    · extract_lets _ _ _ s1 _ _ _
      have h1 : Evolves False s s1 := h.ite h.bump
      refine .ite h.next ?_
      refine .ite h1.setProb.next ?_
      split
      · exact h1.upd.setProb.retractJob.next
      · exact h1.upd.showCtx.setProb.next

theorem brnIdle (h : Evolves False s x) : Evolves False s x.brnIdle := by
  unfold State.brnIdle
  extract_lets c src _ s1
  have h1 : Evolves False s src := h.brnNoAccess
  have h2 : Evolves False s s1 := h1.upd.chanClear
  clear_value c
  split
  · exact h2.showProb
  · exact h2

theorem brnLeave {i p'} (h : Evolves False s x) : Evolves False s (x.brnLeave i p') := h.brnIdle.setProb.bump

theorem brnComplete {i p' r} (h : Evolves False s x) : Evolves False s (x.brnComplete i p' r) := by
  unfold State.brnComplete
  extract_lets s1 s2 _
  have h1 : Evolves False s s1 := h.brnLeave
  have h2 : Evolves False s s2 := h1.bump.ite (h1.bump.ite h1)
  split
  · exact h2
  · exact h2.finish

theorem brnDetected {i p' r det} (h : Evolves False s x) : Evolves False s (x.brnDetected i p' r det) := by
  unfold State.brnDetected
  extract_lets s1 _ _ s2
  have h1 : Evolves False s s1 := h.brnFree.sramDetect.usedFree
  have h2 : Evolves False s s2 := h1.brnLeave
  refine Evolves.ite h1.bump.addFlag.setProb ?_
  split
  · exact h2.finishQuiet
  · exact h2

theorem brnOffline (h : Evolves False s x) : Evolves False s x.brnOffline := h.brnIdle.foldl fun _ _ h1 => h1.dropRun.finishQuiet

theorem brnWithdraw {r} (h : Evolves False s x) : Evolves False s (x.brnWithdraw r) := by
  unfold State.brnWithdraw
  split
  · exact h.brnIdle.setJob
  · exact h.brnIdle

theorem brnStep {op go} (h : Evolves False s x) (hk0 : ∀ t a1 a2 a3 a4, Evolves False s t → Evolves False s (go t a1 a2 a3 a4)) : Advances s (x.brnStep op go) := by
  unfold State.brnStep
  split
  · exact h.next
  · exact .ite h.brnOffline.next (.ite h.next (.ite h.brnWithdraw.next (.ite h.next (.ite (hk0 _ _ _ _ _ h).next h.next))))

theorem brnNext {i p' r step} (h : Evolves False s x) : Evolves False s (x.brnNext i p' r step) := h.setProb

theorem stoppedAt {id} (h : Evolves False s x) : Evolves False s (x.stoppedAt id) := h.upd

theorem brnInput {i k} (h : Evolves False s x) : Evolves False s (x.brnInput i k).1 := by
  unfold State.brnInput
  split
  · exact h
  · split
    · exact h
    · refine Evolves.ite_fst h ?_
      split
      · exact h
      · split
        · next e19 => exact (h.brnRead.of_fst e19).brnFault
        · next e24 => exact (h.brnRead.of_fst e24).brnNoAccess.setProb

theorem brnInputs {i a1} (h : Evolves False s x) : Evolves False s (State.brnInputs i a1 x) := by
  induction a1 generalizing x with
  | zero => exact h
  | succ _ ih =>
    rw [State.brnInputs]
    split
    · exact h
    · refine Evolves.ite h ?_
      split
      · next e8 => exact h.brnInput.of_fst e8
      · next e11 =>
          split
          · exact h.brnInput.of_fst e11
          · exact ih (h.brnInput.of_fst e11).setProb

theorem brnRefetch {i p' r} (h : Evolves False s x) : Evolves False s (x.brnRefetch i p' r).1 := by
  unfold State.brnRefetch
  extract_lets _ _
  refine Evolves.ite_fst h.brnNoAccess.setProb ?_
  split
  · next e4 => exact (h.brnRead.of_fst e4).brnFault
  · next e9 =>
      split
      · next e13 => exact ((h.brnRead.of_fst e9).brnRead.of_fst e13).brnFault
      · next e18 =>
          split
          · next e22 => exact (((h.brnRead.of_fst e9).brnRead.of_fst e18).brnRead.of_fst e22).brnFault
          · next e27 => exact (((h.brnRead.of_fst e9).brnRead.of_fst e18).brnRead.of_fst e27).brnNoAccess.setProb

theorem brnFreed {i} (h : Evolves False s x) : Evolves False s (x.brnFreed i) := by
  unfold State.brnFreed
  split
  · exact h.brnFree.ite h
  · exact h

theorem brnBegin {i det} (h : Evolves False s x) : Evolves False s (x.brnBegin i det) := by
  unfold State.brnBegin
  split
  · exact h
  · split
    · exact h
    · exact h.brnDetected.ite ((h.brnRefetch.ite_fst h).brnInputs.brnFreed.ite (h.brnRefetch.ite_fst h))

theorem brnStartRun {i p' j} (h : Evolves False s x) : Evolves False s (x.brnStartRun i p' j) :=
  h.beginJob.upd.chanStart.setProb.stoppedAt.ite h.beginJob.upd.chanStart.setProb

theorem execBrnRunStart {det} (h : Evolves False s x) : Advances s (execBrnRunStart det x) := by
  unfold Machine.execBrnRunStart
  refine .ite h.brnOffline.next ?_
  refine .ite h.next ?_
  split
  · exact .ite h.brnBegin.next h.next
  · split
    · exact h.next
    · split
      · split
        · exact h.setJob.upd.chanStart.showProb.next
        · refine .ite h.next ?_
          refine .ite h.dropRun.refuse.next ?_
          extract_lets s1
          have h1 : Evolves False s s1 := h.brnStartRun
          split
          · exact .ite h1.next h1.brnBegin.next
          · exact h1.next
      · exact h.next

theorem brnMat {p' j} (h : Evolves False s x) : Evolves False s (x.brnMat p' j).1 := by
  unfold State.brnMat
  extract_lets _ _
  refine Evolves.ite_fst h ?_
  split
  · next e4 => exact h.brnRead.of_fst e4
  · next e9 =>
      split
      · next e13 => exact (h.brnRead.of_fst e9).brnRead.of_fst e13
      · next e18 =>
          split
          · next e22 => exact ((h.brnRead.of_fst e9).brnRead.of_fst e18).brnRead.of_fst e22
          · next e27 => exact ((h.brnRead.of_fst e9).brnRead.of_fst e18).brnRead.of_fst e27

theorem brnSats {id n} (h : Evolves False s x) : Evolves False s (x.brnSats id n) := h.ite h.bump.addFlag

theorem brnBroken {i p' r iters} (h : Evolves False s x) : Evolves False s (x.brnBroken i p' r iters) := h.brnComplete

theorem brnVector {i p' r j det mat srcs f} (h : Evolves False s x) : Evolves False s (x.brnVector i p' r j det mat srcs f) := by
  unfold State.brnVector
  split
  · next e4 =>
      split
      · exact ((h.brnMat.ite_fst h).of_fst e4).brnFault
      · extract_lets s1 _
        have h1 : Evolves False s s1 := ((h.brnMat.ite_fst h).of_fst e4).brnFree
        refine Evolves.ite h1.brnDetected ?_
        split
        · exact h1.brnSats.brnBroken
        · extract_lets s2 _
          have h2 : Evolves False s s2 := h1.brnSats
          split
          · exact h2.brnNext
          · exact h2

theorem execBrnSpmv {det} (h : Evolves False s x) : Advances s (execBrnSpmv det x) := h.brnStep fun _ _ _ _ _ h1 => h1.brnVector

theorem execBrnAxpby {det} (h : Evolves False s x) : Advances s (execBrnAxpby det x) := h.brnStep fun _ _ _ _ _ h1 => h1.brnVector

theorem execBrnClamp {det} (h : Evolves False s x) : Advances s (execBrnClamp det x) := h.brnStep fun _ _ _ _ _ h1 => h1.brnVector

theorem execBrnStepCopy {det} (h : Evolves False s x) : Advances s (execBrnStepCopy det x) := h.brnStep fun _ _ _ _ _ h1 => h1.brnVector

theorem brnFactor {p' j a built} (h : Evolves False s x) : Evolves False s (x.brnFactor p' j a built).1 := h.usedFree.brnWrite.ite_fst h

theorem brnSolveBegin {p' r j} (h : Evolves False s x) : Evolves False s (x.brnSolveBegin p' r j).1 := by
  unfold State.brnSolveBegin
  split
  · exact h
  · exact h.bump.addFlag.ite h

theorem brnSolved {i p' r j st x'} (h : Evolves False s x) : Evolves False s (x.brnSolved i p' r j st x') := by
  unfold State.brnSolved
  extract_lets s1 _ _
  have h1 : Evolves False s s1 := h.brnSats.bump
  split
  · exact h1.setProb
  · split
    · exact h1
    · exact h1.brnBroken.ite (h1.setProb.stoppedAt.ite h1.brnNext)

theorem execBrnSolve {env} (h : Evolves False s x) : Advances s (execBrnSolve env x) := by
  unfold Machine.execBrnSolve
  refine Evolves.brnStep h (fun _ _ _ _ _ h1 => ?_)
  extract_lets _ _
  split
  · next e4 =>
      extract_lets _ _ _
      split
      · next e8 => exact ((h1.brnSolveBegin.of_fst e4).setProb.brnMat.of_fst e8).brnFault
      · next e13 =>
          extract_lets _ _
          refine Evolves.ite ((h1.brnSolveBegin.of_fst e4).setProb.brnMat.of_fst e13).brnDetected ?_
          split
          · next e17 => exact (((h1.brnSolveBegin.of_fst e4).setProb.brnMat.of_fst e13).brnFactor.of_fst e17).brnFault
          · next e20 => exact (((h1.brnSolveBegin.of_fst e4).setProb.brnMat.of_fst e13).brnFactor.of_fst e20).brnFree.brnSolved

theorem execBrnLoop (h : Evolves False s x) : Advances s (execBrnLoop x) := h.brnStep fun _ _ _ _ _ h1 => h1.brnNext.ite h1.brnNext

theorem execBrnTest {det} (h : Evolves False s x) : Advances s (execBrnTest det x) := by
  unfold Machine.execBrnTest
  refine Evolves.brnStep h (fun _ _ _ _ _ h1 => ?_)
  extract_lets _ _ _ _ _
  refine Evolves.ite h1.brnDetected ?_
  split
  · exact h1.brnSats.brnBroken
  · exact h1.brnSats.brnNext

theorem brnDeliver {id path first words point taint} (h : Evolves False s x) : Evolves False s (x.brnDeliver id path first words point taint) :=
  h.feedPath.ite (h.upd.bump.addFlag.ite h.upd)

theorem brnOutput {i p' r j next} (h : Evolves False s x) : Evolves False s (x.brnOutput i p' r j next) := by
  unfold State.brnOutput
  extract_lets _ _ _ _ _ _ _ _
  refine Evolves.ite h.brnDetected ?_
  split
  · split
    · next e6 => exact (h.brnWrite.of_fst e6).brnFault
    · next e9 => exact (h.brnWrite.of_fst e9).brnFree.wroteOut.signal.brnNext
  · exact h.store.brnFree.wroteOut.signal.brnNext
  · exact h.brnDeliver.brnFree.wroteOut.signal.brnNext

theorem execBrnOut (h : Evolves False s x) : Advances s (execBrnOut x) := h.brnStep fun _ _ _ _ _ h1 => h1.brnOutput.ite h1.brnNext

theorem execBrnUpdateIn (h : Evolves False s x) : Advances s (execBrnUpdateIn x) := by
  unfold Machine.execBrnUpdateIn
  refine Evolves.brnStep h (fun _ _ _ _ _ h1 => ?_)
  split
  · next e3 => exact h1.brnInput.of_fst e3
  · next e6 =>
      extract_lets s1
      have h2 : Evolves False s s1 := (h1.brnInput.of_fst e6).brnFree
      split
      · exact h2
      · split
        · exact h2.brnNext
        · exact h2

theorem execBrnEnd (h : Evolves False s x) : Advances s (execBrnEnd x) := h.brnStep fun _ _ _ _ _ h1 => h1.brnComplete

theorem execBrnDeadline (h : Evolves False s x) : Advances s (execBrnDeadline x) := by
  unfold Machine.execBrnDeadline
  extract_lets _ _ src
  have h1 : Evolves False s src := h.brnNoAccess
  split
  · exact h.next
  · exact (h1.upd.wr.wr.ite h).setProb.stoppedAt.next

/-! ### Sys2Proof/Machine/Transport.lean -/

theorem rollAssoc {port f} (h : Evolves False s x) : Evolves False s (x.rollAssoc port f) := h.upd.wr.ite h

theorem receive {port f t run} (h : Evolves False s x) (hk0 : ∀ t, Evolves False s t → Evolves False s (run t)) : Evolves False s (x.receive port f t run) := by
  unfold State.receive
  split
  · exact h
  · exact h.bump
  · exact .ite (hk0 _ h.rollAssoc.upd) h

theorem execHostFrameDiscarded {port f} (h : Evolves False s x) : Advances s (execHostFrameDiscarded port f x) := by
  unfold Machine.execHostFrameDiscarded
  refine Evolves.next ?_
  split
  · exact h.bump
  · exact h

theorem sendStatus {port type} (h : Evolves False s x) : Evolves False s (x.sendStatus port type) := h.sendFrame

theorem takeAcks {f} (h : Evolves False s x) : Evolves False s (x.takeAcks f) := h.acked.acked

theorem sequence {bulk port f} (h : Evolves False s x) : Evolves False s (x.sequence bulk port f).1 :=
  h.setStream.moveStream.ite_fst (h.bump.sendStatus.ite_fst h.bump)

theorem reliable {bulk port f t run} (h : Evolves False s x) (hk0 : ∀ t a1, Evolves False s t → Evolves False s (run t a1)) : Evolves False s (x.reliable bulk port f t run) := by
  unfold State.reliable
  refine Evolves.receive h (fun _ h1 => ?_)
  split
  · next e3 => exact hk0 _ _ (h1.takeAcks.sequence.of_fst e3)
  · next e6 => exact h1.takeAcks.sequence.of_fst e6

theorem execAckHeartbeat (h : Evolves False s x) : Advances s (execAckHeartbeat x) := .ite h.sendStatus.next (.ite h.sendStatus.next h.next)

theorem execRetransmit {bulk} (h : Evolves False s x) : Advances s (execRetransmit bulk x) := by
  unfold Machine.execRetransmit
  extract_lets _ s1 _
  have h1 : Evolves False s s1 := h.setStream
  split
  · exact h.next
  · exact .ite (h1.failover.ite h1.resend).next h.next

theorem hostLinkDown {n} (h : Evolves False s x) : Evolves False s (x.hostLinkDown n) :=
  (h.setLink.wr.wr.setFnQuiet.ite h.setLink.wr.wr).failoverDue.ite h.setLink.failoverDue

theorem execHostLinkDown {port} (h : Evolves False s x) : Advances s (execHostLinkDown port x) := h.hostLinkDown.next

theorem endSilently {j} (h : Evolves False s x) : Evolves False s (x.endSilently j) := h.stopJob.chargeJob.dropJob

theorem clearStaging (h : Evolves False s x) : Evolves False s x.clearStaging := h.eraseRange.eraseRange

theorem openSession {sid} (h : Evolves False s x) : Evolves False s (x.openSession sid) := by
  unfold State.openSession
  extract_lets _ _ _ s2 _ _ _ s4 _
  have h3 : Evolves False s s2 := (h.foldl fun _ _ h2 => h2.endSilently).chanClear
  have h5 : Evolves False s s4 := h3.upd.foldl fun _ _ h4 => h4.wr.wr.wr.wr
  exact (h5.clearStaging.ite h5).wr.wr

theorem hostBack (h : Evolves False s x) : Evolves False s x.hostBack := h.wr.upd.clearCause.raise.failoverDue.resend.resend.pump.pump

theorem execHello {port f} (h : Evolves False s x) : Advances s (execHello port f x) := by
  unfold Machine.execHello
  refine Evolves.next ?_
  refine Evolves.receive h (fun _ h1 => ?_)
  extract_lets _ _ _ _ s2 _ _
  have h2 : Evolves False s s2 := h1.openSession
  exact (h1.ite ((h1.hostBack.ite h1).takeAcks.upd.ite (h2.hostBack.ite h2).grantCredits.upd)).sendStatus

theorem execHeartbeat {port f} (h : Evolves False s x) : Advances s (execHeartbeat port f x) :=
  (h.receive fun _ h1 => h1.sendStatus.ite (h1.takeAcks.upd.ite h1.takeAcks)).next

theorem execDeviceHeartbeat (h : Evolves False s x) : Advances s (execDeviceHeartbeat x) :=
  .ite ((h.upd.sendStatus.ite h.upd).sendStatus.ite (h.upd.sendStatus.ite h.upd)).next h.next

theorem execHostLost (h : Evolves False s x) : Advances s (execHostLost x) := .ite h.wr.bump.raise.requestHeld.next h.next

theorem execSessionlessHello {port} (h : Evolves False s x) : Advances s (execSessionlessHello port x) := .ite h.upd.sendStatus.next h.next

theorem gatherEvents {a0 a2} (h : Evolves False s x) : Evolves False s (State.gatherEvents a0 x a2).1 := by
  induction a0 generalizing x a2 with
  | zero => exact h
  | succ _ ih =>
    rw [State.gatherEvents]
    split
    · exact h
    · split
      · exact h
      · next e12 => exact (ih (h.dequeue _ e12)).ite_fst (((h.dequeue _ e12).ite_fst h).ite_fst (ih (h.dequeue _ e12)))

theorem execEvent (h : Evolves False s x) : Advances s (execEvent x) := by
  unfold Machine.execEvent
  refine .ite h.next ?_
  split
  · exact h.upd.sendReliable.next
  · exact (h.gatherEvents.ite h.gatherEvents.sendReliable).next

theorem sendStream {l} (h : Evolves False s x) : Evolves False s (x.sendStream l) := h.upd.sendReliable.ite h.sendFrame

theorem execEpochStream {queue} (h : Evolves False s x) : Advances s (execEpochStream queue x) := by
  unfold Machine.execEpochStream
  extract_lets _ _ _
  refine .ite h.next ?_
  refine .ite ?_ ?_
  · split
    · exact .ite h.upd.sendStream.next h.next
    · split
      · exact h.next
      · next e13 => exact .ite (h.dequeue _ e13).sendStream.next h.next
  · split
    · exact h.next
    · exact .ite h.setQueue.sendStream.next h.setQueue.bump.next

theorem stopPush {xfer status last} (h : Evolves False s x) : Evolves False s (x.stopPush xfer status last) := (h.chanClear.ite h).endPush.bulkGo

theorem takePush {p' det} (h : Evolves False s x) : Evolves False s (x.takePush p' det) := by
  unfold State.takePush
  extract_lets _ _ _ _ _ _ s2
  have h1 : Evolves False s s2 := by
    unfold s2
    refine Evolves.ite (h.upd.upd.ite h.upd) ?_
    split
    · exact h.upd.stopPush
    · exact h.upd.upd.bulkGo
  exact h1.grantCredits

theorem execBulkPush {port f det} (h : Evolves False s x) : Advances s (execBulkPush port f det x) :=
  ((h.receive fun _ h1 => h1.takeAcks.bump).ite (h.reliable fun _ _ h2 => h2.takePush)).next

theorem execBulkPull {port f det} (h : Evolves False s x) : Advances s (execBulkPull port f det x) := by
  unfold Machine.execBulkPull
  refine Evolves.next ?_
  refine Evolves.reliable h (fun _ _ h1 => ?_)
  split
  · exact h1.sendReport
  · exact h1.ite h1.upd.bulkGo

theorem execBulkCredit {port f} (h : Evolves False s x) : Advances s (execBulkCredit port f x) :=
  (h.reliable fun _ _ h1 => h1.upd.bulkGo.ite h1).next

/-! ### Sys2Proof/Machine/Taint.lean -/

theorem mapTaints {f} (h : Evolves False s x) : Evolves False s (State.mapTaints f x) := h.upd

theorem releaseConfirm (h : Evolves False s x) : Evolves False s x.releaseConfirm := h.upd.foldl fun _ _ h1 => h1.writeRecord.signal

theorem releaseWords (h : Evolves False s x) : Evolves False s x.releaseWords := by
  unfold State.releaseWords
  extract_lets _ _ _
  refine Evolves.foldl h.upd (fun _ _ h1 => ?_)
  split
  · exact h1
  · exact h1.feedPath

theorem commitThrough {m k} (h : Evolves False s x) : Evolves False s (x.commitThrough m k) := h.wr.upd.mapTaints.releaseConfirm.releaseWords

theorem retract {m k} (h : Evolves False s x) : Evolves False s (x.retract m k) := by
  unfold State.retract
  extract_lets _ _ _ _ _ _ _ _ _ _ _ s4 _
  have h4 : Evolves False s s4 := (h.upd.upd.foldl fun _ _ h2 => h2.writeRecord).foldl fun _ _ h3 => h3.writeRecord
  exact h.upd.ite (h4.foldl fun _ _ h6 => h6.retractJob).bump.raise

theorem verdictOf {m k retract} (h : Evolves False s x) : Evolves False s (x.verdictOf m k retract) := h.retract.ite h.commitThrough

/-! ### Sys2Proof/Machine/Ring.lean -/

theorem setLane {i st} (h : Evolves False s x) : Evolves False s (x.setLane i st) := h.wr.ite h.wr.raise

theorem dropLane {i} (h : Evolves False s x) : Evolves False s (x.dropLane i) := h.sendCtrl.setLane.wr.upd.bump

theorem endColl {id status detail} (h : Evolves False s x) : Evolves False s (x.endColl id status detail) := by
  unfold State.endColl
  split
  · exact h.stopJob.finishQuiet
  · exact h.setColls

theorem retractGone {m} (h : Evolves False s x) : Evolves False s (x.retractGone m) := (h.upd.ite h).foldl fun _ _ h1 => h1.retract

theorem formed {l closed gen} (h : Evolves False s x) : Evolves False s (x.formed l closed gen) := by
  unfold State.formed
  extract_lets _ _ s1 _ _ _ s3 _ _ _ s6 _ _
  have h2 : Evolves False s s1 := h.foldl fun _ _ h1 => h1.endColl
  have h3 : Evolves False s s3 := h2.upd.wr.wr.wr
  have h5 : Evolves False s s6 := h3.wr.wr.wr.wr.bump.foldl fun _ _ h4 => h4.retractGone.kvGone
  exact h5.upd.raise

theorem completeCensus {l closed} (h : Evolves False s x) : Evolves False s (x.completeCensus l closed) := by
  unfold State.completeCensus
  exact h.sendCtrl.formed

theorem beginCensus (h : Evolves False s x) : Evolves False s x.beginCensus := h.upd.sendCtrl.ite h.upd.completeCensus

theorem neighbourChanged (h : Evolves False s x) : Evolves False s x.neighbourChanged := h.beginCensus.ite h

theorem censusIn {p'} (h : Evolves False s x) : Evolves False s (x.censusIn p') := by
  unfold State.censusIn
  extract_lets l _ _ _
  clear_value l
  split
  · exact h
  · exact (h.completeCensus.ite h).ite (h.ite (h.upd.sendCtrl.ite h.upd.completeCensus))

theorem formedIn {p' l} (h : Evolves False s x) : Evolves False s (x.formedIn p' l) := h.ite h.sendCtrl.formed

theorem dropNeigh {p'} (h : Evolves False s x) : Evolves False s (x.dropNeigh p') := h.upd.neighbourChanged.ite h

theorem helloIn {p' l} (h : Evolves False s x) : Evolves False s (x.helloIn p' l) :=
  h.raise.ite (h.raise.ite (h.upd.upd.ite h.upd.upd.neighbourChanged))

theorem showPort {p'} (h : Evolves False s x) : Evolves False s (x.showPort p') := (h.ite h.setTx.setRx.fnReady).ite (h.setFnQuiet.ite h).dropNeigh

theorem execRingHello {port} (h : Evolves False s x) : Advances s (execRingHello port x) := .ite h.upd.sendCtrl.next h.next

theorem execNeighbourLoss {port} (h : Evolves False s x) : Advances s (execNeighbourLoss port x) :=
  .ite h.next (.ite h.showPort.next (.ite h.dropNeigh.next h.next))

theorem execCensusTimeout (h : Evolves False s x) : Advances s (execCensusTimeout x) := by
  unfold Machine.execCensusTimeout
  split
  · exact .ite h.beginCensus.next h.next
  · exact h.next

theorem execLaneRetrain {lane cause} (h : Evolves False s x) : Advances s (execLaneRetrain lane cause x) := by
  unfold Machine.execLaneRetrain
  extract_lets _ _ _ _
  refine .ite h.next ?_
  split
  · exact h.upd.showPort.next
  · exact .ite h.upd.dropLane.showPort.next h.upd.showPort.next
  · exact .ite h.next (.ite h.bump.bump.next h.bump.dropLane.showPort.next)

theorem nextRetrain {p'} (h : Evolves False s x) : Evolves False s (x.nextRetrain p') := by
  unfold State.nextRetrain
  extract_lets _
  refine Evolves.ite h ?_
  split
  · exact h.dropLane
  · exact h

theorem retrainLane {i} (h : Evolves False s x) : Evolves False s (x.retrainLane i) := h.wr.upd.setLane.ite h.wr.setLane.bump

theorem laneOffline {i} (h : Evolves False s x) : Evolves False s (x.laneOffline i) := by
  unfold State.laneOffline
  exact h.sendCtrl.raise.nextRetrain.showPort

theorem portFailed {p'} (h : Evolves False s x) : Evolves False s (x.portFailed p') := h.setFn.ite h

theorem execPrbsRunDone {lane errors} (h : Evolves False s x) : Advances s (execPrbsRunDone lane errors x) :=
  .ite h.next (.ite h.upd.setLane.wr.sendCtrl.nextRetrain.showPort.next (.ite h.wr.next h.wr.offlineNow.setLane.nextRetrain.showPort.portFailed.next))

theorem portDown {p'} (h : Evolves False s x) : Evolves False s (x.portDown p') := by
  unfold State.portDown
  extract_lets s1
  have h1 : Evolves False s s1 := h.foldl fun _ _ h1 => h1.dropLane.ite h1
  exact h1.showPort

theorem replay {p'} (h : Evolves False s x) : Evolves False s (x.replay p') := by
  unfold State.replay
  extract_lets _
  split
  · exact h
  · extract_lets _ _ s2
    have h2 : Evolves False s s2 := h.setTx.bump.foldl fun _ _ h1 => h1.flitOut
    exact h2.portDown.ite h2

theorem execFlitReplay {port} (h : Evolves False s x) : Advances s (execFlitReplay port x) := .ite h.replay.next h.next

theorem flitAck {p' ack} (h : Evolves False s x) : Evolves False s (x.flitAck p' ack) := h.setTx.ite h

theorem flitCredit {p' c d} (h : Evolves False s x) : Evolves False s (x.flitCredit p' c d) := h.setTx.drainPort

theorem broadcast {l} (h : Evolves False s x) : Evolves False s (x.broadcast l) := h.sendCtrl.ite h.sendCtrl.sendCtrl

theorem execRoleLoad {job} (h : Evolves False s x) : Advances s (execRoleLoad job x) := by
  unfold Machine.execRoleLoad
  split
  · exact h.next
  · exact (h.runOr fun _ h1 => h1.finishOk.ite h1.upd.wr.beginCensus.finishOk).next

/-! ### Sys2Proof/Machine/RingColl.lean -/

theorem joinColls {j} (h : Evolves False s x) : Evolves False s (x.joinColls j) := h.setColls

theorem sendXfer {j p' x'} (h : Evolves False s x) : Evolves False s (x.sendXfer j p' x') := (h.noteSent.addFlag.ite h.noteSent).xferOut

theorem collReadLoop {j va n det a4 a6} (h : Evolves False s x) : Evolves False s (State.collReadLoop j va n det a4 x a6).1 := by
  induction a4 generalizing x a6 with
  | zero => exact h
  | succ _ ih =>
    rw [State.collReadLoop]
    refine Evolves.ite_fst h ?_
    extract_lets _ _ _
    split
    · next e4 => exact h.translateOn.of_fst e4
    · next e8 =>
        split
        · next e12 => exact (h.translateOn.of_fst e8).ddrGet.of_fst e12
        · next e16 => exact ih ((h.translateOn.of_fst e8).ddrGet.of_fst e16)

theorem collRead {j va n det} (h : Evolves False s x) : Evolves False s (x.collRead j va n det).1 := h.collReadLoop

theorem collFault {j kind va} (h : Evolves False s x) : Evolves False s (x.collFault j kind va) := h.chanStart.chanFault

theorem modColl {id f} (h : Evolves False s x) : Evolves False s (x.modColl id f) := h.upd

theorem collWrite {j va l} (h : Evolves False s x) : Evolves False s (x.collWrite j va l).1 := by
  unfold State.collWrite
  split
  · next e6 => exact (h.vwrite.of_fst e6).collFault
  · next e10 => exact (h.vwrite.of_fst e10).wroteOut

theorem collDone {j} (h : Evolves False s x) : Evolves False s (x.collDone j) := h.setColls.freeChans.finishNow

theorem collFirst {j n r det} (h : Evolves False s x) : Evolves False s (x.collFirst j n r det) := by
  unfold State.collFirst
  extract_lets _ _ _ _ _ _ _ _
  split
  · next e4 => exact (h.collRead.of_fst e4).endColl
  · next e9 => exact (h.collRead.of_fst e9).collFault
  · next e13 =>
      split
      · next e16 => exact ((h.collRead.of_fst e13).collWrite.ite_fst (h.collRead.of_fst e13)).of_fst e16
      · next e19 =>
          extract_lets s1 _
          have h1 : Evolves False s s1 := (((h.collRead.of_fst e13).collWrite.ite_fst (h.collRead.of_fst e13)).of_fst e19).modColl
          exact h1.ite h1.sendXfer

theorem collUse {j n r x' det} (h : Evolves False s x) : Evolves False s (x.collUse j n r x' det) := by
  unfold State.collUse
  extract_lets _ _ _ _ _ _ _ _ s1 _ _
  have h1 : Evolves False s s1 := h.addFlag.ite h
  refine Evolves.ite h1.endColl ?_
  refine Evolves.ite h1.absorb ?_
  refine .ite ?_ ?_
  · split
    · next e4 => exact (h1.collRead.of_fst e4).endColl
    · next e9 => exact (h1.collRead.of_fst e9).collFault
    · next e13 =>
        extract_lets _ s2 _ s3
        have h2 : Evolves False s s2 := (h1.collRead.of_fst e13).addFlag.ite (h1.collRead.of_fst e13)
        have h3 : Evolves False s s3 := h2.modColl.absorb
        refine .ite ?_ h3.sendXfer
        split
        · next e16 => exact h2.collWrite.of_fst e16
        · next e19 => exact (h2.collWrite.of_fst e19).modColl.absorb
  · split
    · next e22 => exact h1.collWrite.of_fst e22
    · next e25 => exact (h1.collWrite.of_fst e25).modColl.absorb.sendXfer.ite (h1.collWrite.of_fst e25).modColl.absorb

theorem collRun {id a1 a3} (h : Evolves False s x) : Evolves False s (State.collRun id a1 x a3) := by
  induction a1 generalizing x a3 with
  | zero => exact h
  | succ _ ih =>
    rw [State.collRun]
    split
    · refine Evolves.ite h ?_
      extract_lets _ _
      refine Evolves.ite (ih h.collFirst) ?_
      refine Evolves.ite h.collDone ?_
      split
      · exact ih h.collUse
      · exact h
    · exact h

theorem collGo {op job det} (h : Evolves False s x) : Evolves False s (x.collGo op job det) := by
  unfold State.collGo
  split
  · exact h
  · refine Evolves.ite h ?_
    refine Evolves.ite h.collRun ?_
    refine Evolves.ite h ?_
    refine Evolves.ite h.finishOk ?_
    split
    · exact h
    · refine Evolves.ite h ?_
      split
      · exact h.setColls.refuse
      · exact h.upd.modColl.setJob.upd.chanStart.collRun

theorem execAllGather {go} (h : Evolves False s x) : Advances s (execAllGather go x) := h.collGo.next

theorem execReduceScatter {go} (h : Evolves False s x) : Advances s (execReduceScatter go x) := h.collGo.next

theorem execRingPass {go} (h : Evolves False s x) : Advances s (execRingPass go x) := h.collGo.next

theorem execJoinTimeout {job} (h : Evolves False s x) : Advances s (execJoinTimeout job x) := by
  unfold Machine.execJoinTimeout
  split
  · split
    · exact .ite h.endColl.next h.next
    · exact h.next
  · exact h.next

theorem execCollectiveStall {job} (h : Evolves False s x) : Advances s (execCollectiveStall job x) := by
  unfold Machine.execCollectiveStall
  split
  · exact .ite h.endColl.next h.next
  · exact h.next

theorem xferIn {x'} (h : Evolves False s x) : Evolves False s (x.xferIn x') := by
  unfold State.xferIn
  split
  · exact h.modColl.collRun
  · exact h.upd

theorem xferWhole {p' x'} (h : Evolves False s x) : Evolves False s (x.xferWhole p' x') := h.ite (h.kvIn.ite h.xferIn)

theorem dataIn {p' l} (h : Evolves False s x) : Evolves False s (x.dataIn p' l) := (h.sendFlit.ite h).setRx.xferWhole.ite (h.sendFlit.ite h).setRx

theorem endContext {ctx status} (h : Evolves False s x) : Evolves False s (x.endContext ctx status) :=
  h.upd.foldl fun _ _ h1 => h1.stopJob.finishQuiet

theorem digestMismatch {i group action step digest} (h : Evolves False s x) : Evolves False s (x.digestMismatch i group action step digest) :=
  h.raise.record

theorem fromMirror {i} (h : Evolves False s x) : Evolves False s (x.fromMirror i) := by
  unfold State.fromMirror
  extract_lets _ _ _
  refine Evolves.foldl h (fun _ _ h1 => ?_)
  split
  · exact h1.store
  · exact h1

theorem reload {i fromMirror} (h : Evolves False s x) : Evolves False s (x.reload i fromMirror) := (h.fromMirror.ite h).upd.upd.wr

theorem regionLost {i} (h : Evolves False s x) : Evolves False s (x.regionLost i) := h.fromMirror.ite h.weightLost.wr.endContext

theorem regionSuspended {i} (h : Evolves False s x) : Evolves False s (x.regionSuspended i) := h.reload.ite h.weightLost.wr.endContext

theorem compareDigests {i step} (h : Evolves False s x) : Evolves False s (x.compareDigests i step) := by
  unfold State.compareDigests
  extract_lets _ _ _ _ _ _ s2
  have h1 : Evolves False s s2 := h.upd.bump.bump
  split
  · exact h1
  · refine Evolves.ite h1 ?_
    split
    · exact h1.ite h1.digestMismatch.bump.wr.endContext
    · exact h1.digestMismatch.regionSuspended

theorem compareReady {group step} (h : Evolves False s x) : Evolves False s (x.compareReady group step) :=
  h.foldl fun _ _ h1 => h1.compareDigests.ite h1

theorem holdDigest {d} (h : Evolves False s x) : Evolves False s (x.holdDigest d) := h.upd

theorem checkIn {p' l} (h : Evolves False s x) : Evolves False s (x.checkIn p' l) :=
  h.ite (h.sendCtrl.verdictOf.ite (h.sendCtrl.holdDigest.compareReady.ite h.sendCtrl))

theorem useFlit {p' type code l} (h : Evolves False s x) : Evolves False s (x.useFlit p' type code l) := by
  unfold State.useFlit
  refine Evolves.ite h.dataIn ?_
  split
  · exact h.helloIn
  · exact h.dropLane.showPort.ite h
  · exact h.censusIn
  · exact h.formedIn
  · exact h.checkIn
  · exact h

theorem refuseFlit {p'} (h : Evolves False s x) : Evolves False s (x.refuseFlit p') := h.bump.ite h.bump.setRx.idleFlit

theorem execFlitRx {port flit} (h : Evolves False s x) : Advances s (execFlitRx port flit x) := by
  unfold Machine.execFlitRx
  extract_lets _ _ _ s1 _ _ _
  have h1 : Evolves False s s1 := h.flitAck.flitCredit
  exact .ite h.next (.ite h.refuseFlit.next (.ite h.refuseFlit.next (.ite (h1.replay.ite h1).next h1.setRx.idleFlit.useFlit.next)))

theorem closeEpoch {e' retract} (h : Evolves False s x) : Evolves False s (x.closeEpoch e' retract) := h.upd.broadcast.verdictOf.upd

theorem execCheckEpochClose (h : Evolves False s x) : Advances s (execCheckEpochClose x) := by
  unfold Machine.execCheckEpochClose
  split
  · exact h.next
  · exact .ite h.closeEpoch.next h.next

theorem execCheckLimitExpiry (h : Evolves False s x) : Advances s (execCheckLimitExpiry x) := by
  unfold Machine.execCheckLimitExpiry
  split
  · exact h.next
  · exact .ite h.closeEpoch.next h.next

/-! ### Sys2Proof/Machine/Stipple.lean -/

theorem stpOffline (h : Evolves False s x) : Evolves False s x.stpOffline := h.foldl fun _ _ h1 => h1.finishQuiet

theorem execStippleJobStart (h : Evolves False s x) : Advances s (execStippleJobStart x) := by
  unfold Machine.execStippleJobStart
  refine .ite h.stpOffline.next ?_
  split
  · exact h.next
  · refine .ite h.next ?_
    refine .ite h.next ?_
    refine .ite h.beginJob.bump.finishNow.next ?_
    split
    · exact h.bump.refuse.next
    · exact h.upd.wr.wr.wr.beginJob.next

theorem stpHit {pa} (h : Evolves False s x) : Evolves False s (x.stpHit pa) := h.ddrDetect.upd

theorem stpGet {ctx va n} (h : Evolves False s x) : Evolves False s (x.stpGet ctx va n).1 := by
  unfold State.stpGet
  split
  · next e5 =>
      split
      · exact h.vread.of_fst e5
      · exact (h.vread.of_fst e5).stpHit.ite_fst (h.vread.of_fst e5)

theorem stpBuffer {e'} (h : Evolves False s x) : Evolves False s (x.stpBuffer e').1 := h.stpHit.ite_fst h

theorem stpEnd {j status result detail dropped} (h : Evolves False s x) : Evolves False s (x.stpEnd j status result detail dropped) :=
  (h.addFlag.ite h).freeChans.stpIdle.bump.wroteOut.finishNow

theorem stpFault {j k va done} (h : Evolves False s x) : Evolves False s (x.stpFault j k va done) := h.upd.chanStart.chanFault

theorem stpAgain {j} (h : Evolves False s x) : Evolves False s (x.stpAgain j) := h.upd.wr.bump.bump.addFlag.ite h.upd.stpSpoil.stpEnd

theorem stpWrites {ctx a1} (h : Evolves False s x) : Evolves False s (State.stpWrites ctx a1 x).1 := by
  induction a1 generalizing x with
  | nil => exact h
  | cons _ _ ih =>
    rw [State.stpWrites]
    split
    · next e4 => exact ih (h.vwrite.of_fst e4)
    · next e10 => exact h.vwrite.of_fst e10

theorem stpPut {j o} (h : Evolves False s x) : Evolves False s (x.stpPut j o) := by
  unfold State.stpPut
  split
  · next e6 => exact (h.stpWrites.of_fst e6).upd.stpFault
  · next e9 => exact ((h.stpWrites.of_fst e9).ite (h.stpWrites.of_fst e9).stpSpoil).stpEnd

theorem stpRun {op det compute} (h : Evolves False s x) (hk0 : ∀ t a1, Evolves False s t → Evolves False s (compute t a1).1) : Evolves False s (x.stpRun op det compute) := by
  unfold State.stpRun
  split
  · exact h
  · split
    · exact h.stpPut
    · split
      · next e15 => exact ((hk0 _ _ h).of_fst e15).stpFault
      · next e19 =>
          extract_lets _ s1
          have h1 : Evolves False s s1 := ((hk0 _ _ h).of_fst e19).upd
          split
          · exact h1.sramDetect.usedFree.stpAgain
          · exact h1.ddrDetect.stpAgain
          · exact h1.ddrDetect.stpAgain.ite h1.ddrDetect.stpPut
          · exact h1.stpAgain.ite h1.stpPut

theorem workBytes {n} (h : Evolves False s x) : Evolves False s (x.workBytes n).1 := h.upd

theorem sourcePoints {ctx p' i} (h : Evolves False s x) : Evolves False s (x.sourcePoints ctx p' i).1 := by
  suffices H : ∀ f, State.sourcePoints = f → Evolves False s (f x ctx p' i).1 from H _ rfl
  intro f e
  delta State.sourcePoints at e
  subst e
  beta_reduce
  extract_lets o sweep ready
  have hb := h.stpBuffer (e' := fld p' (o + 8) 4)
  have hg := h.stpGet (ctx := ctx) (va := fld p' (o + 8) 8) (n := 24 * fld p' (o + 4) 4)
  refine ite_fst ?_ ?_
  · split
    next e => rw [e] at hb; exact hb
  · split
    · next e => rw [e] at hg; exact hg
    · next e => rw [e] at hg; exact hg

theorem allPoints {ctx p'} (h : Evolves False s x) : Evolves False s (x.allPoints ctx p').1 := by
  unfold State.allPoints
  refine Evolves.foldl_fst h (fun _ _ h1 => ?_)
  split
  · exact h1
  · split
    · next e10 => exact h1.sourcePoints.of_fst e10
    · next e14 => exact h1.sourcePoints.of_fst e14

theorem countVoxels {t} (h : Evolves False s x) : Evolves False s (x.countVoxels t) := h.bump.bump.bump.bump.foldl fun _ _ h1 => h1.bump

theorem voxelise {j} (h : Evolves False s x) : Evolves False s (x.voxelise j).1 := by
  unfold State.voxelise
  extract_lets _
  split
  · next e4 => exact h.allPoints.of_fst e4
  · next e8 => exact (h.allPoints.of_fst e8).countVoxels.workBytes

theorem execVoxelise {det} (h : Evolves False s x) : Advances s (execVoxelise det x) := (h.stpRun fun _ _ h1 => h1.voxelise).next

theorem sortJob {j} (h : Evolves False s x) : Evolves False s (x.sortJob j).1 := by
  unfold State.sortJob
  extract_lets _ _ _
  split
  · next e4 => exact h.stpGet.of_fst e4
  · next e8 => exact (h.stpGet.of_fst e8).bump.workBytes

theorem execSort {det} (h : Evolves False s x) : Advances s (execSort det x) := (h.stpRun fun _ _ h1 => h1.sortJob).next

theorem neighbours {j} (h : Evolves False s x) : Evolves False s (x.neighbours j).1 := by
  unfold State.neighbours
  extract_lets _ _ _ _
  split
  · next e4 => exact h.stpGet.of_fst e4
  · next e8 =>
      extract_lets _ _ _
      refine Evolves.ite_fst (h.stpGet.of_fst e8) ?_
      refine Evolves.ite_fst (h.stpGet.of_fst e8) ?_
      split
      · next e12 => exact (h.stpGet.of_fst e8).stpGet.of_fst e12
      · next e16 =>
          split
          · next e20 => exact ((h.stpGet.of_fst e8).stpGet.of_fst e16).stpGet.of_fst e20
          · next e24 =>
              split
              · next e28 => exact ((((h.stpGet.of_fst e8).stpGet.of_fst e16).stpGet.of_fst e24).ite_fst (((h.stpGet.of_fst e8).stpGet.of_fst e16).stpGet.of_fst e24).stpGet).of_fst e28
              · next e32 => exact (((((h.stpGet.of_fst e8).stpGet.of_fst e16).stpGet.of_fst e24).ite_fst (((h.stpGet.of_fst e8).stpGet.of_fst e16).stpGet.of_fst e24).stpGet).of_fst e32).bump

theorem execNeighbours {det} (h : Evolves False s x) : Advances s (execNeighbours det x) := (h.stpRun fun _ _ h1 => h1.neighbours).next

theorem ruleBook {j} (h : Evolves False s x) : Evolves False s (x.ruleBook j).1 := by
  unfold State.ruleBook
  extract_lets _ _ _ _ _ _
  split
  · next e4 => exact h.stpGet.of_fst e4
  · next e8 => exact (h.stpGet.of_fst e8).ite_fst ((h.stpGet.of_fst e8).usedFree.ite (h.stpGet.of_fst e8)).bump.workBytes

theorem execRulebook {det} (h : Evolves False s x) : Advances s (execRulebook det x) := (h.stpRun fun _ _ h1 => h1.ruleBook).next

/-! ### Sys2Proof/Machine/Proof.lean -/

theorem execContainment {code unit} (h : Evolves False s x) : Advances s (execContainment code unit x) :=
  .ite h.next (.ite (h.coldStart.ite h).next h.contain.next)

theorem execSupervisorMismatch (h : Evolves False s x) : Advances s (execSupervisorMismatch x) := (h.coldStart.ite h).next

theorem setSlots {p' l} (h : Evolves False s x) : Evolves False s (x.setSlots p' l) := h.setPlate

theorem proofVerdict {p' r checker arbiter verdict} (h : Evolves False s x) : Evolves False s (x.proofVerdict p' r checker arbiter verdict) := by
  unfold State.proofVerdict
  extract_lets _ _ s1 s2 s3 _ s4 _ _ s6
  have h1 : Evolves False s s1 := h.raise
  have h2 : Evolves False s s2 := h1.histEvent.ite h1
  have h3 : Evolves False s s3 := h2.histEvent.ite h2
  have h4 : Evolves False s s4 := h3.record
  have h5 : Evolves False s s6 := h4.upd.wr.wr.wr.wr
  refine Evolves.ite h4.upd ?_
  split
  · exact h5
  · exact h5.upd

theorem execProofCheck {plate slot upset} (h : Evolves False s x) : Advances s (execProofCheck plate slot upset x) := by
  unfold Machine.execProofCheck
  extract_lets _ _ _ s2
  have h1 : Evolves False s s2 := h.bump.bump
  split
  · split
    · exact .ite h.bump.setSlots.next (.ite h1.setSlots.proofVerdict.next h1.setSlots.next)
    · exact h.next
  · exact h.next

theorem execProofArbitrate {plate slot upset} (h : Evolves False s x) : Advances s (execProofArbitrate plate slot upset x) := by
  unfold Machine.execProofArbitrate
  extract_lets _ _
  split
  · split
    · exact h.next
    · split
      · exact h.setSlots.proofVerdict.next
      · split
        · exact h.next
        · exact h.setSlots.proofVerdict.next
  · exact h.next

theorem execDigestCompute {region} (h : Evolves False s x) : Advances s (execDigestCompute region x) := by
  unfold Machine.execDigestCompute
  extract_lets _ _ _ _ _ _ _ _ s2 s3 _ s4 s5 _ _
  have h1 : Evolves False s s2 := h.bump.upd
  have h2 : Evolves False s s3 := h1.ite h1.digestMismatch.regionLost
  have h3 : Evolves False s s4 := h2.broadcast.ite h2
  have h4 : Evolves False s s5 := h3.holdDigest
  exact .ite h.next (.ite h2.next h4.upd.compareReady.next)

theorem execDigestWaitExpiry {region} (h : Evolves False s x) : Advances s (execDigestWaitExpiry region x) := by
  unfold Machine.execDigestWaitExpiry
  split
  · exact h.compareDigests.next
  · exact h.next

theorem putRegion {i ctx g} (h : Evolves False s x) : Evolves False s (x.putRegion i ctx g) := h.upd.wr.wr

theorem execRegionSet {job} (h : Evolves False s x) : Advances s (execRegionSet job x) := by
  unfold Machine.execRegionSet
  split
  · exact h.next
  · extract_lets _ _ _ _ _ _ _
    refine Evolves.next ?_
    refine Evolves.runOr h (fun _ h1 => ?_)
    refine Evolves.ite h1.finishOk ?_
    refine Evolves.ite h1.putRegion.finishOk ?_
    split
    · exact h1.refuse
    · exact h1.putRegion.putRegion.finishOk

theorem execRegionClear {job} (h : Evolves False s x) : Advances s (execRegionClear job x) := by
  unfold Machine.execRegionClear
  split
  · exact h.next
  · exact (h.runOr fun _ h1 => h1.upd.wr.wr.finishOk).next

theorem execReload {job} (h : Evolves False s x) : Advances s (execReload job x) := by
  unfold Machine.execReload
  split
  · exact h.next
  · exact (h.runOr fun _ h1 => h1.reload.finishOk).next

theorem execRegionVerify {region} (h : Evolves False s x) : Advances s (execRegionVerify region x) := by
  unfold Machine.execRegionVerify
  extract_lets _ _
  split
  · exact h.next
  · exact .ite h.next (.ite h.upd.raise.wr.wr.next h.upd.raise.upd.next)

theorem beginTest {u} (h : Evolves False s x) : Evolves False s (x.beginTest u) := h.setUnit.ite (h.changeUnit.dropLane.showPort.ite h.changeUnit)

theorem leaveTest {u pass} (h : Evolves False s x) : Evolves False s (x.leaveTest u pass) := by
  unfold State.leaveTest
  refine Evolves.ite h.setUnit ?_
  extract_lets _ _ _ s2 s3
  have h1 : Evolves False s s2 := (h.upd.setLane.ite h).changeUnit
  have h2 : Evolves False s s3 := h1.eraseRange.ite h1
  exact h2.nextRetrain.showPort.ite h2

theorem execFieldTest {job} (h : Evolves False s x) : Advances s (execFieldTest job x) := by
  unfold Machine.execFieldTest
  split
  · exact h.next
  · exact .ite h.refuse.next (.ite h.next (h.foldl fun _ _ h1 => h1.beginTest).upd.setJob.next)

theorem afterOffline {u} (h : Evolves False s x) : Evolves False s (x.afterOffline u) := by
  unfold State.afterOffline
  split
  · exact h.stpOffline
  · exact h.brnOffline
  · exact h.laneOffline
  · exact h

theorem execFieldTestDone {unit failSub} (h : Evolves False s x) : Advances s (execFieldTestDone unit failSub x) := by
  unfold Machine.execFieldTestDone
  extract_lets _ _
  split
  · exact h.next
  · extract_lets _ s2 _ _ _ _
    have h1 : Evolves False s s2 := by
      unfold s2
      split
      · exact h.bump.leaveTest
      · exact (h.bump.histFailed.record.leaveTest.wr.ite h.bump.histFailed.record.leaveTest).afterOffline
    refine .ite ?_ h1.upd.next
    split
    · exact h1.upd.finish.next
    · exact h1.upd.next

theorem execOffline {job} (h : Evolves False s x) : Advances s (execOffline job x) := by
  unfold Machine.execOffline
  split
  · exact h.next
  · exact (h.runOr fun _ h1 => (h1.foldl fun _ _ h2 => h2.ite h2.takeOffline.afterOffline).finishOk).next

theorem execOnline {job} (h : Evolves False s x) : Advances s (execOnline job x) := by
  unfold Machine.execOnline
  split
  · exact h.next
  · exact (h.runOr fun _ h1 => (h1.foldl fun _ _ h2 => h2.onlineNow.retrainLane.ite h2.onlineNow).finishOk).next

theorem execHistory {job} (h : Evolves False s x) : Advances s (execHistory job x) := by
  unfold Machine.execHistory
  split
  · exact h.next
  · refine .ite h.next ?_
    refine .ite h.finishOk.next ?_
    extract_lets _ _
    split
    · next e11 => exact (h.vwrite.of_fst e11).setJob.upd.chanStart.chanFault.next
    · next e15 => exact (h.vwrite.of_fst e15).freeChans.wroteOut.finishNow.next

theorem execEventAgeout {unit} (h : Evolves False s x) : Advances s (execEventAgeout unit x) :=
  .ite h.next (.ite (h.setClass (x.classOf_of_permanent)).next h.next)

/-! ### Sys2Proof/Machine/Accept.lean -/

theorem take {q d} (h : Evolves False s x) : Evolves False s (x.take q d) := by
  unfold State.take
  extract_lets _ _ _
  split
  · exact h.upd.refuse
  · split
    · exact h.upd.bump.refuse
    · split
      · exact (h.upd.bump.ite h.upd).refuse
      · exact h.upd.upd.showCtx.joinColls.ite h.upd.upd.showCtx

theorem takeAll {a0} (h : Evolves False s x) : Evolves False s (State.takeAll a0 x) := by
  induction a0 generalizing x with
  | zero => exact h
  | succ _ ih =>
    rw [State.takeAll]
    refine Evolves.ite h ?_
    split
    · exact ih h.upd.take
    · exact h

theorem takeReady (h : Evolves False s x) : Evolves False s x.takeReady := h.takeAll

theorem setCqHead {c v} (h : Evolves False s x) : Evolves False s (x.setCqHead c v) := h.wr.ite h

theorem putShadow {q l} (h : Evolves False s x) : Evolves False s (x.putShadow q l) := h.upd.bump.takeReady

theorem doorbell {p'} (h : Evolves False s x) : Evolves False s (x.doorbell p') := by
  unfold State.doorbell
  extract_lets _ _ _ s1
  have h1 : Evolves False s s1 := (h.setCqHead.ite h).takeReady
  refine Evolves.ite h.raise.bump ?_
  refine Evolves.ite h1 ?_
  split
  · exact h1.raise.bump
  · exact h1.putShadow

theorem execDoorbell {port f} (h : Evolves False s x) : Advances s (execDoorbell port f x) := (h.reliable fun _ _ h1 => h1.doorbell).next

theorem execPlateLaunch {sq d} (h : Evolves False s x) : Advances s (execPlateLaunch sq d x) := .ite h.next h.putShadow.next

theorem execDescriptorStart {job} (h : Evolves False s x) : Advances s (execDescriptorStart job x) := by
  unfold Machine.execDescriptorStart
  split
  · exact h.next
  · refine .ite h.next ?_
    extract_lets _ _ s1
    have h1 : Evolves False s s1 := h.setJob
    split
    · exact h.retractJob.next
    · exact .ite h.next (.ite (h.ite h.bump.setJob).next (.ite (h1.claimPlates.ite h1).next h.beginJob.next))

theorem execWaitTimeout {job} (h : Evolves False s x) : Advances s (execWaitTimeout job x) := by
  unfold Machine.execWaitTimeout
  split
  · exact h.next
  · exact .ite h.stopJob.bump.finishQuiet.next h.next

theorem execCompletion {cq} (h : Evolves False s x) : Advances s (execCompletion cq x) := .ite h.next h.upd.sendReliable.takeReady.next

theorem setupDone {v} (h : Evolves False s x) : Evolves False s (x.setupDone v) := h.wr.wr.ite h

theorem execSetupDone {value} (h : Evolves False s x) : Advances s (execSetupDone value x) := h.setupDone.next

/-! ### Sys2Proof/Machine/BringUp.lean -/

theorem execPowerGood {vinMv} (h : Evolves False s x) : Advances s (execPowerGood vinMv x) := .ite h.next h.upd.wr.wr.wr.coldStart.next

theorem bistDiffers {u failed} (h : Evolves False s x) : Evolves False s (x.bistDiffers u failed) :=
  ((h.setHistory fun _ => rfl).raise.bump.ite h).record

theorem retireUnits {bad failed} (h : Evolves False s x) : Evolves False s (x.retireUnits bad failed) := by
  unfold State.retireUnits
  extract_lets _ _ _ s4 _ _
  have h11 : Evolves False s s4 := (((h.foldl fun _ _ h7 => h7.setFn.ite h7).foldl fun _ _ h8 => h8.ite h8.setFn).foldl fun _ _ h9 => h9.ite h9.setFn).foldl fun _ _ h10 => h10.ite h10.setFn
  exact (h11.setFn.ite (h11.setFn.ite h11)).foldl fun _ _ h12 => h12.setFn.ite h12

theorem enablePlates {bad} (h : Evolves False s x) : Evolves False s (x.enablePlates bad) := h.upd.foldl fun _ _ h1 => h1.wr.wr.wr

theorem markBad {bad} (h : Evolves False s x) : Evolves False s (x.markBad bad) := h.foldl fun _ _ h1 => (h1.setUnit.wr.ite h1.setUnit).ite h1

theorem enableChans {bad} (h : Evolves False s x) : Evolves False s (x.enableChans bad) := (h.ite h.upd).upd.foldl fun _ _ h1 => h1.wr

theorem execStartupBist {fails} (h : Evolves False s x) : Advances s (execStartupBist fails x) := by
  unfold Machine.execStartupBist
  refine .ite h.next ?_
  extract_lets _ _ _ _ s1 _ _ _ _ s3 _
  have h2 : Evolves False s s1 := h.foldl fun _ _ h1 => h1.bistDiffers
  have h3 : Evolves False s s3 := h2.enableChans.enablePlates.markBad.retireUnits
  exact .ite h2.upd.requestLines.next h3.upd.next

theorem nvSave (h : Evolves False s x) : Evolves False s x.nvSave := h.ite (h.wr.ite h.upd.wr)

theorem execNvsave (h : Evolves False s x) : Advances s (execNvsave x) := (h.nvSave.ite h).next

theorem execNvsaveDone (h : Evolves False s x) : Advances s (execNvsaveDone x) := by
  unfold Machine.execNvsaveDone
  split
  · exact h.next
  · exact h.upd.wr.next

theorem loadCal (h : Evolves False s x) : Evolves False s x.loadCal := by
  unfold State.loadCal
  extract_lets s1 _ _
  have h2 : Evolves False s s1 := h.foldl fun _ _ h1 => h1.record.usedFree
  split
  · exact h2.upd.wr.foldl fun _ _ h3 => h3.store
  · exact h2.store.store

theorem execRomBootDone (h : Evolves False s x) : Advances s (execRomBootDone x) := by
  unfold Machine.execRomBootDone
  refine .ite h.next ?_
  extract_lets brownOut _ _ t
  have ht : Evolves False s t := (h.upd.loadCal.foldl fun _ _ h1 => h1.setIngest).wr.fnReady.discoverAll
  clear_value brownOut t
  split
  · exact ht.upd.raise.next
  · exact ht.next

theorem showTest (h : Evolves False s x) : Evolves False s x.showTest := (h.wr.setFn.ite h.wr).foldl fun _ _ h1 => h1.setFn.ite h1

theorem releaseRegion {r} (h : Evolves False s x) : Evolves False s (x.releaseRegion r) := h.wr.fnReady

theorem releaseBoot (h : Evolves False s x) : Evolves False s x.releaseBoot :=
  (h.wr.fnReady.clearStaging.foldl fun _ _ h1 => h1.showQueue).grantCredits

theorem releaseKept (h : Evolves False s x) : Evolves False s x.releaseKept := by
  unfold State.releaseKept
  refine Evolves.ite h ?_
  extract_lets _
  refine Evolves.foldl (h.releaseBoot.ite h) (fun _ _ h1 => ?_)
  split
  · exact h1.setFn
  · exact h1.releaseRegion.ite h1

theorem execDdrTrainingDone {chan restored full} (h : Evolves False s x) : Advances s (execDdrTrainingDone chan restored full x) := by
  unfold Machine.execDdrTrainingDone
  extract_lets _ _ _ _ _ s2 _ s4
  have h1 : Evolves False s s2 := h.upd.offlineNow.histFailed
  have h2 : Evolves False s s4 := h.upd.wr.fnReady.ite (h.upd.upd.wr.fnReady.ite h1.record.usedFree.setFn)
  exact .ite h.next (h2.releaseKept.showTest.ite h2.showTest).next

theorem execRegionRelease {unit badGranules} (h : Evolves False s x) : Advances s (execRegionRelease unit badGranules x) :=
  .ite (.ite h.upd.releaseBoot.showTest.next h.next) (.ite h.releaseRegion.showTest.next h.next)

theorem execRegionTestFail {region kind addr} (h : Evolves False s x) : Advances s (execRegionTestFail region kind addr x) := by
  unfold Machine.execRegionTestFail
  extract_lets _ _ _ _ s2 _ _
  have h1 : Evolves False s s2 := h.upd.wr.setFn
  exact .ite (.ite h.setFn.showTest.next h.next) (.ite h1.histFailed.record.usedFree.showTest.next h.next)

theorem execRetentionPause {half abandoned} (h : Evolves False s x) : Advances s (execRetentionPause half abandoned x) :=
  .ite h.next h.upd.showTest.next

theorem tellContained (h : Evolves False s x) : Evolves False s x.tellContained := h.ite h.record.raise

theorem startImage {h'} (h : Evolves False s x) : Evolves False s (x.startImage h') := h.upd.wr.wr.wr.wr.wr.fnReady.tellContained

theorem execFirmwareVerify {readFail} (h : Evolves False s x) : Advances s (execFirmwareVerify readFail x) := by
  unfold Machine.execFirmwareVerify
  split
  · exact h.next
  · refine .ite h.next ?_
    extract_lets _ _ _ _ _
    split
    · exact h.upd.wr.clearStaging.sendReport.next
    · exact h.upd.startImage.sendReport.next

theorem execNeedleFwMulticast (h : Evolves False s x) : Advances s (execNeedleFwMulticast x) :=
  .ite h.next (h.upd.foldl fun _ _ h1 => h1.setFn.ite h1).next

theorem execUnitReady {fn} (h : Evolves False s x) : Advances s (execUnitReady fn x) :=
  .ite h.next ((h.wr.ite h).ite (h.wr.ite h)).fnReady.next

theorem execRestart (h : Evolves False s x) : Advances s (execRestart x) := (h.coldStart.ite h).next

theorem execLinkCheckPass {link quality} (h : Evolves False s x) : Advances s (execLinkCheckPass link quality x) := by
  unfold Machine.execLinkCheckPass
  extract_lets _ _ _ _ _ _ s1 _ _
  have h1 : Evolves False s s1 := h.wr.wr
  exact .ite h.next (.ite (h1.wr.usedFree.ite h1).fnReady.discoverAll.next h.setLink.wr.wr.fnReady.failoverDue.next)

theorem execLinkCheckLost {link} (h : Evolves False s x) : Advances s (execLinkCheckLost link x) :=
  .ite (h.sensorLinkDown.ite h).next h.hostLinkDown.next

/-! ### Sys2Proof/Machine/NeedleScalar.lean -/

theorem coreLoad {p' c o n} (h : Evolves False s x) : Evolves False s (x.coreLoad p' c o n).1 := h.arrFault.bump.sramDetect.ite_fst h

theorem csrMWrite {p' c n v} (h : Evolves False s x) : EvolvesOpt False s id (x.csrMWrite p' c n v) := by
  unfold State.csrMWrite
  split
  · exact .some h.setM
  · exact .some h
  · exact .some h.setM
  · exact .some h.setM
  · exact .some h.setM
  · exact .some h.setM
  · exact .some h.setM
  · exact .some h.setM
  · exact .some h
  · exact .some h
  · exact .some h.setCore
  · exact .none

theorem runLoad {p' c w} (h : Evolves False s x) : EvolvesDid s (x.runLoad p' c w) := by
  unfold State.runLoad
  extract_lets _ _ _ _
  refine .ite .trap ?_
  split
  · exact .trap
  · exact .retire h.coreLoad

theorem runStore {p' c a n v} (h : Evolves False s x) : EvolvesDid s (x.runStore p' c a n v) := by
  unfold State.runStore
  split
  · exact .trap
  · exact .retire h.plateStore

theorem runAmo {p' c w} (h : Evolves False s x) : EvolvesDid s (x.runAmo p' c w) := by
  unfold State.runAmo
  extract_lets _ _ _ _
  refine .ite .trap ?_
  refine .ite ?_ ?_
  · refine .ite .trap ?_
    split
    · exact .trap
    · exact .retire h.coreLoad
  · refine .ite ?_ ?_
    · split
      · exact .trap
      · exact .retire (h.plateStore.ite h)
    · split
      · exact .trap
      · split
        · exact .trap
        · exact .retire h.coreLoad.plateStore

theorem runCsr {p' c w} (h : Evolves False s x) : EvolvesDid s (x.runCsr p' c w) := by
  unfold State.runCsr
  extract_lets _ _ _ _ _ s1
  have h1 : Evolves False s s1 := h.usedFree.ite h
  split
  · exact .trap
  · extract_lets _
    refine .ite ?_ (.retire h1)
    split
    · exact .retire h1
    · split
      · next e13 => exact .retire (EvolvesOpt.ite h1.csrMWrite .none _ e13)
      · exact .trap

theorem fpOut {k rd r} (h : Evolves False s x) : EvolvesDid s (fpOut x k rd r) := .retire h

theorem fpIntOut {k rd v fl} (h : Evolves False s x) : EvolvesDid s (fpIntOut x k rd v fl) := .retire h

theorem runFp {p' c w} (h : Evolves False s x) : EvolvesDid s (x.runFp p' c w) := by
  unfold State.runFp
  extract_lets k a b rd f3 rounded
  have hrounded (f : Nat → Nat × Nat) : EvolvesDid s (rounded f) := by
    unfold rounded
    split
    · exact h.fpOut
    · exact .trap
  clear_value f3 rounded
  split
  · exact hrounded _
  · exact hrounded _
  · exact hrounded _
  · exact hrounded _
  · exact .ite .trap (hrounded _)
  · exact .ite .trap h.fpOut
  · exact .ite h.fpOut (.ite h.fpOut .trap)
  · split
    · exact h.fpIntOut
    · exact h.fpIntOut
    · exact h.fpIntOut
    · exact .trap
  · split
    · exact h.fpIntOut
    · exact h.fpIntOut
    · exact h.fpIntOut
    · exact h.fpIntOut
    · exact .trap
  · split
    · exact h.fpOut
    · exact h.fpOut
    · exact h.fpOut
    · exact h.fpOut
    · exact .trap
  · exact .ite .trap (.ite (.retire h) (.ite (.retire h) .trap))
  · exact .ite (.retire h) .trap
  · exact .trap

theorem runFma {p' c w} (h : Evolves False s x) : EvolvesDid s (x.runFma p' c w) := by
  unfold State.runFma
  extract_lets _ _ _
  refine .ite .trap ?_
  split
  · exact .trap
  · exact h.fpOut

theorem runScalar {p' c w len} (h : Evolves False s x) : EvolvesDid s (x.runScalar p' c w len) := by
  unfold State.runScalar
  extract_lets _ _ _ _ _
  split
  · exact .retire h
  · exact .retire h
  · exact .jump h
  · exact .ite .trap (.jump h)
  · split
    · exact .trap
    · exact .ite (.jump h) (.retire h)
  · exact h.runLoad
  · exact .ite .trap h.runStore
  · exact .ite .trap (.ite .trap (.retire h))
  · exact .ite (.retire h) (.ite (.retire h) (.ite (.retire h) .trap))
  · exact .ite (.retire h) (.ite (.retire h) .trap)
  · refine .ite ?_ (.ite (.retire h) .trap)
    split
    · exact .retire h
    · exact .trap
  · exact .ite (.retire h) .trap
  · exact h.runAmo
  · exact .ite (.ite .trap .trap) h.runCsr
  · split
    · exact .trap
    · exact .retire h.coreLoad
  · exact h.runStore
  · exact h.runFma
  · exact h.runFma
  · exact h.runFma
  · exact h.runFma
  · exact h.runFp
  · exact .trap

theorem settle {p' c len d} (h : Evolves False s x) (hd : EvolvesDid s d) : Evolves False s (x.settle p' c len d) := by
  cases d with
  | retire t k => exact Evolves.retire hd
  | jump t k pc => exact Evolves.retire hd
  | trap c v => exact h.trap

/-! ### Sys2Proof/Machine/NeedleVector.lean -/

theorem runVset {p' c w} (h : Evolves False s x) : EvolvesDid s (x.runVset p' c w) :=
  .ite (.retire h) (.ite (.retire h) (.ite (.retire h) .trap))

theorem vdone {k} (h : Evolves False s x) : EvolvesDid s (vdone x k) := .retire h.usedFree

theorem vLoadAll {p' c n l} (h : Evolves False s x) : Evolves False s (x.vLoadAll p' c n l).1 := by
  unfold State.vLoadAll
  refine Evolves.foldl_fst h (fun _ _ h1 => ?_)
  split
  · exact h1.coreLoad
  · exact h1

theorem vStoreAll {p' c n l} (h : Evolves False s x) : Evolves False s (x.vStoreAll p' c n l) := by
  unfold State.vStoreAll
  refine Evolves.foldl h (fun _ _ h1 => ?_)
  split
  · exact h1.plateStore
  · exact h1

theorem runVmem {p' c w store} (h : Evolves False s x) : EvolvesDid s (x.runVmem p' c w store) := by
  unfold State.runVmem
  extract_lets v k wn nf mop base vd umop mis adr go
  have hgo (n m8 cnt nf : Nat) (act : Nat → Bool) (ofs : Nat → Nat) (ff : Bool) : EvolvesDid s (go n m8 cnt nf act ofs ff) := by
    unfold go
    extract_lets _ _ _
    split
    · exact .ite h.vLoadAll.vdone .trap
    · exact .ite h.vStoreAll.vdone h.vLoadAll.vdone
  clear_value go
  refine .ite .trap (.ite (.ite .trap ?_) (.ite .trap (.ite (.ite .trap ?_) (.ite (.ite .trap (hgo ..)) (.ite .trap ?_)))))
  · split
    · exact .trap
    · exact .ite h.vStoreAll.vdone h.vLoadAll.vdone
  · split
    · exact .trap
    · exact .ite h.vStoreAll.vdone h.vLoadAll.vdone
  · exact .ite (hgo ..) (hgo ..)

theorem runVi {p' c w} (h : Evolves False s x) : EvolvesDid s (x.runVi p' c w) :=
  .ite (.ite .trap h.vdone) (.ite .trap (.ite (.ite .trap h.vdone) (.ite (.ite .trap h.vdone) (.ite (.ite .trap (.ite h.vdone h.vdone)) (.ite (.ite .trap h.vdone) (.ite (.ite .trap h.vdone) (.ite (.ite (.ite .trap h.vdone) (.ite .trap h.vdone)) (.ite (.ite .trap h.vdone) (.ite (.ite .trap (.ite h.vdone h.vdone)) (.ite (.ite .trap (.ite h.vdone h.vdone)) (.ite .trap (.ite h.vdone (.ite h.vdone .trap)))))))))))))

theorem runVm {p' c w} (h : Evolves False s x) : EvolvesDid s (x.runVm p' c w) := by
  unfold State.runVm
  extract_lets _ _ _ _ _ _ v1 _ _ _ _ _ _ _ _ _ _ _ _ _
  refine .ite .trap ?_
  refine .ite (.ite .trap (.ite h.vdone h.vdone)) ?_
  refine .ite ?_ ?_
  · refine .ite ?_ (.ite .trap h.vdone)
    clear_value v1
    split
    · exact .ite h.vdone .trap
    · exact .ite .trap h.vdone
    · exact .ite .trap h.vdone
    · exact .trap
  · refine .ite (.ite .trap (.ite .trap h.vdone)) ?_
    refine .ite ?_ ?_
    · refine .ite .trap ?_
      clear_value v1
      split
      · exact .ite .trap h.vdone
      · exact .ite .trap h.vdone
      · refine .ite .trap ?_
        split
        · exact h.vdone
        · exact h.vdone
        · exact h.vdone
        · exact .trap
    · refine .ite (.ite .trap h.vdone) ?_
      refine .ite (.ite .trap h.vdone) ?_
      refine .ite (.ite .trap (.ite h.vdone h.vdone)) ?_
      refine .ite (.ite .trap h.vdone) ?_
      refine .ite .trap ?_
      refine .ite h.vdone ?_
      refine .ite h.vdone ?_
      split
      · exact h.vdone
      · exact .trap

theorem runVf {p' c w} (h : Evolves False s x) : EvolvesDid s (x.runVf p' c w) := by
  unfold State.runVf
  extract_lets _ _ _ _ _ _ _ _ _ _ _ _ _ _ _ _ _ _ _ _ _
  split
  · exact .ite (.ite .trap h.vdone) (.ite (.ite .trap h.vdone) (.ite .trap (.ite (.ite .trap h.vdone) (.ite (.ite (.ite h.vdone .trap) (.ite h.vdone .trap)) (.ite (.ite .trap (.ite h.vdone h.vdone)) (.ite (.ite (.ite .trap h.vdone) (.ite .trap h.vdone)) (.ite (.ite .trap h.vdone) (.ite (.ite .trap (.ite h.vdone h.vdone)) (.ite .trap (.ite h.vdone (.ite h.vdone .trap)))))))))))
  · exact .trap

theorem runOpV {p' c w} (h : Evolves False s x) : EvolvesDid s (x.runOpV p' c w) := by
  unfold State.runOpV
  split
  · exact h.runVi
  · exact h.runVf
  · exact h.runVm
  · exact h.runVi
  · exact h.runVi
  · exact h.runVf
  · exact h.runVm
  · exact h.runVset

/-! ### Sys2Proof/Machine/Needle.lean -/

theorem ecall {p' c} (h : Evolves False s x) : Evolves False s (x.ecall p' c) := h.trap.ite (h.trap.ite h.setCore.bump.showCore.showCores)

theorem trapObject {p' c o} (h : Evolves False s x) : Evolves False s (x.trapObject p' c o) := h.bump.trap

theorem xnSig {p' c rs1 rs2} (h : Evolves False s x) : Evolves False s (x.xnSig p' c rs1 rs2) := h.trapObject.ite h.retire.signal

theorem xnSread {p' c rd rs1} (h : Evolves False s x) : Evolves False s (x.xnSread p' c rd rs1) := h.trapObject.ite h.retire

theorem waited {p' o} (h : Evolves False s x) : Evolves False s (x.waited p' o) := by
  unfold State.waited
  split
  · exact h.absorb
  · exact h

theorem waitEnd {p' c} (h : Evolves False s x) : Evolves False s (x.waitEnd p' c) := by
  unfold State.waitEnd
  extract_lets _
  split
  · refine Evolves.ite h.retire.waited ?_
    split
    · exact h.retire.ite h
    · exact h
  · exact h

theorem xnWait {p' c rd rs1 rs2} (h : Evolves False s x) : Evolves False s (x.xnWait p' c rd rs1 rs2) := by
  unfold State.xnWait
  extract_lets _ _ _ _ _
  refine Evolves.ite h.trap ?_
  refine Evolves.ite h.trapObject ?_
  split
  · exact h.waitEnd
  · exact h.retire.waited.ite (h.retire.ite h.setCore.holdCore)

theorem xnVcrc {p' c vm rd vs2 rs1} (h : Evolves False s x) : Evolves False s (x.xnVcrc p' c vm rd vs2 rs1) := h.trap.ite (h.retire.ite h.retire)

theorem xnVexpd {p' c vm vd vs2 rs1} (h : Evolves False s x) : Evolves False s (x.xnVexpd p' c vm vd vs2 rs1) := h.trap.ite h.retire

theorem xnVcurve {p' c vm vd vs2 rs1} (h : Evolves False s x) : Evolves False s (x.xnVcurve p' c vm vd vs2 rs1) := by
  unfold State.xnVcurve
  extract_lets _
  refine Evolves.ite h.trap ?_
  split
  · exact h.trap
  · exact h.retire

theorem xnVrmax {p' c vm rd vs2 rs1} (h : Evolves False s x) : Evolves False s (x.xnVrmax p' c vm rd vs2 rs1) := h.trap.ite h.retire

theorem xnVncvt {p' c vm f vd vs2 rs1} (h : Evolves False s x) : Evolves False s (x.xnVncvt p' c vm f vd vs2 rs1) := h.trap.ite h.retire

theorem xnVwcvt {p' c vm f vd vs2 rs1} (h : Evolves False s x) : Evolves False s (x.xnVwcvt p' c vm f vd vs2 rs1) := h.trap.ite h.retire

theorem xnVmxscale {p' c vm f rd vs2} (h : Evolves False s x) : Evolves False s (x.xnVmxscale p' c vm f rd vs2) := h.trap.ite h.retire

theorem onCore {p' c len held f} (h : Evolves False s x) (hk0 : ∀ t, Evolves False s t → Evolves False s (f t)) : Advances s (x.onCore p' c len held f) := by
  unfold State.onCore
  split
  · next e3 => exact (hk0 _ (h.issue.of_fst e3)).next
  · next e6 => exact (h.issue.of_fst e6).next

theorem execEcallExit {plate core} (h : Evolves False s x) : Advances s (execEcallExit plate core x) := h.onCore fun _ h1 => h1.ecall

theorem execXnSig {plate core rs1 rs2} (h : Evolves False s x) : Advances s (execXnSig plate core rs1 rs2 x) := h.onCore fun _ h1 => h1.xnSig

theorem execXnWait {plate core rd rs1 rs2} (h : Evolves False s x) : Advances s (execXnWait plate core rd rs1 rs2 x) :=
  h.onCore fun _ h1 => h1.xnWait

theorem execXnWaitDone {plate core} (h : Evolves False s x) : Advances s (execXnWaitDone plate core x) := .ite h.waitEnd.next h.next

theorem execXnSread {plate core rd rs1} (h : Evolves False s x) : Advances s (execXnSread plate core rd rs1 x) :=
  h.onCore fun _ h1 => h1.xnSread

theorem execXnCrc {plate core rd rs1 rs2} (h : Evolves False s x) : Advances s (execXnCrc plate core rd rs1 rs2 x) :=
  h.onCore fun _ h1 => h1.retire

theorem execXnVcrc {plate core vm rd vs2 rs1} (h : Evolves False s x) : Advances s (execXnVcrc plate core vm rd vs2 rs1 x) :=
  h.onCore fun _ h1 => h1.xnVcrc

theorem execXnFexpd {plate core rd rs1 rs2} (h : Evolves False s x) : Advances s (execXnFexpd plate core rd rs1 rs2 x) :=
  h.onCore fun _ h1 => h1.retire

theorem execXnVexpd {plate core vm vd vs2 rs1} (h : Evolves False s x) : Advances s (execXnVexpd plate core vm vd vs2 rs1 x) :=
  h.onCore fun _ h1 => h1.xnVexpd

theorem execXnVcurve {plate core vm vd vs2 rs1} (h : Evolves False s x) : Advances s (execXnVcurve plate core vm vd vs2 rs1 x) :=
  h.onCore fun _ h1 => h1.xnVcurve

theorem execXnVrmax {plate core vm rd vs2 rs1} (h : Evolves False s x) : Advances s (execXnVrmax plate core vm rd vs2 rs1 x) :=
  h.onCore fun _ h1 => h1.xnVrmax

theorem execXnVncvt {plate core vm fmt vd vs2 rs1} (h : Evolves False s x) : Advances s (execXnVncvt plate core vm fmt vd vs2 rs1 x) :=
  h.onCore fun _ h1 => h1.xnVncvt

theorem execXnVwcvt {plate core vm fmt vd vs2 rs1} (h : Evolves False s x) : Advances s (execXnVwcvt plate core vm fmt vd vs2 rs1 x) :=
  h.onCore fun _ h1 => h1.xnVwcvt

theorem execXnVmxscale {plate core vm fmt rd vs2} (h : Evolves False s x) : Advances s (execXnVmxscale plate core vm fmt rd vs2 x) :=
  h.onCore fun _ h1 => h1.xnVmxscale

theorem runPrivileged {p' c w} (h : Evolves False s x) : Evolves False s (x.runPrivileged p' c w) := h.trap.ite (h.retire.leaveM.ite h.retire)

theorem runWord {p' c w len} (h : Evolves False s x) : Evolves False s (x.runWord p' c w len) :=
  h.ecall.ite (h.runPrivileged.ite ((h.settle h.runOpV).ite (((h.settle h.runVmem).ite h.trap).ite (((h.settle h.runVmem).ite h.trap).ite (h.settle h.runScalar)))))

theorem execNeedleInstruction {plate core ins} (h : Evolves False s x) : Advances s (execNeedleInstruction plate core ins x) := by
  unfold Machine.execNeedleInstruction
  extract_lets _
  refine .ite (.ite h.next (h.onCore fun _ h1 => h1.runWord)) ?_
  refine Evolves.onCore h (fun _ h2 => ?_)
  split
  · exact h2.runWord
  · exact h2.trap

/-! ### Sys2Proof/Machine/Power.lean -/

theorem showClocks (h : Evolves False s x) : Evolves False s x.showClocks := (h.foldl fun _ _ h1 => h1.wr).wr

theorem gate {island} (h : Evolves False s x) : Evolves False s (x.gate island) := h.upd

theorem reclock {old} (h : Evolves False s x) : Evolves False s (x.reclock old) := (h.foldl fun _ _ h1 => h1.gate).usedFree.showClocks

theorem execIslandRelock {island khz} (h : Evolves False s x) : Advances s (execIslandRelock island khz x) :=
  .ite h.next h.upd.gate.usedFree.showClocks.next

theorem showInput {dw} (h : Evolves False s x) : Evolves False s (x.showInput dw) := h.wr.wr

theorem execPowerLimitAdjust {powerDw khz} (h : Evolves False s x) : Advances s (execPowerLimitAdjust powerDw khz x) :=
  .ite h.next (h.showInput.upd.ite h.showInput).upd.reclock.next

theorem execPowerMonitorTrip {powerDw} (h : Evolves False s x) : Advances s (execPowerMonitorTrip powerDw x) :=
  .ite h.next h.showInput.upd.reclock.next

theorem execPowerMonitorRelease {powerDw} (h : Evolves False s x) : Advances s (execPowerMonitorRelease powerDw x) := by
  unfold Machine.execPowerMonitorRelease
  split
  · exact .ite h.showInput.upd.reclock.next h.next
  · exact h.next

theorem execDomainSwitchOff {dom} (h : Evolves False s x) : Advances s (execDomainSwitchOff dom x) := by
  unfold Machine.execDomainSwitchOff
  extract_lets _ _ _ _
  refine .ite h.next ?_
  split
  · extract_lets s2 _
    have h1 : Evolves False s s2 := h.upd.ite h.upd.eraseRange
    exact (h1.wr.ite (h1.wr.ite h1)).showClocks.next

theorem execDomainSwitchOn {doms} (h : Evolves False s x) : Advances s (execDomainSwitchOn doms x) :=
  .ite h.next (h.upd.foldl fun _ _ h3 => ((h3.eraseRange.ite h3).foldl fun _ _ h4 => h4.setFn.ite h4).ite (h3.eraseRange.ite h3)).showClocks.next

/-! ### Sys2Proof/Machine/Safe.lean -/

theorem execSafeInAssert (h : Evolves False s x) : Advances s (execSafeInAssert x) := (h.upd.wr.requestHeld.ite h.upd.wr).next

theorem execSafeInRelease (h : Evolves False s x) : Advances s (execSafeInRelease x) := by
  unfold Machine.execSafeInRelease
  split
  · exact h.wr.next
  · extract_lets _ _ s1 s2
    have h1 : Evolves False s s1 := h.upd.wr
    have h2 : Evolves False s s2 := h1.clearCause
    exact .ite h1.next ((h2.foldl fun _ _ h3 => h3.releaseSource.ite h3).ite h2).next

theorem execSafeHoldExpiry {src} (h : Evolves False s x) : Advances s (execSafeHoldExpiry src x) := (h.releaseSource.ite h).next

theorem clockCured (h : Evolves False s x) : Evolves False s x.clockCured := h.ite h.clearCause

theorem execClockSupervision {ok} (h : Evolves False s x) : Advances s (execClockSupervision ok x) :=
  .ite h.next (h.upd.clockCured.ite h.upd.requestHeld).next

theorem execSafeLineFault {line mv} (h : Evolves False s x) : Advances s (execSafeLineFault line mv x) :=
  .ite h.next h.upd.raise.requestLines.next

theorem execSafeLineFaultCured {line} (h : Evolves False s x) : Advances s (execSafeLineFaultCured line x) :=
  .ite h.next h.upd.clockCured.next

theorem execThermalThrottle {tj} (h : Evolves False s x) : Advances s (execThermalThrottle tj x) :=
  .ite h.next (h.wr.wr.reclock.raise.ite h.wr.wr.reclock).next

theorem execThermalTrip {tj} (h : Evolves False s x) : Advances s (execThermalTrip tj x) := .ite h.next h.requestHeld.wr.wr.warmStart.upd.next

theorem execThermalRecover {tj} (h : Evolves False s x) : Advances s (execThermalRecover tj x) :=
  .ite h.next h.upd.wr.wr.raise.clearCause.next

/-! ### Sys2Proof/Machine/Security.lean -/

theorem attest (h : Evolves False s x) : Evolves False s x.attest := h.upd

theorem execAttest (h : Evolves False s x) : Advances s (execAttest x) := (h.attest.ite h).next

theorem execAttestPublish (h : Evolves False s x) : Advances s (execAttestPublish x) := by
  unfold Machine.execAttestPublish
  split
  · exact h.next
  · exact .ite h.next h.upd.store.wr.wr.raise.next

theorem advance (h : Evolves False s x) : Evolves False s x.advance := h.ite h.upd.wr

theorem execAdvance (h : Evolves False s x) : Advances s (execAdvance x) := (h.advance.ite h).next

theorem blowBit (h : Evolves False s x) : Evolves False s x.blowBit := by
  unfold State.blowBit
  refine wr (h.trans ?_)
  exact { refl (calm := False) x with wf := id, pending := rfl, part := rfl, rollback := rollbackCount_le_or .., permanent := fun _ => id, seconds := le_rfl, ticks := le_rfl, emitted := List.prefix_rfl, quiet := fun _ _ => id }

theorem execFuseBitBlown (h : Evolves False s x) : Advances s (execFuseBitBlown x) := by
  unfold Machine.execFuseBitBlown
  split
  · exact h.next
  · exact .ite h.next (.ite h.blowBit.wr.upd.raise.next h.blowBit.wr.next)

theorem unlock (h : Evolves False s x) : Evolves False s x.unlock := by
  unfold State.unlock
  extract_lets t1 _
  have h1 : Evolves False s t1 := by
    unfold t1
    split
    · exact h.wr.wr.wr.raise
    · exact h.wr
  exact h1.upd.wr

theorem execUnlock (h : Evolves False s x) : Advances s (execUnlock x) := (h.unlock.ite h).next

theorem macsecWrite {p' load save} (h : Evolves False s x) : Evolves False s (x.macsecWrite p' load save) := (h.wr.upd.wr.wr.wr.ite h.wr).upd

theorem execMacsecLoad {port save} (h : Evolves False s x) : Advances s (execMacsecLoad port save x) := (h.macsecWrite.ite h).next

/-! ### Sys2Proof/Machine/Supply.lean -/

theorem tellSupply {kind} (h : Evolves False s x) : Evolves False s (x.tellSupply kind) := h.raise.ite h

theorem execSupplyBandChange {vinMv heldUs} (h : Evolves False s x) : Advances s (execSupplyBandChange vinMv heldUs x) := by
  unfold Machine.execSupplyBandChange
  extract_lets _ _ _ _ _ _ _ s2 s3 s4 s5
  have h1 : Evolves False s s2 := h.upd.wr.wr.wr
  have h2 : Evolves False s s3 := h1.wr.ite h1
  have h3 : Evolves False s s4 := h2.tellSupply.ite h2
  have h4 : Evolves False s s5 := h3.tellSupply.ite h3
  exact (h4.reclock.ite h4).next

theorem powerOff (h : Evolves False s x) : Evolves False s x.powerOff := h.cleared

theorem cutAdvance (h : Evolves False s x) : Evolves False s x.cutAdvance := (h.blowBit.ite h).usedFree.ite h

theorem execBrownOut (h : Evolves False s x) : Advances s (execBrownOut x) := .ite h.next h.cutAdvance.upd.powerOff.next

theorem execWakeLow (h : Evolves False s x) : Advances s (execWakeLow x) := .ite h.next h.upd.wr.tellSupply.next

theorem execWakePowerOff (h : Evolves False s x) : Advances s (execWakePowerOff x) := by
  unfold Machine.execWakePowerOff
  split
  · exact h.next
  · exact .ite h.cutAdvance.powerOff.upd.next h.next

theorem execWakeRise (h : Evolves False s x) : Advances s (execWakeRise x) := (h.upd.wr.coldStart.ite h.upd.wr).next

theorem pocDark {n} (h : Evolves False s x) : Evolves False s (x.pocDark n) := h.ite h.sensorLinkDown

theorem execCameraOvercurrent {port mA} (h : Evolves False s x) : Advances s (execCameraOvercurrent port mA x) :=
  .ite h.next h.upd.wr.raise.pocDark.next

theorem execCameraReclose {port} (h : Evolves False s x) : Advances s (execCameraReclose port x) := .ite h.next h.wr.next

theorem pocWrite {v} (h : Evolves False s x) : Evolves False s (x.pocWrite v) := h.wr.foldl fun _ _ h1 => (h1.upd.wr.ite h1).pocDark

theorem execPwrPocWrite {enable} (h : Evolves False s x) : Advances s (execPwrPocWrite enable x) := (h.pocWrite.ite h).next

theorem execVcamRange {mv} (h : Evolves False s x) : Advances s (execVcamRange mv x) :=
  ((h.wr.wr.foldl fun _ _ h1 => h1.pocDark).ite h.wr.wr).next

theorem execBaseRange {temp} (h : Evolves False s x) : Advances s (execBaseRange temp x) := (h.wr.wr.tellSupply.ite h.wr.wr).next

theorem execMissionEnd (h : Evolves False s x) : Advances s (execMissionEnd x) := .ite h.next h.upd.raise.next

/-! ### Sys2Proof/Machine/RegAccess.lean -/

theorem readWord {bad upset a} (h : Evolves False s x) : Evolves False s (x.readWord bad upset a).1 := by
  unfold State.readWord
  extract_lets _ s1 _ s2 _ _
  have h1 : Evolves False s s1 := h.upd.ite h
  have h2 : Evolves False s s2 := h1.spqPop.ite h1
  exact (h2.usedFree.ite h2).foldl fun _ _ h3 => h3.wr.ite h3

theorem readWords {bad upset a2 a3} (h : Evolves False s x) : Evolves False s (State.readWords bad upset a2 a3 x).1 := by
  induction a2 generalizing a3 x with
  | zero => exact h
  | succ _ ih => exact ih h.readWord

theorem putFields {a w} (h : Evolves False s x) : Evolves False s (x.putFields a w) := by
  unfold State.putFields
  refine Evolves.foldl h (fun _ _ h1 => ?_)
  extract_lets _
  split
  · exact h1.wr
  · exact h1.wr
  · exact h1.wr.ite h1
  · exact h1

theorem keepSettings (h : Evolves False s x) : Evolves False s x.keepSettings := h.upd

theorem rulCtrl {w} (h : Evolves False s x) : Evolves False s (x.rulCtrl w) := by
  unfold State.rulCtrl
  extract_lets s1 s2 s3
  have h1 : Evolves False s s1 := h.setRun
  have h2 : Evolves False s s2 := h1.ite h1.wr.reselect
  have h3 : Evolves False s s3 := h2.wr.ite h2
  exact h3.stepGo.ite h3

theorem secCtrl {w} (h : Evolves False s x) : Evolves False s (x.secCtrl w) := by
  unfold State.secCtrl
  extract_lets s1 s2
  have h1 : Evolves False s s1 := h.attest.ite h
  have h2 : Evolves False s s2 := h1.advance.ite h1
  exact h2.unlock.ite h2

theorem writeWord {a w} (h : Evolves False s x) : Evolves False s (x.writeWord a w) := by
  unfold State.writeWord
  split
  · exact h.storeNum
  · exact h
  · exact (h.nvSave.ite h).ite (h.putFields.keepSettings.ite (h.secCtrl.ite (h.macsecWrite.ite ((h.mgdGo.ite h).ite (h.pocWrite.ite (h.rulCtrl.ite (h.wr.epochWrite.ite (h.epochWrite.ite ((h.putFields.wr.ite h.putFields).ite (h.spqWrite.ite ((h.wr.ite h).ite (h.setupDone.ite h.putFields))))))))))))

theorem writeWords {l} (h : Evolves False s x) : Evolves False s (x.writeWords l) := h.foldl fun _ _ h1 => h1.writeWord

theorem regWrite {r} (h : Evolves False s x) : Evolves False s (x.regWrite r).1 := by
  unfold State.regWrite
  split
  · exact h.writeWords
  · exact h

theorem execRegRead {port r} (h : Evolves False s x) : Advances s (execRegRead port r x) :=
  (h.reliable fun _ _ h1 => h1.sendReliable.ite h1.readWords.sendReliable).next

theorem execRegWrite {port f} (h : Evolves False s x) : Advances s (execRegWrite port f x) :=
  (h.reliable fun _ _ h1 => h1.sendReliable.ite (h1.regWrite.sendReliable.coldStart.ite h1.regWrite.sendReliable)).next

end Evolves

/-- Every command answers a next state, and it keeps what a step keeps. -/
theorem exec_advances (c : Instr) (s : State) : Advances s (exec c s) := by
  have h := Evolves.refl (calm := False) s
  cases c with
  | timeTick => exact h.execTimeTick
  | islandRelock => exact h.execIslandRelock
  | powerLimitAdjust => exact h.execPowerLimitAdjust
  | powerMonitorTrip => exact h.execPowerMonitorTrip
  | powerMonitorRelease => exact h.execPowerMonitorRelease
  | domainSwitchOff => exact h.execDomainSwitchOff
  | domainSwitchOn => exact h.execDomainSwitchOn
  | gptpEventRx => exact h.execGptpEventRx
  | ppsEdge => exact h.execPpsEdge
  | servoUpdate => exact h.execServoUpdate
  | referenceLost => exact h.execReferenceLost
  | gptpSyncTx => exact h.execGptpSyncTx
  | stepGo => exact h.execStepGo
  | rulSwap => exact h.execRulSwap
  | rulEpochWrite => exact h.execRulEpochWrite
  | epochBoundary => exact h.execEpochBoundary
  | triggerFire => exact h.execTriggerFire
  | backChannelTrigger => exact h.execBackChannelTrigger
  | phaseCommand => exact h.execPhaseCommand
  | csi2PacketRx => exact h.execCsi2PacketRx
  | ethFrameRx => exact h.execEthFrameRx
  | canFrameRx => exact h.execCanFrameRx
  | dataReadyEdge => exact h.execDataReadyEdge
  | ingestLinkDown => exact h.execIngestLinkDown
  | linkCheckPass => exact h.execLinkCheckPass
  | linkCheckLost => exact h.execLinkCheckLost
  | idReadAttempt => exact h.execIdReadAttempt
  | lldpRx => exact h.execLldpRx
  | sensorTimeout => exact h.execSensorTimeout
  | ingSwap => exact h.execIngSwap
  | spqCtrlWrite => exact h.execSpqCtrlWrite
  | queueRead => exact h.execQueueRead
  | spqPop => exact h.execSpqPop
  | hatchInputClose => exact h.execHatchInputClose
  | h1FrameDone => exact h.execH1FrameDone
  | h2PacketDecode => exact h.execH2PacketDecode
  | h3TrackDone env => exact h.execH3TrackDone (env := env)
  | h4TransformDone => exact h.execH4TransformDone
  | evidencePlaneWrite => exact h.execEvidencePlaneWrite
  | evidenceWaitExpiry => exact h.execEvidenceWaitExpiry
  | h5VoteDone => exact h.execH5VoteDone
  | h6EpochRecord => exact h.execH6EpochRecord
  | hatchWatchdog => exact h.execHatchWatchdog
  | goldenInstant => exact h.execGoldenInstant
  | testStarved => exact h.execTestStarved
  | goldenRunDone => exact h.execGoldenRunDone
  | stippleJobStart => exact h.execStippleJobStart
  | voxelise => exact h.execVoxelise
  | sort => exact h.execSort
  | neighbours => exact h.execNeighbours
  | rulebook => exact h.execRulebook
  | xnBurin => exact h.execXnBurin
  | loadw => exact h.execLoadw
  | matmul => exact h.execMatmul
  | drain => exact h.execDrain
  | loadc => exact h.execLoadc
  | burinNop => exact h.execBurinNop
  | tileRecompute => exact h.execTileRecompute
  | xnDmaq => exact h.execXnDmaq
  | dmaRows => exact h.execDmaRows
  | dmaGather => exact h.execDmaGather
  | dmaScatter => exact h.execDmaScatter
  | plateLaunch => exact h.execPlateLaunch
  | launchStart => exact h.execLaunchStart
  | launchComplete => exact h.execLaunchComplete
  | needleInstruction => exact h.execNeedleInstruction
  | ecallExit => exact h.execEcallExit
  | xnSig => exact h.execXnSig
  | xnWait => exact h.execXnWait
  | xnWaitDone => exact h.execXnWaitDone
  | xnSread => exact h.execXnSread
  | xnCrc => exact h.execXnCrc
  | xnVcrc => exact h.execXnVcrc
  | xnFexpd => exact h.execXnFexpd
  | xnVexpd => exact h.execXnVexpd
  | xnVcurve => exact h.execXnVcurve
  | xnVrmax => exact h.execXnVrmax
  | xnVncvt => exact h.execXnVncvt
  | xnVwcvt => exact h.execXnVwcvt
  | xnVmxscale => exact h.execXnVmxscale
  | trcCommit => exact h.execTrcCommit
  | deferredFlush => exact h.execDeferredFlush
  | trcScore => exact h.execTrcScore
  | trcMap => exact h.execTrcMap
  | labMissWalk => exact h.execLabMissWalk
  | slotRelease => exact h.execSlotRelease
  | cacheRegister => exact h.execCacheRegister
  | cacheUnregister => exact h.execCacheUnregister
  | cacheCreate => exact h.execCacheCreate
  | cacheFork => exact h.execCacheFork
  | cacheTruncate => exact h.execCacheTruncate
  | cacheFree => exact h.execCacheFree
  | cachePlace => exact h.execCachePlace
  | brnRegister => exact h.execBrnRegister
  | brnValues => exact h.execBrnValues
  | brnUpdate => exact h.execBrnUpdate
  | brnRun => exact h.execBrnRun
  | brnArm => exact h.execBrnArm
  | brnDisarm => exact h.execBrnDisarm
  | brnRelease => exact h.execBrnRelease
  | brnTrigger => exact h.execBrnTrigger
  | brnRunStart => exact h.execBrnRunStart
  | brnSolve => exact h.execBrnSolve
  | brnSpmv => exact h.execBrnSpmv
  | brnAxpby => exact h.execBrnAxpby
  | brnClamp => exact h.execBrnClamp
  | brnStepCopy => exact h.execBrnStepCopy
  | brnLoop => exact h.execBrnLoop
  | brnTest => exact h.execBrnTest
  | brnOut => exact h.execBrnOut
  | brnUpdateIn => exact h.execBrnUpdateIn
  | brnEnd => exact h.execBrnEnd
  | brnDeadline => exact h.execBrnDeadline
  | ctxOpen => exact h.execCtxOpen
  | ctxClose => exact h.execCtxClose
  | invalidate => exact h.execInvalidate
  | resume => exact h.execResume
  | abort => exact h.execAbort
  | memCopy => exact h.execMemCopy
  | channelSelfResume => exact h.execChannelSelfResume
  | nrTimeout => exact h.execNrTimeout
  | refreshRateChange => exact h.execRefreshRateChange
  | ddrChannelOnline => exact h.execDdrChannelOnline
  | preemptRequest => exact h.execPreemptRequest
  | launchResume => exact h.execLaunchResume
  | majorFrameBoundary => exact h.execMajorFrameBoundary
  | windowStart => exact h.execWindowStart
  | parSwap => exact h.execParSwap
  | schedLoad => exact h.execSchedLoad
  | partSet => exact h.execPartSet
  | taskSet => exact h.execTaskSet
  | taskClear => exact h.execTaskClear
  | chainSet => exact h.execChainSet
  | chainClear => exact h.execChainClear
  | lateArrival => exact h.execLateArrival
  | budgetViolation => exact h.execBudgetViolation
  | deadlineViolation => exact h.execDeadlineViolation
  | chainLate => exact h.execChainLate
  | syncSet => exact h.execSyncSet
  | syncRead => exact h.execSyncRead
  | syncGrant => exact h.execSyncGrant
  | descriptorStart => exact h.execDescriptorStart
  | waitTimeout => exact h.execWaitTimeout
  | hello => exact h.execHello
  | heartbeat => exact h.execHeartbeat
  | regRead => exact h.execRegRead
  | regWrite => exact h.execRegWrite
  | setupDone => exact h.execSetupDone
  | doorbell => exact h.execDoorbell
  | nop => exact h.execNop
  | tableLoad => exact h.execTableLoad
  | readmit => exact h.execReadmit
  | completion => exact h.execCompletion
  | event => exact h.execEvent
  | epochStream => exact h.execEpochStream
  | bulkPush => exact h.execBulkPush
  | bulkPull => exact h.execBulkPull
  | bulkCredit => exact h.execBulkCredit
  | ackHeartbeat => exact h.execAckHeartbeat
  | retransmit => exact h.execRetransmit
  | hostLinkDown => exact h.execHostLinkDown
  | deviceHeartbeat => exact h.execDeviceHeartbeat
  | hostLost => exact h.execHostLost
  | sessionlessHello => exact h.execSessionlessHello
  | flitRx => exact h.execFlitRx
  | flitReplay => exact h.execFlitReplay
  | laneRetrain => exact h.execLaneRetrain
  | prbsRunDone => exact h.execPrbsRunDone
  | ringHello => exact h.execRingHello
  | neighbourLoss => exact h.execNeighbourLoss
  | censusTimeout => exact h.execCensusTimeout
  | roleLoad => exact h.execRoleLoad
  | allGather => exact h.execAllGather
  | reduceScatter => exact h.execReduceScatter
  | ringPass => exact h.execRingPass
  | joinTimeout => exact h.execJoinTimeout
  | collectiveStall => exact h.execCollectiveStall
  | checkEpochClose => exact h.execCheckEpochClose
  | checkLimitExpiry => exact h.execCheckLimitExpiry
  | containment => exact h.execContainment
  | supervisorMismatch => exact h.execSupervisorMismatch
  | proofCheck => exact h.execProofCheck
  | proofArbitrate => exact h.execProofArbitrate
  | digestCompute => exact h.execDigestCompute
  | digestWaitExpiry => exact h.execDigestWaitExpiry
  | fieldTest => exact h.execFieldTest
  | fieldTestDone => exact h.execFieldTestDone
  | offline => exact h.execOffline
  | online => exact h.execOnline
  | regionSet => exact h.execRegionSet
  | regionClear => exact h.execRegionClear
  | reload => exact h.execReload
  | history => exact h.execHistory
  | eventAgeout => exact h.execEventAgeout
  | regionVerify => exact h.execRegionVerify
  | safeInAssert => exact h.execSafeInAssert
  | safeInRelease => exact h.execSafeInRelease
  | safeHoldExpiry => exact h.execSafeHoldExpiry
  | clockSupervision => exact h.execClockSupervision
  | safeLineFault => exact h.execSafeLineFault
  | marginFrame => exact h.execMarginFrame
  | mgdGo => exact h.execMgdGo
  | thermalThrottle => exact h.execThermalThrottle
  | thermalTrip => exact h.execThermalTrip
  | thermalRecover => exact h.execThermalRecover
  | selftestSlice => exact h.execSelftestSlice
  | sliceDone => exact h.execSliceDone
  | selftestLapsed => exact h.execSelftestLapsed
  | powerGood => exact h.execPowerGood
  | startupBist => exact h.execStartupBist
  | romBootDone => exact h.execRomBootDone
  | ddrTrainingDone => exact h.execDdrTrainingDone
  | regionRelease => exact h.execRegionRelease
  | regionTestFail => exact h.execRegionTestFail
  | retentionPause => exact h.execRetentionPause
  | firmwareVerify => exact h.execFirmwareVerify
  | needleFwMulticast => exact h.execNeedleFwMulticast
  | unitReady => exact h.execUnitReady
  | nvsave => exact h.execNvsave
  | nvsaveDone => exact h.execNvsaveDone
  | restart => exact h.execRestart
  | attest => exact h.execAttest
  | attestPublish => exact h.execAttestPublish
  | advance => exact h.execAdvance
  | fuseBitBlown => exact h.execFuseBitBlown
  | unlock => exact h.execUnlock
  | macsecLoad => exact h.execMacsecLoad
  | supplyBandChange => exact h.execSupplyBandChange
  | brownOut => exact h.execBrownOut
  | wakeLow => exact h.execWakeLow
  | wakePowerOff => exact h.execWakePowerOff
  | cameraOvercurrent => exact h.execCameraOvercurrent
  | cameraReclose => exact h.execCameraReclose
  | pwrPocWrite => exact h.execPwrPocWrite
  | vcamRange => exact h.execVcamRange
  | baseRange => exact h.execBaseRange
  | missionEnd => exact h.execMissionEnd
  | wakeRise => exact h.execWakeRise
  | safeLineFaultCured => exact h.execSafeLineFaultCured
  | gptpGeneralRx => exact h.execGptpGeneralRx
  | pdelayReqTx => exact h.execPdelayReqTx
  | imuSelfCheckDone => exact h.execImuSelfCheckDone
  | hostFrameDiscarded => exact h.execHostFrameDiscarded

/-- A step's next state has evolved from the state with the queue's rest. -/
theorem step_evolves {s t : State} (h : step s = .next t) : Evolves False { s with pending := s.pending.tail } t := by
  unfold step at h
  split at h
  · next hp =>
    cases h
    have e : ({ s with pending := s.pending.tail } : State) = s := by
      rw [hp]
      exact congrArg (fun l => ({ s with pending := l } : State)) hp.symm
    rw [e]
    exact .refl s
  · next c r hp =>
    obtain ⟨u, hu, hs⟩ := exec_advances c { s with pending := r }
    rw [hu] at h
    cases h
    rwa [hp]

/-- Settles O37: every update of memory is a store or an erasure, and each keeps the canonical form. -/
theorem stepKeepsMemoryCanonical : Obligations.StepKeepsMemoryCanonical := by
  unfold Obligations.StepKeepsMemoryCanonical
  exact fun s t hs h => (step_evolves h).wf hs

/-- Settles O38. -/
theorem everyCommandHasNextState : Obligations.EveryCommandHasNextState := by
  unfold Obligations.EveryCommandHasNextState
  intro c s
  obtain ⟨t, h, -⟩ := exec_advances c s
  exact ⟨t, h⟩

/-- Settles O39: the queue is taken from before the command runs, and the command keeps it. -/
theorem stepTakesTheFrontCommand : Obligations.StepTakesTheFrontCommand := by
  unfold Obligations.StepTakesTheFrontCommand
  exact fun s t h => (step_evolves h).pending

/-- Settles O40: a blown bit is the only update of the fuses. -/
theorem fusesKeptAndRollbackNeverFalls : Obligations.FusesKeptAndRollbackNeverFalls := by
  unfold Obligations.FusesKeptAndRollbackNeverFalls
  exact fun s t h => ⟨(step_evolves h).part, (step_evolves h).rollback⟩

/-- Settles O41: a new history entry of a PERMANENT unit is PERMANENT, and every start keeps the history. -/
theorem permanentUnitsStayPermanent : Obligations.PermanentUnitsStayPermanent := by
  unfold Obligations.PermanentUnitsStayPermanent
  exact fun s t u h hu => (step_evolves h).permanent u hu

/-- Settles O42: seconds and ticks change at the tick alone, and what is emitted is added at the end. -/
theorem operatingSecondsNeverFall : Obligations.OperatingSecondsNeverFall := by
  unfold Obligations.OperatingSecondsNeverFall
  intro s t h
  obtain ⟨l, hl⟩ := (step_evolves h).emitted
  exact ⟨(step_evolves h).seconds, (step_evolves h).ticks, l, hl.symm⟩

end Sys2Proof.Machine
end

section
/-! SUPPORT AND OBLIGATION (the frame of the partition table operations). Each stores one block; what it keeps besides are registers, task and
chain supervision, and the completion's record. -/

namespace Sys2Proof.Machine

/-- `t` is `s` with the bytes of `l` stored from `a`, in memory and in the fields that the frame names. -/
structure StoresBlock (s : State) (a : Nat) (l : List Byte) (t : State) : Prop where
  mem : t.mem = (s.store a l).mem
  sync : t.sync = s.sync
  units : t.units = s.units
  part : t.part = s.part
  tm : t.tm = s.tm
  ctxs : t.ctxs = s.ctxs
  plates : t.plates = s.plates
  cores : t.cores = s.cores
  launches : t.launches = s.launches
  brn : t.brn = s.brn

namespace StoresBlock

variable {s t : State} {a : Nat} {l : List Byte} {j : Job}

theorem store : StoresBlock s a l (s.store a l) := by
  obtain ⟨_, _, e⟩ := s.store_shape a l
  constructor <;> rw [e]

theorem nothing : StoresBlock s a [] s := by constructor <;> rfl

theorem wr {f : RegField} {v i : Nat} (h : StoresBlock s a l t) : StoresBlock s a l (t.wr f v i) := { h with }

theorem setTask {n : Nat} {x : TaskSt} (h : StoresBlock s a l t) : StoresBlock s a l (t.setTask n x) := { h with }

theorem setChain {n : Nat} {x : ChainSt} (h : StoresBlock s a l t) : StoresBlock s a l (t.setChain n x) := { h with }

/-- A completion without a taint and without a signal. -/
theorem finishOk (h : StoresBlock s a l t) (ht : j.taint = []) (ho : j.sigObj = 0xFFFF) : StoresBlock s a l (t.finishOk j) := by
  obtain ⟨_, _, _, _, e⟩ := t.finishQuiet_shape j 0 0 0
  have hf : t.finishOk j = t.finishQuiet j 0 0 0 := by simp [State.finishOk, State.finish, State.signal, ht, ho]
  rw [hf, e]
  exact { h with }

theorem frame (h : StoresBlock s a l t) :
    t.bytes a l.length = l ∧ (∀ b, (b < a ∨ a + l.length ≤ b) → t.byte b = s.byte b) ∧
    t.sync = s.sync ∧ t.units = s.units ∧ t.part = s.part ∧ t.tm = s.tm ∧ t.ctxs = s.ctxs ∧ t.plates = s.plates ∧ t.cores = s.cores ∧
    t.launches = s.launches ∧ t.brn = s.brn := by
  refine ⟨?_, fun b hb => ?_, h.sync, h.units, h.part, h.tm, h.ctxs, h.plates, h.cores, h.launches, h.brn⟩
  · rw [State.bytes, h.mem]
    exact s.bytes_store_self a l
  · rw [State.byte, h.mem]
    exact s.byte_store_out a b l hb

end StoresBlock

section
variable {s t : State} {job : Nat} {j : Job} (ht : j.taint = []) (ho : j.sigObj = 0xFFFF)
include ht ho

theorem execSchedLoad_stores (hj : s.startedOp job 3 1 = some j) (hs : s.flag Reg.PAR_STAT_SWAP_PENDING = false)
    (h : exec (.schedLoad job) s = .next t) : StoresBlock s (schedAddr (1 - s.rd Reg.PAR_STAT_BANK)) j.param t := by
  change execSchedLoad job s = _ at h
  unfold execSchedLoad at h
  rw [hj] at h
  cases hp : j.param with
  | nil =>
    simp only [hs, hp, firstOf, refuseIf_false, List.isEmpty_nil, refuseIf_true, State.runOr_none, if_true] at h
    cases h
    exact StoresBlock.nothing.finishOk ht ho
  | cons b r =>
    simp only [hs, hp, firstOf, List.isEmpty_cons, refuseIf_false, State.runOr_none, Bool.false_eq_true, if_false] at h
    cases h
    exact StoresBlock.store.wr.finishOk ht ho

theorem execPartSet_stores (hj : s.startedOp job 3 2 = some j) (hb : s.partBusy (j.arg 33 1) j.id = false)
    (hn : s.partNamed (j.arg 33 1) = false) (h : exec (.partSet job) s = .next t) :
    StoresBlock s (winAddr (0xE3000 + 32 * j.arg 33 1)) j.param t := by
  change execPartSet job s = _ at h
  unfold execPartSet at h
  rw [hj] at h
  simp only [hb, hn, Bool.and_false, refuseIf_false, firstOf, State.runOr_none] at h
  cases h
  split
  · next hp =>
    rw [List.isEmpty_iff.mp hp]
    exact StoresBlock.nothing.finishOk ht ho
  · exact StoresBlock.store.finishOk ht ho

theorem execTaskSet_stores (hj : s.startedOp job 3 3 = some j) (hv : s.taskValid (j.arg 33 1) = false)
    (h : exec (.taskSet job) s = .next t) : StoresBlock s (winAddr (0xE4000 + 32 * j.arg 33 1)) j.param t := by
  change execTaskSet job s = _ at h
  unfold execTaskSet at h
  rw [hj] at h
  simp only [hv, Bool.and_false, refuseIf_false, State.runOr_none] at h
  cases h
  split
  · next hp =>
    rw [List.isEmpty_iff.mp hp]
    exact StoresBlock.nothing.finishOk ht ho
  · exact StoresBlock.store.setTask.finishOk ht ho

theorem execTaskClear_stores (hj : s.startedOp job 3 4 = some j)
    (hc : s.chainsWith (fun c => s.chainRec c 1 1 == j.arg 33 1 || s.chainRec c 2 1 == j.arg 33 1) = [])
    (h : exec (.taskClear job) s = .next t) : StoresBlock s (winAddr (0xE4000 + 32 * j.arg 33 1)) (zeros 32) t := by
  change execTaskClear job s = _ at h
  unfold execTaskClear at h
  rw [hj] at h
  simp only [hc, List.isEmpty_nil, Bool.not_true, refuseIf_false, State.runOr_none] at h
  cases h
  exact StoresBlock.store.setTask.finishOk ht ho

theorem execChainSet_stores (hj : s.startedOp job 3 5 = some j) (hc : s.chainValid (j.arg 33 1) = false)
    (h1 : s.taskValid (fld j.param 1 1) = true) (h2 : s.taskValid (fld j.param 2 1) = true)
    (h : exec (.chainSet job) s = .next t) : StoresBlock s (winAddr (0xE6000 + 16 * j.arg 33 1)) j.param t := by
  change execChainSet job s = _ at h
  unfold execChainSet at h
  rw [hj] at h
  simp only [hc, h1, h2, Bool.not_true, Bool.and_false, refuseIf_false, firstOf, State.runOr_none] at h
  cases h
  split
  · next hp =>
    rw [List.isEmpty_iff.mp hp]
    exact StoresBlock.nothing.finishOk ht ho
  · exact StoresBlock.store.setChain.finishOk ht ho

theorem execChainClear_stores (hj : s.startedOp job 3 6 = some j) (h : exec (.chainClear job) s = .next t) :
    StoresBlock s (winAddr (0xE6000 + 16 * j.arg 33 1)) (zeros 16) t := by
  change execChainClear job s = _ at h
  unfold execChainClear at h
  rw [hj] at h
  cases h
  exact StoresBlock.store.setChain.finishOk ht ho

end

/-- Settles O56: each operation stores its one block, and the completion stores nothing. -/
theorem partitionTableStoreFrame : Obligations.PartitionTableStoreFrame := by
  unfold Obligations.PartitionTableStoreFrame
  intro s t job op a n j l c hj ht ho hn hop hchains h
  suffices hs : StoresBlock s a l t from hn ▸ hs.frame
  rcases hop with ⟨rfl, rfl, rfl, rfl, hp⟩ | ⟨rfl, rfl, rfl, rfl, hb, hnamed⟩ | ⟨rfl, rfl, rfl, rfl, hv⟩ | ⟨rfl, rfl, rfl, rfl⟩ |
    ⟨rfl, rfl, rfl, rfl, hc, h1, h2⟩ | ⟨rfl, rfl, rfl, rfl⟩
  · exact execSchedLoad_stores ht ho hj hp h
  · exact execPartSet_stores ht ho hj hb hnamed h
  · exact execTaskSet_stores ht ho hj hv h
  · exact execTaskClear_stores ht ho hj (hchains rfl) h
  · exact execChainSet_stores ht ho hj hc h1 h2 h
  · exact execChainClear_stores ht ho hj h

end Sys2Proof.Machine
end

section
/-! SUPPORT AND OBLIGATION (the frame of the input commands). A tick makes the records of the gatherings that are due, and one of a queue's
reset enters the history of the unit that it names (R464, R467). The model's gatherings with op 0x04 name queues alone, but the statement is
about every state: where one names the burnisher, the tick makes the burnisher PERMANENT, and its readiness entry in memory goes OFFLINE. -/

namespace Sys2Proof.Machine

theorem State.record_mem (s : State) (u op time cls n : Nat) (d : List (Nat × Nat)) : (s.record u op time cls n d).mem = s.mem := by
  obtain ⟨_, _, _, _, _, _, e⟩ := s.record_shape u op time cls n d
  rw [e]

/-- The only gathering, of a queue's reset and due, changes memory as its event in the history does. -/
theorem State.flushGathers_mem_of_due {s : State} {g : Gather} (hg : s.prf.gathers = [g]) (hdue : s.passed g.atTick (msTicks 1) = true)
    (hop : g.op = 4) : s.flushGathers.mem = (({ s with prf := { s.prf with gathers := [] } } : State).histEvent g.unit 4).mem := by
  simp [State.flushGathers, hg, hdue, hop, State.record_mem]

/-- A READY burnisher with three recent events in its history that have not been judged yet, and a due gathering that names it. -/
def burnisherDue : State :=
  { (State.reset.store (fnAddr 7) [7#8, 0#8, 2#8]) with
    power := .up, ticks := 250000,
    prf := { State.reset.prf with gathers := [⟨unitId 0x0C 0, 4, 0, 0, 1, 0, []⟩] },
    nv := { State.reset.nv with history := Tbl.empty.set (unitId 0x0C 0) ⟨2, 4, 3, [0, 0, 0], 0, 0⟩ } }

/-- The state of `burnisherDue` one tick later, before the gatherings. -/
def burnisherTicked : State :=
  { burnisherDue with
    tm := { burnisherDue.tm with dt96 := (burnisherDue.tm.dt96 + burnisherDue.inc) % 2 ^ 96 }, ticks := burnisherDue.ticks + 1,
    nv := { burnisherDue.nv with seconds := burnisherDue.nv.seconds + (if (burnisherDue.ticks + 1) % 250000000 = 0 then 1 else 0) } }

theorem burnisherDue_ready : burnisherDue.byte (fnAddr 7 + 2) = 2#8 := by decide

theorem burnisherTicked_offline : burnisherTicked.flushGathers.byte (fnAddr 7 + 2) = 5#8 := by
  have h : ∀ a, burnisherTicked.flushGathers.byte a =
      (({ burnisherTicked with prf := { burnisherTicked.prf with gathers := [] } } : State).histEvent (unitId 0x0C 0) 4).byte a := by
    intro a
    rw [State.byte, State.byte, State.flushGathers_mem_of_due (g := ⟨unitId 0x0C 0, 4, 0, 0, 1, 0, []⟩) rfl (by decide) rfl]
  rw [h]
  decide

/-- Refutes O57: at the tick of `burnisherDue` the burnisher becomes PERMANENT, and its readiness entry changes in memory. -/
theorem not_inputCommandsFrame : ¬ Obligations.InputCommandsFrame := by
  unfold Obligations.InputCommandsFrame
  intro h
  have hm : burnisherTicked.flushGathers.mem = burnisherDue.mem :=
    (h burnisherDue _ .timeTick (.inl rfl) (execTimeTick_of_on burnisherDue (by decide))).1
  have hb := burnisherTicked_offline
  rw [State.byte, hm] at hb
  exact absurd (hb.symm.trans burnisherDue_ready) (by decide)

end Sys2Proof.Machine
end

section
/-! OBLIGATIONS (the step and the reset state). -/

namespace Sys2Proof.Machine

theorem step_of_pending_nil {s : State} (h : s.pending = []) : step s = .next s := by
  unfold step
  rw [h]

theorem step_of_pending_cons {s : State} {c : Instr} {r : List Instr} (h : s.pending = c :: r) : step s = exec c { s with pending := r } := by
  unfold step
  rw [h]

/-- Settles O34. -/
theorem frontCommandRuns : Obligations.FrontCommandRuns := by
  unfold Obligations.FrontCommandRuns
  exact ⟨fun c s => step_of_pending_cons rfl, fun c r s h => step_of_pending_cons h⟩

/-- Settles O35. -/
theorem idleOnEmptyQueue : Obligations.IdleOnEmptyQueue := by
  unfold Obligations.IdleOnEmptyQueue
  exact fun s h => step_of_pending_nil h

/-- Settles O36: each part is a reset value of the model. -/
theorem resetState : Obligations.ResetState := by
  unfold Obligations.ResetState Safety.LineAsserted
  exact ⟨rfl, rfl, rfl, rfl, rfl, rfl, rfl, rfl, rfl, rfl⟩

end Sys2Proof.Machine
end

section
/-! SUPPORT AND OBLIGATION (the power commands). What a change of clocks and the switching of a domain leave (R2, R17, R19, R504, R517). -/

namespace Sys2Proof.Machine

/-! ### Clocks -/

@[simp] theorem State.showClocks_pwr (s : State) : s.showClocks.pwr = s.pwr := by
  obtain ⟨r, e⟩ := s.showClocks_shape
  rw [e]

@[simp] theorem State.showClocks_sup (s : State) : s.showClocks.sup = s.sup := by
  obtain ⟨r, e⟩ := s.showClocks_shape
  rw [e]

theorem State.gateEnd_le (s : State) : s.gateEnd ≤ s.ticks + usTicks 20 :=
  Nat.add_le_add_left (Nat.le_of_lt_succ (Nat.mod_lt _ (Nat.succ_pos _))) _

@[simp] theorem State.reclock_clock (s old : State) : (s.reclock old).pwr.clock = s.pwr.clock := by
  unfold State.reclock
  rw [State.showClocks_pwr, State.usedFree_pwr]
  exact s.foldl_keeps (·.pwr.clock) State.gate (fun _ _ => rfl) _

@[simp] theorem State.reclock_overLimit (s old : State) : (s.reclock old).pwr.overLimit = s.pwr.overLimit := by
  unfold State.reclock
  rw [State.showClocks_pwr, State.usedFree_pwr]
  exact s.foldl_keeps (·.pwr.overLimit) State.gate (fun _ _ => rfl) _

@[simp] theorem State.reclock_sup (s old : State) : (s.reclock old).sup = s.sup := by
  unfold State.reclock
  rw [State.showClocks_sup, State.usedFree_sup]
  exact s.foldl_keeps (·.sup) State.gate (fun _ _ => rfl) _

/-- The limiter changes the plates' clocks and dates the excess. -/
theorem execPowerLimitAdjust_of_alive {s : State} (powerDw khz : Nat) (h : s.alive = true) :
    ∃ t, exec (.powerLimitAdjust powerDw khz) s = .next t ∧
      t.pwr.overLimit = (if 10 * s.part.limitW < powerDw then some (s.pwr.overLimit.getD s.ticks) else none) ∧
      t.pwr.clock =
        s.platesOn.foldl (fun m p => m.set p (s.limiterKhz (decide (10 * s.part.limitW < powerDw)) khz p)) s.pwr.clock := by
  refine ⟨_, if_neg (by simp [h]), ?_, ?_⟩
  · rw [State.reclock_overLimit]
    simp
  · rw [State.reclock_clock]

theorem execIslandRelock_of_alive {s : State} (i : Fin 44) (khz : Nat) (h : s.alive = true) (hi : i.val ≠ islandAon) :
    exec (.islandRelock i khz) s =
      .next ((({ s with pwr := { s.pwr with clock := s.pwr.clock.set i (s.relockKhz i khz) } } : State).gate i).usedFree.showClocks) :=
  if_neg (by simp [h, hi])

theorem execPowerMonitorRelease_of_past {s : State} {powerDw t : Nat} (ht : s.sup.trippedAt = some t) (hpast : t + msTicks 100 ≤ s.ticks)
    (hlt : powerDw < 10 * s.part.limitW) :
    exec (.powerMonitorRelease powerDw) s = .next (({ s.showInput powerDw with
      sup := { s.sup with trippedAt := none }, pwr := { s.pwr with overLimit := none } } : State).reclock s) := by
  change execPowerMonitorRelease powerDw s = _
  simp [execPowerMonitorRelease, ht, State.passed, hpast, hlt]

/-! ### Domains -/

/-- The part of a switch-off that the domain itself sees: its bit and its memory. -/
def State.domainDown (s : State) (d : Nat) : State :=
  let s := { s with pwr := { s.pwr with domains := s.pwr.domains - 2 ^ d } }
  if (domainMem d).2 = 0 then s else s.eraseRange (domainMem d).1 (domainMem d).2

theorem State.domainDown_domains (s : State) (d : Nat) : (s.domainDown d).pwr.domains = s.pwr.domains - 2 ^ d := by
  unfold State.domainDown
  dsimp only
  split <;> rfl

theorem State.domainDown_byte (s : State) (d a : Nat) :
    (s.domainDown d).byte a =
      if (domainMem d).1 ≤ a ∧ a < (domainMem d).1 + (domainMem d).2 then memDefault a else s.byte a := by
  unfold State.domainDown
  dsimp only
  split
  · next h => rw [if_neg (by omega)]; rfl
  · exact State.byte_eraseRange ..

/-- A domain that nothing uses is switched off while the module starts; what else changes is in registers. -/
theorem execDomainSwitchOff_of_starting {s : State} (d : Fin 43) (hp : s.power = .starting) (h0 : d.val ≠ 0)
    (hon : bit s.pwr.domains d.val = true) (hidle : s.domainIdle d.val = true) :
    ∃ r, exec (.domainSwitchOff d) s = .next { s.domainDown d with regs := r } := by
  have hgo : ¬(!s.alive ∨ d.val = 0 ∨ !bit s.pwr.domains d.val ∨
      !(s.power == .starting || (domainUnits d.val).all (fun u => !s.unitFit u || (u / 2 ^ 24 == 1 && !bit s.plateMap (bits u 0 24)))) ∨
      !s.domainIdle d.val) := by
    simp [State.alive, hp, h0, hon, hidle]
  have hstate (t : State) : ∃ r, (if 1 ≤ d.val ∧ d.val ≤ 34 then t.wr Reg.PLT_STAT_STATE 0 (d - 1)
      else if d.val = 35 ∨ d.val = 36 then t.wr Reg.TRC_STAT_RUN 0 (d - 35) else t) = { t with regs := r } := by
    (repeat' split) <;> exact ⟨_, rfl⟩
  obtain ⟨r, hr⟩ := hstate (s.domainDown d)
  obtain ⟨r', hr'⟩ := ({ s.domainDown d with regs := r } : State).showClocks_shape
  refine ⟨r', (if_neg hgo).trans ?_⟩
  rw [← hr', ← hr]
  rfl

/-- The part of a switch-on that the domain itself sees: a commons half is erased, the channels of a DDR4 domain begin their training. -/
def State.domainStarted (s : State) (d : Nat) : State :=
  let s := if d = 35 ∨ d = 36 then s.eraseRange (gaddr spCommons ((d - 35) * 10485760)) 10485760 else s
  if d = 41 ∨ d = 42 then
    (List.range 4).foldl (fun s i =>
      if s.fnState (0x200 + (4 * (d - 41) + i)) = rdWaiting then s.setFn (0x200 + (4 * (d - 41) + i)) rdProgress 0 else s) s
  else s

theorem State.domainStarted_pwr (s : State) (d : Nat) : (s.domainStarted d).pwr = s.pwr := by
  have hset (t : State) (f : Nat) : (t.setFn f rdProgress 0).pwr = t.pwr := by
    obtain ⟨_, _, _, _, _, _, e⟩ := t.setFn_shape f rdProgress 0
    rw [e]
  have herase : (if d = 35 ∨ d = 36 then s.eraseRange (gaddr spCommons ((d - 35) * 10485760)) 10485760 else s).pwr = s.pwr := by
    split <;> rfl
  unfold State.domainStarted
  dsimp only
  split
  · refine (State.foldl_keeps _ (·.pwr) _ (fun t i => ?_) _).trans herase
    split
    · exact hset ..
    · rfl
  · exact herase

theorem execDomainSwitchOn_single {s : State} (d : Fin 43) (halive : s.alive = true) (h0 : d.val ≠ 0)
    (hoff : bit s.pwr.domains d.val = false) (hsw : s.pwr.switched = []) :
    exec (.domainSwitchOn [d]) s = .next ((({ s with
      pwr := { s.pwr with domains := s.pwr.domains ||| 2 ^ d.val, switched := [s.ticks] } } : State).domainStarted d).showClocks) := by
  have hds : [d.val].eraseDups.filter (fun k => k != 0 && !bit s.pwr.domains k) = [d.val] := by
    simp [List.eraseDups_cons, h0, hoff]
  change execDomainSwitchOn [d] s = _
  simp [execDomainSwitchOn, State.domainStarted, hds, halive, hsw]

/-! ### The obligation -/

/-- Settles O1. -/
theorem powerCommandsComplete : Obligations.PowerCommandsComplete := by
  unfold Obligations.PowerCommandsComplete
  refine ⟨fun s h => execTimeTick_of_on s h, fun s i khz h hi => ?_, fun s dw khz h hle => ?_, fun s dw khz h hlt => ?_,
    fun s dw h hlt => ?_, fun s dw t ht hpast hlt => ?_, fun s d hp h0 hon hidle => ?_, fun s d h h0 hoff hsw => ?_⟩
  · refine ⟨_, execIslandRelock_of_alive i khz h hi, ?_, ?_, fun j hj => ?_⟩
    · rw [State.showClocks_pwr]
      rfl
    · rw [State.showClocks_pwr]
      exact (Tbl.get_set_self ..).trans_le (State.gateEnd_le _)
    · rw [State.showClocks_pwr]
      exact Tbl.get_set_ne _ _ _ hj
  · obtain ⟨t, ht, hover, hclock⟩ := execPowerLimitAdjust_of_alive dw khz h
    rw [if_neg (Nat.not_lt.mpr hle)] at hover
    refine ⟨t, ht, hover, ?_⟩
    simpa [State.limiterKhz, Nat.not_lt.mpr hle] using hclock
  · obtain ⟨t, ht, hover, hclock⟩ := execPowerLimitAdjust_of_alive dw khz h
    rw [if_pos hlt] at hover
    refine ⟨t, ht, hover, ?_⟩
    simpa [State.limiterKhz, hlt] using hclock
  · refine ⟨_, if_neg (by simp [h, hlt]), ?_, ?_, ?_⟩
    · rw [State.reclock_sup]
    · rw [State.reclock_overLimit]
    · rw [State.reclock_clock]
  · refine ⟨_, execPowerMonitorRelease_of_past ht hpast hlt, ?_, ?_, ?_⟩
    · rw [State.reclock_sup]
    · rw [State.reclock_overLimit]
    · rw [State.reclock_clock]
  · obtain ⟨r, hr⟩ := execDomainSwitchOff_of_starting d hp h0 hon hidle
    refine ⟨_, hr, s.domainDown_domains d, fun a hlo hhi => ?_, fun a hout => ?_⟩
    · exact (s.domainDown_byte d a).trans (if_pos ⟨hlo, hhi⟩)
    · exact (s.domainDown_byte d a).trans (if_neg (by omega))
  · refine ⟨_, execDomainSwitchOn_single d h h0 hoff hsw, ?_, ?_, fun hd o ho => ?_⟩
    · rw [State.showClocks_pwr, State.domainStarted_pwr]
    · rw [State.showClocks_pwr, State.domainStarted_pwr]
    · have hzero := State.commonsHalfZero_eraseRange ({ s with
        pwr := { s.pwr with domains := s.pwr.domains ||| 2 ^ d.val, switched := [s.ticks] } } : State) (h := d.val - 35) (by omega)
      have hddr : ¬(d.val = 41 ∨ d.val = 42) := by omega
      rw [State.byte, State.showClocks_mem, State.domainStarted, if_neg hddr, if_pos hd]
      exact (hzero o ho).1

end Sys2Proof.Machine
end

section
/-! SUPPORT AND OBLIGATION (the time commands). -/

namespace Sys2Proof.Machine

/-! ### Stamps (R44) -/

theorem State.keepStamp_rx_of_room {s : State} {p : Nat} (x : Stamp) (h : (s.tm.rx.get [] p).length < 16) :
    s.keepStamp false p x = (s.setTm { s.tm with rx := s.tm.rx.set p (s.tm.rx.get [] p ++ [x]) }, true) :=
  if_neg (Nat.not_le.mpr h)

theorem State.keepStamp_tx_of_room {s : State} {p : Nat} (x : Stamp) (h : (s.tm.tx.get [] p).length < 16) :
    s.keepStamp true p x = (s.setTm { s.tm with tx := s.tm.tx.set p (s.tm.tx.get [] p ++ [x]) }, true) :=
  if_neg (Nat.not_le.mpr h)

theorem execGptpEventRx_sync {s : State} {p : Fin 8} {m : GptpEvent} (h : s.alive = true) (hu : s.unitUp (stampUnit p.val) = true)
    (hm : m.msgType.val = 0) (h2 : m.twoStep = true) (hroom : (s.tm.rx.get [] p.val).length < 16) (hs : s.tm.gptpSlave = some p.val) :
    exec (.gptpEventRx p m) s = .next ((s.setTm { s.tm with
      rx := s.tm.rx.set p.val (s.tm.rx.get [] p.val ++ [⟨s.tm.dt96 / 2 ^ 29 - s.rd Reg.RUL_PLAT_RX_LAT p.val, 0, m.seqId.toNat⟩]),
      refAt := s.ticks }).syncInterval p.val m.logInterval) := by
  change execGptpEventRx p m s = _
  unfold execGptpEventRx
  rw [hm, if_neg (by simp [h, hu]), State.keepStamp_rx_of_room _ hroom]
  simp only [State.setTm_tm, hs, if_true, h2]
  rfl

theorem execGptpEventRx_pdelayResp {s : State} {p : Fin 8} {m : GptpEvent} (h : s.alive = true)
    (hu : s.unitUp (stampUnit p.val) = true) (hm : m.msgType.val = 3) (hroom : (s.tm.rx.get [] p.val).length < 16) :
    exec (.gptpEventRx p m) s = .next (s.setTm { s.tm with
      rx := s.tm.rx.set p.val (s.tm.rx.get [] p.val ++ [⟨s.tm.dt96 / 2 ^ 29 - s.rd Reg.RUL_PLAT_RX_LAT p.val, 3, m.seqId.toNat⟩]),
      pdelayAt := s.tm.pdelayAt.set p.val s.ticks }).discoverAll := by
  change execGptpEventRx p m s = _
  unfold execGptpEventRx
  rw [hm, if_neg (by simp [h, hu]), State.keepStamp_rx_of_room _ hroom]
  rfl

theorem execGptpSyncTx_grandmaster {s : State} {p : Fin 8} (q : BitVec 16) (h : s.alive = true)
    (hu : s.unitUp (stampUnit p.val) = true) (hs : s.tm.gptpSlave = none) (hroom : (s.tm.tx.get [] p.val).length < 16) :
    exec (.gptpSyncTx p q true) s = .next (((s.setTm { s.tm with
      tx := s.tm.tx.set p.val (s.tm.tx.get [] p.val ++ [⟨s.departure p.val / 2 ^ 29, 0, q.toNat⟩]) }).useStamp true p.val 0 q.toNat).sendGptp
        p.val 0 q.toNat (s.departure p.val / 2 ^ 32) (s.departure p.val / 2 ^ 16 % 2 ^ 16 : Nat)) := by
  change execGptpSyncTx p q true s = _
  unfold execGptpSyncTx
  rw [if_neg (by simp [h, hu, hs]), State.keepStamp_tx_of_room _ hroom]
  rfl

theorem execPdelayReqTx_of_room {s : State} {p : Fin 8} (h : s.alive = true) (hu : s.unitUp (stampUnit p.val) = true)
    (hroom : (s.tm.tx.get [] p.val).length < 16) :
    exec (.pdelayReqTx p) s = .next ((s.setTm { s.tm with
      txSeq := s.tm.txSeq.set p.val ((s.tm.txSeq.get 0 p.val + 1) % 65536),
      tx := s.tm.tx.set p.val (s.tm.tx.get [] p.val ++ [⟨s.departure p.val / 2 ^ 29, 2, s.tm.txSeq.get 0 p.val⟩]) }).sendGptp
        p.val 2 (s.tm.txSeq.get 0 p.val) 0 0) := by
  change execPdelayReqTx p s = _
  unfold execPdelayReqTx
  dsimp only
  rw [if_neg (by simp [h, hu]), State.keepStamp_tx_of_room _ (by exact hroom)]
  rfl

/-! ### The servo (R33 to R40) -/

section
variable {s : State} {m : ServoMeas} (h : s.alive = true) (href : s.tm.ref = (if m.pps then .pps else .gptp)) (ho : m.oDen ≠ 0)
  (hupd : m.updNs ≠ 0) (hr : m.rDen ≠ 0) (hrate : 0 < (m.rDen : Int) + m.rNum)
include h href ho hupd hr hrate

theorem servoUpdate_runs : ¬(!s.alive ∨ s.tm.ref ≠ (if m.pps then .pps else .gptp) ∨ m.oDen = 0 ∨ m.updNs = 0 ∨ m.rDen = 0 ∨
    (m.rDen : Int) + m.rNum ≤ 0) := by
  simp [h, href, ho, hupd, hr, hrate]

theorem execServoUpdate_within (hsmall : m.oNum.natAbs ≤ s.rd Reg.RUL_SERVO_STEP_STEP_THR * m.oDen) :
    ∃ t u, t = (s.wr Reg.RUL_OFFSET_O (toU 32 (clampI (-(2 ^ 31 - 1)) (2 ^ 31 - 1) (roundDiv m.oNum m.oDen)))).loadInc (servoInc m m.oNum) ∧
      u = (if m.pps then t else t.secondsKnown) ∧
      exec (.servoUpdate m) s = .next (u.lockUpdate (decide (m.oNum.natAbs ≤ s.rd Reg.RUL_SERVO_LOCK_THR * m.oDen))
        (decide (4 * (s.rd Reg.RUL_SERVO_LOCK_THR * m.oDen) < m.oNum.natAbs))).saveRate := by
  have hbig : decide (s.rd Reg.RUL_SERVO_STEP_STEP_THR * m.oDen < m.oNum.natAbs) = false := by simpa using hsmall
  refine ⟨_, _, rfl, rfl, ?_⟩
  change execServoUpdate m s = _
  unfold execServoUpdate
  rw [if_neg (servoUpdate_runs h href ho hupd hr hrate), hbig]
  cases m.pps <;> rfl

theorem execServoUpdate_beyond (hlarge : s.rd Reg.RUL_SERVO_STEP_STEP_THR * m.oDen < m.oNum.natAbs)
    (hsteps : m.oNum < 0 ∨ s.flag Reg.RUL_CTRL_RUN = false) :
    ∃ t u, t = ((s.wr Reg.RUL_OFFSET_O (toU 32 (clampI (-(2 ^ 31 - 1)) (2 ^ 31 - 1) (roundDiv m.oNum m.oDen)))).stepTime
        (roundDiv (-m.oNum * 2 ^ 32) m.oDen)).loadInc (servoInc m 0) ∧
      u = (if m.pps then t else t.secondsKnown) ∧
      exec (.servoUpdate m) s = .next (u.lockUpdate (decide (m.oNum.natAbs ≤ s.rd Reg.RUL_SERVO_LOCK_THR * m.oDen))
        (decide (4 * (s.rd Reg.RUL_SERVO_LOCK_THR * m.oDen) < m.oNum.natAbs))).saveRate := by
  have hbig : decide (s.rd Reg.RUL_SERVO_STEP_STEP_THR * m.oDen < m.oNum.natAbs) = true := by simpa using hlarge
  have hst : (decide (m.oNum < 0) || !s.flag Reg.RUL_CTRL_RUN) = true := by simpa using hsteps
  refine ⟨_, _, rfl, rfl, ?_⟩
  change execServoUpdate m s = _
  unfold execServoUpdate
  rw [if_neg (servoUpdate_runs h href ho hupd hr hrate), hbig, hst]
  cases m.pps <;> simp

end

/-! ### The obligation -/

/-- Settles O2. -/
theorem timeCommandsComplete : Obligations.TimeCommandsComplete := by
  unfold Obligations.TimeCommandsComplete
  refine ⟨fun s m => execServoUpdate_within, fun s m => execServoUpdate_beyond, fun s h href hp => ?_, fun s p h href hs hp => ?_,
    fun s t h hp => ?_, fun s h hp => ?_, fun s r h hs he => ?_, fun s hp hs => ?_, fun s len ofs hs hrun hlo hhi hofs => ?_,
    fun s p m => execGptpEventRx_sync, fun s p m => execGptpEventRx_pdelayResp, fun s p m h hu hm hst => ?_,
    fun s p q => execGptpSyncTx_grandmaster q, fun s p => execPdelayReqTx_of_room⟩
  · change execReferenceLost s = _
    simp [execReferenceLost, State.passed, h, href, hp]
  · change execReferenceLost s = _
    simp [execReferenceLost, State.passed, h, href, hs, hp]
  · change execPpsEdge s = _
    simp [execPpsEdge, h, hp]
  · change execPpsEdge s = _
    simp [execPpsEdge, h, hp]
  · exact if_neg (by simp [h, hs, he])
  · exact if_neg (by simp [hp, hs])
  · exact if_neg (by simp [hs, State.epochWriteError, hrun]; omega)
  · change execGptpGeneralRx p m s = _
    simp [execGptpGeneralRx, h, hu, hm, hst]

end Sys2Proof.Machine
end

section
/-! OBLIGATION (the epoch and trigger commands). -/

namespace Sys2Proof.Machine

/-- Settles O3. -/
theorem epochAndTriggerCommandsComplete : Obligations.EpochAndTriggerCommandsComplete := by
  unfold Obligations.EpochAndTriggerCommandsComplete
  refine ⟨fun s h hrun hb => ?_, fun s e t hp hk hd hpast => ?_, fun s e t hp hk hu hd => ?_, fun s e t hp hk hu hd => ?_⟩
  · exact ⟨_, if_neg (by simp [h, hrun, hb]), _, rfl, rfl⟩
  · rw [execTriggerFire_of_due hp hk hd, if_neg (by simpa [State.pulseWidth] using hpast)]
    rfl
  · change execBackChannelTrigger e s = _
    simp [execBackChannelTrigger, hp, hk, hu, hd]
  · change execPhaseCommand e s = _
    simp [execPhaseCommand, hp, hk, hu, hd]

end Sys2Proof.Machine
end

section
/-! SUPPORT AND OBLIGATION (the sensor data commands). -/

namespace Sys2Proof.Machine

/-! ### Camera packets -/

theorem dataTypeKnown_of_image {t : Nat} (h : dataTypeImage t = true) : dataTypeKnown t = true := by
  simp only [dataTypeImage, Bool.or_eq_true, beq_iff_eq, decide_eq_true_eq] at h
  simp only [dataTypeKnown, Bool.or_eq_true, beq_iff_eq, decide_eq_true_eq]
  omega

theorem ne_zero_of_dataTypeImage {t : Nat} (h : dataTypeImage t = true) : t ≠ 0 := by
  rintro rfl
  exact absurd h (by decide)

theorem ne_one_of_dataTypeImage {t : Nat} (h : dataTypeImage t = true) : t ≠ 1 := by
  rintro rfl
  exact absurd h (by decide)

section
variable {s : State} {port : Fin 12} {p : Csi2Packet} {i : Nat} (hp : s.power = .up) (hu : s.unitUp (unitId 0x0A port.val) = true)
  (hhead : p.headerBad = false) (hi : s.cameraEntry port.val p.vc.val = some i)
include hp hu hhead hi

theorem execCsi2PacketRx_image (ht : dataTypeImage p.dataType.toNat = true)
    (hq : (s.charge i p.payload.length (s.cameraStamp port.val)).2 = true) :
    ∃ u : State, u = (s.charge i p.payload.length (s.cameraStamp port.val)).1.setSens i (fun x => { x with lines := x.lines ++ [p.payload] }) ∧
      exec (.csi2PacketRx port p) s = .next (u.receivePacket port.val
        ⟨if p.crcBad then stDataError else 0, i, p.vc.val * 64 + p.dataType.toNat, (u.sensSt i).frameNo, s.cameraStamp port.val⟩
        p.payload p.cutAt) := by
  refine ⟨_, rfl, ?_⟩
  change execCsi2PacketRx port p s = _
  generalize hc : s.charge i p.payload.length (s.cameraStamp port.val) = c at hq
  rcases c with ⟨t, ok⟩
  obtain rfl : ok = true := hq
  simp [execCsi2PacketRx, hp, hu, hhead, hi, hc, ht, dataTypeKnown_of_image ht, ne_zero_of_dataTypeImage ht, ne_one_of_dataTypeImage ht]

theorem execCsi2PacketRx_frameStart (ht : p.dataType.toNat = 0) :
    ∃ u : State, u = s.frameStart i (fld p.payload 1 2) (s.cameraStamp port.val) ∧
      exec (.csi2PacketRx port p) s = .next (u.receivePacket port.val ⟨0, i, p.vc.val * 64, (u.sensSt i).frameNo, s.cameraStamp port.val⟩
        (p.payload.take 4) none) := by
  refine ⟨_, rfl, ?_⟩
  change execCsi2PacketRx port p s = _
  have hk : dataTypeKnown 0 = true := by decide
  simp [execCsi2PacketRx, hp, hu, hhead, hi, ht, hk]

theorem execCsi2PacketRx_frameEnd (ht : p.dataType.toNat = 1) :
    ∃ u : State, u = (s.frameEnd i).1 ∧
      exec (.csi2PacketRx port p) s = .next (u.receivePacket port.val
        ⟨(s.frameEnd i).2, i, p.vc.val * 64 + 1, (u.sensSt i).frameNo, s.cameraStamp port.val⟩ (p.payload.take 4) none).startH1 := by
  refine ⟨_, rfl, ?_⟩
  change execCsi2PacketRx port p s = _
  have hk : dataTypeKnown 1 = true := by decide
  simp [execCsi2PacketRx, hp, hu, hhead, hi, ht, hk]

end

/-! ### Ethernet frames -/

section
variable {s : State} {port : Fin 6} {f : EthFrame} (hp : s.power = .up) (hu : s.unitUp (unitId 0x0B port.val) = true)
  (hgptp : etherType f.bytes ≠ 0x88F7) (hlldp : etherType f.bytes ≠ 0x88CC)
include hp hu hgptp hlldp

theorem execEthFrameRx_lidar {i : Nat} (hport : port.val < 4)
    (hi : (s.sensorsOn 2 port.val).find? (fun i => s.rd Reg.ING_SENS_STATE i == 3) = some i)
    (hq : (s.charge i f.bytes.length (s.etherStamp port.val)).2 = true) :
    exec (.ethFrameRx port f) s = .next ((s.charge i f.bytes.length (s.etherStamp port.val)).1.ethPacket port.val f (some i)) := by
  change execEthFrameRx port f s = _
  generalize hc : s.charge i f.bytes.length (s.etherStamp port.val) = c at hq
  rcases c with ⟨t, ok⟩
  obtain rfl : ok = true := hq
  simp [execEthFrameRx, hp, hu, hgptp, hlldp, hport, hi, hc]

theorem execEthFrameRx_unmatched (hport : 4 ≤ port.val) (ha : s.auxEntry (port.val - 4) f.bytes = none) :
    exec (.ethFrameRx port f) s = .next (s.ethPacket port.val f none) := by
  change execEthFrameRx port f s = _
  simp [execEthFrameRx, hp, hu, hgptp, hlldp, Nat.not_lt.mpr hport, ha]

theorem execEthFrameRx_aux {i : Nat} (hport : 4 ≤ port.val) (ha : s.auxEntry (port.val - 4) f.bytes = some i)
    (hq : (s.charge i f.bytes.length (s.etherStamp port.val)).2 = true) :
    ∃ u : State, u = (s.charge i f.bytes.length (s.etherStamp port.val)).1 ∧
      exec (.ethFrameRx port f) s = .next ((u.packetFrame i (u.etherStamp port.val) f.bytes).ethPacket port.val f (some i)) := by
  refine ⟨_, rfl, ?_⟩
  change execEthFrameRx port f s = _
  generalize hc : s.charge i f.bytes.length (s.etherStamp port.val) = c at hq
  rcases c with ⟨t, ok⟩
  obtain rfl : ok = true := hq
  simp [execEthFrameRx, hp, hu, hgptp, hlldp, Nat.not_lt.mpr hport, ha, hc]

end

/-! ### CAN frames and bursts -/

section
variable {s : State} {chan : Fin 6} {f : CanFrame} (hp : s.power = .up) (hfd : (f.fdf && s.rd Reg.ING_CAN_BIT_MODE chan.val == 1) = false)
include hp hfd

theorem execCanFrameRx_unmatched (hm : (s.sensorsOn 4 chan.val).filter (fun i => s.canMatches i f) = []) :
    exec (.canFrameRx chan f) s = .next (s.bump Reg.ING_PORT_STAT_UNMATCHED (0x18 + chan.val)) := by
  change execCanFrameRx chan f s = _
  unfold execCanFrameRx
  simp only [hp, hfd, hm]
  rfl

theorem execCanFrameRx_matched {i : Nat} (hm : (s.sensorsOn 4 chan.val).filter (fun i => s.canMatches i f) = [i])
    (hi : s.rd Reg.ING_SENS_STATE i = 3) (hq : (s.charge i f.bytes.length s.dt64).2 = true) :
    ∃ u : State, u = (s.charge i f.bytes.length s.dt64).1 ∧
      exec (.canFrameRx chan f) s = .next ((u.packetFrame i u.dt64 f.bytes).receivePacket (0x18 + chan.val)
        ⟨if f.crcBad then stDataError else 0, i, f.fdf.toNat + 2 * f.brs.toNat + 4 * f.ide.toNat + 8 * f.esi.toNat, f.ident.toNat, u.dt64⟩
        f.bytes none) := by
  refine ⟨_, rfl, ?_⟩
  change execCanFrameRx chan f s = _
  generalize hc : s.charge i f.bytes.length s.dt64 = c at hq
  rcases c with ⟨t, ok⟩
  obtain rfl : ok = true := hq
  unfold execCanFrameRx
  simp only [hp, hfd, hm]
  simp [hi, hc]

end

theorem execDataReadyEdge_imu {s : State} {d : Burst} {i : Nat} (hp : s.power = .up) (hd : d.identity = none)
    (hi : (s.sensorsOn 6 0).find? (fun i => s.rd Reg.ING_SENS_STATE i == 3) = some i)
    (hq : (s.charge i (d.bytes.take 64).length s.dt64).2 = true) :
    ∃ u : State, u = (s.charge i (d.bytes.take 64).length s.dt64).1 ∧
      exec (.dataReadyEdge 2 d) s = .next ((u.packetFrame i u.dt64 (d.bytes.take 64)).receivePacket 0x22 ⟨0, i, 0, 0, u.dt64⟩
        (d.bytes.take 64) none) := by
  refine ⟨_, rfl, ?_⟩
  change execDataReadyEdge 2 d s = _
  generalize hc : s.charge i (d.bytes.take 64).length s.dt64 = c at hq
  rcases c with ⟨t, ok⟩
  obtain rfl : ok = true := hq
  unfold execDataReadyEdge
  simp only [hp, hd]
  simp [hi, hc, -List.length_take]

/-- Settles O4. -/
theorem sensorDataCommandsComplete : Obligations.SensorDataCommandsComplete := by
  unfold Obligations.SensorDataCommandsComplete
  exact ⟨fun s port p i hp hu hh ht hi => execCsi2PacketRx_image hp hu hh hi ht,
    fun s port p i hp hu hh ht hi => execCsi2PacketRx_frameStart hp hu hh hi ht,
    fun s port p i hp hu hh ht hi => execCsi2PacketRx_frameEnd hp hu hh hi ht,
    fun s port f i hp hu h1 h2 => execEthFrameRx_lidar hp hu h1 h2, fun s port f => execEthFrameRx_unmatched, 
    fun s port f i hp hu h1 h2 => execEthFrameRx_aux hp hu h1 h2,
    fun s chan f => execCanFrameRx_unmatched, fun s chan f i hp hfd => execCanFrameRx_matched hp hfd, fun s d i => execDataReadyEdge_imu⟩

end Sys2Proof.Machine
end

section
/-! SUPPORT AND OBLIGATION (the link and discovery commands). -/

namespace Sys2Proof.Machine

theorem execLinkCheckPass_host {s : State} {k : Fin 20} {q : BitVec 8} (h : s.alive = true) (hk : 18 ≤ k.val)
    (hq : s.rd Reg.EAS_LINKCHK_SQI_MIN ≤ q.toNat) (hmax : q.toNat ≤ 7) (hu : s.unitUp (unitId 0x0F (k.val - 18)) = true) :
    exec (.linkCheckPass k q) s = .next (((((s.setLink (k.val - 18) true).wr Reg.HTP_PORT_LINK 1 (k.val - 18)).wr Reg.HTP_PORT_SQI
      q.toNat (k.val - 18)).fnReady (0x700 + (k.val - 18))).failoverDue) := by
  have hcam : ¬k.val < 12 := by omega
  have hsens : ¬k.val < 18 := by omega
  change execLinkCheckPass k q s = _
  simp only [execLinkCheckPass, if_neg hcam, if_neg hsens]
  exact if_neg (by simp [h, hu, hcam, hq, hmax])

theorem execLinkCheckPass_ethernet {s : State} {k : Fin 20} {q : BitVec 8} (h : s.alive = true) (hlo : 12 ≤ k.val) (hhi : k.val < 18)
    (hq : s.rd Reg.EAS_LINKCHK_SQI_MIN ≤ q.toNat) (hmax : q.toNat ≤ 7) (hu : s.unitUp (unitId 0x0B (k.val - 12)) = true) :
    exec (.linkCheckPass k q) s = .next ((((s.wr Reg.ING_PORT_STAT_LINK 1 (linkQueue k.val)).wr Reg.ING_PORT_STAT_QUALITY q.toNat
      (linkQueue k.val)).fnReady (linkFn k.val)).discoverAll) := by
  have hcam : ¬k.val < 12 := by omega
  change execLinkCheckPass k q s = _
  simp only [execLinkCheckPass, if_neg hcam, if_pos hhi]
  exact if_neg (by simp [h, hu, hcam, hq, hmax])

theorem execLinkCheckPass_camera {s : State} {k : Fin 20} {q : BitVec 8} (h : s.alive = true) (hk : k.val < 12)
    (hq : s.rd Reg.EAS_LINKCHK_APHY_MIN ≤ q.toNat) (hu : s.unitUp (unitId 0x0A k.val) = true)
    (hfault : bit (s.rd Reg.PWR_POC_FAULT) k.val = false) (hon : bit (s.rd Reg.PWR_POC_ENABLE) k.val = true)
    (hvcam : s.flag Reg.PWR_STAT_VCAM_BAD = false) :
    ∃ t, exec (.linkCheckPass k q) s = .next t ∧ ∃ u : State, t = (u.usedFree.fnReady (0x400 + k.val)).discoverAll ∧
      u = ((s.wr Reg.ING_PORT_STAT_LINK 1 k.val).wr Reg.ING_PORT_STAT_QUALITY q.toNat k.val).wr Reg.ING_PORT_STAT_GEAR
        (1 + s.freeVal 16 % 3) k.val := by
  refine ⟨_, ?_, _, rfl, rfl⟩
  have hsens : k.val < 18 := by omega
  have hqueue : linkQueue k.val = k.val := if_pos hk
  have hfn : linkFn k.val = 0x400 + k.val := if_pos hk
  change execLinkCheckPass k q s = _
  simp only [execLinkCheckPass, if_pos hk, if_pos hsens, hqueue, hfn]
  exact if_neg (by simp [h, hu, hfault, hon, hvcam, hq]; omega)

/-- Settles O5. -/
theorem linkAndDiscoveryCommandsComplete : Obligations.LinkAndDiscoveryCommandsComplete := by
  unfold Obligations.LinkAndDiscoveryCommandsComplete
  refine ⟨fun s k q => execLinkCheckPass_host, fun s k q => execLinkCheckPass_ethernet, fun s k q => execLinkCheckPass_camera,
    fun s k hk hl => ?_, fun s k hk => if_neg (by omega), fun s k => rfl, fun s i r hid htries hkind hst => if_pos ?_,
    fun s p c hu => if_pos hu, fun s pass => rfl, fun s i hst hlast => if_pos ?_, fun s hp hs => if_neg (by simp [hp, hs])⟩
  · exact (if_pos hk).trans (congrArg Host.Outcome.next (if_pos hl))
  · simp [hid, htries, hkind, hst]
  · simp [hst, State.passed, hlast]

end Sys2Proof.Machine
end

section
/-! SUPPORT AND OBLIGATION (the queue commands). What a read of a spill queue's head word leaves (R80, R83, R86, R87). -/

namespace Sys2Proof.Machine

variable {s : State} {q : Fin 51}

theorem State.torn_upsetPointer (s : State) (q : Nat) : ((s.upsetPointer q).queue q).torn = true := by
  simp [State.upsetPointer, State.queue, Queue.torn]

theorem State.resetQueue_mem (s : State) (q : Nat) : (s.resetQueue q).mem = s.mem := by
  unfold State.resetQueue
  extract_lets x t
  obtain ⟨p, e⟩ := ((t.showQueue q).bump Reg.SPQ_EVENTS_RESETS q).gather_shape (unitId 0x15 q) 4 0 [(1, q)]
  rw [e]
  rfl

/-- A pointer copy that has been upset empties the queue at the read. -/
theorem execQueueRead_upset (bad : Bool) (h : s.hardwareRead q.val = true) :
    exec (.queueRead q bad true) s = .next ((s.upsetPointer q.val).resetQueue q.val) := by
  have hbuilt : queueBuilt q.val = true := by
    simp only [State.hardwareRead, Bool.and_eq_true] at h
    exact h.1.1.1
  have hread : (s.upsetPointer q.val).hardwareRead q.val = true := h
  have hpop : (s.upsetPointer q.val).popWord q.val bad = (none, (s.upsetPointer q.val).resetQueue q.val) := by
    simp only [State.popWord, State.access_of_torn _ (s.torn_upsetPointer q.val), State.resetQueue_items]
  change execQueueRead q bad true s = _
  simp [execQueueRead, hbuilt, hread, hpop]

/-- The head word of a queue whose pointers agree, with a code that holds. -/
theorem State.popWord_head {s : State} {q : Nat} {i : QItem} {r : List QItem} (ht : (s.queue q).torn = false)
    (h : (s.queue q).items = i :: r) : s.popWord q false = (some i, (s.setQueue q ((s.queue q).popped 1)).showQueue q) := by
  simp [State.popWord, s.access_of_not_torn ht, h]

theorem State.queue_setQueue (s : State) (q : Nat) (x : Queue) : (s.setQueue q x).queue q = x := by simp [State.queue]

theorem State.queue_showQueue (s : State) (q p : Nat) : (s.showQueue q).queue p = s.queue p := rfl

theorem State.queue_showWord (s : State) (q p : Nat) (i : QItem) : (s.showWord q i).queue p = s.queue p := rfl

theorem execQueueRead_head {i : QItem} {r : List QItem} (hr : s.hardwareRead q.val = true) (ht : (s.queue q.val).torn = false)
    (h : (s.queue q.val).items = i :: r) :
    ∃ t, exec (.queueRead q false false) s = .next t ∧ (t.queue q.val).items = r ∧
      (t.queue q.val).inbox = (s.queue q.val).inbox ++ [i] ∧ (t.queue q.val).head = (s.queue q.val).head + 1 ∧ t.mem = s.mem := by
  refine ⟨((s.setQueue q.val ((s.queue q.val).popped 1)).showQueue q.val).setQueue q.val
    { (s.queue q.val).popped 1 with inbox := ((s.queue q.val).popped 1).inbox ++ [i] }, ?_, ?_, ?_, ?_, rfl⟩
  · change execQueueRead q false false s = _
    simp [execQueueRead, hr, State.popWord_head ht h, State.queue_showQueue, State.queue_setQueue]
  · simp [State.queue_setQueue, Queue.popped, h]
  · simp [State.queue_setQueue, Queue.popped]
  · simp [State.queue_setQueue, Queue.popped]

theorem execSpqPop_head {i : QItem} {r : List QItem} (hb : queueBuilt q.val = true) (hc : s.flag Reg.SPQ_CTRL_CONS q.val = true)
    (ht : (s.queue q.val).torn = false) (h : (s.queue q.val).items = i :: r) :
    ∃ t, exec (.spqPop q false false) s = .next t ∧ (t.queue q.val).items = r ∧ (t.queue q.val).head = (s.queue q.val).head + 1 ∧
      t.mem = s.mem := by
  refine ⟨((s.setQueue q.val ((s.queue q.val).popped 1)).showQueue q.val).showWord q.val i, ?_, ?_, ?_, rfl⟩
  · rw [execSpqPop_of_built s false false hb]
    simp [State.spqPop, hc, State.popWord_head ht h]
  · rw [State.queue_showWord, State.queue_showQueue, State.queue_setQueue, Queue.popped, h]
    rfl
  · rw [State.queue_showWord, State.queue_showQueue, State.queue_setQueue, Queue.popped]

/-- Settles O6. -/
theorem queueCommandsComplete : Obligations.QueueCommandsComplete := by
  unfold Obligations.QueueCommandsComplete
  refine ⟨fun s q w v hb he => if_pos (by simp [hb, he]), fun s q bad hr => ⟨_, execQueueRead_upset bad hr, State.resetQueue_items .., ?_⟩,
    fun s q bad hr ht h => ?_, fun s q i r => execQueueRead_head, fun s q bad hb hc ht h => ?_, fun s q i r => execSpqPop_head⟩
  · exact State.resetQueue_mem ..
  · rw [execQueueRead_of_empty s bad hr h, s.access_of_not_torn ht]
  · rw [execSpqPop_of_built s bad false hb, s.spqPop_of_empty bad ht h]

end Sys2Proof.Machine
end

section
/-! SUPPORT AND OBLIGATION (the Hatch commands). H4 keeps at most 1,048,576 points of an epoch (R114), and what the vote writes of them then
fits the boot region. The statement is about every state, also one whose epoch holds more: where the points reach beyond the boot region the
vote's own store is contained, and the containment loses the epoch (R313, R469). -/

namespace Sys2Proof.Machine

/-! ### What a start leaves of Hatch -/

@[simp] theorem State.setFnQuiet_hat (s : State) (f st r : Nat) : (s.setFnQuiet f st r).hat = s.hat := by
  simp [State.setFnQuiet]

@[simp] theorem State.startReadiness_hat (s : State) : s.startReadiness.hat = s.hat := by
  unfold State.startReadiness
  rw [State.foldl_keeps _ (·.hat) _ (fun t n => by split <;> simp), s.foldl_keeps (·.hat) _ (fun t f => by simp)]

@[simp] theorem State.startRegs_hat (s : State) (kind : Nat) : (s.startRegs kind).hat = s.hat := by
  unfold State.startRegs
  dsimp only
  rw [State.foldl_keeps _ (·.hat) _ (fun t n => by simp)]
  simp

@[simp] theorem State.startLatencies_hat (s : State) : s.startLatencies.hat = s.hat := by
  unfold State.startLatencies
  exact s.foldl_keeps (·.hat) _ (fun t n => by simp) _

@[simp] theorem State.warmStart_hat (s : State) (kind : Nat) (time : Bool) : (s.warmStart kind time).hat = HatSt.reset := by
  unfold State.warmStart
  simp only [State.wr_hat, State.startLatencies_hat, State.startRegs_hat]
  (repeat' split) <;> rfl

@[simp] theorem length_le (n v : Nat) : (le n v).length = n := by
  induction n generalizing v with
  | zero => rfl
  | succ n ih => rw [le, List.length_cons, ih]

theorem FPoint.bytes_length (p : FPoint) : p.bytes.length = 24 := by simp [FPoint.bytes]

/-! ### A Hatch without open epochs -/

/-- Hatch holds no epoch. -/
def NoEpochs (s : State) : Prop := s.hat.epochs = []

namespace NoEpochs

variable {s : State}

theorem contain (s : State) (c u : Nat) (hp : s.power = .up) : NoEpochs (s.contain c u) := by
  unfold State.contain NoEpochs
  rw [if_neg (by simp [hp])]
  extract_lets _ _ _ _ _ _ t
  have ht : t.hat.epochs = [] := by rw [State.warmStart_hat]; rfl
  clear_value t
  split <;> exact ht

theorem setEpochs_nil : NoEpochs (s.setEpochs []) := rfl

theorem modEpoch (h : NoEpochs s) (n : Nat) (f : HEpoch → HEpoch) : NoEpochs (s.modEpoch n f) := by
  unfold State.modEpoch
  rw [show s.hat.epochs = [] from h]
  exact setEpochs_nil

theorem raise (h : NoEpochs s) (c u : Nat) (d : List Byte) : NoEpochs (s.raise c u d) := by
  obtain ⟨_, _, _, _, e⟩ := s.raise_shape c u d
  rw [e]
  exact h

theorem foldl {α : Type} {f : State → α → State} (h : NoEpochs s) (hf : ∀ t a, NoEpochs t → NoEpochs (f t a)) (l : List α) :
    NoEpochs (l.foldl f s) :=
  List.foldlRecOn l f h fun t ht a _ => hf t a ht

theorem setVote (h : NoEpochs s) (i : Nat) (x : VoteSt) : NoEpochs (s.setVote i x) := h

theorem judge (h : NoEpochs s) (b i : Nat) : NoEpochs (s.judge b i) := by
  unfold State.judge
  extract_lets _ _ _ _
  split
  · split
    · exact h
    · exact h.setVote ..
  · split
    · exact (h.setVote ..).raise ..
    · exact h

theorem undegrade (h : NoEpochs s) (i : Nat) : NoEpochs (s.undegrade i) := by
  unfold State.undegrade
  split <;> exact h

theorem judgePair (h : NoEpochs s) (b : Nat) (p : PairSt) (cells : Nat) : NoEpochs (s.judgePair b p cells) := by
  unfold State.judgePair
  extract_lets _ _ _ _ starts stops _ hat t
  have ht : NoEpochs t := h
  clear_value t
  split
  · refine foldl (ht.raise ..) (fun u i hu => ?_) _
    split <;> exact hu
  · split
    · exact (ht.undegrade _).undegrade _
    · exact ht

theorem judgePairs (h : NoEpochs s) (b : Nat) (l : List (Nat × Nat)) : NoEpochs (s.judgePairs b l) :=
  foldl h (fun _ _ ht => ht.judgePair ..) _

theorem startStage (h : NoEpochs s) (k n : Nat) : NoEpochs (s.startStage k n) := h

theorem stageDone (h : NoEpochs s) (k : Nat) (input : Bool) : NoEpochs (s.stageDone k input) := by
  unfold State.stageDone
  split <;> exact h

/-- Points that reach beyond the boot region are contained. -/
theorem writePoints {no : Nat} {l : List FPoint} (hp : s.power = .up) (hr : s.flag Reg.MEM_RELEASE_BOOT = true)
    (hl : 2 ^ 30 < 24 * l.length) : NoEpochs (s.writePoints no l) := by
  have hlen : (l.flatMap FPoint.bytes).length = 24 * l.length := by
    rw [List.length_flatMap, List.map_congr_left (g := fun _ => 24) (fun p _ => p.bytes_length)]
    simp [Nat.mul_comm]
  have hout : inBoot (pointBuffer no + ((l.flatMap FPoint.bytes).length - 1)) = false := by
    simp only [inBoot, hlen, decide_eq_false_iff_not]
    omega
  unfold State.writePoints State.bootWrite
  rw [if_pos hr, hout, if_neg (by simp)]
  exact contain s _ _ hp

/-- A store of nothing in the boot region. -/
theorem bootWrite_nil (h : NoEpochs s) (u : Nat) {pa : Nat} (hpa : inBoot pa = true) : NoEpochs (s.bootWrite u pa []) := by
  unfold State.bootWrite State.physWrite
  rw [if_pos (by simp [hpa])]
  exact h

end NoEpochs

/-! ### The counterexample -/

/-- A point without any flag: no camera sees it. -/
def plainPoint : FPoint := ⟨0, 0, 0, 0, 0, 0, 0, 0⟩

/-- An epoch whose plane wait is over, with the points given. -/
def waitedEpoch (l : List FPoint) : HEpoch :=
  { no := 0, start := 0, lenNs := 50000000, bank := 0, rulBank := 0, sensBank := 0, frames := [], stage := .waited, closeNs := 0,
    closeTick := 0, stepped := false, watchdog := false, noGrid := false, uncal := false, egoDegraded := false, egoLost := false,
    pointDrops := false, sweeps := [], shadow := [], pointsIn := 0, dropped := 0, poses := [], points := l, shadowPoints := [],
    fusedCount := 0, planes := [], shadowPlanes := [], grid := [], disputed := 0, occupied := 0 }

/-- A running Hatch with that epoch alone, once the boot region is released. -/
def votingHatch (l : List FPoint) : State :=
  { State.reset.wr Reg.MEM_RELEASE_BOOT 1 with
    power := .up, pwr := { State.reset.pwr with domains := 2 ^ 43 - 1 }, hat := { HatSt.reset with epochs := [waitedEpoch l] } }

theorem waitDone_votingHatch (l : List FPoint) : (votingHatch l).waitDone = votingHatch l := rfl

theorem epochAtStage_votingHatch (l : List FPoint) : (votingHatch l).epochAtStage .waited = some (waitedEpoch l) := rfl

theorem hatchRuns_votingHatch (l : List FPoint) : (votingHatch l).hatchRuns = true := by
  have h : (votingHatch []).hatchRuns = true := by decide
  exact h

theorem released_votingHatch (l : List FPoint) : (votingHatch l).flag Reg.MEM_RELEASE_BOOT = true := by
  have h : (votingHatch []).flag Reg.MEM_RELEASE_BOOT = true := by decide
  exact h

/-- Points that no camera sees have no projection records. -/
theorem hitRecords_of_no_hits (s : State) {e : HEpoch} (h : ∀ p ∈ e.points, s.hits e p = []) (n : Nat) : s.hitRecords e n = [] := by
  have hnone : ((e.points.map (s.hits e)).zipIdx.flatMap (fun x => x.1.map (fun h => (x.2, h)))) = [] := by
    rw [List.flatMap_eq_nil_iff]
    intro x hx
    obtain ⟨p, hp, hxp⟩ := List.mem_map.mp (List.fst_mem_of_mem_zipIdx hx)
    rw [← hxp, h p hp]
    rfl
  unfold State.hitRecords
  rw [hnone]
  rfl

theorem hitRecords_votingHatch {l : List FPoint} (hplain : ∀ p ∈ l, p = plainPoint) :
    (votingHatch l).hitRecords (waitedEpoch l) (votingHatch l).free = [] :=
  hitRecords_of_no_hits _ (fun p hp => by rw [hplain p hp]; rfl) _

/-- The projection of points that reach beyond the boot region. -/
theorem associate_votingHatch {l : List FPoint} (hplain : ∀ p ∈ l, p = plainPoint) (hl : 2 ^ 30 < 24 * l.length) :
    NoEpochs ((votingHatch l).associate (waitedEpoch l)) := by
  have hrecs := hitRecords_votingHatch hplain
  unfold State.associate
  rw [hrecs]
  extract_lets pts _ _ _ s2
  have h2 : NoEpochs s2 := NoEpochs.writePoints rfl (released_votingHatch l) (by simpa [pts, waitedEpoch] using hl)
  clear_value s2
  split
  · exact h2.bootWrite_nil _ (by rw [show (waitedEpoch l).no = 0 from rfl]; decide)
  · exact h2

/-- What the vote does after the projection brings no epoch back. -/
theorem execH5VoteDone_noEpochs {s : State} {e : HEpoch} (hw : s.waitDone = s) (hrun : s.hatchRuns = true)
    (he : s.epochAtStage .waited = some e) (ha : NoEpochs (s.associate e)) :
    ∃ t, exec .h5VoteDone s = .next t ∧ NoEpochs t := by
  have hvoted (a : State) (ha : NoEpochs a) (v : VoteSum) (b n m : Nat) (f : HEpoch → HEpoch) (input : Bool) :
      NoEpochs (((((((List.range 64).foldl (fun s i => s.judge b i) (v.shadow.foldl (fun s i => s.disagreeShadow i 1)
        (v.adv.foldl (fun s i => s.disagree i 1) a))).judgePairs b v.pairs).modEpoch n f).stageDone 5 input).startStage 6 m)) := by
    have hdis : NoEpochs (v.adv.foldl (fun s i => s.disagree i 1) a) := ha.foldl (f := fun s i => s.disagree i 1) (fun t i ht => ht) _
    have hshadow := hdis.foldl (f := fun s i => s.disagreeShadow i 1) (fun t i ht => ht.setVote ..) v.shadow
    have hjudge := hshadow.foldl (f := fun s i => s.judge b i) (fun t i ht => ht.judge ..) (List.range 64)
    exact (((hjudge.judgePairs b v.pairs).modEpoch n f).stageDone 5 input).startStage 6 m
  have hexec : exec .h5VoteDone s = execH5VoteDone s := rfl
  rw [hexec]
  unfold execH5VoteDone
  simp only [hw, hrun, he, if_true]
  exact ⟨_, rfl, hvoted _ ha ..⟩

/-- Refutes O7, in the clause of h5VoteDone: 50,000,000 points in an epoch reach beyond the boot region, and the vote loses the epoch. -/
theorem not_hatchCommandsComplete : ¬ Obligations.HatchCommandsComplete := by
  unfold Obligations.HatchCommandsComplete
  rintro ⟨-, -, -, -, -, -, -, hvote, -⟩
  have hplain (p : FPoint) (hp : p ∈ List.replicate 50000000 plainPoint) : p = plainPoint := List.eq_of_mem_replicate hp
  have hlen : 2 ^ 30 < 24 * (List.replicate 50000000 plainPoint).length := by rw [List.length_replicate]; norm_num
  generalize List.replicate 50000000 plainPoint = l at hplain hlen
  obtain ⟨t, ht, x, hx, -, -⟩ := hvote (votingHatch l) (votingHatch l) (waitedEpoch l) rfl (hatchRuns_votingHatch l)
    (epochAtStage_votingHatch l)    (by rw [hitRecords_votingHatch hplain]; decide)
  obtain ⟨u, hu, hnone⟩ := execH5VoteDone_noEpochs (waitDone_votingHatch l) (hatchRuns_votingHatch l)
    (epochAtStage_votingHatch l) (associate_votingHatch hplain hlen)
  rw [hu] at ht
  cases ht
  rw [show t.hat.epochs = [] from hnone] at hx
  exact absurd hx List.not_mem_nil

end Sys2Proof.Machine
end

section
/-! SUPPORT AND OBLIGATION (the self-test commands). A golden run's comparison and its events leave the golden core's own state alone
(R506 to R508). -/

namespace Sys2Proof.Machine

/-! ### What leaves the state of the golden runs alone -/

@[simp] theorem State.raise_gold (s : State) (c u : Nat) (d : List Byte) : (s.raise c u d).gold = s.gold := by
  obtain ⟨_, _, _, _, e⟩ := s.raise_shape c u d
  rw [e]

@[simp] theorem State.clearCause_gold (s : State) (n : Nat) : (s.clearCause n).gold = s.gold := by
  obtain ⟨_, _, _, _, _, e⟩ := s.clearCause_shape n
  rw [e]

@[simp] theorem State.goldenPassed_gold (s : State) (bad : List Nat) : (s.goldenPassed bad).gold = s.gold := by
  unfold State.goldenPassed
  dsimp only
  split
  · rw [State.clearCause_gold]
  · rfl

theorem State.goldenMismatch_gold (s : State) (k : Nat) : (s.goldenMismatch k false).gold = s.gold := by
  simp [State.goldenMismatch]

theorem State.physPiece_gold (s : State) (pa : Nat) (l : List Byte) : (s.physPiece pa l).gold = s.gold := by
  unfold State.physPiece
  dsimp only
  (repeat' split) <;> simp

theorem State.physLoop_gold (n : Nat) (s : State) (pa : Nat) (l : List Byte) : (State.physLoop n s pa l).gold = s.gold := by
  induction n generalizing s pa l with
  | zero => rfl
  | succ n ih =>
    rw [State.physLoop]
    split
    · rfl
    · rw [ih, State.physPiece_gold]

/-- A store within the boot region. -/
theorem State.bootWrite_gold {s : State} {u pa : Nat} {l : List Byte} (h : inBoot pa = true) (h' : inBoot (pa + (l.length - 1)) = true) :
    (s.bootWrite u pa l).gold = s.gold := by
  unfold State.bootWrite State.physWrite
  rw [if_pos ⟨h, h'⟩, State.physLoop_gold]

theorem State.flag_wr_self (s : State) (f : RegField) (v i : Nat) (h : v % 2 ^ f.width ≠ 0) : (s.wr f v i).flag f i = true := by
  rw [State.flag, State.rd_wr_self]
  exact bne_iff_ne.mpr h

/-! ### Golden runs -/

/-- The CRC of stage `k` that a golden run ends with (R506). -/
def State.goldenCrc (s : State) (upsets : List (BitVec 64)) (k : Nat) : Nat :=
  crc64 (s.goldenOutput k) ^^^ (upsets.getD (k - 1) 0).toNat

/-- The stages whose CRC differs from the reference (R508). -/
def State.goldenBad (s : State) (upsets : List (BitVec 64)) : List Nat :=
  ((List.range 6).map (· + 1)).filter (fun k => s.goldenCrc upsets k != s.goldenRef k)

theorem State.mem_goldenBad {s : State} {upsets : List (BitVec 64)} {k : Nat} :
    k ∈ s.goldenBad upsets ↔ 1 ≤ k ∧ k ≤ 6 ∧ s.goldenCrc upsets k ≠ s.goldenRef k := by
  have hk : (∃ a, a < 6 ∧ a + 1 = k) ↔ 1 ≤ k ∧ k ≤ 6 := ⟨by rintro ⟨a, ha, rfl⟩; omega, fun h => ⟨k - 1, by omega, by omega⟩⟩
  simp only [State.goldenBad, List.mem_filter, List.mem_map, List.mem_range, bne_iff_ne, hk, and_assoc]

/-- The state in which a golden run's CRCs are judged. -/
def State.goldenCounted (s : State) : State := (s.bump Reg.SUP_GOLD_CNT_RUNS).wr Reg.SUP_GOLD_DEFERRED 0

theorem State.goldenCounted_refValid (s : State) : s.goldenCounted.flag Reg.SUP_GOLD_REF_VALID = s.flag Reg.SUP_GOLD_REF_VALID := by
  have h : s.goldenCounted.rd Reg.SUP_GOLD_REF_VALID = s.rd Reg.SUP_GOLD_REF_VALID := by
    unfold State.goldenCounted State.bump
    rw [State.rd_wr_ne _ _ (by decide), State.rd_wr_ne _ _ (by decide)]
  unfold State.flag
  rw [h]

/-- The golden run's CRCs as they are stored (R507). -/
def State.goldenBytes (s : State) (upsets : List (BitVec 64)) : List Byte :=
  ((List.range 6).map (· + 1)).flatMap (fun k => le 8 (s.goldenCrc upsets k))

theorem State.goldenBytes_length (s : State) (upsets : List (BitVec 64)) : (s.goldenBytes upsets).length = 48 := by
  simp [State.goldenBytes, List.range_succ]

section
variable {s : State} (upsets : List (BitVec 64)) (hrun : s.gold.running = true) (hh : s.hatchRuns = true)
include hrun hh

theorem execGoldenRunDone_of_no_reference (href : s.flag Reg.SUP_GOLD_REF_VALID = false) :
    exec (.goldenRunDone upsets) s =
      .next (((s.goldenCounted.bootWrite (unitId 9 6) goldenArea (s.goldenBytes upsets)).wr Reg.SUP_GOLD_REF_VALID 1).setGold
        { (s.goldenCounted.bootWrite (unitId 9 6) goldenArea (s.goldenBytes upsets)).gold with running := false }) := by
  have hgo : ¬(!s.gold.running ∨ !s.hatchRuns) := by simp [hrun, hh]
  have hfirst : (!s.goldenCounted.flag Reg.SUP_GOLD_REF_VALID) = true := by rw [State.goldenCounted_refValid, href]; rfl
  exact (if_neg hgo).trans (if_pos hfirst)

theorem execGoldenRunDone_first (href : s.flag Reg.SUP_GOLD_REF_VALID = false) :
    ∃ t, exec (.goldenRunDone upsets) s = .next t ∧ t.gold = { s.gold with running := false } ∧ t.flag Reg.SUP_GOLD_REF_VALID = true := by
  refine ⟨_, execGoldenRunDone_of_no_reference upsets hrun hh href, ?_, ?_⟩
  · have hb : (s.goldenCounted.bootWrite (unitId 9 6) goldenArea (s.goldenBytes upsets)).gold = s.gold :=
      State.bootWrite_gold (by decide) (by rw [State.goldenBytes_length]; decide)
    rw [hb, State.setGold_gold]
  · generalize s.goldenCounted.bootWrite (unitId 9 6) goldenArea (s.goldenBytes upsets) = t
    rw [State.flag, State.rd_of_regs _ (State.setGold_regs ..)]
    exact t.flag_wr_self Reg.SUP_GOLD_REF_VALID 1 0 (by decide)

theorem execGoldenRunDone_mismatch (href : s.flag Reg.SUP_GOLD_REF_VALID = true) (hrep : s.gold.repeated = false)
    (hbad : ∃ k, 1 ≤ k ∧ k ≤ 6 ∧ s.goldenCrc upsets k ≠ s.goldenRef k) :
    ∃ t, exec (.goldenRunDone upsets) s = .next t ∧
      t.gold = { s.gold with repeated := true, mismatched := s.goldenBad upsets } := by
  have hgo : ¬(!s.gold.running ∨ !s.hatchRuns) := by simp [hrun, hh]
  have hlater : ¬(!s.goldenCounted.flag Reg.SUP_GOLD_REF_VALID) = true := by rw [State.goldenCounted_refValid, href]; decide
  have hpassed : (s.goldenCounted.goldenPassed (s.goldenBad upsets)).gold = s.gold := State.goldenPassed_gold ..
  have hsome : ¬(s.goldenBad upsets).isEmpty = true := by
    obtain ⟨k, hk⟩ := hbad
    rw [List.isEmpty_iff]
    exact List.ne_nil_of_mem (State.mem_goldenBad.mpr hk)
  have honce : ¬(s.goldenCounted.goldenPassed (s.goldenBad upsets)).gold.repeated = true := by rw [hpassed, hrep]; decide
  refine ⟨_, (if_neg hgo).trans ((if_neg hlater).trans ((if_neg hsome).trans (if_neg honce))), ?_⟩
  have hfold := State.foldl_keeps (s.goldenCounted.goldenPassed (s.goldenBad upsets)) (·.gold)
    (fun s k => s.goldenMismatch k false) (fun t k => t.goldenMismatch_gold k) (s.goldenBad upsets)
  exact congrArg (fun g : GoldSt => { g with repeated := true, mismatched := s.goldenBad upsets }) (hfold.trans hpassed)

end

/-! ### The obligation -/

/-- Settles O8. -/
theorem selfTestCommandsComplete : Obligations.SelfTestCommandsComplete := by
  unfold Obligations.SelfTestCommandsComplete
  refine ⟨fun s hp hh hrun hforced hcol hup => ?forced, fun s t e hp hh hrun hforced hdue he hup => ?due, fun s t hf hpast hcol => ?starved,
    fun s upsets hrun hh href => execGoldenRunDone_first upsets hrun hh href, fun s upsets hrun hh href hrep hbad => ?mismatch,
    fun s u d hp hn hb hu hs hd hok => ?slice, fun s u d hp hn hb hu hs hd hok => ?skipped, fun s u x hx hn => ?full,
    fun s u x hx hn => ?part, fun s u x hx => ?failed, fun s u hp hn hb hu hpast => ?lapsed⟩
  case forced =>
    change execGoldenInstant s = _
    obtain ⟨t, ht⟩ := Option.ne_none_iff_exists'.mp hforced
    simp [execGoldenInstant, hp, hh, hrun, ht, hcol, hup]
  case due =>
    change execGoldenInstant s = _
    unfold execGoldenInstant
    rw [if_neg (by simp [hp, hh, hrun]), hforced, hdue, he]
    exact if_pos hup
  case starved =>
    change execTestStarved s = _
    simp [execTestStarved, hf, State.passed, hpast, hcol]
  case mismatch =>
    obtain ⟨t, ht, hg⟩ := execGoldenRunDone_mismatch upsets hrun hh href hrep hbad
    refine ⟨t, ht, by rw [hg]; exact hrun, by rw [hg], fun k => ?_⟩
    rw [hg]
    exact State.mem_goldenBad
  case slice =>
    change execSelftestSlice u d s = _
    simp [execSelftestSlice, hp, hn, hb, hu, hs, hd, hok]
  case skipped =>
    change execSelftestSlice u d s = _
    simp [execSelftestSlice, hp, hn, hb, hu, hs, hd, hok]
  case full =>
    change execSliceDone u true s = _
    simp [execSliceDone, hx, hn]
  case part =>
    change execSliceDone u true s = _
    simp [execSliceDone, hx, Nat.not_le.mpr hn]
  case failed =>
    change execSliceDone u false s = _
    simp [execSliceDone, hx]
  case lapsed =>
    exact if_pos ⟨hn, hb, hp, hu, decide_eq_true hpast⟩

end Sys2Proof.Machine
end

section
/-! SUPPORT AND OBLIGATION (the Stipple commands). -/

namespace Sys2Proof.Machine

theorem execStippleJobStart_of_ready {s : State} {j : Job} (hj : s.stpFirst = some j) (hidle : s.stp.run = none)
    (hphase : j.phase = .started) (hoff : (s.unit stpUnit).offline = false) (hhold : s.flag Reg.STP_CTRL_HOLD = false)
    (hup : s.unitUp stpUnit = true) (hslice : s.sliced stpUnit = false) (hparam : j.param ≠ [])
    (hsrc : j.arg 32 1 = 1 → s.srcGone j.param = none) :
    exec .stippleJobStart s = .next ((((({ s with stp := { StpSt.reset with run := some j.id } } : State).wr Reg.STP_STAT_BUSY 1).wr
      Reg.STP_STAT_OP (j.arg 32 1)).wr Reg.STP_STAT_RETRY 0).beginJob j .running) := by
  have hkept : (if j.arg 32 1 = 1 then s.srcGone j.param else none) = none := by
    split
    · next h => exact hsrc h
    · rfl
  change execStippleJobStart s = _
  unfold execStippleJobStart
  rw [if_neg (by simp [hoff]), hj]
  dsimp only
  rw [if_neg (by simp [hidle, hphase]), if_neg (by simp [hhold, hup, hslice]), if_neg (by simp [hparam]), hkept]

section
variable {s u : State} {op : Nat} {j : Job} {f : State → Job → SRead StpOut} {o : StpOut} (hj : s.stpRunning op = some j)
  (hout : s.stp.out = none) (hf : f s j = (u, .ok o))
include hj hout hf

/-- A run without a detection writes what it computed. -/
theorem State.stpRun_none (hhit : u.stp.hit = false) :
    s.stpRun op .none f = ({ u with stp := { u.stp with readDone := true } } : State).stpPut j o := by
  simp [State.stpRun, hj, hout, hf, hhit]

/-- A run that meets a parity error runs again. -/
theorem State.stpRun_parity : ∃ v : State, v = { u with stp := { u.stp with readDone := true } } ∧
    s.stpRun op .parity f = (v.sramDetect stpUnit 1 (v.freeVal 22) false).usedFree.stpAgain j := by
  refine ⟨_, rfl, ?_⟩
  simp [State.stpRun, hj, hout, hf]

/-- Both, for a command that runs the operation. -/
theorem stpRun_outcomes {c : StpDet → Instr} (hc : ∀ d, exec (c d) s = .next (s.stpRun op d f)) :
    (u.stp.hit = false → exec (c .none) s = .next (({ u with stp := { u.stp with readDone := true } } : State).stpPut j o)) ∧
    ∃ v : State, v = { u with stp := { u.stp with readDone := true } } ∧
      exec (c .parity) s = .next ((v.sramDetect stpUnit 1 (v.freeVal 22) false).usedFree.stpAgain j) := by
  refine ⟨fun hhit => by rw [hc, State.stpRun_none hj hout hf hhit], ?_⟩
  obtain ⟨v, hv, e⟩ := State.stpRun_parity hj hout hf
  exact ⟨v, hv, by rw [hc, e]⟩

end

/-- Settles O9. -/
theorem stippleCommandsComplete : Obligations.StippleCommandsComplete := by
  unfold Obligations.StippleCommandsComplete
  refine ⟨fun s j => execStippleJobStart_of_ready, fun s u j o k c f hcf hj hout hf => ?_⟩
  fin_cases k <;> obtain ⟨rfl, rfl⟩ := Prod.mk.inj hcf
  · exact stpRun_outcomes hj hout hf fun d => rfl
  · exact stpRun_outcomes hj hout hf fun d => rfl
  · exact stpRun_outcomes hj hout hf fun d => rfl
  · exact stpRun_outcomes hj hout hf fun d => rfl

end Sys2Proof.Machine
end

section
/-! OBLIGATIONS: the sync operations, task supervision, the margin guard, and the security commands. -/

namespace Sys2Proof.Machine

/-- Settles O19: READ of an object other than 0xFFFF takes the second branch of `execSyncRead`; SET and GRANT are the laws of the
sync operations. -/
theorem syncCommandsComplete : Obligations.SyncCommandsComplete := by
  unfold Obligations.SyncCommandsComplete
  refine fun s job j => ⟨fun hj hwait hbound => ?_, fun hj ho => ?_, fun hj hg => ?_⟩
  · change execSyncSet job s = _
    simp [execSyncSet, hj, State.runOr, firstOf, refuseIf, hwait, hbound]
  · change execSyncRead job s = _
    simp [execSyncRead, hj, ho]
  · change execSyncGrant job s = _
    simp [execSyncGrant, hj, State.runOr, refuseIf, hg]

/-- Settles O21: under each clause's premises the match of the command's definition is on the activation named, and its guard holds. -/
theorem taskSupervisionComplete : Obligations.TaskSupervisionComplete := by
  unfold Obligations.TaskSupervisionComplete
  refine ⟨?_, ?_, ?_⟩
  · rintro s t x a rfl hv ha hmax hlong
    change execLateArrival t s = _
    simp only [execLateArrival, ha]
    exact if_pos ⟨hv, hmax, hlong⟩
  · rintro s t x a rfl hv
    refine ⟨fun hb hfind => ⟨_, rfl, ?_⟩, fun hd hfind => ?_⟩
    · change execBudgetViolation t s = _
      simp only [execBudgetViolation, hfind]
      exact if_pos ⟨hv, hb⟩
    · change execDeadlineViolation t s = _
      simp only [execDeadlineViolation, hfind]
      exact if_pos ⟨hv, hd⟩
  · rintro s c x a rfl hv hfind
    change execChainLate c s = _
    simp only [execChainLate, hfind]
    exact if_pos hv

/-- Settles O33: a powered module judges the frame; a load of the limit table is `State.mgdGo` on the code that `loadTable` answers. -/
theorem marginCommandsComplete : Obligations.MarginCommandsComplete := by
  unfold Obligations.MarginCommandsComplete
  refine ⟨fun s p f hup => ?_, fun s code t raw hup hlock hset hload => ?_⟩
  · change execMarginFrame p f s = _
    exact if_pos hup
  · change execMgdGo s = _
    simp only [execMgdGo, hlock, hset, hup, State.mgdGo, hload]
    split <;> simp_all

/-- Settles O32: with the module alive and the request not refused, each command is the effect named; the report published is the
oldest one asked for. -/
theorem securityCommandsComplete : Obligations.SecurityCommandsComplete := by
  unfold Obligations.SecurityCommandsComplete
  refine ⟨?_, ?_, ?_⟩
  · refine fun s ha => ⟨fun hset => ?_, fun hset herr => ?_, fun herr => ?_, fun port save hset => ?_⟩
    · change execAttest s = _
      simp [execAttest, ha, hset, State.attest]
    · change execAdvance s = _
      simp [execAdvance, ha, hset, herr]
    · change execUnlock s = _
      simp [execUnlock, ha, herr]
    · change execMacsecLoad port save s = _
      simp [execMacsecLoad, ha, hset]
  · rintro s v n r gen ha hrep rfl rfl
    change execAttestPublish s = _
    simp only [execAttestPublish, hrep, ha]
    rfl
  · rintro s t n ha ht rfl
    refine ⟨fun hlt => ?_, fun hle => ⟨_, rfl, ?_⟩⟩
    · change execFuseBitBlown s = _
      simp [execFuseBitBlown, ht, ha, Nat.not_le.mpr hlt]
    · change execFuseBitBlown s = _
      simp [execFuseBitBlown, ht, ha, hle]

theorem safeInSince_eq (o : Option Nat) (a : Nat) : (match o with | some t => t | none => a) = o.getD a := by
  cases o <;> rfl

/-- When SAFE_IN came is passed in, so that a caller may say it in either of two ways. -/
theorem execSafeInAssert_eq (s : State) {since : Nat}
    (h : (match s.sup.safeInAt with | some t => t | none => s.ticks - usTicks 100) = since) :
    execSafeInAssert s = .next (if (({ s with sup := { s.sup with safeInAt := some since } } : State).wr Reg.SUP_STAT_SAFE_IN 1).supplied ∧
        !(({ s with sup := { s.sup with safeInAt := some since } } : State).wr Reg.SUP_STAT_SAFE_IN 1).flag Reg.SUP_STAT_LOCKED then
      (({ s with sup := { s.sup with safeInAt := some since } } : State).wr Reg.SUP_STAT_SAFE_IN 1).requestHeld srcSafeIn
      else ({ s with sup := { s.sup with safeInAt := some since } } : State).wr Reg.SUP_STAT_SAFE_IN 1) := by
  subst h
  rfl

/-- Settles O29: each command of the safe state meets its guards; the holding and the release are the functions that the clauses name. -/
theorem safeCommandsComplete : Obligations.SafeCommandsComplete := by
  unfold Obligations.SafeCommandsComplete
  refine ⟨?_, ?_, ?_, ?_, ?_, ?_, ?_, ?_⟩
  · intro s v hsup hlock hv
    obtain ⟨since, hsince⟩ : ∃ x, s.sup.safeInAt.getD (s.ticks - usTicks 100) = x := ⟨_, rfl⟩
    rw [hsince] at hv
    subst hv
    have hkept : ∀ w : State, w.regs = s.regs → (w.wr Reg.SUP_STAT_SAFE_IN 1).flag Reg.SUP_STAT_LOCKED = false := fun w hw => by
      rw [State.flag, State.rd_wr_ne w 1 (by decide), State.rd_of_regs s hw]
      exact hlock
    exact (execSafeInAssert_eq s ((safeInSince_eq ..).trans hsince)).trans
      (congrArg _ (if_pos ⟨hsup, congrArg not (hkept _ rfl)⟩))
  · rintro s v t ht hsup hlock rfl hsup' hlock'
    have hlong : s.passed t (msTicks 10) = decide (t + msTicks 10 ≤ s.ticks) := rfl
    refine ⟨fun hlt => ?_, fun hle => ?_⟩ 
    · change execSafeInRelease s = _
      simp only [execSafeInRelease, ht, hsup', hlock', hlong]
      simp [Nat.not_le.mpr hlt]
    · change execSafeInRelease s = _
      simp only [execSafeInRelease, ht, hsup', hlock', hlong]
      simp [hle]
  · rintro s n hsup hover
    change execSafeHoldExpiry n s = _
    simp [execSafeHoldExpiry, hsup, hover]
  · rintro s hsup
    constructor
    · change execClockSupervision false s = _
      simp [execClockSupervision, hsup]
    · change execClockSupervision true s = _
      simp [execClockSupervision, hsup]
  · rintro s k mv hsup
    refine ⟨fun hbit => ?_, fun hbit => ?_⟩
    · change execSafeLineFault k mv s = _
      simp [execSafeLineFault, hsup, hbit]
    · change execSafeLineFaultCured k s = _
      simp [execSafeLineFaultCured, hsup, hbit]
  · rintro s v tj ha htj hthr rfl
    change execThermalThrottle tj s = _
    simp [execThermalThrottle, ha, htj, hthr]
  · rintro s v tj ha htj rfl
    change execThermalTrip tj s = _
    simp [execThermalTrip, ha, Int.not_lt.mpr htj]
  · rintro s v tj hheld hthermal hreset htj rfl
    change execThermalRecover tj s = _
    simp [execThermalRecover, hheld, hthermal, hreset, Int.not_lt.mpr htj]

end Sys2Proof.Machine
end

section
/-! SUPPORT AND OBLIGATIONS: the supply commands and the commands of the silent-error checks. -/

namespace Sys2Proof.Machine

theorem underNow_in_range {mv us : Nat} (h : 9300 ≤ mv) (old : Bool) : underNow old mv us = false := by
  rw [underNow, if_neg (by omega), if_neg (by omega), decide_eq_false (by omega), Bool.and_false]

theorem overNow_in_range {mv : Nat} (h : mv ≤ 59600) (old : Bool) : overNow old mv = false := by
  rw [overNow, decide_eq_false (by omega), decide_eq_false (by omega), Bool.and_false, Bool.or_false]

theorem State.sinceBand_within (s : State) (us : Nat) (old : Option Nat) {beyond within : Prop} [Decidable beyond] [Decidable within]
    (hb : ¬ beyond) (hw : ¬ within) : s.sinceBand us old beyond within = none := by
  cases old with
  | none => exact if_neg hb
  | some t => exact if_neg hw

/-- Settles O30: within 9.3 V to 59.6 V no band is entered, so both flags clear and no threshold is timed; the other commands meet
their guards. -/
theorem supplyCommandsComplete : Obligations.SupplyCommandsComplete := by
  unfold Obligations.SupplyCommandsComplete
  refine ⟨?_, ?_, ?_, ?_, ?_, ?_, ?_, ?_, ?_, ?_, ?_, ?_⟩
  · rintro s v mv us hlo hhi rfl
    change execSupplyBandChange mv us s = _
    have hsat : satU 16 mv = mv := Nat.min_eq_left (by omega)
    simp [execSupplyBandChange, underNow_in_range hlo, overNow_in_range hhi, hsat, State.sinceBand_within,
      show ¬ mv < 6500 by omega, show ¬ mv < 6800 by omega, show ¬ 60000 < mv by omega, show ¬ 59700 ≤ mv by omega,
      show ¬ 72000 < mv by omega, show ¬ 71700 ≤ mv by omega, show 6500 ≤ mv by omega]
    rfl
  · rintro s v hsup hdue rfl
    change execBrownOut s = _
    simp [execBrownOut, hsup, hdue]
  · rintro s hwake
    change execWakeLow s = _
    simp [execWakeLow, hwake]
  · rintro s v t ht hsup hlong rfl
    change execWakePowerOff s = _
    simp only [execWakePowerOff, ht]
    exact if_pos ⟨hsup, decide_eq_true hlong⟩
  · rintro s hoff hwake
    change execWakeRise s = _
    simp [execWakeRise, State.wr, hoff, hwake]
  · rintro s v n mA l ha hon rfl rfl
    change execCameraOvercurrent n mA s = _
    rw [execCameraOvercurrent, if_neg (by simp [ha, hon])]
    rfl
  · rintro s n ha hbit hlocked hlong
    change execCameraReclose n s = _
    simp [execCameraReclose, ha, hbit, hlocked, hlong]
  · rintro s e ha hset
    change execPwrPocWrite e s = _
    simp [execPwrPocWrite, ha, hset]
  · rintro s v mv hlo hhi rfl
    change execVcamRange mv s = _
    simp [execVcamRange, Nat.not_lt.mpr hlo, Nat.not_lt.mpr hhi]
  · rintro s t hhi hlo
    change execBaseRange t s = _
    simp [execBaseRange, Int.not_lt.mpr hhi, Int.not_lt.mpr hlo]
  · rintro s t hout hold
    change execBaseRange t s = _
    simp [execBaseRange, hout, hold]
  · rintro s ha hsec htold
    change execMissionEnd s = _
    simp [execMissionEnd, ha, htold, Nat.not_lt.mpr hsec]

/-- Settles O27: containment other than by code 0x0B is `State.contain`; a check and its arbitration are judged on the CRC that
`recordCrc` answers; a digest that agrees with its reference changes only the region's last step. -/
theorem proofCommandsComplete : Obligations.ProofCommandsComplete := by
  unfold Obligations.ProofCommandsComplete
  refine ⟨?_, ?_, ?_, ?_, ?_⟩
  · rintro s c u hc hu
    have hguard : ¬ (c.val = 0 ∨ (!(u.toNat == 0 || unitBuilt u.toNat)) = true) := by
      rcases hu with hu | hu <;> simp [hc, hu]
    refine ⟨fun hcold => ?_, fun hcold ha => ?_⟩
    · change execContainment c u s = _
      rw [execContainment, if_neg hguard, if_neg hcold]
    · change execContainment c u s = _
      rw [execContainment, if_neg hguard, if_pos hcold, if_pos ha]
  · rintro s ha
    change execSupervisorMismatch s = _
    rw [execSupervisorMismatch, if_pos ha]
  · rintro s v p k upset r c crc others hr hcheck
    refine ⟨fun hnone hcrc hagree => ?_, ?_, fun b a hb hothers hcrc => ?_⟩
    · change execProofCheck p k upset s = _
      simp [execProofCheck, hr, hcheck, hnone, hcrc, hagree]
    · rintro hnone hcrc hdiff rfl
      change execProofCheck p k upset s = _
      cases others <;> simp [execProofCheck, hr, hcheck, hnone, hcrc, hdiff]
    · change execProofArbitrate p k upset s = _
      obtain ⟨rest, rfl⟩ : ∃ rest, others = a :: rest := by
        cases others with
        | nil => cases hothers
        | cons x rest => exact ⟨rest, by simpa using hothers⟩
      simp only [execProofArbitrate, hr, hcheck, hb, hcrc]
  · rintro s u i step ha hstate rfl hlast hdigest hgroup rfl
    change execDigestCompute i s = _
    simp [execDigestCompute, ha, hstate, hdigest, hgroup, Nat.not_le.mpr hlast]
  · rintro s i w hw
    change execDigestWaitExpiry i s = _
    simp only [execDigestWaitExpiry, hw]

end Sys2Proof.Machine
end

section
/-! OBLIGATION (the memory commands). -/

namespace Sys2Proof.Machine

/-- A COPY whose engine is its own or not, and that no other job wants the engine of, copies as far as `copyLoop` says. -/
theorem execMemCopy_of_copied {s : State} {job : Nat} {j : Job} {det : ReadFault} {upTo : Option Nat} {c k n from' : Nat} {mine : Bool}
    {u w : State} (hj : s.startedOp job 1 6 = some j) (hn : n = j.arg 36 4) (hn0 : n ≠ 0) (hc : s.copyChan j = some c)
    (hfault : s.chan c ≠ chFaulted) (hmine : mine = (s.chanJob.find c == some job)) (hwant : mine = true → s.copyWanted c = false)
    (hu : u = if mine then s else s.copyLeave c)
    (hfrom : from' = if mine then s.rd Reg.MEM_CH_BYTES_DONE c else u.copyDone.get 0 job)
    (hloop : State.copyLoop c j.context job (j.arg 40 8) (j.arg 48 8) n (upTo.getD n) det (n / 16 + 16) (({ u with
          chanJob := u.chanJob.set c job, copyDone := u.copyDone.erase job } : State).chanStart c j.context 0 from' j.tag false) from' =
            (w, k, none)) (hk : n ≤ k) :
    execMemCopy job ⟨det, upTo⟩ s = .next (((w.freeChans job).wroteOut job).finishNow job stOk 0 0) := by
  subst hn
  have hwanted : (mine && u.copyWanted c) = false := by
    cases mine with
    | false => rfl
    | true => rw [hu, Bool.true_and]; exact hwant rfl
  cases mine with
  | false =>
    rw [if_neg (by decide)] at hu hfrom
    subst hu hfrom
    simp [execMemCopy, hj, hn0, hc, hfault, ← hmine, hloop, Nat.not_lt.mpr hk]
  | true =>
    rw [if_pos rfl] at hu hfrom
    subst hu hfrom
    simp only [Bool.true_and] at hwanted
    simp [execMemCopy, hj, hn0, hc, hfault, ← hmine, hwanted, hloop, Nat.not_lt.mpr hk]

/-- Settles O18: every operation named is not refused, so `State.runOr` takes its effect; a COPY runs as its loop says. -/
theorem memoryCommandsComplete : Obligations.MemoryCommandsComplete := by
  unfold Obligations.MemoryCommandsComplete
  refine ⟨fun s job j => ⟨?_, ?_, ?_, ?_, ?_, ?_, ?_, ?_⟩, fun s c hc => ⟨?_, ?_⟩, fun s c hc => ⟨?_, ?_⟩⟩
  · intro hj hfree
    change execCtxOpen job s = _
    simp [execCtxOpen, hj, State.runOr, refuseIf, hfree]
  · rintro u hj hother hheld rfl
    change execCtxClose job s = _
    have hbusy : s.jobs.any (fun k => k.context == j.context && k.id != job) = false := by
      simpa [List.any_eq_false] using hother
    simp [execCtxClose, hj, State.runOr, refuseIf, hbusy, hheld]
  · intro hj hall
    change execInvalidate job s = _
    simp [execInvalidate, hj, State.runOr, refuseIf, hall]
  · intro hj hall hn hpin
    change execInvalidate job s = _
    have hheld : (s.pinnedRanges j.context).any (fun r => rangesMeet r.1 r.2 (j.arg 40 8) (j.arg 48 8)) = false := by
      rw [List.any_eq_false]
      exact fun r hr => by simp [hpin r hr]
    simp [execInvalidate, hj, State.runOr, refuseIf, hall, hn, hheld]
  · intro hj hc hmine hkind
    change execResume job s = _
    simp [execResume, hj, hc, hmine, hkind]
  · intro hj hc hmine
    change execAbort job s = _
    simp [execAbort, hj, hc, hmine]
  · intro hj hn det upTo
    change execMemCopy job ⟨det, upTo⟩ s = _
    simp [execMemCopy, hj, hn]
  · intro det upTo c k n from' mine u w hj hn hn0 hc hfault hmine hwant hu hfrom hloop hk
    exact execMemCopy_of_copied hj hn hn0 hc hfault hmine hwant hu hfrom hloop hk
  · intro hkind hnow
    change execChannelSelfResume c s = _
    simp only [execChannelSelfResume]
    rw [if_pos ⟨hc, hkind, hnow⟩]
  · intro hphys hover
    change execNrTimeout c s = _
    simp [execNrTimeout, hc, hphys, hover]
  · intro d temp
    refine ⟨_, rfl, ?_⟩
    change execRefreshRateChange c ⟨d, temp⟩ s = _
    simp [execRefreshRateChange, hc]
  · intro hoff hbad
    change execDdrChannelOnline c s = _
    simp [execDdrChannelOnline, hc, hoff, hbad]

end Sys2Proof.Machine
end

section
/-! OBLIGATION (the partition commands). -/

namespace Sys2Proof.Machine

theorem State.taskSt_store (s : State) (a : Nat) (l : List Byte) (t : Nat) : (s.store a l).taskSt t = s.taskSt t := by
  obtain ⟨_, _, e⟩ := s.store_shape a l
  rw [e]
  rfl

/-- Settles O20: no refusal of the operation applies, so `State.runOr` takes its effect; a store leaves the tasks' supervision. -/
theorem partitionCommandsComplete : Obligations.PartitionCommandsComplete := by
  unfold Obligations.PartitionCommandsComplete
  refine ⟨fun s job j => ⟨?_, ?_, ?_, ?_, ?_, ?_⟩, ?_, ?_, ?_⟩
  · intro hj hp hpend
    change execSchedLoad job s = _
    simp [execSchedLoad, hj, State.runOr, firstOf, refuseIf, hp, hpend]
  · intro hj hp hbusy hnamed
    change execPartSet job s = _
    have hkeep : (!bit (fld j.param 0 1) 0 && s.partNamed (j.arg 33 1)) = false := by
      rcases hnamed with h | h <;> simp [h]
    simp [execPartSet, hj, State.runOr, firstOf, refuseIf, hp, hbusy, Bool.and_assoc, hkeep]
  · intro hj hp hvalid
    change execTaskSet job s = _
    simp [execTaskSet, hj, State.runOr, refuseIf, hp, hvalid]
  · intro hj hnone
    change execTaskClear job s = _
    simp [execTaskClear, hj, State.runOr, refuseIf, hnone]
  · intro hj hp ha hb hvalid
    change execChainSet job s = _
    simp [execChainSet, hj, State.runOr, firstOf, refuseIf, hp, ha, hb, hvalid]
    rw [State.taskSt_store, State.taskSt_store]
  · intro hj
    change execChainClear job s = _
    simp [execChainClear, hj]
  · intro s hpend hset
    change execParSwap s = _
    simp [execParSwap, hpend, hset]
  · rintro s b rfl hnew
    change execMajorFrameBoundary s = _
    simp only [execMajorFrameBoundary]
    rw [if_neg]
    rintro ⟨hsame, hhold⟩
    rcases hnew with h | ⟨hh, hb⟩
    · exact h hsame
    · simp [hh, ← hb] at hhold
  · intro s hw hhold hstart
    change execWindowStart s = _
    simp [execWindowStart, hw, hhold, hstart]

end Sys2Proof.Machine
end

section
/-! SUPPORT AND OBLIGATIONS (the session and request commands). -/

namespace Sys2Proof.Machine

theorem State.receive_of_taken {s v : State} {port t : Nat} {f : HostFrame} (run : State → State) (hrx : s.rxOf port f = .taken)
    (hv : v = { s.rollAssoc port f with
      ht := { (s.rollAssoc port f).ht with hostMac := (s.rollAssoc port f).ht.hostMac.set port f.src.toNat } })
    (ht : frType f = t) : s.receive port f t run = run v := by
  subst hv
  simp only [State.receive, hrx]
  exact if_pos ht

/-- Settles O22: a frame that is taken runs its type's effect on `v`; the device's own frames leave when their guards hold. -/
theorem sessionCommandsComplete : Obligations.SessionCommandsComplete := by
  unfold Obligations.SessionCommandsComplete
  refine ⟨?_, ?_, ?_, ?_, ?_, ?_, ?_, ?_⟩
  · intro s v port f hrx hv
    refine ⟨?_, fun hf hrestart => ?_, fun hf hrestart hsession => ?_⟩
    · rintro u w sid hf rfl hsid hrestart hsession rfl rfl
      change execHello port f s = _
      rw [execHello, State.receive_of_taken _ hrx hv hf]
      by_cases hlost : v.dev = stHostLost
      · simp [hsid, hsession, hlost, show stHostLost ≠ stRestart by decide]
      · simp [hsid, hrestart, hsession, hlost]
    · change execHeartbeat port f s = _
      rw [execHeartbeat, State.receive_of_taken _ hrx hv hf]
      simp [hrestart]
    · change execHeartbeat port f s = _
      rw [execHeartbeat, State.receive_of_taken _ hrx hv hf]
      simp [hrestart, hsession]
  · intro s port f hbad
    change execHostFrameDiscarded port f s = _
    simp only [execHostFrameDiscarded, hbad]
  · intro s v ha hsession hdue hv h0 h1
    change execDeviceHeartbeat s = _
    have hv0 : v.portUp 0 = true := by
      rw [hv]
      exact h0
    simp [execDeviceHeartbeat, ha, hsession, hdue, ← hv, hv0, h1]
  · intro s ha hsession hlost hrestart hpassed
    change execHostLost s = _
    simp [execHostLost, ha, hsession, hlost, hrestart, hpassed]
  · intro s port ha hsession hrestart hready hup hdue
    change execSessionlessHello port s = _
    have hdue' : (match s.ht.lastHello.find port with | some t => s.passed t (msTicks 100) | none => true) = true := by
      split
      · exact hdue _ ‹_›
      · rfl
    simp only [execSessionlessHello]
    rw [if_pos ⟨ha, by simp [hsession], hrestart, hready, hup, hdue'⟩]
  · intro s port hlink hfn
    change execHostLinkDown port s = _
    have hlink' : (s.setLink port false).flag Reg.HTP_PORT_LINK port = true := hlink
    simp [execHostLinkDown, State.hostLinkDown, hlink', hfn]
  · intro s t hdue hpassed
    change execAckHeartbeat s = _
    simp [execAckHeartbeat, hdue, hpassed]
  · intro s v bulk x f r hx hun ha hlost hpassed hv hperiods hup hv'
    subst hx
    change execRetransmit bulk s = _
    have hfew : ¬ 16 ≤ (v.stream bulk).periods := by omega
    rw [hun] at hv
    simp [execRetransmit, hun, ha, hlost, hpassed, ← hv, hup, hfew]

theorem State.reliable_of_sequenced {s v w : State} {bulk : Bool} {port t : Nat} {f : HostFrame} (run : State → List Byte → State)
    (hrx : s.rxOf port f = .taken)
    (hv : v = ({ s.rollAssoc port f with
      ht := { (s.rollAssoc port f).ht with hostMac := (s.rollAssoc port f).ht.hostMac.set port f.src.toNat } } : State).takeAcks f)
    (hw : v.sequence bulk port f = (w, true)) (ht : frType f = t) : s.reliable bulk port f t run = run w (frPayload f) := by
  subst hv
  rw [State.reliable, State.receive_of_taken _ hrx rfl ht]
  simp only [hw]

/-- Settles O23: a frame that is taken and in sequence runs its request on the state that `sequence` answers. -/
theorem requestCommandsComplete : Obligations.RequestCommandsComplete := by
  unfold Obligations.RequestCommandsComplete
  refine ⟨?_, ?_⟩
  · rintro s v port f p hrx rfl hv
    refine ⟨fun w hw => ⟨?_, ?_, ?_⟩, fun w hw => ⟨?_, ?_, ?_⟩⟩
    · intro hf hok bad upset
      change execRegRead port ⟨f, bad, upset⟩ s = _
      rw [execRegRead, State.reliable_of_sequenced _ hrx hv hw hf]
      simp [hok]
    · intro hf hok herr hrestart
      change execRegWrite port f s = _
      rw [execRegWrite, State.reliable_of_sequenced _ hrx hv hw hf]
      simp [hok, State.regWrite, herr, hrestart]
    · rintro u hf hn hbell rfl hbell'
      change execDoorbell port f s = _
      rw [execDoorbell, State.reliable_of_sequenced _ hrx hv hw hf]
      simp only [State.doorbell, hn, hbell, hbell', if_false]
    · intro hf hsession hcredit det
      change execBulkPush port f det s = _
      have hpast : (!s.inSession || (decide (frSeq f = s.ht.blk.nextRx) && decide (s.ht.creditIn ≤ s.ht.usedIn))) = false := by
        simp [hsession, Nat.not_le.mpr hcredit]
      simp only [execBulkPush, hpast]
      rw [State.reliable_of_sequenced _ hrx hv hw hf]
      rfl
    · intro hf hnone hsession det
      change execBulkPull port f det s = _
      rw [execBulkPull, State.reliable_of_sequenced _ hrx hv hw hf]
      simp [hnone, hsession]
    · intro hf hsession
      change execBulkCredit port f s = _
      rw [execBulkCredit, State.reliable_of_sequenced _ hrx hv hw hf]
      simp [hsession]
  · intro s hsetup
    change execSetupDone true s = _
    simp [execSetupDone, State.setupDone, hsetup]

end Sys2Proof.Machine
end

section
/-! OBLIGATION (the descriptor commands). -/

namespace Sys2Proof.Machine

/-- Settles O24: a descriptor that waits no more is begun or claimed by its engine; the outgoing packets are the heads of their
queues. -/
theorem descriptorCommandsComplete : Obligations.DescriptorCommandsComplete := by
  unfold Obligations.DescriptorCommandsComplete
  refine ⟨?_, ?_, fun s job j => ⟨?_, ?_, ?_⟩, ?_, ?_, ?_, ?_⟩
  · intro s job j hj hmet hphase ha hret hroom
    have hfits : ¬ ((!(s.startTaint j).isEmpty) = true ∧ (!s.taints.contains (s.startTaint j)) = true ∧ 1024 ≤ s.taints.length) := by
      rcases hroom with h | h
      · simp [h]
      · exact fun hfull => Nat.not_le.mpr h hfull.2.2
    have hwait : ¬ (!s.waitMet { j with taint := s.startTaint j }) = true := by
      rw [Bool.not_eq_true']
      exact fun hno => Bool.noConfusion (hno.symm.trans hmet)
    have hstart : ¬ (j.phase ≠ .waiting ∨ (!s.alive) = true) := by simp [hphase, ha]
    have hopcode : ({ j with taint := s.startTaint j } : Job).opcode = j.opcode := rfl
    refine ⟨fun hengine => ?_, fun hengine hop => ?_, fun hop hengine => ?_⟩
    · have hengine' : waitsForEngine { j with taint := s.startTaint j } = false := hengine
      change execDescriptorStart job s = _
      simp only [execDescriptorStart, hj, if_neg hstart, hret]
      rw [if_neg hwait, if_neg hfits]
      simp [hengine']
    · have hengine' : waitsForEngine { j with taint := s.startTaint j } = true := hengine
      change execDescriptorStart job s = _
      simp only [execDescriptorStart, hj, if_neg hstart, hret]
      rw [if_neg hwait, if_neg hfits]
      simp [hengine', hopcode, hop]
    · have hengine' : waitsForEngine { j with taint := s.startTaint j } = true := hengine
      change execDescriptorStart job s = _
      simp only [execDescriptorStart, hj, if_neg hstart, hret]
      rw [if_neg hwait, if_neg hfits]
      simp [hengine', hopcode, hop]
  · intro s job j hj hmet hphase hlimit hpassed
    exact execWaitTimeout_of_expired s hj hphase ⟨hmet, hlimit, of_decide_eq_true hpassed⟩
  · intro hj
    change execNop job s = _
    simp only [execNop, hj]
  · rintro t hj hlen hpend hold rfl hswap hbad
    change execTableLoad job s = _
    have hfree : (loadFamily j == 2 && s.oldBusy) = false := by
      by_cases h : loadFamily j = 2
      · simp [hold h]
      · simp [h]
    simp [execTableLoad, hj, hlen, hswap, State.runOr, firstOf, refuseIf, hpend, hfree, hbad]
  · intro hj hstate
    change execReadmit job s = _
    simp [execReadmit, hj, State.runOr, refuseIf, hstate]
  · rintro s c l n ha hsession rfl rfl hn hsend
    change execCompletion c s = _
    simp [execCompletion, ha, hsession, hn, hsend]
  · intro s t l ha hsession hsend hagain hgather hl
    change execEvent s = _
    simp [execEvent, ha, hsession, hsend, hagain, hgather, hl]
  · rintro s t h ws p ha hdev hagain hdeq rfl hstream
    change execEpochStream 50 s = _
    simp [execEpochStream, ha, hdev, hagain, hdeq, hstream]
  · rintro s v q c r ha hdev hq hcopies rfl
    change execEpochStream q s = _
    simp only [execEpochStream, ha, hdev, hq, hcopies]
    simp
    split <;> rfl

end Sys2Proof.Machine
end

section
/-! OBLIGATION (the ring link commands). -/

namespace Sys2Proof.Machine

theorem execFlitRx_of_whole {s v : State} {port : Fin 2} {fl : Flit} (ha : s.alive = true) (hup : s.ringUp port = true)
    (hlen : fl.bytes.length = 144) (hcrc : fld fl.bytes 136 4 = crc32c (fl.bytes.take 136)) (htype : fld fl.bytes 0 1 ≤ 2)
    (hexpect : fld fl.bytes 0 1 = 0 ∨ fld fl.bytes 2 2 = (s.rx port).expect)
    (hv : v = (s.flitAck port (fld fl.bytes 4 2)).flitCredit port (fld fl.bytes 6 1) (fld fl.bytes 7 1)) :
    execFlitRx port fl s =
      if fld fl.bytes 0 1 = 0 then .next (if bit (fld fl.bytes 1 1) 0 then v.replay port else v)
      else .next (((v.setRx port { v.rx port with expect := ((v.rx port).expect + 1) % 65536, nak := false }).idleFlit port
        (if fld fl.bytes 0 1 = flitCtrl then 1 else 0) (if fld fl.bytes 0 1 = flitData then 1 else 0) false).useFlit port
        (fld fl.bytes 0 1) (fld fl.bytes 1 1) ((fl.bytes.drop 8).take 128)) := by
  subst hv
  have hlive : ¬ ((!s.alive) = true ∨ (!s.ringUp port) = true) := by simp [ha, hup]
  have hwhole : ¬ (fld fl.bytes 136 4 ≠ crc32c (fl.bytes.take 136) ∨ fl.bytes.length ≠ 144 ∨ 2 < fld fl.bytes 0 1) := by
    simp [hcrc, hlen, Nat.not_lt.mpr htype]
  have horder : ¬ (fld fl.bytes 0 1 ≠ 0 ∧ fld fl.bytes 2 2 ≠ (s.rx port).expect) := by
    rcases hexpect with h | h <;> simp [h]
  simp only [execFlitRx, if_neg hlive, if_neg hwhole, if_neg horder]

theorem execFlitRx_of_damaged {s : State} {port : Fin 2} {fl : Flit} (ha : s.alive = true) (hup : s.ringUp port = true)
    (hbad : fld fl.bytes 136 4 ≠ crc32c (fl.bytes.take 136) ∨ fl.bytes.length ≠ 144) :
    execFlitRx port fl s = .next (s.refuseFlit port) := by
  have hlive : ¬ ((!s.alive) = true ∨ (!s.ringUp port) = true) := by simp [ha, hup]
  have hbad' : fld fl.bytes 136 4 ≠ crc32c (fl.bytes.take 136) ∨ fl.bytes.length ≠ 144 ∨ 2 < fld fl.bytes 0 1 :=
    hbad.imp_right .inl
  simp only [execFlitRx, if_neg hlive, if_pos hbad']

/-- Settles O25: a damaged flit is refused; a whole one in order takes its acknowledgement and credit, and is then an IDLE flit or
one whose payload is used; the timers' commands meet their guards. -/
theorem ringLinkCommandsComplete : Obligations.RingLinkCommandsComplete := by
  unfold Obligations.RingLinkCommandsComplete
  refine ⟨?_, ?_, ?_, ?_, ?_, ?_⟩
  · intro s v w port fl ha hup
    refine ⟨fun hlen => execFlitRx_of_damaged ha hup (.inr hlen), fun hcrc => execFlitRx_of_damaged ha hup (.inl hcrc), ?_⟩
    intro hlen hcrc hv
    refine ⟨fun ht => ?_, fun ht hexpect hw => ?_, fun ht hexpect hw => ?_⟩
    · refine (execFlitRx_of_whole ha hup hlen hcrc (by omega) (.inl ht) hv).trans ?_
      rw [if_pos ht]
    · refine (execFlitRx_of_whole ha hup hlen hcrc (by omega) (.inr hexpect) hv).trans ?_
      simp [ht, ← hw, flitCtrl, flitData]
    · refine (execFlitRx_of_whole ha hup hlen hcrc (by omega) (.inr hexpect) hv).trans ?_
      simp [ht, ← hw, flitCtrl, flitData]
  · intro s port ha hup hkept hpassed
    change execFlitReplay port s = _
    simp [execFlitReplay, ha, hup, hkept, hpassed]
  · intro s i ha hpass hthree hfailed hothers
    change execLaneRetrain i .lost s = _
    have hbusy : ((List.range 4).any fun l =>
        decide (i.val / 4 * 4 + l ≠ i.val ∧ s.rd Reg.RNG_LANE_STATE (i.val / 4 * 4 + l) = laneRetrain)) = false := by
      rw [List.any_eq_false]
      intro l hl
      simp only [decide_eq_true_eq, not_and]
      exact hothers l (List.mem_range.mp hl)
    have hserves : ¬ ((!s.alive) = true ∨ s.rd Reg.RNG_LANE_STATE i = 3 ∨ s.rd Reg.RNG_LANE_STATE i = laneFailed) := by
      simp [ha, hthree, hfailed]
    simp only [execLaneRetrain, if_neg hserves, hbusy, hpass, Bool.not_false, and_self, if_true]
  · rintro s v i ha hstate hoff rfl
    change execPrbsRunDone i 0 s = _
    simp [execPrbsRunDone, ha, hstate, hoff]
  · intro s port ha hup
    refine ⟨fun hdue => ?_, fun n hn hpassed => ?_⟩
    · change execRingHello port s = _
      have hdue' : (match s.ring.helloAt.find port with | some t => s.passed t (msTicks 1) | none => true) = true := by
        split
        · exact hdue _ ‹_›
        · rfl
      simp only [execRingHello]
      rw [if_pos ⟨ha, hup, hdue'⟩]
    · change execNeighbourLoss port s = _
      simp [execNeighbourLoss, ha, hup, hn, hpassed]
  · intro s t hcensus ha hpassed
    change execCensusTimeout s = _
    obtain ⟨c, hc, rfl⟩ := Option.map_eq_some_iff.mp hcensus
    simp [execCensusTimeout, hc, ha, hpassed]

end Sys2Proof.Machine
end

section
/-! SUPPORT AND OBLIGATION (the collectives). -/

namespace Sys2Proof.Machine

/-- A collective at the head of the queue that nothing refuses starts, whichever of the three operations it is. -/
theorem State.collGo_of_head {s u v : State} {job op : Nat} {j : Job} {c : Coll} {r : List Coll} (hj : s.job job = some j)
    (hopcode : j.opcode = 0x30) (hop : j.arg 32 1 = op) (hphase : j.phase = .started) (hgate : s.gated islRng = false)
    (hbytes : j.arg 36 4 ≠ 0) (hhead : s.ring.colls = c :: r) (hc : c.job = job) (hrefuse : s.collRefusal j = none)
    (hu : u = ({ s with ring := { s.ring with early := s.ring.early.filter (fun x => x.coll != c.number) } } : State).modColl job (fun y =>
        { y with startAt := some s.ticks, progressAt := s.ticks, received := s.ring.early.filter (fun x => x.coll == c.number) }))
    (hv : v = ({ u.setJob { j with phase := .running } with
        chanJob := (u.setJob { j with phase := .running }).chanJob.set ringChan job } : State).chanStart ringChan j.context 0 0 j.tag false)
    (det : ReadFault) : s.collGo op job det = State.collRun job 20 v det := by
  subst hu hv
  have hmine : ¬ (j.opcode ≠ 0x30 ∨ j.arg 32 1 ≠ op ∨ s.gated islRng = true) := by simp [hopcode, hop, hgate]
  have hnew : ¬ j.phase = .running := by rw [hphase]; decide
  simp only [State.collGo, hj, if_neg hmine, if_neg hnew, if_neg (not_not_intro hphase), if_neg hbytes, hhead,
    if_neg (not_not_intro hc), hrefuse]

/-- Settles O26: a role table that nothing refuses is stored; the three collectives share one start; the timers' commands meet their
guards. -/
theorem collectiveCommandsComplete : Obligations.CollectiveCommandsComplete := by
  unfold Obligations.CollectiveCommandsComplete
  refine ⟨?_, ?_, ?_, ?_⟩
  · intro s job j hj hp hidle hplaced
    change execRoleLoad job s = _
    have hcolls : s.ring.colls.any (fun c => c.startAt.isSome) = false := by
      rw [List.any_eq_false]
      exact fun c hc => by simp [hidle c hc]
    have hpages : (decide (((roleEntry j.param s.part.serial).getD (0xFF, 0)).2 < 3) && !s.ring.placed.isEmpty) = false := by
      by_cases h : ((roleEntry j.param s.part.serial).getD (0xFF, 0)).2 < 3
      · simp [hplaced h]
      · simp [h]
    simp only [execRoleLoad, hj, hcolls, hpages, Bool.or_self, Bool.and_false, State.runOr, refuseIf]
    simp [hp]
  · intro s u v job op j c r hj hopcode hop hphase hgate hbytes hhead hc hrefuse hu hv det
    have hgo := State.collGo_of_head hj hopcode hop hphase hgate hbytes hhead hc hrefuse hu hv det
    refine ⟨?_, ?_, ?_⟩ <;> rintro rfl <;> exact congrArg Host.Outcome.next hgo
  · intro s job t c hfind hat
    refine ⟨fun hpassed hstep hnone => ?_, fun hch hpassed => ?_⟩
    · change execJoinTimeout job s = _
      simp [execJoinTimeout, hfind, hat, hpassed, hstep, hnone]
    · change execCollectiveStall job s = _
      simp [execCollectiveStall, hfind, hat, hch, hpassed]
  · intro s e r hsent ha hover
    refine ⟨fun hcov => ?_, fun hlimit => ?_⟩
    · change execCheckEpochClose s = _
      simp [execCheckEpochClose, hsent, ha, hover, hcov]
    · change execCheckLimitExpiry s = _
      simp only [execCheckLimitExpiry, hsent]
      rw [if_pos ⟨ha, hover, hlimit⟩]

end Sys2Proof.Machine
end

section
/-! OBLIGATION (the diagnostic commands). -/

namespace Sys2Proof.Machine

/-- A field test that is the only one and whose unit passed ends with its descriptor. -/
theorem execFieldTestDone_of_only {s v : State} {u : BitVec 32} {t : FieldTest} {j : Job} (htests : s.prf.tests = [t])
    (hopen : t.ended = false) (hunit : t.unit = u.toNat) (hv : v = (s.bump Reg.PRF_CNT_FIELD_TESTS).leaveTest t.unit true)
    (hkept : v.prf.tests = [t]) (hj : v.job t.job = some j) (hbuilt : unitBuilt u.toNat = true) :
    execFieldTestDone u none s = .next (({ v with prf := { v.prf with tests := [] } } : State).finish j stOk 0
      (j.arg 36 4 + (s.ticks - t.startTick) / 250 * 2 ^ 32)) := by
  have hfind : s.prf.tests.find? (fun t => !t.ended && unitBuilt u.toNat && (t.unit == u.toNat || t.unit == ownerUnit u.toNat)) = some t := by
    simp [htests, hopen, hunit, hbuilt]
  have hj' : ({ v with prf := { v.prf with tests := [] } } : State).job t.job = some j := hj
  simp [execFieldTestDone, hfind, ← hv, hkept, hj']

/-- Settles O28: no refusal of the operation applies, so `State.runOr` takes its effect; a field test that is the only one ends with
its unit. -/
theorem diagCommandsComplete : Obligations.DiagCommandsComplete := by
  unfold Obligations.DiagCommandsComplete
  refine ⟨?_, ?_, fun s job j => ⟨?_, ?_, ?_, ?_, ?_, ?_⟩, ?_, ?_⟩
  · rintro s u job j us hj rfl hidle hfree rfl
    change execFieldTest job s = _
    have htested : (targetUnits (j.arg 36 4)).any (fun u => (s.unit u).test) = false := by
      rw [List.any_eq_false]
      exact fun x hx => by simp [hidle x hx]
    have hheld : (targetUnits (j.arg 36 4)).any (fun u => u / 2 ^ 24 == 1 && s.plateHeld (bits u 0 24)) = false := by
      rw [List.any_eq_false]
      intro x hx
      by_cases h : x / 2 ^ 24 = 1
      · simp [hfree x hx h]
      · rw [beq_false_of_ne h, Bool.false_and]
        exact Bool.false_ne_true
    simp only [execFieldTest, hj, htested, hheld]
    rfl
  · intro s v u t j htests hopen hunit hv hkept hj hbuilt
    exact execFieldTestDone_of_only htests hopen hunit hv hkept hj hbuilt
  · rintro hj ⟨u, hu, hon⟩
    change execOffline job s = _
    have hsome : (targetUnits (j.arg 36 4)).all (fun u => (s.unit u).offline) = false := by
      rw [List.all_eq_false]
      exact ⟨u, hu, by simp [hon]⟩
    simp only [execOffline, hj, hsome]
    rfl
  · intro u hj hone
    change execOnline job s = _
    have hsome : (targetUnits (j.arg 36 4)).any s.canOnline = true := by
      have hu : u ∈ (targetUnits (j.arg 36 4)).filter s.canOnline := by simp [hone]
      exact List.any_eq_true.mpr ⟨u, (List.mem_filter.mp hu).1, (List.mem_filter.mp hu).2⟩
    simp [execOnline, hj, hsome, State.runOr, refuseIf, hone]
  · rintro v hj hp hempty hclash hcheck rfl
    change execRegionSet job s = _
    have hnot : (0 == rgVerified) = false := rfl
    simp [execRegionSet, hj, State.runOr, firstOf, refuseIf, hp, hempty, hclash, hcheck, hnot]
  · intro hj hset
    change ∃ t : State, execRegionClear job s = _ ∧ _
    refine ⟨{ s with
        prf := { s.prf with
          regions := s.prf.regions.erase (j.arg 36 1), digestWait := s.prf.digestWait.filter (fun w => w.1 != j.arg 36 1),
          digests := s.prf.digests.filter (fun d => !(d.region == j.arg 36 1 && d.module == s.rd Reg.RNG_STAT_MODULE)) },
        nv := { s.nv with regions := s.nv.regions.erase (j.arg 36 1) } }, ?_, rfl, rfl, rfl, rfl, rfl⟩
    simp [execRegionClear, hj, State.runOr, refuseIf, hset]
  · intro hj hset hmirror
    change execReload job s = _
    cases h : bit (j.arg 33 1) 0 with
    | false => simp [execReload, hj, State.runOr, firstOf, refuseIf, hset, h]
    | true => simp [execReload, hj, State.runOr, firstOf, refuseIf, hset, h, hmirror h]
  · intro v n hj hch hn hwrite
    change execHistory job s = _
    obtain ⟨hid, hphase, hop, hkind⟩ := (State.startedOp_eq_some s).mp hj
    simp [execHistory, hid, hphase, hop, hkind, hch, hn, hwrite]
  · intro s u hp hlt
    change execEventAgeout u s = _
    simp [execEventAgeout, hp, hlt]
  · intro s v i g ctx hfind hwarm hup hfw hstate hv hdigest
    change execRegionVerify i s = _
    have hcomes : ¬ ((!s.boot.warm) = true ∨ s.power ≠ .up ∨ s.boot.fwHeader.isEmpty = true ∨ s.regionState i ≠ 0) := by
      simp [hwarm, hup, hfw, hstate]
    simp only [execRegionVerify, hfind, if_neg hcomes, ← hv, hdigest, beq_self_eq_true, if_true]
    rfl

end Sys2Proof.Machine
end

section
/-! SUPPORT AND OBLIGATION (the bring-up commands). -/

namespace Sys2Proof.Machine

/-- The units without which the module cannot run have no bit in the fuses. -/
theorem Part.fused_of_core (x : Part) {u : Nat} (h : u ∈ coreUnits) : x.fused u = false := by
  have hclass : u / 2 ^ 24 = 0x10 ∨ u / 2 ^ 24 = 0x11 ∨ u / 2 ^ 24 = 0x12 ∨ u / 2 ^ 24 = 0x16 := by
    simp only [coreUnits, unitId, List.mem_append, List.mem_cons, List.not_mem_nil, or_false, List.mem_map, List.mem_range] at h
    rcases h with h | ⟨a, ha, rfl⟩ <;> omega
  rcases hclass with h | h | h | h <;> simp only [Part.fused, h]

theorem State.permanent_setHistory_of_state (s : State) {u : Nat} {h : History} (hh : h.state = (s.history u).state) (w : Nat) :
    (s.setHistory u h).permanent w = s.permanent w := by
  unfold State.setHistory
  split
  · by_cases hw : w = u
    · subst hw
      simp only [State.permanent, State.history, Tbl.get_set_self]
      rw [hh]
      rfl
    · simp only [State.permanent, State.history, Tbl.get_set_ne _ _ _ hw]
  · rfl

theorem State.permanent_of_history {s t : State} (h : t.nv.history = s.nv.history) (u : Nat) : t.permanent u = s.permanent u := by
  rw [State.permanent, State.history, h]
  rfl

/-- An error record notes itself in its unit's history and leaves the unit's class. -/
theorem State.permanent_record (s : State) (u op t cls n : Nat) (d : List (Nat × Nat)) (w : Nat) :
    (s.record u op t cls n d).permanent w = s.permanent w := by
  have hnoted : (if (s.nv.history.find u).isSome then
      s.setHistory u { s.history u with lastOp := op, record := (s.nv.recordNo + 1) % 2 ^ 32 } else s).permanent w = s.permanent w := by
    split
    · exact s.permanent_setHistory_of_state (h := { s.history u with lastOp := op, record := (s.nv.recordNo + 1) % 2 ^ 32 }) rfl w
    · rfl
  refine Eq.trans ?_ hnoted
  unfold State.record
  dsimp only
  obtain ⟨_, _, _, _, e⟩ := State.enqueueOwn_shape _ _ _
  rw [e]
  exact State.permanent_of_history rfl w

theorem State.permanent_bistDiffers (s : State) (u w : Nat) : (s.bistDiffers u false).permanent w = s.permanent w :=
  s.permanent_record u 8 s.dt64 0 1 _ w

theorem State.bistDiffers_fields (s : State) (u : Nat) :
    (s.bistDiffers u false).power = s.power ∧ (s.bistDiffers u false).boot = s.boot := by
  obtain ⟨_, _, _, _, _, _, e⟩ := s.record_shape u 8 s.dt64 0 1 [(1, (s.part.fused u).toNat), (2, false.toNat)]
  have h : s.bistDiffers u false = s.record u 8 s.dt64 0 1 [(1, (s.part.fused u).toNat), (2, false.toNat)] := rfl
  rw [h, e]
  exact ⟨rfl, rfl⟩

theorem State.setFn_power (s : State) (f st r : Nat) : (s.setFn f st r).power = s.power := by
  obtain ⟨_, _, _, _, _, _, e⟩ := s.setFn_shape f st r
  rw [e]

theorem State.foldl_power {α : Type} {f : State → α → State} (hf : ∀ t a, (f t a).power = t.power) (s : State) (l : List α) :
    (l.foldl f s).power = s.power :=
  State.foldl_keeps s (·.power) f hf l

theorem State.enableChans_power (s : State) (bad : Nat → Bool) : (s.enableChans bad).power = s.power := by
  unfold State.enableChans
  dsimp only
  refine (State.foldl_power (by intros; rfl) _ _).trans ?_
  split <;> rfl

theorem State.enablePlates_power (s : State) (bad : Nat → Bool) : (s.enablePlates bad).power = s.power := by
  unfold State.enablePlates
  dsimp only
  refine (State.foldl_power (fun t p => ?_) _ _).trans rfl
  simp only [State.wr_power]

theorem State.markBad_power (s : State) (bad : Nat → Bool) : (s.markBad bad).power = s.power := by
  unfold State.markBad
  extract_lets us
  clear_value us
  refine State.foldl_power (fun t u => ?_) s us
  simp only [apply_ite State.power, State.wr_power, State.setUnit_power, ite_self]

theorem State.retireUnits_power (s : State) (bad : Nat → Bool) (failed : List Nat) : (s.retireUnits bad failed).power = s.power := by
  unfold State.retireUnits
  dsimp only
  refine (State.foldl_power (fun t p => by split <;> simp only [State.setFn_power]) _ _).trans ?_
  generalize hw : List.foldl _ _ (List.range 16) = w
  have hwp : w.power = s.power := by
    rw [← hw]
    refine (State.foldl_power (fun t a => by split <;> simp only [State.setFn_power]) _ _).trans ?_
    refine (State.foldl_power (fun t a => by split <;> simp only [State.setFn_power]) _ _).trans ?_
    refine (State.foldl_power (fun t a => by split <;> simp only [State.setFn_power]) _ _).trans ?_
    exact State.foldl_power (fun t a => by split <;> simp only [State.setFn_power]) _ _
  rw [← hwp]
  (repeat' split) <;> simp only [State.setFn_power]

/-! A producer of a queue record may gather a detection, and changes nothing else of what `prf` holds. -/

theorem State.gather_heldReset (s : State) (u op cls : Nat) (d : List (Nat × Nat)) :
    (s.gather u op cls d).prf.heldReset = s.prf.heldReset := by
  unfold State.gather
  split <;> rfl

theorem State.access_heldReset (s : State) (q : Nat) : (s.access q).prf.heldReset = s.prf.heldReset := by
  unfold State.access
  split
  · exact State.gather_heldReset _ _ _ _ _
  · rfl

theorem State.enqueue_heldReset (s : State) (q : Nat) (h : LenHead) (l : List Byte) :
    (s.enqueue q h l).1.prf.heldReset = s.prf.heldReset := by
  rw [← s.access_heldReset q]
  unfold State.enqueue
  split
  · exact (s.access_heldReset q).symm
  · dsimp only
    (repeat' split) <;> rfl

theorem State.enqueueOwn_heldReset (s : State) (q : Nat) (l : List Byte) :
    (s.enqueueOwn q l).1.prf.heldReset = s.prf.heldReset := by
  unfold State.enqueueOwn
  dsimp only
  generalize hw : State.enqueue _ q _ l = w
  have hkept : w.1.prf.heldReset = s.prf.heldReset := by
    rw [← hw]
    exact (State.enqueue_heldReset _ _ _ _).trans (s.access_heldReset q)
  split <;> exact hkept

theorem State.raise_heldReset (s : State) (c u : Nat) (d : List Byte) : (s.raise c u d).prf.heldReset = s.prf.heldReset := by
  unfold State.raise
  dsimp only
  exact s.enqueueOwn_heldReset _ _

theorem State.requestLines_heldReset (s : State) (n l : Nat) (b : Bool) :
    (s.requestLines n l b).prf.heldReset = s.prf.heldReset := by
  unfold State.requestLines State.showLines
  dsimp only
  (repeat' split) <;> simp [State.raise_heldReset]

/-- Start-up BIST without a failing unit, in two cases; the units at fault are those marked in the fuses or PERMANENT. -/
theorem execStartupBist_of_none_failed {s : State} (hup : s.power = .starting) (hdone : s.boot.bistDone = false) :
    ∃ (w : State) (bad bad' : Nat → Bool) (failed : List Nat), (∀ u, w.permanent u = s.permanent u) ∧ w.power = s.power ∧
      execStartupBist [] s = if coreUnits.any (fun u => s.part.fused u || w.permanent u) then
          .next (({ w with power := .held, prf := { w.prf with heldReset := true } } : State).requestLines srcPowerOn 3 true)
        else .next { ((w.enableChans bad).enablePlates bad).markBad bad' |>.retireUnits bad failed with
          boot := { (((w.enableChans bad).enablePlates bad).markBad bad' |>.retireUnits bad failed).boot with bistDone := true } } := by
  have hgo : ¬ (s.power ≠ .starting ∨ s.boot.bistDone = true) := by simp [hup, hdone]
  have hfold (l : List Nat) : (∀ u, (l.foldl (fun s u => s.bistDiffers u false) s).permanent u = s.permanent u) ∧
      (l.foldl (fun s u => s.bistDiffers u false) s).power = s.power :=
    ⟨fun u => State.foldl_keeps s (fun t => t.permanent u) _ (fun t a => t.permanent_bistDiffers a u) l,
      State.foldl_power (fun t a => (t.bistDiffers_fields a).1) s l⟩
  unfold execStartupBist
  rw [if_neg hgo]
  extract_lets skip failed part differ w own bad
  have hfailed : failed = [] := List.filter_eq_nil_iff.mpr (fun u _ => by simp)
  clear_value failed
  subst hfailed
  obtain ⟨hperm, hpower⟩ := hfold differ
  have hown : own = fun u => s.part.fused u || w.permanent u := funext fun u => by
    simp only [own, part, List.contains_nil, Bool.or_false]
  refine ⟨w, bad, fun u => bad u && !skip u, [], hperm, hpower, ?_⟩
  rw [hown]

theorem execStartupBist_of_core_good {s : State} (hup : s.power = .starting) (hdone : s.boot.bistDone = false)
    (hgood : ∀ u ∈ coreUnits, s.permanent u = false) :
    ∃ t, execStartupBist [] s = .next t ∧ t.boot.bistDone = true ∧ t.power = .starting := by
  obtain ⟨w, bad, bad', failed, hperm, hpower, e⟩ := execStartupBist_of_none_failed hup hdone
  have hcore : coreUnits.any (fun u => s.part.fused u || w.permanent u) = false := by
    rw [List.any_eq_false]
    exact fun u hu => by simp [s.part.fused_of_core hu, hperm u, hgood u hu]
  rw [hcore, if_neg Bool.false_ne_true] at e
  refine ⟨_, e, rfl, ?_⟩
  have hkept := ((((w.enableChans bad).enablePlates bad).markBad bad').retireUnits_power bad failed).trans
    ((State.markBad_power _ bad').trans ((State.enablePlates_power _ bad).trans (w.enableChans_power bad)))
  exact hkept.trans (hpower.trans hup)

theorem execStartupBist_of_core_bad {s : State} (hup : s.power = .starting) (hdone : s.boot.bistDone = false)
    (hbad : ∃ u ∈ coreUnits, s.permanent u = true) :
    ∃ t, execStartupBist [] s = .next t ∧ t.power = .held ∧ t.prf.heldReset = true := by
  obtain ⟨w, bad, bad', failed, hperm, hpower, e⟩ := execStartupBist_of_none_failed hup hdone
  obtain ⟨u, hu, hpermanent⟩ := hbad
  have hcore : coreUnits.any (fun u => s.part.fused u || w.permanent u) = true :=
    List.any_eq_true.mpr ⟨u, hu, by simp [hperm u, hpermanent]⟩
  rw [hcore, if_pos rfl] at e
  refine ⟨_, e, ?_, State.requestLines_heldReset _ _ _ _⟩
  obtain ⟨_, _, _, _, _, e'⟩ := State.requestLines_shape
    ({ w with power := .held, prf := { w.prf with heldReset := true } } : State) srcPowerOn 3 true
  rw [e']

/-- Settles O31: start-up BIST is judged on the units that the module cannot do without; every other command meets its guards. -/
theorem bringUpCommandsComplete : Obligations.BringUpCommandsComplete := by
  unfold Obligations.BringUpCommandsComplete
  refine ⟨?_, fun s hup hdone => ⟨execStartupBist_of_core_good hup hdone, execStartupBist_of_core_bad hup hdone⟩,
    ?_, ?_, ?_, ?_, ?_, ?_, ?_, ?_, ?_, ?_, ?_, ?_⟩
  · intro s mv hoff hwake hlo hhi
    change execPowerGood mv s = _
    simp [execPowerGood, hoff, hwake, Nat.not_lt.mpr hlo, Nat.not_lt.mpr hhi]
  · intro s v hup hdone hnone hv
    change execRomBootDone s = _
    have hgo : ¬ (s.power ≠ .starting ∨ (!s.boot.bistDone) = true) := by simp [hup, hdone]
    simp only [execRomBootDone, if_neg hgo, hnone, hv]
  · rintro s v c ha hc htrained hdomain hsaved hv hall
    change execDdrTrainingDone c true none s = _
    have hshown : execDdrTrainingDone c true none s = .next (if v.allTrained then v.releaseKept.showTest else v.showTest) := by
      rw [execDdrTrainingDone, if_neg (by simp [ha, hc, htrained, hdomain, hsaved]), hv]
      rfl
    rw [hshown, hall]
    rfl
  · intro s l hup hall hover
    change execRegionRelease 16 l s = _
    simp [execRegionRelease, hup, hall, hover]
  · intro s r l hr hturn
    change execRegionRelease r l s = _
    simp [execRegionRelease, hr, hturn]
  · rintro s v r k addr hr hturn rfl
    change ∃ us, execRegionTestFail r k addr s = _
    simp only [execRegionTestFail, if_neg hr, if_pos hturn]
    exact ⟨_, rfl⟩
  · intro s h hup hall hboot hregion hret
    change execRetentionPause h false s = _
    simp [execRetentionPause, hup, hall, hboot, hregion, hret]
  · intro s v x h e hx hup hrom hh hv he
    change execFirmwareVerify none s = _
    have hgo : ¬ (s.power ≠ .up ∨ s.dev ≠ stRom) := by simp [hup, hrom]
    simp only [execFirmwareVerify, hx, if_neg hgo, ← hv, ← hh, he]
    cases v.imageError h none <;> rfl
  · rintro s v got hup hfw hneedle hgate hdomains rfl rfl
    change execNeedleFwMulticast s = _
    have hon : s.platesOn.all (fun p => bit s.pwr.domains (1 + p)) = true := List.all_eq_true.mpr hdomains
    have hgo : ¬ (s.power ≠ .up ∨ s.boot.fwHeader.isEmpty = true ∨ s.boot.needleFw = true ∨ s.gated islFab = true ∨
        (!s.platesOn.all (fun p => bit s.pwr.domains (1 + p))) = true) := by
      simp only [hon]
      simp [hup, hfw, hneedle, hgate]
    simp only [execNeedleFwMulticast, if_neg hgo]
    rfl
  · intro s f hup hfw hunit hdomain
    refine ⟨fun hf => ?_, fun hf => ?_, fun hlo hhi hplate hstate => ?_⟩
    · change execUnitReady f s = _
      have hfn : f.toNat = 7 ∨ f.toNat = 8 := hf.imp (congrArg BitVec.toNat) (congrArg BitVec.toNat)
      rcases hfn with hfn | hfn <;> rw [hfn] at hunit hdomain <;> simp [execUnitReady, hfn, hup, hfw, hunit, hdomain]
    · change execUnitReady f s = _
      have hfn : f.toNat = 9 ∨ f.toNat = 10 := hf.imp (congrArg BitVec.toNat) (congrArg BitVec.toNat)
      rcases hfn with hfn | hfn <;> rw [hfn] at hunit hdomain <;> simp [execUnitReady, hfn, hup, hfw, hunit, hdomain]
    · change execUnitReady f s = _
      simp [execUnitReady, hup, hfw, hunit, hdomain, hlo, hhi, hplate, hstate]
  · intro s hup hset hsave hsize
    change execNvsave s = _
    simp [execNvsave, State.nvSave, hup, hset, hsave, Nat.not_lt.mpr hsize]
  · intro s c hc
    change execNvsaveDone s = _
    simp only [execNvsaveDone, hc]
  · intro s ha hset
    change execRestart s = _
    simp [execRestart, ha, hset]

end Sys2Proof.Machine
end

section
/-! SUPPORT AND OBLIGATIONS: the vector instructions of a needle core, and the tracers. -/

namespace Sys2Proof.Machine

theorem State.onCore_of_issued {s u : State} {p c len : Nat} {held : Hold → Bool} (f : State → State)
    (h : s.issue p c len held = (u, true)) : s.onCore p c len held f = .next (f u) := by
  simp only [State.onCore, h]

/-- Settles O13: an issued instruction whose vector state and registers allow it takes the branch of its definition that retires. -/
theorem needleVectorCommandsComplete : Obligations.NeedleVectorCommandsComplete := by
  unfold Obligations.NeedleVectorCommandsComplete
  rintro s u p c vm fmt d vs2 rs1 k hissue rfl hgroup
  refine ⟨fun hok hvl => ?_, fun hok hd => ?_, fun o hok hd ho => ?_, fun hok => ?_, fun hok hd => ?_, fun hok hd hsrc => ?_,
    fun hok hvl => ?_⟩
  · refine (State.onCore_of_issued _ hissue).trans ?_
    simp [State.xnVcrc, hok, hgroup, hvl]
  · refine (State.onCore_of_issued _ hissue).trans ?_
    simp [State.xnVexpd, hok, hgroup, hd]
  · refine (State.onCore_of_issued _ hissue).trans ?_
    simp [State.xnVcurve, hok, hgroup, hd, ho]
  · refine (State.onCore_of_issued _ hissue).trans ?_
    simp [State.xnVrmax, hok, hgroup]
  · refine (State.onCore_of_issued _ hissue).trans ?_
    simp only [State.xnVncvt, hok, hgroup, hd]
    rfl
  · refine (State.onCore_of_issued _ hissue).trans ?_
    simp [State.xnVwcvt, hok, hd, hsrc]
  · refine (State.onCore_of_issued _ hissue).trans ?_
    simp [State.xnVmxscale, hok, hgroup, Nat.not_lt.mpr hvl]

/-- A tracer's command that its cache and its sequence allow has the effect that `run` answers. -/
theorem State.tracerRun_of_allowed {s v w : State} {t : Nat} {cmd : List Byte} {ch st n : Nat} {r : List (List Byte × Nat)} {c : KvCache}
    {mine : Nat → Bool} {run : State → List Byte → Nat → Nat → Nat → Option (State × Nat × Nat)}
    (hq : (s.tracer t).queue = (cmd, ch) :: r) (hup : s.tracerUp t = true) (hv : v = s.setTracer t { s.tracer t with queue := r })
    (hc : v.caches.find (fld cmd 1 1) = some c) (hfield : tracerBadField c t cmd = false)
    (hactive : v.seqState (fld cmd 1 1) (fld cmd 4 4) = some sqActive)
    (hread : v.stBad (fld cmd 1 1) (fld cmd 4 4) (fld cmd 8 2) 0 64 = false) (hst : st ≠ stDataErr)
    (hmine : mine (fld cmd 0 1) = true) (hrun : run v cmd (fld cmd 1 1) (fld cmd 4 4) (fld cmd 8 2) = some (w, st, n)) :
    s.tracerRun t mine run = .next (w.trcDone cmd st n) := by
  subst hv
  simp [State.tracerRun, hq, hmine, hup, hc, hfield, hactive, hread, hrun, hst]

/-- Settles O14: the three commands share `State.tracerRun`; the walk and the release succeed, so no containment follows. -/
theorem tracerCommandsComplete : Obligations.TracerCommandsComplete := by
  unfold Obligations.TracerCommandsComplete
  refine ⟨?_, ?_, ?_, ?_⟩
  · intro s v w t cmd ch st n r c hq hup hv hc hfield hactive hread hst
    refine ⟨fun hop hrun => ?_, fun hop hrun => ?_, fun hop hrun => ?_⟩
    · exact State.tracerRun_of_allowed (mine := fun op => op != 2 && op != 3) hq hup hv hc hfield hactive hread hst
        (by rw [hop]; rfl) hrun
    · exact State.tracerRun_of_allowed (mine := (· == 2)) hq hup hv hc hfield hactive hread hst (by rw [hop]; rfl) hrun
    · exact State.tracerRun_of_allowed (mine := (· == 3)) hq hup hv hc hfield hactive hread hst (by rw [hop]; rfl) hrun
  · intro s w t ci q l b hheld hside hflush
    change execDeferredFlush t ci q l s = _
    rw [execDeferredFlush, if_pos ⟨hheld, hside⟩, hflush]
    rfl
  · intro s w p ci q l pg m hc hq hl hup hmiss hwalk
    change execLabMissWalk p ci q l pg false s = _
    have hcache : (s.caches.find ci).isNone = false := by
      rw [← Option.not_isSome, hc]
      rfl
    have hgo : ¬ ((s.caches.find ci).isNone = true ∨ (s.kv ci).maxSeqs ≤ q ∨ (s.kv ci).layers ≤ l ∨ (!s.tracerUp (q % 2)) = true ∨
        (s.labs.get [] p.val).any (fun e => e.cache == ci.val && e.seq == q && e.layer == l && e.page == pg) = true) := by
      rw [hcache, hup, hmiss]
      simp [Nat.not_le.mpr hq, Nat.not_le.mpr hl]
    simp only [execLabMissWalk, if_neg hgo, hwalk]
    rfl
  · rintro s v w t ci slot n tag hfind hside hpins hcount hset rfl
    change execSlotRelease t ci slot s = _
    have hfree : ∀ f : Nat × Nat → Bool, (s.tracer t).pins.rows.any (fun r => r.2 != 0 && f r) = false := fun f => by
      rw [List.any_eq_false]
      exact fun r hr => by simp [hpins r hr]
    have hgo : ¬ (n % 2 ≠ t.val ∨ false = true) := by simp [hside]
    simp only [execSlotRelease, hfind, hfree, hcount, hset]
    rw [if_neg hgo]
    rfl

end Sys2Proof.Machine
end

section
/-! SUPPORT AND OBLIGATION: the scalar instructions of a needle core. -/

namespace Sys2Proof.Machine

theorem mod_four_of_opcode {w : Nat} (h : bits w 0 7 = 0x13) : w % 4 = 3 := by
  simp only [bits, Nat.shiftRight_zero] at h
  omega

/-- ADDI: the sum goes to rd, and the core retires. -/
theorem State.runWord_of_addi (s : State) (p c : Nat) {w : Nat} (hop : bits w 0 7 = 0x13) (hf3 : iF3 w = 0) (len : Nat) :
    s.runWord p c w len = s.retire p c ((s.core p c).setX (iRd w) (((s.core p c).xr (iRs1 w) + immI w) % 2 ^ 64)) len := by
  have hecall : w ≠ 0x00000073 := by
    rintro rfl
    exact absurd hop (by decide)
  have hpriv : ¬ (w = 0x30200073 ∨ w = 0x10500073) := by
    rintro (rfl | rfl) <;> exact absurd hop (by decide)
  simp [State.runWord, hecall, hpriv, hop, State.runScalar, hf3, State.settle, alu]

theorem execNeedleInstruction_of_word {s u : State} {p : Fin 34} {c : Fin 64} {w : BitVec 32}
    (hissue : s.issue p.val c.val 4 noHold = (u, true)) (hw : w.toNat % 4 = 3)
    (hstd : bits w.toNat 0 7 = 0x0B ∨ bits w.toNat 0 7 = 0x2B → isXneedle w.toNat = false) :
    execNeedleInstruction p c ⟨w⟩ s = .next (u.runWord p.val c.val w.toNat 4) := by
  have hstd' : ¬ ((bits w.toNat 0 7 = 0x0B ∨ bits w.toNat 0 7 = 0x2B) ∧ isXneedle w.toNat = true) := fun h => by
    rw [hstd h.1] at h
    exact Bool.false_ne_true h.2
  simp only [execNeedleInstruction, if_pos hw, if_neg hstd']
  exact State.onCore_of_issued _ hissue

theorem State.core_setCore_same (s : State) (p c : Nat) (x : CoreSt) : (s.setCore p c x).core p c = x := by
  simp [State.core, State.setCore]

theorem State.ecall_of_exit (s : State) {p c : Nat} (hmode : (s.core p c).machine = false) (ha7 : (s.core p c).xr 17 = 0) :
    s.ecall p c = (((s.setCore p c { s.core p c with running := false, exited := true, exitVal := (s.core p c).xr 10, hold := none }).bump
      Reg.NDL_CORE_CNT_RETIRED (s.ndl p c)).showCore p c).showCores p := by
  simp only [State.ecall, hmode, if_neg Bool.false_ne_true, if_neg (not_not_intro ha7)]

/-- Settles O12: an issued instruction takes the branch of its definition that retires; ECALL with a7 0 stops the core. -/
theorem needleScalarCommandsComplete : Obligations.NeedleScalarCommandsComplete := by
  unfold Obligations.NeedleScalarCommandsComplete
  refine ⟨?_, ?_, ?_, ?_, ?_, ?_, ?_, ?_, ?_, ?_, ?_, ?_⟩
  · intro s u p c w hissue hop hf3
    rw [← u.runWord_of_addi p.val c.val hop hf3]
    exact execNeedleInstruction_of_word hissue (mod_four_of_opcode hop) (by omega)
  · intro s u p c w hissue hw hstd
    exact execNeedleInstruction_of_word hissue hw hstd
  · intro s u p c w v hissue hw hv
    change execNeedleInstruction p c ⟨w⟩ s = _
    simp only [execNeedleInstruction, if_neg hw]
    refine (State.onCore_of_issued _ hissue).trans ?_
    simp only [hv]
  · intro s u p c hissue ha7 hmode
    refine ⟨_, State.onCore_of_issued _ hissue, ?_⟩
    rw [u.ecall_of_exit hmode ha7]
    have hcore := u.core_setCore_same p.val c.val { u.core p.val c.val with
      running := false, exited := true, exitVal := (u.core p.val c.val).xr 10, hold := none }
    exact ⟨congrArg CoreSt.exited hcore, congrArg CoreSt.running hcore, congrArg CoreSt.exitVal hcore, rfl, rfl⟩
  · intro s u p c rs1 rs2 j l hissue hmay hrun
    refine (State.onCore_of_issued _ hissue).trans ?_
    simp [State.xnSig, hmay, hrun]
  · intro s u p c rd rs1 rs2 hissue hhold hbits hmay hreached
    refine (State.onCore_of_issued _ hissue).trans ?_
    simp [State.xnWait, hbits, hmay, hhold, hreached]
  · intro s u p c rd rs1 rs2 hissue hhold hbits hmay hreached hus htill
    refine ⟨_, _, rfl, rfl, (State.onCore_of_issued _ hissue).trans ?_⟩
    simp [State.xnWait, hbits, hmay, hhold, hreached, hus, htill]
  · intro s p c o v rd d hruns hhold hreached
    change execXnWaitDone p c s = _
    simp [execXnWaitDone, hruns, State.waitEnd, hhold, hreached]
  · intro s p c o v rd t hruns hhold hreached ht
    change execXnWaitDone p c s = _
    simp [execXnWaitDone, hruns, State.waitEnd, hhold, hreached, ht]
  · intro s u p c rd rs1 hissue hmay
    refine (State.onCore_of_issued _ hissue).trans ?_
    simp [State.xnSread, hmay]
  · intro s u p c rd rs1 rs2 hissue
    exact State.onCore_of_issued _ hissue
  · intro s u p c rd rs1 rs2 hissue
    exact State.onCore_of_issued _ hissue

end Sys2Proof.Machine
end

section
/-! SUPPORT AND OBLIGATION: the CACHE operations. -/

namespace Sys2Proof.Machine

theorem State.cacheOp_of_registered {s : State} {job op : Nat} {j : Job} {ci q : Nat} (run : State → Job → Nat → Res)
    (hj : s.startedOp job 0x13 op = some j) (hci : ci = j.arg 33 1) (hq : q = j.arg 36 4) (hc : (s.caches.find ci).isSome = true)
    (hseq : q < (s.kv ci).maxSeqs) (hup : s.tracerUp (q % 2) = true) (h0 : s.sliced (unitId 5 0) = false)
    (h1 : s.sliced (unitId 5 1) = false) : s.cacheOp job op run = run s j ci := by
  subst hci hq
  have hc' : ¬ (s.caches.find (j.arg 33 1)).isNone = true := by
    rw [← Option.not_isSome, hc]
    decide
  simp only [State.cacheOp, hj, if_neg hc']
  rw [if_neg (fun h => Nat.not_le.mpr hseq h.2), if_neg (fun h => by simp [hup] at h), if_neg (by simp [h0, h1])]

theorem State.readingPages_of_clean {s : State} {j : Job} {ci q : Nat} {pages : List (Nat × Nat)} {run : Res}
    {fs : List (Option (Option Nat))} (hread : pages.mapM (fun p => s.pageFails ci q p.1 p.2) = some fs)
    (hclean : fs.findSome? id = none) : s.readingPages j ci q pages run = run := by
  simp only [State.readingPages, hread, hclean]

theorem State.seqStates_of_free (s : State) (ci : Nat) (l : List Nat) (h : ∀ q ∈ l, s.seqState ci q = some sqFree) :
    (l.filterMapM (fun q => do
      let st ← s.seqState ci q
      pure (if st = sqFree then none else some st)) : Option (List Nat)) = some [] := by
  induction l with
  | nil => rfl
  | cons q r ih =>
    rw [List.filterMapM_cons, h q List.mem_cons_self, ih (fun x hx => h x (List.mem_cons_of_mem q hx))]
    rfl

/-- UNREGISTER has its own guard: it names no sequence. -/
theorem execCacheUnregister_of_free {s : State} {job : Nat} {j : Job} {ci : Nat} (hj : s.startedOp job 0x13 2 = some j)
    (hci : ci = j.arg 33 1) (hc : (s.caches.find ci).isSome = true) (h0 : s.sliced (unitId 5 0) = false)
    (h1 : s.sliced (unitId 5 1) = false) (hfree : ∀ q, q < (s.kv ci).maxSeqs → s.seqState ci q = some sqFree)
    (hquar : (s.kv ci).quar = []) :
    execCacheUnregister job s = .next ((((({ s with caches := s.caches.erase ci } : State).dropLabs (fun e => e.cache == ci)).trcSet
      Reg.TRC_CACHE_REGISTERED0 ci 0).trcSet Reg.TRC_CACHE_FREE_SLOTS0 ci 0).finishOk j) := by
  subst hci
  have hc' : ¬ (s.caches.find (j.arg 33 1)).isNone = true := by
    rw [← Option.not_isSome, hc]
    decide
  have hstates := s.seqStates_of_free (j.arg 33 1) (List.range (s.kv (j.arg 33 1)).maxSeqs)
    (fun q hq => hfree q (List.mem_range.mp hq))
  simp only [execCacheUnregister, State.cacheOp, hj, if_neg hc', hstates, hquar, h0, h1]
  simp

/-- Settles O15: with the cache registered and the tracer up, `State.cacheOp` runs the operation, and each read of a table succeeds. -/
theorem cacheCommandsComplete : Obligations.CacheCommandsComplete := by
  unfold Obligations.CacheCommandsComplete
  refine ⟨?_, ?_, ?_, ?_, ?_, ?_, ?_, ?_, ?_, ?_⟩
  · rintro s u job j c hj hp rfl hfits hnone hclear
    change execCacheRegister job s = _
    simp [execCacheRegister, hj, hp, hfits, hnone, hclear]
  · intro s job j ci hj hci hc h0 h1 hfree hquar
    exact execCacheUnregister_of_free hj hci hc h0 h1 hfree hquar
  · intro s u v w job j ci q l hj hci hq hc hseq hup h0 h1 hlo hhi hstate hbufs hu hv hw
    change execCacheCreate job s = _
    rw [execCacheCreate, State.cacheOp_of_registered _ hj hci hq hc hseq hup h0 h1]
    subst hq
    have hbudget : ¬ (65535 < j.arg 40 4 ∨ (j.arg 40 4 ≠ 0 ∧ j.arg 40 4 < (s.kv ci).recent + 2)) := by omega
    simp only [if_neg hbudget, hstate, hbufs, hu]
    simp [State.cacheDone, hv, hw]
  · intro s job j ci q hj hci hq hc hseq hup h0 h1 hpar hside hlen
    change execCacheFork job s = _
    rw [execCacheFork, State.cacheOp_of_registered _ hj hci hq hc hseq hup h0 h1]
    subst hq
    simp [Nat.not_le.mpr hpar, hside, hlen]
  · intro s u v w job j ci q n len budget bufs lens fs hj hci hq hc hseq hup h0 h1 hpar hside hlen hlen0 hstate hparent hlens hall
      htop hread hclean hbufs hu hbudget hv hw
    change execCacheFork job s = _
    rw [execCacheFork, State.cacheOp_of_registered _ hj hci hq hc hseq hup h0 h1]
    subst hq hlen
    have hsame : lens.any (· != lens.getD 0 0) = false := by
      rw [List.any_eq_false]
      exact fun x hx => by simpa using hall x hx
    have hbad : ¬ ((s.kv ci).maxSeqs ≤ j.arg 40 4 ∨ j.arg 40 4 % 2 ≠ j.arg 36 4 % 2) := by omega
    simp only [if_neg hbad, if_neg hlen0, hstate, hparent, hlens, hsame, hbufs]
    rw [if_neg (by omega), if_neg (by simp), if_neg (by simp), State.readingPages_of_clean hread hclean]
    simp [State.cacheDone, hu, hbudget, hv, hw]
  · intro s job j ci q hj hci hq hc hseq hup h0 h1 hlen
    change execCacheTruncate job s = _
    rw [execCacheTruncate, State.cacheOp_of_registered _ hj hci hq hc hseq hup h0 h1]
    exact if_pos hlen
  · intro s w job j ci q n l cut fs hj hci hq hc hseq hup h0 h1 hlen hstate hcheck hnone hreads hread hclean hw
    change execCacheTruncate job s = _
    rw [execCacheTruncate, State.cacheOp_of_registered _ hj hci hq hc hseq hup h0 h1]
    subst hq
    have hfst : l.any (·.1) = false := by
      rw [List.any_eq_false]
      exact fun x hx => by simp [hnone x hx]
    have hsnd : l.any (·.2) = false := by
      rw [List.any_eq_false]
      exact fun x hx => by simp [hnone x hx]
    simp only [if_neg hlen, hstate, hcheck, hfst, hsnd, hreads]
    rw [if_neg (by simp), if_neg (by simp), if_neg (by simp), State.readingPages_of_clean hread hclean, hw]
    rfl
  · intro s v w job j ci q st n hj hci hq hc hseq hup h0 h1 hstate hst hpages hfree
    change execCacheFree job s = _
    rw [execCacheFree, State.cacheOp_of_registered _ hj hci hq hc hseq hup h0 h1]
    subst hq
    simp only [hstate, if_neg hst]
    simp [State.cacheDone, hpages, hfree]
  · intro s job j ci q rs hj hci hq hc hseq hup h0 h1 hlen
    change execCachePlace job rs s = _
    rw [execCachePlace, State.cacheOp_of_registered _ hj hci hq hc hseq hup h0 h1]
    exact if_pos hlen
  · intro s w job j ci q n top rs pages x fs hj hci hq hc hseq hup h0 h1 hlen hstate htop hplace hle hmod hrole hother hslots hread
      hclean hw
    change execCachePlace job rs s = _
    rw [execCachePlace, State.cacheOp_of_registered _ hj hci hq hc hseq hup h0 h1]
    subst hq
    have hgoes : ¬ (x.role < 3 ∨ j.arg 40 4 = s.rd Reg.RNG_STAT_MODULE ∨ rs.length < pages.length) := by omega
    simp only [if_neg hlen, hstate, htop, if_neg (Nat.not_lt.mpr hle), State.placePages, hplace, hmod, if_neg hgoes]
    rw [if_neg (by simp), State.readingPages_of_clean hread hclean, hw]
    rfl

end Sys2Proof.Machine
end

section
/-! SUPPORT AND OBLIGATION: the burnisher's tables. -/

namespace Sys2Proof.Machine

theorem State.brnDo_of_started {s : State} {job op i : Nat} {j : Job} (run : State → Job → Nat → Res)
    (hj : s.startedOp job 0x12 op = some j) (hi : i = j.arg 33 1) (hoff : (s.unit brnUnit).offline = false)
    (hup : s.unitUp brnUnit = true) : s.brnDo job op run = run s j i := by
  subst hi
  simp [State.brnDo, hj, hoff, hup]

/-- A problem as REGISTER leaves it: the record, the program and, unless it is streamed, the structure of the block; no run. -/
structure BrnProb.Registered (x : BrnProb) (r prog rp cols : List Byte) : Prop where
  state : x.state = 1
  record : x.record = r
  program : x.program = prog
  sig : x.sig = structSig (recN r) rp cols
  resident : recStreamed r = false → x.rowptr = rp ∧ x.cols = cols
  queued : x.queued = []
  armed : x.armed = none
  run : x.run = none
  runs : x.runs = 0

theorem execBrnRegister_of_fits {s : State} {job i : Nat} {j : Job} (hj : s.startedOp job 0x12 1 = some j) (hi : i = j.arg 33 1)
    (hoff : (s.unit brnUnit).offline = false) (hup : s.unitUp brnUnit = true) (hturn : s.brnTurn i job = true) (hp : j.param ≠ [])
    (hnone : s.prob i = none) {r prog rp cols : List Byte} {units left : Nat} (hr : r = j.param.take 256)
    (hprog : prog = slice j.param 256 (16 * recSteps r)) (hrp : rp = slice j.param (256 + 16 * recSteps r) (4 * (recN r + 1)))
    (hcols : cols = j.param.drop (256 + 16 * recSteps r + 4 * (recN r + 1)))
    (hunits : units = memUnits r (csrRows (leList 4 (recN r + 1) rp) (leList 2 (recNnz r) cols)))
    (hleft : left = s.rd Reg.BRN_MEM_FREE_4K) (hle : units ≤ left) :
    ∃ x : BrnProb, x.Registered r prog rp cols ∧
      execBrnRegister job s = .next ((((({ s with
        free := s.free + recUser r } : State).setProb i x).wr Reg.BRN_PROB_ALLOC_4K units i).wr Reg.BRN_MEM_FREE_4K
        (left - units)).finishOk j) := by
  have hnew : (s.prob i).isSome = false := by rw [hnone]; rfl
  have hsome : j.param.isEmpty = false := by simpa using hp
  rw [execBrnRegister, State.brnDo_of_started _ hj hi hoff hup]
  simp only [hturn, hsome, hnew, ← hr, ← hprog, ← hrp, ← hcols, ← hunits, ← hleft, if_neg (Nat.not_lt.mpr hle)]
  refine ⟨_, ?_, rfl⟩
  exact ⟨rfl, rfl, rfl, rfl, fun h => by simp [h], rfl, rfl, rfl, rfl⟩

/-- Settles O16: with the burnisher on and the operation's turn come, `State.brnDo` runs the operation, and no refusal applies. -/
theorem burnisherTableCommandsComplete : Obligations.BurnisherTableCommandsComplete := by
  unfold Obligations.BurnisherTableCommandsComplete
  refine ⟨fun s job j i hi hoff hup hturn => ⟨?_, ?_, ?_, ?_, ?_, ?_, ?_⟩, ?_⟩
  · intro r prog rp cols units left hj hp hnone hr hprog hrp hcols hunits hleft hle
    obtain ⟨x, hx, he⟩ := execBrnRegister_of_fits hj hi hoff hup hturn hp hnone hr hprog hrp hcols hunits hleft hle
    exact ⟨x, hx.state, hx.record, hx.program, hx.sig, hx.resident, hx.queued, hx.armed, hx.run, hx.runs, he⟩
  · intro v p l bad hj htaken hlen hprob hsize hcom hstream hread
    change execBrnValues job s = _
    rw [execBrnValues, State.brnDo_of_started _ hj hi hoff hup]
    simp only [hturn, htaken, if_neg hlen, hprob, hcom, hstream, hread]
    rw [if_neg (by simp), if_neg (not_not_intro hsize), if_neg (by simp), if_neg (by simp)]
    rfl
  · rintro p slot first count hj hp hprob rfl rfl rfl hfits hslot hstate hcount
    change execBrnUpdate job s = _
    rw [execBrnUpdate, State.brnDo_of_started _ hj hi hoff hup]
    simp [hturn, hp, hprob, Nat.not_lt.mpr hfits, Nat.not_le.mpr hslot, hstate, hcount]
  · intro p hj hprob hstate hnew
    change execBrnRun job s = _
    rw [execBrnRun, State.brnDo_of_started _ hj hi hoff hup]
    simp only [hturn, hprob, if_neg (not_not_intro hstate), hnew]
    rfl
  · intro p hj hprob hstate harmed
    change execBrnArm job s = _
    rw [execBrnArm, State.brnDo_of_started _ hj hi hoff hup]
    simp [hturn, hprob, hstate, harmed]
  · intro p hj hprob harmed hnone hahead
    change execBrnDisarm job s = _
    rw [execBrnDisarm, State.brnDo_of_started _ hj hi hoff hup]
    have harmed' : ¬ p.armed.isNone = true := by
      rw [← Option.not_isSome, harmed]
      decide
    simp only [hprob, hahead, if_neg harmed', hnone]
    rfl
  · intro p hj hprob harmed hahead
    change execBrnRelease job s = _
    rw [execBrnRelease, State.brnDo_of_started _ hj hi hoff hup]
    simp only [hahead, hturn, hprob, harmed]
    rfl
  · intro s prob p a k hup hprob harmed htrig hvalue hnone hk hret
    change execBrnTrigger prob s = _
    have hgo : ¬ (recTrig p.record = 0xFFFF ∨ (s.obj (recTrig p.record)).value < p.vNext ∨ (!s.unitUp brnUnit) = true) := by
      simp [htrig, hvalue, hup]
    have hskip : (s.obj (recTrig p.record)).value - p.vNext + p.trigRun.isSome.toNat = 0 := by simp [hvalue, hnone]
    rw [hk] at hret ⊢
    simp only [execBrnTrigger, hprob, harmed, if_neg hgo, hskip]
    simp [hnone, hvalue, hret]

end Sys2Proof.Machine
end

section
/-! SUPPORT AND OBLIGATION: the burnisher's runs. -/

namespace Sys2Proof.Machine

/-- The current run stands at its step `op`, and nothing keeps the step from executing. -/
structure State.BrnAt (s : State) (op i : Nat) (p : BrnProb) (r : BrnRun) (j : Job) : Prop where
  cur : s.brnCur = some (i, p, r, j)
  online : (s.unit brnUnit).offline = false
  untaken : s.brnTaken j.id = false
  open' : s.gated islBrn = false
  up : s.unitUp brnUnit = true
  granted : s.brnGranted j.part = true
  early : s.brnDue r = false
  inputs : r.inputs = 4
  fetched : r.refetch = false
  clean : p.poison = []
  step : op = if r.step < recSteps p.record then stOp p.program r.step else opEnd

theorem State.BrnAt.brnStep_eq {s : State} {op i : Nat} {p : BrnProb} {r : BrnRun} {j : Job} (h : s.BrnAt op i p r j)
    (go : State → Nat → BrnProb → BrnRun → Job → State) : s.brnStep op go = .next (go s i p r j) := by
  have hlate : ¬ (s.brnDue r = true ∨ r.inputs < 4 ∨ r.refetch = true) := by simp [h.early, h.inputs, h.fetched]
  simp only [State.brnStep, h.cur, h.online, h.untaken, h.open', h.up, h.granted, if_neg hlate, ← h.step]
  rfl

theorem BrnProb.found_of_clean {p : BrnProb} (h : p.poison = []) (srcs : List Nat) : p.found .none srcs false = .none := by
  have hnone : srcs.any p.poison.contains = false := by
    rw [List.any_eq_false, h]
    simp
  simp only [BrnProb.found, hnone]
  rfl

theorem State.prob_of_brnCur {s : State} {i : Nat} {p : BrnProb} {r : BrnRun} {j : Job} (h : s.brnCur = some (i, p, r, j)) :
    s.prob i = some p ∧ p.run = some r := by
  simp only [State.brnCur, Option.bind_eq_bind, Option.bind_eq_some_iff, Option.pure_def, Option.some.injEq, Prod.mk.injEq] at h
  obtain ⟨_, _, _, hp, _, hr, _, _, rfl, rfl, rfl, _⟩ := h
  exact ⟨hp, hr⟩

/-- An elementwise step without a detection whose arithmetic succeeds writes its slot and goes on. -/
theorem State.brnVector_of_ok {s v : State} {i : Nat} {p : BrnProb} {r : BrnRun} {j : Job} {srcs : List Nat}
    {f : Mat → Brn (List Int)} {a : Mat} {l : List Int} {g : Prog} {mat : Bool} (hclean : p.poison = [])
    (hmat : (if mat then s.brnMat p j else (s, .ok (⟨[], 0⟩, false))) = (v, .ok (a, false)))
    (hf : (f a).run.run ⟨0, 0, [], 0⟩ = (.ok l, g)) :
    s.brnVector i p r j .none mat srcs f = (v.brnFree.brnSats j.id g.sats).brnNext i (p.put r (stDst p.program r.step) l)
      { r with touched := stDst p.program r.step :: r.touched } (r.step + 1) := by
  simp only [State.brnVector, hmat, BrnProb.found_of_clean hclean, ne_eq, not_true_eq_false, if_false, hf, BrnProb.put]

theorem State.brnInput_of_empty {s : State} {i k : Nat} {p : BrnProb} {r : BrnRun} (hp : s.prob i = some p) (hr : p.run = some r)
    (hk : inKind p.record k = 0) : s.brnInput i k = (s, true) := by
  simp only [State.brnInput, hp, hr, if_pos hk]

theorem State.prob_brnFree (s : State) (i : Nat) : s.brnFree.prob i = s.prob i := by
  unfold State.brnFree
  dsimp only
  split <;> rfl

theorem brnUpdateIn_of_empty {s : State} {i : Nat} {p : BrnProb} {r : BrnRun} {j : Job} (h : s.BrnAt opUpdateIn i p r j)
    (hk : inKind p.record (stA p.program r.step) = 0) : execBrnUpdateIn s = .next (s.brnFree.brnNext i p r (r.step + 1)) := by
  obtain ⟨hp, hr⟩ := State.prob_of_brnCur h.cur
  have hp' : s.brnFree.prob i = some p := (s.prob_brnFree i).trans hp
  rw [execBrnUpdateIn, h.brnStep_eq]
  simp only [State.brnInput_of_empty hp hr hk, hp', hr]

/-- Among the runs that are due the current one is found first. -/
theorem State.dueRun_eq_current {s : State} {i : Nat} {p : BrnProb} {r : BrnRun} (hi : i < 8) (hcur : s.brn.cur = some i)
    (hp : s.prob i = some p) (hr : p.run = some r) (hdue : s.brnDue r = true) :
    ((List.range 8).filterMap (fun i =>
      (s.prob i).bind (fun p => p.run.bind (fun r => if s.brnDue r then some (i, p, r) else none)))).find?
        (fun e => s.brn.cur == some e.1) = some (i, p, r) := by
  have hmem : (i, p, r) ∈ (List.range 8).filterMap (fun i =>
      (s.prob i).bind (fun p => p.run.bind (fun r => if s.brnDue r then some (i, p, r) else none))) :=
    List.mem_filterMap.mpr ⟨i, List.mem_range.mpr hi, by rw [hp, Option.bind_some, hr, Option.bind_some, if_pos hdue]⟩
  generalize hl : List.filterMap _ (List.range 8) = l at hmem ⊢
  cases hf : l.find? (fun e => s.brn.cur == some e.1) with
  | none => exact absurd (beq_iff_eq.mpr hcur) (List.find?_eq_none.mp hf _ hmem)
  | some e =>
    have he : e ∈ l := List.mem_of_find?_eq_some hf
    have hcure : (s.brn.cur == some e.1) = true := List.find?_some (p := fun e : Nat × BrnProb × BrnRun => s.brn.cur == some e.1) hf
    have hei : e.1 = i := Option.some.inj ((beq_iff_eq.mp hcure).symm.trans hcur)
    rw [← hl, List.mem_filterMap] at he
    obtain ⟨k, -, hk⟩ := he
    simp only [Option.bind_eq_some_iff, Option.ite_none_right_eq_some, Option.some.injEq] at hk
    obtain ⟨p', hp', r', hr', -, rfl⟩ := hk
    obtain rfl : k = i := hei
    obtain rfl : p = p' := Option.some.inj (hp.symm.trans hp')
    obtain rfl : r = r' := Option.some.inj (hr.symm.trans hr')
    rfl

theorem execBrnDeadline_of_current {s : State} {i : Nat} {p : BrnProb} {r : BrnRun} (hi : i < 8) (hcur : s.brn.cur = some i)
    (hp : s.prob i = some p) (hr : p.run = some r) (hdue : s.brnDue r = true) (hsolve : r.solve = none)
    (hchan : s.chanJob.find brnChan ≠ some r.job) (hinputs : r.inputs = 4) :
    execBrnDeadline s = .next ((s.setProb i { p with run := some { r with
      late := true, reason := srDeadline, stopStep := r.step, step := lateStep p.record p.program r.step, inputs := 4,
      refetch := false } }).stoppedAt r.job) := by
  have hmine := State.dueRun_eq_current hi hcur hp hr hdue
  have hput : p.putIterate r = (p, r) := by simp only [BrnProb.putIterate, hsolve]
  have hhold : ¬ (s.brn.cur = some i ∧ s.chanJob.find brnChan = some r.job) := fun h => hchan h.2
  simp only [execBrnDeadline, hmine, Option.some_or, hput, if_neg hhold, BrnRun.stopLate]
  simp [hinputs, hsolve]

/-- A run that starts with no run current reads its inputs, unless its deadline has passed. -/
theorem execBrnRunStart_of_first {s : State} {i id rk : Nat} {p : BrnProb} {j : Job} (hoff : (s.unit brnUnit).offline = false)
    (htaken : s.brnTaken s.nextJob = false) (hgate : s.gated islBrn = false) (hup : s.unitUp brnUnit = true)
    (hslice : s.sliced brnUnit = false) (hcur : s.brn.cur = none) (hfirst : brnFirst s.brnReady = some (i, rk, id))
    (hp : s.prob i = some p) (hj : s.job id = some j) (hrun : p.run = none) (hhold : s.flag Reg.BRN_CTRL_HOLD = false)
    (hstate : p.state = 2) :
    ∃ t, execBrnRunStart .none s = .next t ∧
      ∀ (q : BrnProb) (r : BrnRun) (k : Job) (n : Nat), (s.brnStartRun i p j).brnCur = some (n, q, r, k) →
        t = if r.late then s.brnStartRun i p j else (s.brnStartRun i p j).brnBegin i .none := by
  have hnone : s.brnCur = none := by
    simp only [State.brnCur, hcur]
    rfl
  have hgo : ¬ (s.brnTaken s.nextJob = true ∨ (!s.unitUp brnUnit) = true ∨ s.sliced brnUnit = true ∨ s.gated islBrn = true) := by
    simp [htaken, hup, hslice, hgate]
  have hon : ¬ (s.unit brnUnit).offline = true := by simp [hoff]
  have hopen : ¬ s.flag Reg.BRN_CTRL_HOLD = true := by simp [hhold]
  cases hc : (s.brnStartRun i p j).brnCur with
  | none =>
    refine ⟨s.brnStartRun i p j, ?_, fun q r k n h => by cases h⟩
    simp only [execBrnRunStart, if_neg hon, hnone, Option.elim_none, if_neg hgo, hfirst, hp, hj, hrun, if_neg hopen,
      if_neg (not_not_intro hstate), hc]
  | some e =>
    obtain ⟨n', q', r', k'⟩ := e
    refine ⟨if r'.late then s.brnStartRun i p j else (s.brnStartRun i p j).brnBegin i .none, ?_, fun q r k n h => ?_⟩
    · simp only [execBrnRunStart, if_neg hon, hnone, Option.elim_none, if_neg hgo, hfirst, hp, hj, hrun, if_neg hopen,
        if_neg (not_not_intro hstate), hc]
      cases r'.late <;> rfl
    · obtain ⟨-, -, rfl, -⟩ : n' = n ∧ q' = q ∧ r' = r ∧ k' = k := by simpa using h
      rfl

/-- Settles O17: nothing keeps the current run's step from executing, so `State.brnStep` executes it; the steps that write a slot
share `State.brnVector`. -/
theorem burnisherRunCommandsComplete : Obligations.BurnisherRunCommandsComplete := by
  unfold Obligations.BurnisherRunCommandsComplete
  refine ⟨?_, ?_, ?_⟩
  · intro s i id p j rk hoff htaken hgate hup hslice hcur hfirst hp hj hrun hhold hstate
    exact execBrnRunStart_of_first hoff htaken hgate hup hslice hcur hfirst hp hj hrun hhold hstate
  · intro s v i p r j op a l g env m yes hcur honline huntaken hgate hup hgranted hearly hinputs hfetched hclean hop
    have hat : s.BrnAt op i p r j := ⟨hcur, honline, huntaken, hgate, hup, hgranted, hearly, hinputs, hfetched, hclean, hop⟩
    clear hop
    refine ⟨?_, ?_, ?_, ?_, ?_, ?_, ?_, ?_, ?_, ?_, ?_, ?_⟩
    · rintro rfl hmat hf
      change execBrnSpmv .none s = _
      rw [execBrnSpmv, hat.brnStep_eq]
      exact congrArg _ (State.brnVector_of_ok (mat := true) hclean hmat hf)
    · rintro rfl hf
      change execBrnAxpby .none s = _
      rw [execBrnAxpby, hat.brnStep_eq]
      exact congrArg _ (State.brnVector_of_ok (mat := false) hclean rfl hf)
    · rintro rfl hf
      change execBrnClamp .none s = _
      rw [execBrnClamp, hat.brnStep_eq]
      exact congrArg _ (State.brnVector_of_ok (mat := false) hclean rfl hf)
    · rintro rfl hf
      change execBrnStepCopy .none s = _
      rw [execBrnStepCopy, hat.brnStep_eq]
      exact congrArg _ (State.brnVector_of_ok (mat := false) hclean rfl hf)
    · intro u w st r' p' x hs hdet hbegin hr' hp' hmat hx hfactor
      subst hs
      change execBrnSolve env s = _
      have hclean' : p'.poison = [] := by rw [hp']; exact hclean
      rw [execBrnSolve, hat.brnStep_eq]
      have hstale : p'.stale = p.stale := by rw [hp']
      rw [hstale] at hx
      simp only [← hbegin, ← hr', ← hp', hmat, hdet, BrnProb.found_of_clean hclean', ne_eq, not_true_eq_false, if_false, ← hx,
        hfactor]
    · rintro rfl hpass
      change execBrnLoop s = _
      rw [execBrnLoop, hat.brnStep_eq]
      simp only [if_pos hpass]
    · rintro rfl hpass
      change execBrnLoop s = _
      rw [execBrnLoop, hat.brnStep_eq]
      simp only [if_neg (Nat.not_lt.mpr hpass)]
    · intro hs hm hrun
      subst hs
      rw [hm] at hrun
      change execBrnTest .none s = _
      rw [execBrnTest, hat.brnStep_eq]
      simp only [BrnProb.found_of_clean hclean, ne_eq, not_true_eq_false, if_false, hrun]
    · rintro rfl hpolicy hlate
      change execBrnOut s = _
      rw [execBrnOut, hat.brnStep_eq]
      simp [hpolicy, hlate]
    · rintro rfl hpolicy hlate hkind
      change execBrnOut s = _
      rw [execBrnOut, hat.brnStep_eq]
      simp [hpolicy, hlate, State.brnOutput, hclean, hkind]
    · rintro rfl hkind
      exact brnUpdateIn_of_empty hat hkind
    · rintro rfl hlate
      change execBrnEnd s = _
      rw [execBrnEnd, hat.brnStep_eq]
      simp [hlate]
  · intro s i p r hi hcur hp hr hdue hsolve hchan hinputs
    exact execBrnDeadline_of_current hi hcur hp hr hdue hsolve hchan hinputs

end Sys2Proof.Machine
end

section
/-! SUPPORT. What a plate runs, and the launches, stay as they are when the ring sends, a look-aside entry is dropped, or a register is
written. -/

namespace Sys2Proof.Machine

/-- The plates and the launches read as before. -/
structure KeepsLaunches (s t : State) : Prop where
  plates : t.plates = s.plates
  launches : t.launches = s.launches

namespace KeepsLaunches

variable {s t u : State}

theorem refl (s : State) : KeepsLaunches s s := ⟨rfl, rfl⟩

theorem trans (h : KeepsLaunches s t) (h' : KeepsLaunches t u) : KeepsLaunches s u :=
  ⟨h'.plates.trans h.plates, h'.launches.trans h.launches⟩

theorem plate (h : KeepsLaunches s t) (p : Nat) : t.plate p = s.plate p := by rw [State.plate, h.plates, State.plate]

theorem ite {c : Prop} [Decidable c] (h : KeepsLaunches s t) (h' : KeepsLaunches s u) : KeepsLaunches s (if c then t else u) := by
  split
  · exact h
  · exact h'

theorem foldl {α : Type} {f : State → α → State} {l : List α} (h : KeepsLaunches s t)
    (hf : ∀ u a, KeepsLaunches s u → KeepsLaunches s (f u a)) : KeepsLaunches s (l.foldl f t) :=
  List.foldlRecOn (motive := KeepsLaunches s) l f h (fun u hu a _ => hf u a hu)

theorem wr {f : RegField} {v i : Nat} (h : KeepsLaunches s t) : KeepsLaunches s (t.wr f v i) := ⟨h.plates, h.launches⟩

theorem setTx {p : Nat} {x : PortTx} (h : KeepsLaunches s t) : KeepsLaunches s (t.setTx p x) := ⟨h.plates, h.launches⟩

theorem sendKept {p : Nat} {f : List Byte} (h : KeepsLaunches s t) : KeepsLaunches s (t.sendKept p f) := ⟨h.plates, h.launches⟩

theorem drainPort {p n : Nat} (h : KeepsLaunches s t) : KeepsLaunches s (State.drainPort p n t) := by
  induction n generalizing t with
  | zero => exact h
  | succ _ ih =>
    rw [State.drainPort]
    split
    · exact (ih h.setTx.sendKept).ite h
    · exact (ih h.setTx.sendKept).ite h
    · exact h

theorem sendFlit {p type code : Nat} {l : List Byte} (h : KeepsLaunches s t) : KeepsLaunches s (t.sendFlit p type code l) :=
  h.ite h.setTx.drainPort

theorem kvSend {m op ci ctx n arg : Nat} {d : List Byte} (h : KeepsLaunches s t) : KeepsLaunches s (t.kvSend m op ci ctx n arg d) :=
  (h.ite (u := t.noteSent _ _ _) ⟨h.plates, h.launches⟩).foldl fun _ _ hu => hu.sendFlit

theorem releaseLab {e : LabEntry} (h : KeepsLaunches s t) : KeepsLaunches s (t.releaseLab e) := by
  have hpin : KeepsLaunches s (t.pin (e.seq % 2) e.epoch false) := ⟨h.plates, h.launches⟩
  unfold State.releaseLab
  extract_lets _
  split
  · exact hpin.kvSend
  · exact hpin

theorem dropPlateLabs {p : Nat} (h : KeepsLaunches s t) : KeepsLaunches s (t.dropPlateLabs p) :=
  KeepsLaunches.foldl ⟨h.plates, h.launches⟩ fun _ _ hu => hu.releaseLab

theorem idleCore {p c : Nat} (h : KeepsLaunches s t) : KeepsLaunches s (t.idleCore p c) := h.ite h.wr.wr

theorem showPlate {p : Nat} (h : KeepsLaunches s t) : KeepsLaunches s (t.showPlate p) := ⟨h.plates, h.launches⟩

theorem setChanRec {c st : Nat} {r : List Nat} (h : KeepsLaunches s t) : KeepsLaunches s (t.setChanRec c st r) :=
  h.wr.wr.wr.wr.wr.wr.wr.wr.wr.wr

theorem chanClear {c : Nat} (h : KeepsLaunches s t) : KeepsLaunches s (t.chanClear c) := h.wr.wr.wr.wr.wr.wr.wr.wr.wr.wr

theorem showIdle {p : Nat} (h : KeepsLaunches s t) : KeepsLaunches s (t.showIdle p) := by
  unfold State.showIdle
  refine KeepsLaunches.showPlate ?_
  split
  · exact h.wr.wr.wr.setChanRec.setChanRec
  · exact h.wr.wr.wr.chanClear.chanClear

end KeepsLaunches

/-- A plate cleared runs nothing; the launches stay. -/
theorem State.clearPlate_keeps (s : State) (p : Nat) : KeepsLaunches (s.setPlate p { s.plate p with
    run := none, dma := [], dmaDone := 0, recording := none, fetched := [], arr := { ArrSt.reset with curves := (s.plate p).arr.curves } })
    (s.clearPlate p) := by
  unfold State.clearPlate
  generalize List.range 64 = l
  extract_lets x _ u v w
  have hv : KeepsLaunches u v := (KeepsLaunches.refl u).foldl fun _ _ hu => hu.idleCore
  have hw : KeepsLaunches u w := ⟨hv.plates, hv.launches⟩
  exact hw.dropPlateLabs

theorem State.clearPlate_run (s : State) (p : Nat) : ((s.clearPlate p).plate p).run = none := by
  rw [(s.clearPlate_keeps p).plate p]
  simp [State.plate, State.setPlate]

theorem State.clearPlate_launches (s : State) (p : Nat) : (s.clearPlate p).launches = s.launches := (s.clearPlate_keeps p).launches

/-- What a plate that was saved shows leaves the launches alone. -/
theorem State.savedPlate_keeps (s : State) (p : Nat) (f : RegField) :
    KeepsLaunches (s.clearPlate p) ((((s.clearPlate p).showIdle p).bump Reg.MEM_CNT_PREEMPTS).bump f p) :=
  (KeepsLaunches.refl _).showIdle.wr.wr

end Sys2Proof.Machine
end
section
/-! OBLIGATION: the DMA and the launches of the plates. -/

namespace Sys2Proof.Machine

theorem State.fetchedFrom_fields (s : State) (p : Nat) (q : Queued) :
    ((s.fetchedFrom p q).plate p).dma = (s.plate p).dma ∧ ((s.fetchedFrom p q).plate p).dmaDone = (s.plate p).dmaDone ∧
      (s.fetchedFrom p q).mem = s.mem := by
  unfold State.fetchedFrom
  split
  · exact ⟨rfl, rfl, rfl⟩
  · simp [State.plate, State.setPlate]

/-- A completed descriptor has left the queue and is counted; with SIG its object is signalled last. -/
theorem State.dmaDone_eq (s : State) (p : Nat) (q : Queued) (j : Job) : ∃ u : State, (u.plate p).dma = (s.plate p).dma.drop 1 ∧
    (u.plate p).dmaDone = (s.plate p).dmaDone + 1 ∧ u.mem = s.mem ∧
    s.dmaDone p q j = if dmSig q.bytes then u.signal (dmSync q.bytes) 1 j.taint else u := by
  unfold State.dmaDone
  extract_lets d x v w y z
  have hv : (v.plate p).dma = (s.plate p).dma.drop 1 ∧ (v.plate p).dmaDone = (s.plate p).dmaDone + 1 ∧ v.mem = s.mem := by
    simp [v, x, State.plate, State.setPlate]
  have hy : (y.plate p).dma = (v.plate p).dma ∧ (y.plate p).dmaDone = (v.plate p).dmaDone ∧ y.mem = v.mem :=
    w.fetchedFrom_fields p q
  clear_value y v
  have hz : (z.plate p).dma = (y.plate p).dma ∧ (z.plate p).dmaDone = (y.plate p).dmaDone ∧ z.mem = y.mem := by
    simp only [z]
    split <;> exact ⟨rfl, rfl, rfl⟩
  exact ⟨z, hz.1.trans (hy.1.trans hv.1), hz.2.1.trans (hy.2.1.trans hv.2.1), hz.2.2.trans (hy.2.2.trans hv.2.2), rfl⟩

/-- A descriptor all of whose bytes have moved is done. -/
theorem State.runDma_of_moved {s v : State} {p mode k n : Nat} {det : ReadFault} {upTo : Option Nat} {q : Queued} {j : Job} {l : Launch}
    (hhead : s.dmaHead p mode = some (q, j, l)) (hfull : s.portFull q.bytes = false)
    (hmove : (if dmRowBytes q.bytes = 0 then
        (s.chanStart p j.context (s.plate p).dmaDone (s.rd Reg.MEM_CH_BYTES_DONE p) j.tag false, 0, Moved.did 0)
      else State.moveRows p j.context j.id l q det (s.dmaStop p q.bytes upTo) (dmRows q.bytes + 1)
        (s.chanStart p j.context (s.plate p).dmaDone (s.rd Reg.MEM_CH_BYTES_DONE p) j.tag false)
        (s.rd Reg.MEM_CH_BYTES_DONE p / dmRowBytes q.bytes) (s.rd Reg.MEM_CH_BYTES_DONE p % dmRowBytes q.bytes)) = (v, k, .did n))
    (hk : dmRows q.bytes * dmRowBytes q.bytes ≤ k) : s.runDma p mode det upTo = .next (v.dmaDone p q j) := by
  simp only [State.runDma, hhead, hfull, hmove, if_neg (Nat.not_lt.mpr hk)]
  rfl

/-- A plate saved runs nothing, and its launch holds what was saved. -/
theorem execPreemptRequest_of_stopped {s : State} {p : Fin 34} {late : Bool} {j : Job} {l : Launch}
    (hrun : s.runningOn p.val = some (j, l)) (hstate : s.rd Reg.PLT_STAT_STATE p.val = 3) (hstopped : s.dmaStopped p.val = true)
    (hat : s.flag Reg.PLT_ARR_STAT_AT_TB p.val = true ∨ s.tbOver p.val l = true) :
    ∃ t : State, execPreemptRequest p late s = .next t ∧ (t.plate p.val).run = none ∧
      ∃ l' : Launch, t.launches.find j.id = some l' ∧ (l'.saved.find p.val).isSome = true := by
  have hgo : ¬ (s.rd Reg.PLT_STAT_STATE p ≠ 3 ∨ (!s.dmaStopped p) = true ∨
      (!(s.flag Reg.PLT_ARR_STAT_AT_TB p && !(late && s.tbOver p l) || s.tbOver p l)) = true) := by
    rw [hstate, hstopped]
    rcases hat with h | h <;> cases hover : s.tbOver p l <;> simp_all
  simp only [execPreemptRequest, hrun, if_neg hgo]
  generalize s.savePlate p _ = y
  obtain ⟨a, x⟩ := y
  simp only []
  generalize hl : ({ l with saved := l.saved.set p x, preempt := _ } : Launch) = l'
  have hsaved : (l'.saved.find p).isSome = true := by
    rw [← hl]
    simp
  generalize hb : ({ a with launches := a.launches.set j.id l' } : State) = b
  have hfind : b.launches.find j.id = some l' := by
    rw [← hb]
    simp
  generalize (if (s.flag Reg.PLT_ARR_STAT_AT_TB p && !(late && s.tbOver p l)) = true then Reg.PLT_CNT_TB_STOPS
    else Reg.PLT_CNT_FORCED_SAVES) = f
  generalize hw : (((b.clearPlate p).showIdle p).bump Reg.MEM_CNT_PREEMPTS).bump f p = w
  have hkept : KeepsLaunches (b.clearPlate p) w := hw ▸ b.savedPlate_keeps p _
  have hidle : (w.plate p).run = none := (congrArg PlateSt.run (hkept.plate p)).trans (b.clearPlate_run p)
  have hheld : w.launches.find j.id = some l' := by rw [hkept.launches, b.clearPlate_launches, hfind]
  split
  · exact ⟨_, rfl, hidle, l', hheld, hsaved⟩
  · exact ⟨_, rfl, hidle, l', hheld, hsaved⟩

/-- Settles O11: a descriptor that has moved ends by `State.dmaDone`; a launch starts, completes, is saved and resumes by the functions
that the clauses name. -/
theorem plateDmaAndLaunchCommandsComplete : Obligations.PlateDmaAndLaunchCommandsComplete := by
  unfold Obligations.PlateDmaAndLaunchCommandsComplete
  refine ⟨?_, ?_, ?_, ?_, ?_, ?_, ?_, ?_, ?_⟩
  · intro s u p c rd rs1 o j l hissue hrun ho herr hroom
    change execXnDmaq p c rd rs1 s = _
    simp [execXnDmaq, hissue, hrun, ho, herr, Nat.not_le.mpr hroom]
  · intro s p det upTo q j l hhead hfull hzero hsig
    obtain ⟨u, hdma, hdone, hmem, hu⟩ := State.dmaDone_eq
      (s.chanStart p j.context (s.plate p).dmaDone (s.rd Reg.MEM_CH_BYTES_DONE p) j.tag false) p q j
    rw [hsig] at hu
    refine ⟨u, ?_, hdma, hdone, hmem⟩
    change execDmaRows p ⟨det, upTo⟩ s = _
    rw [execDmaRows, State.runDma_of_moved hhead hfull (if_pos hzero) (by rw [hzero, Nat.mul_zero]), hu]
    rfl
  · intro s v p det upTo q j l m c k n hc hhead hfull hrow hmove hk
    obtain ⟨u, hdma, hdone, hmem, hu⟩ := v.dmaDone_eq p q j
    have hrun := State.runDma_of_moved hhead hfull ((if_neg hrow).trans hmove) hk
    refine ⟨v.dmaDone p q j, u, ?_, hdma, hdone, hmem, hu⟩
    match m with
    | 0 => exact hc ▸ hrun
    | 1 => exact hc ▸ hrun
    | 2 => exact hc ▸ hrun
  · intro s sq d ha hsession hen hroom hlen hop
    change execPlateLaunch sq d s = _
    have hfull := decide_eq_false (Nat.not_le.mpr hroom)
    simp only [execPlateLaunch, ha, hsession, hen, hfull, hlen, hop]
    simp
  · intro s u job j hj hp hplates hmay hfirst hroom
    change execLaunchStart job s = _
    have husable : (s.launchPlates j).any (fun p => !s.plateUsable p) = false := by
      rw [List.any_eq_false]
      exact fun p hp => by simp [(hplates p hp).1]
    have hfree : (s.launchPlates j).all (fun p => s.plateFree p && !s.sliced (unitId 1 p)) = true := by
      rw [List.all_eq_true]
      exact fun p hp => by simp [(hplates p hp).2.1, (hplates p hp).2.2]
    simp only [execLaunchStart, hj, husable, hmay, hfirst, hfree, hroom]
    simp [hp]
  · intro s job j l hj hl hphase hover hnone
    change execLaunchComplete job s = _
    simp [execLaunchComplete, hj, hl, hphase, hover, hnone]
  · intro s job j l tile unit cause hj hl hphase hover herr
    change execLaunchComplete job s = _
    simp [execLaunchComplete, hj, hl, hphase, hover, herr]
  · intro s p late j l hrun hstate hstopped hat
    exact execPreemptRequest_of_stopped hrun hstate hstopped hat
  · intro s u v job j l hj hl hphase hmay hfirst hfree hroom hrestore
    refine ⟨_, rfl, ?_⟩
    change execLaunchResume job s = _
    have hall : l.plates.all (fun p => s.plateUsable p && (s.rd Reg.PLT_STAT_STATE p == 1 || s.rd Reg.PLT_STAT_STATE p == 4)) = true := by
      rw [List.all_eq_true]
      exact fun p hp => by simp [(hfree p hp).1, (hfree p hp).2]
    simp only [execLaunchResume, hj, hl, hphase, hmay, hfirst, hall, hroom, hrestore]
    cases u.assignedAll j.part l.plates <;> simp

end Sys2Proof.Machine
end

section
/-! SUPPORT. The registers of the plates keep their value when an event is raised or a detection is counted (R80, R81, R86, R407, R464). So a
detection in a unit of a plate that a launch holds classifies the unit, and the plate goes offline only after the launch (R197, R467,
R468). -/

namespace Sys2Proof.Machine

/-- Element `j` of field `g` lies in the registers of the plates, which follow those of all other blocks. -/
def PlateReg (g : RegField) (j : Nat) : Prop := 0x1000000 * 8 ≤ regKey g j

/-- A field of block SPQ_. -/
def QueueField (f : RegField) : Prop := f.addr < 0x80040 ∧ f.stride = 0x40 ∧ f.lo < 32

/-- Every register of the plates reads as before. -/
def KeepsPlateRegs (s t : State) : Prop := ∀ g j, PlateReg g j → t.rd g j = s.rd g j

namespace KeepsPlateRegs

variable {s t u : State} {f : RegField} {q : Nat}

theorem refl (s : State) : KeepsPlateRegs s s := fun _ _ _ => rfl

theorem trans (h : KeepsPlateRegs s t) (h' : KeepsPlateRegs t u) : KeepsPlateRegs s u := fun g j hg => (h' g j hg).trans (h g j hg)

/-- An update of other fields than the registers. -/
theorem of_regs (h : KeepsPlateRegs s t) (e : u.regs = t.regs) : KeepsPlateRegs s u := fun g j hg => (t.rd_of_regs e).trans (h g j hg)

theorem wr_other {i : Nat} (h : KeepsPlateRegs s t) (hkey : regKey f i < 0x1000000 * 8) (v : Nat) : KeepsPlateRegs s (t.wr f v i) :=
  fun g j hg => (t.rd_wr_ne v (Nat.ne_of_gt (Nat.lt_of_lt_of_le hkey hg))).trans (h g j hg)

theorem wr (h : KeepsPlateRegs s t) (hf : QueueField f) (hq : q ≤ 0x32) (v : Nat) : KeepsPlateRegs s (t.wr f v q) := by
  obtain ⟨haddr, hstride, hlo⟩ := hf
  refine h.wr_other ?_ v
  unfold regKey
  rw [hstride]
  omega

theorem bump (h : KeepsPlateRegs s t) (hf : QueueField f) (hq : q ≤ 0x32) : KeepsPlateRegs s (t.bump f q) := h.wr hf hq _

theorem showQueue (h : KeepsPlateRegs s t) (hq : q ≤ 0x32) : KeepsPlateRegs s (t.showQueue q) :=
  (h.wr (f := Reg.SPQ_COUNT_COUNT) ⟨by decide, rfl, by decide⟩ hq _).wr (f := Reg.SPQ_COUNT_FULL) ⟨by decide, rfl, by decide⟩ hq _

theorem gather (h : KeepsPlateRegs s t) (unit op cls : Nat) (d : List (Nat × Nat)) : KeepsPlateRegs s (t.gather unit op cls d) := by
  obtain ⟨p, e⟩ := t.gather_shape unit op cls d
  exact h.of_regs (by rw [e])

theorem resetQueue (h : KeepsPlateRegs s t) (hq : q ≤ 0x32) : KeepsPlateRegs s (t.resetQueue q) :=
  (((h.of_regs (State.setQueue_regs ..)).showQueue hq).bump (f := Reg.SPQ_EVENTS_RESETS) ⟨by decide, rfl, by decide⟩ hq).gather _ _ _ _

theorem access (h : KeepsPlateRegs s t) (hq : q ≤ 0x32) : KeepsPlateRegs s (t.access q) := by
  unfold State.access
  split
  · exact h.resetQueue hq
  · exact h

theorem closePacket (h : KeepsPlateRegs s t) (hq : q ≤ 0x32) (l : List QItem) : KeepsPlateRegs s (t.closePacket q l) :=
  (h.of_regs (State.setQueue_regs ..)).showQueue hq

theorem enqueue (h : KeepsPlateRegs s t) (hq : q ≤ 0x32) (x : LenHead) (l : List Byte) : KeepsPlateRegs s (t.enqueue q x l).1 := by
  have hdropped (v : State) (hv : KeepsPlateRegs s v) : KeepsPlateRegs s (v.bump Reg.SPQ_EVENTS_DROPPED q) :=
    hv.bump ⟨by decide, rfl, by decide⟩ hq
  have hoverrun (v : State) (hv : KeepsPlateRegs s v) : KeepsPlateRegs s (v.wr Reg.SPQ_COUNT_OVERRUN 1 q) :=
    hv.wr ⟨by decide, rfl, by decide⟩ hq 1
  unfold State.enqueue
  dsimp only
  split
  · exact hdropped _ h
  · split
    · exact hoverrun _ (hdropped _ (h.access hq))
    · refine closePacket ?_ hq _
      split
      · exact h.access hq
      · exact hoverrun _ (h.access hq)

theorem enqueueOwn (h : KeepsPlateRegs s t) (hq : q ≤ 0x32) (l : List Byte) : KeepsPlateRegs s (t.enqueueOwn q l).1 := by
  unfold State.enqueueOwn
  dsimp only
  have hin := fun (x : LenHead) => (h.access hq).enqueue hq x l
  split
  · exact (hin _).of_regs rfl
  · exact hin _

theorem raise (h : KeepsPlateRegs s t) (c u : Nat) (d : List Byte) : KeepsPlateRegs s (t.raise c u d) := by
  unfold State.raise
  dsimp only
  generalize hw : State.enqueueOwn t 0x30 _ = w
  have hout : KeepsPlateRegs s w.1 := hw ▸ h.enqueueOwn (by decide) _
  exact hout.of_regs rfl

end KeepsPlateRegs

/-! ### Units of a plate that a launch holds -/

variable {s : State} {u p : Nat}

theorem State.plateHeld_of_keepsPlateRegs {t : State} (h : KeepsPlateRegs s t) (p : Nat) : t.plateHeld p = s.plateHeld p := by
  have hst : t.rd Reg.PLT_STAT_STATE p = s.rd Reg.PLT_STAT_STATE p := h _ _ (by unfold PlateReg regKey; simp [Reg.PLT_STAT_STATE]; omega)
  unfold State.plateHeld
  rw [hst]

/-- An array, stripe or core unit of plate `p`, or the plate itself (Table ARC-7). -/
def PlateUnit (u p : Nat) : Prop := p < 2 ^ 24 ∧ (u = unitId 1 p ∨ (u / 2 ^ 24 = 2 ∨ u / 2 ^ 24 = 3 ∨ u / 2 ^ 24 = 4) ∧ ownerUnit u = unitId 1 p)

theorem State.takeOffline_of_held (hp : p < 2 ^ 24) (h : s.plateHeld p = true) :
    s.takeOffline (unitId 1 p) = s.setUnit (unitId 1 p) (fun x => { x with offlinePending := true }) := by
  have hcls : unitId 1 p / 2 ^ 24 = 1 := by unfold unitId; omega
  have hidx : bits (unitId 1 p) 0 24 = p := by unfold bits unitId; omega
  unfold State.takeOffline
  rw [if_pos ⟨hcls, by rw [hidx]; exact h⟩]

theorem State.actPermanent_of_held (hu : PlateUnit u p) (h : s.plateHeld p = true) :
    s.actPermanent u = s.setUnit (unitId 1 p) (fun x => { x with offlinePending := true }) := by
  obtain ⟨hp, rfl | ⟨hcls | hcls | hcls, hown⟩⟩ := hu
  · have hcls : unitId 1 p / 2 ^ 24 = 1 := by unfold unitId; omega
    simp only [State.actPermanent, hcls]
    exact State.takeOffline_of_held hp h
  all_goals
    simp only [State.actPermanent, hcls, hown]
    exact State.takeOffline_of_held hp h

/-- What a detection in a unit of a held plate changes: the history, the event, the gathered records and the unit's marks. -/
def Detects (s t : State) : Prop :=
  KeepsPlateRegs s t ∧ ∃ n r x pr ht us k, t = { s with nv := n, regs := r, queues := x, prf := pr, ht := ht, units := us, free := k }

namespace Detects

variable {t v : State}

theorem refl (s : State) : Detects s s := ⟨.refl s, _, _, _, _, _, _, _, rfl⟩

theorem trans (h : Detects s t) (h' : Detects t v) : Detects s v := by
  obtain ⟨hr, _, _, _, _, _, _, _, rfl⟩ := h
  obtain ⟨hr', _, _, _, _, _, _, _, rfl⟩ := h'
  exact ⟨hr.trans hr', _, _, _, _, _, _, _, rfl⟩

theorem held (h : Detects s t) (p : Nat) : t.plateHeld p = s.plateHeld p := State.plateHeld_of_keepsPlateRegs h.1 p

theorem setHistory (s : State) (u : Nat) (h : History) : Detects s (s.setHistory u h) := by
  obtain ⟨n, e⟩ := s.setHistory_shape u h
  rw [e]
  exact ⟨fun _ _ _ => rfl, _, _, _, _, _, _, _, rfl⟩

theorem raise (s : State) (c u : Nat) (d : List Byte) : Detects s (s.raise c u d) := by
  refine ⟨(KeepsPlateRegs.refl s).raise c u d, ?_⟩
  obtain ⟨_, _, _, _, e⟩ := s.raise_shape c u d
  exact ⟨_, _, _, _, _, _, _, e⟩

theorem bump (s : State) {f : RegField} (h : regKey f 0 < 0x1000000 * 8) : Detects s (s.bump f) :=
  ⟨(KeepsPlateRegs.refl s).wr_other h _, _, _, _, _, _, _, _, rfl⟩

theorem setUnit (s : State) (u : Nat) (f : UnitSt → UnitSt) : Detects s (s.setUnit u f) := ⟨fun _ _ _ => rfl, _, _, _, _, _, _, _, rfl⟩

theorem gather (s : State) (unit op cls : Nat) (d : List (Nat × Nat)) : Detects s (s.gather unit op cls d) := by
  obtain ⟨_, e⟩ := s.gather_shape unit op cls d
  rw [e]
  exact ⟨fun _ _ _ => rfl, _, _, _, _, _, _, _, rfl⟩

theorem usedFree (s : State) : Detects s s.usedFree := ⟨fun _ _ _ => rfl, _, _, _, _, _, _, _, rfl⟩

theorem setClass (hu : PlateUnit u p) (h : s.plateHeld p = true) (c : Nat) : Detects s (s.setClass u c) := by
  unfold State.setClass
  extract_lets old _ t v
  have hv : Detects s v := (setHistory ..).trans (raise ..)
  split
  · exact refl s
  · split
    · have hb : Detects s (v.bump Reg.PRF_STAT_PERMANENT) := hv.trans (bump v (by decide))
      rw [State.actPermanent_of_held hu ((hb.held p).trans h)]
      exact hb.trans (setUnit ..)
    · exact hv

theorem histEvent (hu : PlateUnit u p) (h : s.plateHeld p = true) (source : Nat) : Detects s (s.histEvent u source) := by
  unfold State.histEvent
  extract_lets h0 h1 t
  have ht : Detects s t := setHistory ..
  exact ht.trans (setClass hu ((ht.held p).trans h) _)

/-- A parity detection is counted, enters the history and is gathered (R440, R464, R467). -/
theorem sramDetect (hu : PlateUnit u p) (h : s.plateHeld p = true) (cls ofs : Nat) (stored : Bool) :
    Detects s (s.sramDetect u cls ofs stored) := by
  have hb : Detects s (s.bump Reg.PRF_CNT_SRAM_DET) := bump s (by decide)
  exact ((hb.trans (histEvent hu ((hb.held p).trans h) 4)).trans (gather ..)).trans (usedFree _)

end Detects

end Sys2Proof.Machine
end

section
/-! SUPPORT. The failures of an array, its logs and its proof record leave alone what it computes with
(R174 to R184, R198, R199, R451). -/

namespace Sys2Proof.Machine

/-- An array without its logs, its waiting failures and the mark of an open tile: what its commands compute with. -/
def ArrSt.bare (x : ArrSt) : ArrSt := { x with tiles := [], nextTile := 0, fails := [], lastLoad := none, inTile := false }

/-- Memory, the plate's state and share registers and what its array computes with are as they were. -/
structure ArrayKept (p : Nat) (s t : State) : Prop where
  mem : t.mem = s.mem
  state : t.rd Reg.PLT_STAT_STATE p = s.rd Reg.PLT_STAT_STATE p
  base : t.rd Reg.PLT_SHARE_ABUF_BASE p = s.rd Reg.PLT_SHARE_ABUF_BASE p
  arr : (t.arr p).bare = (s.arr p).bare

/-- A field that is neither a plate's state nor its share's base. -/
def NotShare (f : RegField) (i p : Nat) : Prop := regKey Reg.PLT_STAT_STATE p ≠ regKey f i ∧ regKey Reg.PLT_SHARE_ABUF_BASE p ≠ regKey f i

theorem notShare_of_prf {f : RegField} {p : Nat} (h : f.addr < 0x200000) (hs : f.stride = 0) (hl : f.lo < 32) : NotShare f 0 p := by
  constructor <;> unfold regKey <;> simp only [Reg.PLT_STAT_STATE, Reg.PLT_SHARE_ABUF_BASE, hs] <;> omega

theorem notShare_of_plate {f : RegField} {p : Nat} (hs : f.stride = 0x10000) (hst : f.addr * 8 + f.lo ≠ 0x1000000 * 8)
    (hb : f.addr * 8 + f.lo ≠ 0x1000010 * 8) : NotShare f p p := by
  constructor <;> unfold regKey <;> simp only [Reg.PLT_STAT_STATE, Reg.PLT_SHARE_ABUF_BASE, hs] <;> omega

@[simp] theorem State.arr_setArr (s : State) (p : Nat) (x : ArrSt) : (s.setArr p x).arr p = x := by
  simp [State.arr, State.setArr, State.plate]

@[simp] theorem State.plate_setPlate (s : State) (p : Nat) (x : PlateSt) : (s.setPlate p x).plate p = x := by simp [State.plate]

theorem ArrSt.logged_bare (x : ArrSt) (q : Queued) : (x.logged q).bare = x.bare := by
  unfold ArrSt.logged
  (repeat' split) <;> rfl

theorem State.physStripe_lt (s : State) (p : Nat) {i : Nat} (hi : i < 8) : s.physStripe p i < 16 := by
  unfold State.physStripe
  rw [List.getD_eq_getElem?_getD]
  generalize hm : (List.range 9).filter (bit (s.rd Reg.PLT_SPARE_STRIPE_MAP p)) = l
  cases hk : l[i]? with
  | none => rw [Option.getD_none]; omega
  | some k =>
    have hmem : k ∈ (List.range 9).filter (bit (s.rd Reg.PLT_SPARE_STRIPE_MAP p)) := hm ▸ List.mem_of_getElem? hk
    have hlt := List.mem_range.mp (List.mem_filter.mp hmem).1
    rw [Option.getD_some]
    omega

/-- The unit that an array's failure names belongs to its plate (Table PLT-11). -/
theorem plateUnit_causeUnit {p cause stripe : Nat} (hp : p < 34) (hs : stripe < 16) : PlateUnit (causeUnit p cause stripe) p := by
  refine ⟨by omega, ?_⟩
  unfold causeUnit
  split
  · have hcls : unitId 3 (p * 16 + stripe) / 2 ^ 24 = 3 := by unfold unitId; omega
    have hidx : bits (unitId 3 (p * 16 + stripe)) 0 24 / 16 = p := by unfold bits unitId; simp; omega
    exact .inr ⟨.inr (.inl hcls), by simp only [ownerUnit, hcls, hidx]⟩
  · split
    · have hcls : unitId 2 p / 2 ^ 24 = 2 := by unfold unitId; omega
      have hidx : bits (unitId 2 p) 0 24 = p := by unfold bits unitId; simp; omega
      exact .inr ⟨.inl hcls, by simp only [ownerUnit, hcls, hidx]⟩
    · exact .inl rfl

namespace ArrayKept

variable {p : Nat} {s t u : State}

theorem refl (p : Nat) (s : State) : ArrayKept p s s := ⟨rfl, rfl, rfl, rfl⟩

theorem held (h : ArrayKept p s t) : t.plateHeld p = s.plateHeld p := by rw [State.plateHeld, h.state, State.plateHeld]

theorem wr {f : RegField} {i v : Nat} (h : ArrayKept p s t) (hf : NotShare f i p) : ArrayKept p s (t.wr f v i) :=
  ⟨h.mem, (t.rd_wr_ne v hf.1).trans h.state, (t.rd_wr_ne v hf.2).trans h.base, h.arr⟩

theorem bump {f : RegField} {i n : Nat} (h : ArrayKept p s t) (hf : NotShare f i p) : ArrayKept p s (t.bump f i n) := h.wr hf

theorem setPlate {x : PlateSt} (h : ArrayKept p s t) (hx : x.arr.bare = (s.arr p).bare) : ArrayKept p s (t.setPlate p x) :=
  ⟨h.mem, h.state, h.base, by rw [State.arr, State.plate_setPlate, hx]⟩

theorem setPlate_of_arr {x : PlateSt} (h : ArrayKept p s t) (hx : x.arr = t.arr p) : ArrayKept p s (t.setPlate p x) :=
  h.setPlate (by rw [hx, h.arr])

theorem setArr {x : ArrSt} (h : ArrayKept p s t) (hx : x.bare = (s.arr p).bare) : ArrayKept p s (t.setArr p x) := h.setPlate hx

theorem setCore {c : Nat} {x : CoreSt} (h : ArrayKept p s t) : ArrayKept p s (t.setCore p c x) := ⟨h.mem, h.state, h.base, h.arr⟩

theorem proofRecord {c ops : List Byte} (h : ArrayKept p s t) : ArrayKept p s (t.proofRecord p c ops) := by
  unfold State.proofRecord
  dsimp only
  split
  · exact h
  · split
    · exact h
    · split
      · exact (h.setPlate_of_arr (by rfl)).bump (f := Reg.PRF_CNT_UNCHECKABLE) (notShare_of_prf (by decide) rfl (by decide))
      · exact h.setPlate_of_arr rfl

theorem arrErr {cause stripe : Nat} {q : Queued} (h : ArrayKept p s t) : ArrayKept p s (t.arrErr p cause stripe q) := by
  unfold State.arrErr State.arrFault
  extract_lets load v _ w
  have hv : ArrayKept p s v := (((h.wr (f := Reg.PLT_ARR_ERR_TILE) (notShare_of_plate rfl (by decide) (by decide))).wr
    (f := Reg.PLT_ARR_ERR_CAUSE) (notShare_of_plate rfl (by decide) (by decide))).wr
    (f := Reg.PLT_ARR_ERR_CORE) (notShare_of_plate rfl (by decide) (by decide))).wr
    (f := Reg.PLT_ARR_ERR_STRIPE) (notShare_of_plate rfl (by decide) (by decide))
  have hw : ArrayKept p s w := hv.setCore
  exact hw.setArr hw.arr

theorem idxErrors {n : Nat} {q : Queued} (h : ArrayKept p s t) : ArrayKept p s (t.idxErrors p n q) := by
  unfold State.idxErrors
  split
  · exact h
  · exact h.arrErr.bump (f := Reg.PLT_CNT_IDX_ERR) (notShare_of_plate rfl (by decide) (by decide))

theorem saturated {n : Nat} {j : Job} (h : ArrayKept p s t) : ArrayKept p s (t.saturated p n j) := by
  have hb : ArrayKept p s (t.bump Reg.PLT_CNT_ACC_SAT p n) := h.bump (notShare_of_plate rfl (by decide) (by decide))
  unfold State.saturated
  dsimp only
  split
  · exact hb
  · exact ⟨hb.mem, hb.state, hb.base, hb.arr⟩

theorem proofClose {tag crc : Nat} (h : ArrayKept p s t) : ArrayKept p s (t.proofClose p tag crc) := by
  unfold State.proofClose
  dsimp only
  (repeat' split)
  · exact h
  · exact h
  · exact h.setPlate_of_arr rfl

theorem tileBegin {q : Queued} {j : Job} (h : ArrayKept p s t) : ArrayKept p s (t.tileBegin p q j) := by
  unfold State.tileBegin
  extract_lets _ v y
  have hv : ArrayKept p s v := h.setArr h.arr
  split
  · exact hv.setPlate_of_arr rfl
  · split
    · exact hv
    · split
      exact hv.setPlate_of_arr rfl

/-- A detection in a unit of the plate. -/
theorem sramDetect {u cls ofs : Nat} {stored : Bool} (h : ArrayKept p s t) (hu : PlateUnit u p) (hheld : s.plateHeld p = true) :
    ArrayKept p s (t.sramDetect u cls ofs stored) := by
  obtain ⟨hregs, _, _, _, _, _, _, _, e⟩ := Detects.sramDetect hu (h.held.trans hheld) cls ofs stored
  refine ⟨?_, (hregs _ _ (by unfold PlateReg regKey; simp [Reg.PLT_STAT_STATE]; omega)).trans h.state,
    (hregs _ _ (by unfold PlateReg regKey; simp [Reg.PLT_SHARE_ABUF_BASE]; omega)).trans h.base, ?_⟩
  · rw [e]
    exact h.mem
  · rw [e]
    exact h.arr

theorem arrParity {upset : ArrUpset} {bad : Bool} {q : Queued} {ofs : Nat} (h : ArrayKept p s t) (hp : p < 34)
    (hheld : s.plateHeld p = true) : ArrayKept p s (t.arrParity p upset bad q ofs) := by
  unfold State.arrParity
  extract_lets up stripe
  split
  · exact h
  · have herr : ArrayKept p s ((t.arrErr p up.kind stripe q).bump Reg.PLT_CNT_PARITY p) :=
      h.arrErr.bump (notShare_of_plate rfl (by decide) (by decide))
    refine herr.sramDetect (plateUnit_causeUnit hp ?_) hheld
    show (if up.kind.val = 2 then t.physStripe p up.stripe else 0) < 16
    split
    · exact t.physStripe_lt p up.stripe.isLt
    · decide

end ArrayKept

end Sys2Proof.Machine
end

section
/-! SUPPORT. The commands of the array execute at the head of its queue: the array afterwards, but for what its failures, logs and record change
(R174 to R184). -/

namespace Sys2Proof.Machine

variable {s : State} {p : Fin 34} {up : ArrUpset} {q : Queued} {j : Job}

theorem State.plateHeld_of_arrayHead {p op : Nat} (h : s.arrayHead p op = some (q, j)) : s.plateHeld p = true := by
  unfold State.arrayHead at h
  split at h
  · split at h
    · next hrun =>
      obtain ⟨-, -, h2 | ⟨h3, -⟩⟩ := hrun
      · simp [State.plateHeld, h2]
      · simp [State.plateHeld, h3]
    · cases h
  · cases h

theorem State.plateHeld_setArr_of_head {p op : Nat} (h : s.arrayHead p op = some (q, j)) (x : ArrSt) :
    (s.setArr p x).plateHeld p = true := by
  have hs := State.plateHeld_of_arrayHead h
  exact hs

/-- A failure, the logs and the record that follow from a command's reads. -/
theorem ArrayKept.setArr_self {s : State} {p : Nat} {x y : ArrSt} (hxy : y.bare = x.bare) :
    ArrayKept p (s.setArr p x) (s.setArr p y) :=
  ⟨rfl, rfl, rfl, by rw [State.arr_setArr, State.arr_setArr, hxy]⟩

theorem ArrSt.bare_loadWeights {x y : ArrSt} (h : x.bare = y.bare) (l : List Byte) : (x.loadWeights l).bare = (y.loadWeights l).bare :=
  congrArg (fun z : ArrSt => { z with shadow := some l }) h

theorem ArrSt.bare_loadCurve {x y : ArrSt} (h : x.bare = y.bare) (c l : List Byte) : (x.loadCurve c l).bare = (y.loadCurve c l).bare :=
  congrArg (fun z : ArrSt => { z with curves := z.curves.set (bcSlot c) l }) h

theorem execLoadw_of_head (h : s.arrayHead p.val 1 = some (q, j)) :
    ∃ u : State, exec (.loadw p up) s = .next (u.burinDone p.val q j) ∧
      ArrayKept p.val (s.setArr p.val ((s.arr p.val).loadWeights (s.loadOps p.val q.bytes))) u := by
  change ∃ u : State, execLoadw p up s = _ ∧ _
  simp only [execLoadw, h]
  refine ⟨_, rfl, ?_⟩
  have hx : ({ ((s.arr p.val).logged q).loadWeights (s.loadOps p.val q.bytes) with lastLoad := some (unsig q) } : ArrSt).bare =
      ((s.arr p.val).loadWeights (s.loadOps p.val q.bytes)).bare :=
    ArrSt.bare_loadWeights (ArrSt.logged_bare ..) _
  exact ((ArrayKept.setArr_self hx).proofRecord).arrParity p.isLt (State.plateHeld_setArr_of_head h _)

theorem execLoadc_of_head (h : s.arrayHead p.val 4 = some (q, j)) :
    ∃ u : State, exec (.loadc p up) s = .next (u.burinDone p.val q j) ∧
      ArrayKept p.val (s.setArr p.val ((s.arr p.val).loadCurve q.bytes (s.abuf p.val (bcA q.bytes) 2064))) u := by
  change ∃ u : State, execLoadc p up s = _ ∧ _
  simp only [execLoadc, h]
  refine ⟨_, rfl, ?_⟩
  have hx := ArrSt.bare_loadCurve (ArrSt.logged_bare (s.arr p.val) q) q.bytes (s.abuf p.val (bcA q.bytes) 2064)
  exact ((ArrayKept.setArr_self hx).proofRecord).arrParity p.isLt (State.plateHeld_setArr_of_head h _)

/-- A multiplication reads the operands, the weights and the accumulators alone. -/
theorem ArrSt.multiply_bare {x y : ArrSt} (h : x.bare = y.bare) (c l : List Byte) :
    (x.multiply c l).1.bare = (y.multiply c l).1.bare :=
  calc (x.multiply c l).1.bare = (x.bare.multiply c l).1.bare := rfl
    _ = (y.bare.multiply c l).1.bare := by rw [h]
    _ = (y.multiply c l).1.bare := rfl

theorem ArrayKept.setArr_both {s t : State} {p : Nat} {x y : ArrSt} (h : ArrayKept p s t) (hxy : y.bare = x.bare) :
    ArrayKept p (s.setArr p x) (t.setArr p y) :=
  ⟨h.mem, h.state, h.base, by rw [State.arr_setArr, State.arr_setArr, hxy]⟩

theorem execMatmul_of_head (h : s.arrayHead p.val 2 = some (q, j)) (hproof : s.proofHeld p.val q j = false) (hrows : bcRows q.bytes ≠ 0) :
    ∃ u : State, exec (.matmul p up) s = .next (u.burinDone p.val q j) ∧
      ArrayKept p.val (s.setArr p.val ((s.arr p.val).multiply q.bytes (s.matOps p.val q.bytes)).1) u := by
  change ∃ u : State, execMatmul p up s = _ ∧ _
  simp only [execMatmul, h, hproof, hrows, Bool.false_eq_true, if_false]
  refine ⟨_, rfl, ?_⟩
  have hlog : ArrayKept p.val s (s.setArr p.val ((s.arr p.val).logged q)) := (ArrayKept.refl _ s).setArr (ArrSt.logged_bare ..)
  have hbegin : ArrayKept p.val s (if bcZero q.bytes && !((s.setArr p.val ((s.arr p.val).logged q)).arr p.val).inTile then
      (s.setArr p.val ((s.arr p.val).logged q)).tileBegin p.val q j else s.setArr p.val ((s.arr p.val).logged q)) := by
    split
    · exact hlog.tileBegin
    · exact hlog
  have hrec := hbegin.proofRecord (c := q.bytes) (ops := s.matOps p.val q.bytes)
  refine ((((hrec.setArr_both (ArrSt.multiply_bare hrec.arr _ _)).bump ?_).saturated).idxErrors).arrParity p.isLt
    (State.plateHeld_setArr_of_head h _)
  exact notShare_of_plate rfl (by decide) (by decide)

/-! ### DRAIN -/

/-- The same up to the contents of memory. -/
def ArrayStores (p : Nat) (s t : State) : Prop := ∃ m, ArrayKept p { s with mem := m } t

namespace ArrayStores

variable {s t : State} {p : Nat}

theorem of_kept (h : ArrayKept p s t) : ArrayStores p s t := ⟨_, h⟩

/-- What keeps all of the array keeps it up to memory. -/
theorem map {u : State} (h : ArrayStores p s t) (hf : ∀ s, ArrayKept p s t → ArrayKept p s u) : ArrayStores p s u := by
  obtain ⟨m, hm⟩ := h
  exact ⟨m, hf _ hm⟩

theorem plateStore_kept {o : Nat} {l : List Byte} (h : ArrayKept p s t) :
    ArrayKept p { s with mem := (t.store (plateAddr p o) l).mem } (t.plateStore p o l) := by
  obtain ⟨_, _, e⟩ := t.store_shape (plateAddr p o) l
  unfold State.plateStore
  rw [e]
  exact ⟨rfl, h.state, h.base, h.arr⟩

theorem plateStore {o : Nat} {l : List Byte} (h : ArrayStores p s t) : ArrayStores p s (t.plateStore p o l) := by
  obtain ⟨m, hm⟩ := h
  exact ⟨_, plateStore_kept (s := { s with mem := m }) hm⟩

theorem drainRow {c : List Byte} {vals : List Nat} {o : Nat} (h : ArrayStores p s t) : ArrayStores p s (t.drainRow p c vals o).1 := by
  unfold State.drainRow
  dsimp only
  split
  · refine List.foldlRecOn (motive := fun y : State × Nat => ArrayStores p s y.1) _ _ h fun y hy e _ => ?_
    exact plateStore hy
  · exact plateStore h

theorem drainOne {c sb : List Byte} {d : Drain} {m : Nat} (h : ArrayStores p s t) : ArrayStores p s (t.drainOne p c sb d m).1 := by
  unfold State.drainOne
  dsimp only
  split
  · exact h
  · exact drainRow (h.map fun s hs => hs.setArr hs.arr)

end ArrayStores

theorem ArrSt.inLog_bare (x : ArrSt) (f : TileLog → TileLog) : (x.inLog f).bare = x.bare := rfl

/-- What a DRAIN of head command `q` does to its rows: one after the other, after the command has been logged and recorded. -/
def State.drainRows (s : State) (p : Nat) (q : Queued) : State × Drain :=
  let c := q.bytes
  let sb := if bcRows c = 0 then [] else s.drainOps p c
  let bad := bcRows c != 0 && (!bcNosb c && s.abufBad p (bcB c) (8 * (s.arr p).accN) ||
    bcScatter c && s.abufBad p (bcIdx c) (8 * bcRows c))
  (List.range (bcRows c)).foldl (fun (y : State × Drain) m => y.1.drainOne p c sb y.2 m)
    ((s.setArr p ((s.arr p).logged q)).proofRecord p c sb, ⟨0, 0, bad⟩)

/-- What follows the rows of a DRAIN: counts, failures, and with CRC the end of the tile, whose bytes are `all`. -/
def State.drainEnd (p : Nat) (up : ArrUpset) (q : Queued) (j : Job) (all : List Byte) (y : State × Drain) : State :=
  let s := ((y.1.bump Reg.PLT_CNT_DRAINS p).saturated p y.2.sat j).idxErrors p y.2.lost q
  let s := s.arrParity p up y.2.bad q (bcB q.bytes)
  if bcCrc q.bytes then
    let s := s.proofClose p (bcTile q.bytes) (crc64 all)
    let x := s.arr p
    s.setArr p { x.inLog (fun t => { t with closed := true }) with inTile := false }
  else s

theorem execDrain_eq (h : s.arrayHead p.val 3 = some (q, j)) :
    ∃ all, exec (.drain p up) s = .next ((State.drainEnd p.val up q j all (s.drainRows p.val q)).burinDone p.val q j) := by
  change ∃ all, execDrain p up s = _
  unfold execDrain
  dsimp only
  rw [h]
  exact ⟨_, rfl⟩

/-- The end of a tile is not among what the array computes with. -/
theorem ArrayKept.closed {p : Nat} {s t : State} (h : ArrayKept p s t) (f : TileLog → TileLog) :
    ArrayKept p s (t.setArr p { (t.arr p).inLog f with inTile := false }) := h.setArr h.arr

theorem ArrayKept.drainEnd {p : Nat} {s : State} {all : List Byte} {y : State × Drain} (h : ArrayKept p s y.1) (hp : p < 34)
    (hheld : s.plateHeld p = true) : ArrayKept p s (State.drainEnd p up q j all y) := by
  unfold State.drainEnd
  extract_lets t u v x
  have ht : ArrayKept p s t := ((h.bump (f := Reg.PLT_CNT_DRAINS) (notShare_of_plate rfl (by decide) (by decide))).saturated).idxErrors
  have hu : ArrayKept p s u := ht.arrParity hp hheld
  split
  · have hv : ArrayKept p s v := hu.proofClose
    clear_value v
    exact hv.closed _
  · exact hu

theorem State.drainEnd_inTile {p : Nat} {all : List Byte} {y : State × Drain} (h : bcCrc q.bytes = true) :
    ((State.drainEnd p up q j all y).arr p).inTile = false := by
  unfold State.drainEnd
  dsimp only
  rw [if_pos h, State.arr_setArr]

theorem State.drainRows_stores (s : State) (p : Nat) (q : Queued) : ArrayStores p s (s.drainRows p q).1 := by
  unfold State.drainRows
  dsimp only
  refine List.foldlRecOn (motive := fun y : State × Drain => ArrayStores p s y.1) _ _ ?_ fun y hy m _ => hy.drainOne
  exact .of_kept (((ArrayKept.refl p s).setArr (ArrSt.logged_bare ..)).proofRecord)

theorem State.byte_store_in (s : State) (a : Nat) {l : List Byte} {i : Nat} (h : i < l.length) : (s.store a l).byte (a + i) = l[i] := by
  have hne : ¬l.isEmpty = true := by
    rintro he
    rw [List.isEmpty_iff.mp he] at h
    exact absurd h (Nat.not_lt_zero _)
  rw [State.store, if_neg hne]
  exact memGet_memWrite_in l s.mem a i h

theorem ArrSt.drained_congr {x y : ArrSt} (h : x.bare = y.bare) (c sb : List Byte) (m : Nat) : x.drained c sb m = y.drained c sb m :=
  calc x.drained c sb m = x.bare.drained c sb m := rfl
    _ = y.bare.drained c sb m := by rw [h]
    _ = y.drained c sb m := rfl

/-- One row that is neither gathered nor scattered lies converted in the array buffer. -/
theorem State.drainRows_single {s : State} {p : Nat} (hrows : bcRows q.bytes = 1) (hg : bcGather q.bytes = false)
    (hs : bcScatter q.bytes = false) :
    ∃ t : State, t.mem = s.mem ∧ ArrayKept p { s with mem := (t.store (plateAddr p (s.abufOfs p (bcA q.bytes)))
      (((s.arr p).drained q.bytes (s.drainOps p q.bytes) 0).flatMap (le (outBytes (bcOut q.bytes))))).mem } (s.drainRows p q).1 := by
  have hlog : ArrayKept p s ((s.setArr p ((s.arr p).logged q)).proofRecord p q.bytes (s.drainOps p q.bytes)) :=
    ((ArrayKept.refl p s).setArr (ArrSt.logged_bare ..)).proofRecord
  generalize hw : (s.setArr p ((s.arr p).logged q)).proofRecord p q.bytes (s.drainOps p q.bytes) = w at hlog
  have hrow : w.rowAt p q.bytes 0 ((w.arr p).accN * outBytes (bcOut q.bytes)) true = some (bcA q.bytes) := by
    simp [State.rowAt, hg, hs]
  have hofs : w.abufOfs p (bcA q.bytes) = s.abufOfs p (bcA q.bytes) := by rw [State.abufOfs, hlog.base, State.abufOfs]
  have hbytes : (w.arr p).drained q.bytes (s.drainOps p q.bytes) 0 = (s.arr p).drained q.bytes (s.drainOps p q.bytes) 0 :=
    ArrSt.drained_congr hlog.arr ..
  let f : TileLog → TileLog := fun t => { t with undo := (w.abufOfs p (bcA q.bytes), w.abuf p (bcA q.bytes)
    ((w.arr p).accN * outBytes (bcOut q.bytes)), w.abufBad p (bcA q.bytes) ((w.arr p).accN * outBytes (bcOut q.bytes))) :: t.undo }
  have hin : ArrayKept p s (w.setArr p ((w.arr p).inLog f)) := hlog.setArr hlog.arr
  refine ⟨_, hin.mem, ?_⟩
  have hstore := ArrayStores.plateStore_kept (o := s.abufOfs p (bcA q.bytes))
    (l := ((s.arr p).drained q.bytes (s.drainOps p q.bytes) 0).flatMap (le (outBytes (bcOut q.bytes)))) hin
  have hone : (s.drainRows p q).1 = (w.setArr p ((w.arr p).inLog f)).plateStore p (s.abufOfs p (bcA q.bytes))
      (((s.arr p).drained q.bytes (s.drainOps p q.bytes) 0).flatMap (le (outBytes (bcOut q.bytes)))) := by
    have hrange : List.range 1 = [0] := rfl
    simp only [State.drainRows, hrows, hrange, List.foldl_cons, List.foldl_nil, one_ne_zero, if_false, hw, State.drainOne, hrow, hbytes,
      State.drainRow, hs, Bool.false_eq_true]
    rw [← hofs]
    rfl
  rw [hone]
  exact hstore

end Sys2Proof.Machine
end

section
/-! SUPPORT AND OBLIGATION (the array commands). The ends of a DRAIN and of a handled failure (R172, R173, R180 to R184, R198, R199, R213). -/

namespace Sys2Proof.Machine

variable {s t : State} {p : Nat}

/-- A field of the array that the failures, logs and records of its commands leave, after another field was given. -/
theorem ArrayKept.field {α : Type} {x : ArrSt} (h : ArrayKept p (s.setArr p x) t) (f : ArrSt → α) (hf : ∀ y : ArrSt, f y.bare = f y) :
    f (t.arr p) = f x := by
  rw [← hf, h.arr, State.arr_setArr, hf]

theorem ArrayKept.acc (h : ArrayKept p s t) : (t.arr p).acc = (s.arr p).acc := by
  change (t.arr p).bare.acc = (s.arr p).bare.acc
  rw [h.arr]

theorem ArrSt.length_drained (x : ArrSt) (c sb : List Byte) (m : Nat) : (x.drained c sb m).length = x.accN := by
  simp [ArrSt.drained]

theorem length_flatMap_le (n : Nat) (l : List Nat) : (l.flatMap (le n)).length = l.length * n := by
  induction l with
  | nil => simp
  | cons a l ih => simp [ih, length_le, Nat.succ_mul, Nat.add_comm]

/-- A DRAIN leaves the accumulators, and with CRC ends its tile. -/
theorem execDrain_of_head {s : State} {p : Fin 34} {up : ArrUpset} {q : Queued} {j : Job} (h : s.arrayHead p.val 3 = some (q, j)) :
    ∃ u : State, exec (.drain p up) s = .next (u.burinDone p.val q j) ∧ (u.arr p.val).acc = (s.arr p.val).acc ∧
      (bcCrc q.bytes = true → (u.arr p.val).inTile = false) := by
  obtain ⟨all, he⟩ := execDrain_eq (up := up) h
  obtain ⟨m, hm⟩ := s.drainRows_stores p.val q
  have hend := hm.drainEnd (up := up) (q := q) (j := j) (all := all) p.isLt (State.plateHeld_of_arrayHead h)
  exact ⟨_, he, hend.acc, State.drainEnd_inTile⟩

/-- One row that is neither gathered nor scattered lies converted in the array buffer, where nothing after it stores. -/
theorem execDrain_of_single {s : State} {p : Fin 34} {up : ArrUpset} {q : Queued} {j : Job} (h : s.arrayHead p.val 3 = some (q, j))
    (hrows : bcRows q.bytes = 1) (hgather : bcGather q.bytes = false) (hscatter : bcScatter q.bytes = false) :
    ∃ u : State, exec (.drain p up) s = .next (u.burinDone p.val q j) ∧ (u.arr p.val).acc = (s.arr p.val).acc ∧
      (bcCrc q.bytes = true → (u.arr p.val).inTile = false) ∧
      ∀ i, i < (s.arr p.val).accN * outBytes (bcOut q.bytes) →
        u.byte (plateAddr p.val (s.abufOfs p.val (bcA q.bytes)) + i) =
          (((s.arr p.val).drained q.bytes (s.drainOps p.val q.bytes) 0).flatMap (le (outBytes (bcOut q.bytes)))).getD i 0 := by
  obtain ⟨all, he⟩ := execDrain_eq (up := up) h
  obtain ⟨t, -, ht⟩ := State.drainRows_single (s := s) (p := p.val) hrows hgather hscatter
  generalize hl : ((s.arr p.val).drained q.bytes (s.drainOps p.val q.bytes) 0).flatMap (le (outBytes (bcOut q.bytes))) = l at ht ⊢
  have hlen : l.length = (s.arr p.val).accN * outBytes (bcOut q.bytes) := by
    rw [← hl, length_flatMap_le, ArrSt.length_drained]
  have hend := ht.drainEnd (up := up) (q := q) (j := j) (all := all) p.isLt (State.plateHeld_of_arrayHead h)
  refine ⟨_, he, hend.acc, State.drainEnd_inTile, fun i hi => ?_⟩
  have hil : i < l.length := hlen ▸ hi
  rw [List.getD_eq_getElem _ _ hil, ← State.byte_store_in t (plateAddr p.val (s.abufOfs p.val (bcA q.bytes))) hil, State.byte, hend.mem,
    State.byte]

/-- A command without an error enters the queue, and the core's register takes the number queued (R172, R173, R218). -/
theorem execXnBurin_of_valid {s u : State} {p : Fin 34} {c : Fin 64} {rd rs1 : Fin 32} {o : Nat}
    (hissue : s.issue p.val c.val 4 (fun h => h == .burin) = (u, true))
    (hown : u.ownLm p.val c.val ((u.core p.val c.val).xr rs1) 32 32 = some o)
    (hvalid : burinError (u.plateRead p.val (u.lmOfs p.val c.val o) 32) (u.plate p.val).arr (u.abufLimit p.val) = 0)
    (hroom : (u.plate p.val).arr.entries < 32) :
    ∃ (v : State) (x : ArrSt), x = { burinTail (u.plateRead p.val (u.lmOfs p.val c.val o) 32) (u.plate p.val).arr with
        queue := (u.plate p.val).arr.queue ++ [⟨u.plateRead p.val (u.lmOfs p.val c.val o) 32, c.val⟩] } ∧
      v = (u.setPlate p.val { u.plate p.val with arr := x }).showPlate p.val ∧
      exec (.xnBurin p c rd rs1) s = .next (v.retire p.val c.val { (u.core p.val c.val).setX rd x.entries with
        lastTile := bcTile (u.plateRead p.val (u.lmOfs p.val c.val o) 32) } 4) := by
  refine ⟨_, _, rfl, rfl, ?_⟩
  change execXnBurin p c rd rs1 s = _
  unfold execXnBurin
  dsimp only
  rw [hissue]
  dsimp only
  rw [hown]
  dsimp only
  rw [if_neg (Nat.not_le.mpr hroom), if_neg (not_not.mpr hvalid)]

/-! ### TILE_RECOMPUTE -/

/-- What the runtime does on core `c` when it handles interrupt 16. -/
def State.faultTaken (s : State) (p c : Nat) : State :=
  let k := s.core p c
  if !bit k.irq 16 then s
  else
    let s := if k.machine then s else s.enterM p c (2 ^ 63 + 16) 0
    (s.setCore p c { s.core p c with irq := putBit (s.core p c).irq 16 false }).leaveM p c

theorem State.faultsTaken_eq (s : State) (p : Nat) : s.faultsTaken p = (List.range 64).foldl (fun s c => s.faultTaken p c) s := rfl

theorem bit_putBit_false (v i : Nat) : bit (putBit v i false) i = false := by
  have hmod : (v / 2 ^ i - v / 2 ^ i % 2) % 2 = 0 := by omega
  simp [bit, putBit, putBits, bits, Nat.shiftLeft_eq, Nat.shiftRight_eq_div_pow, Nat.testBit_eq_decide_div_mod_eq, Nat.mul_comm _ (2 ^ i), Nat.sub_mul_div, hmod]

theorem Evolves.faultTaken {calm : Prop} {s x : State} {p c : Nat} (h : Evolves calm s x) : Evolves calm s (x.faultTaken p c) := by
  unfold State.faultTaken
  extract_lets k t
  refine h.ite ?_
  have ht : Evolves calm s t := h.ite h.enterM
  exact (ht.setCore fun _ hk => absurd hk (by simp [bit_putBit_false])).leaveM

theorem State.not_failurePending_faultTaken (s : State) (p c : Nat) : ¬(s.faultTaken p c).failurePending (coreKey p c) := by
  unfold State.faultTaken
  extract_lets k t
  split
  · next hbit => simpa [State.failurePending_iff] using hbit
  · refine fun hk => ?_
    have hbefore := (Evolves.refl (calm := True) _).leaveM.quiet trivial _ hk
    simp [State.failurePending, bit_putBit_false] at hbefore

/-- The runtime has handled interrupt 16 on every core of the plate (R213). -/
theorem State.not_failurePending_faultsTaken (s : State) (p : Nat) {c : Nat} (hc : c < 64) :
    ¬(s.faultsTaken p).failurePending (coreKey p c) := by
  rw [State.faultsTaken_eq]
  generalize 64 = n at hc ⊢
  induction n with
  | zero => exact absurd hc (Nat.not_lt_zero _)
  | succ n ih =>
    rw [List.range_succ, List.foldl_append, List.foldl_cons, List.foldl_nil]
    rcases Nat.lt_succ_iff_lt_or_eq.mp hc with hlt | rfl
    · exact fun hk => ih hlt ((Evolves.refl (calm := True) _).faultTaken.quiet trivial _ hk)
    · exact not_failurePending_faultTaken _ _ _

theorem State.tileLost_launches (s : State) (p : Nat) (j : Job) (l : Launch) (x : ArrFail) :
    ∃ bad : Launch, (s.tileLost p j l x).launches = s.launches.set j.id bad ∧ bad.dataErr.isSome = true := by
  unfold State.tileLost
  extract_lets bad t
  refine ⟨bad, ?_, rfl⟩
  split
  · rfl
  · split
    · next i pa _ =>
      obtain ⟨_, _, _, _, e⟩ := t.raise_shape 0x0904 0 (le 1 i ++ zeros 7 ++ le 8 pa)
      rw [State.weightLost, e]
    · rfl

/-- A handled failure ends with none waiting and none newly pending, and marks the launch where a tile has failed for the third time. -/
theorem execTileRecompute_of_pending {s : State} {p : Fin 34} {j : Job} {l : Launch} (hrun : s.runningOn p.val = some (j, l))
    (hirq : ∃ c, c < 64 ∧ bit (s.core p.val c).irq 16 = true) :
    ∃ t, exec (.tileRecompute p) s = .next t ∧ Evolves True (s.faultsTaken p.val) t ∧ (t.arr p.val).fails = [] ∧
      ((∃ f ∈ (s.arr p.val).fails, ∃ x ∈ (s.arr p.val).tiles, some x.id = f.log ∧ 2 ≤ x.tries) →
        ∃ l' : Launch, t.launches.find j.id = some l' ∧ l'.dataErr.isSome = true) := by
  change ∃ t, execTileRecompute p s = _ ∧ _
  have hany : (List.range 64).any (fun c => bit (s.core p.val c).irq 16) = true :=
    List.any_eq_true.mpr (hirq.imp fun c hc => ⟨List.mem_range.mpr hc.1, hc.2⟩)
  unfold execTileRecompute
  dsimp only
  rw [hrun]
  dsimp only
  rw [if_pos hany]
  have h : Evolves True (s.faultsTaken p.val) (s.faultsTaken p.val) := .refl _
  generalize s.faultsTaken p.val = u at h ⊢
  split
  · next f _ =>
    refine ⟨_, rfl, h.tileLost.setArr, by rw [State.arr_setArr], fun _ => ?_⟩
    obtain ⟨bad, he, hbad⟩ := u.tileLost_launches p.val j l f
    refine ⟨bad, ?_, hbad⟩
    change (u.tileLost p.val j l f).launches.find j.id = _
    rw [he, Tbl.find_set_self]
  · next hnone =>
    have hspent : ¬∃ f ∈ (s.arr p.val).fails, ∃ x ∈ (s.arr p.val).tiles, some x.id = f.log ∧ 2 ≤ x.tries := by
      rintro ⟨f, hf, x, hx, hid, htries⟩
      have := List.find?_eq_none.mp hnone f hf
      simp only [List.any_eq_true, not_exists, not_and] at this
      exact this x hx (by simp [hid, htries])
    split
    · exact ⟨_, rfl, h.setArr, by rw [State.arr_setArr], fun hex => absurd hex hspent⟩
    · refine ⟨_, rfl, (h.foldl fun _ _ h2 => h2.refetch).repeatFrom.setArr.upd.addFlag.bump, ?_, fun hex => absurd hex hspent⟩
      generalize State.repeatFrom _ _ _ = v
      change ((v.setArr p.val { v.arr p.val with fails := [] }).arr p.val).fails = []
      rw [State.arr_setArr]

/-- Settles O10: the loads and the multiplication change what the array computes with as written, and what their failures, logs and record
add leaves that alone; the end of a handled failure leaves none pending. -/
theorem arrayCommandsComplete : Obligations.ArrayCommandsComplete := by
  unfold Obligations.ArrayCommandsComplete
  refine ⟨fun s p up q j h => ?_, fun s p up q j h hproof hrows => ?_, fun s p up q j h hrows hgather hscatter _ => ?_,
    fun s p up q j h => execDrain_of_head h, fun s p up q j h => ?_, fun s p q j h => ?_,
    fun s u p c rd rs1 o hissue hown hvalid hroom => execXnBurin_of_valid hissue hown hvalid hroom, fun s p j l hrun hirq => ?_⟩
  · obtain ⟨u, he, hu⟩ := execLoadw_of_head (up := up) h
    exact ⟨u, he, hu.field (·.shadow) fun _ => rfl, hu.field (·.active) fun _ => rfl, hu.field (·.acc) fun _ => rfl, hu.mem⟩
  · obtain ⟨u, he, hu⟩ := execMatmul_of_head (up := up) h hproof hrows
    exact ⟨u, he, hu.field (·.active) fun _ => rfl, hu.field (·.shadow) fun _ => rfl, hu.field (·.accType) fun _ => rfl,
      hu.field (·.accExp) fun _ => rfl, hu.field (·.accN) fun _ => rfl, hu.field (·.acc) fun _ => rfl, hu.mem⟩
  · exact execDrain_of_single h hrows hgather hscatter
  · obtain ⟨u, he, hu⟩ := execLoadc_of_head (up := up) h
    exact ⟨u, he, hu.field (·.curves) fun _ => rfl, hu.field (·.acc) fun _ => rfl, hu.mem⟩
  · change execBurinNop p s = _
    rw [execBurinNop, h]
  · obtain ⟨t, he, hev, hfails, hlost⟩ := execTileRecompute_of_pending hrun hirq
    refine ⟨t, he, fun c hc => ?_, hfails, hlost⟩
    have hnot : ¬t.failurePending (coreKey p.val c) := fun hk => s.not_failurePending_faultsTaken p.val hc (hev.quiet trivial _ hk)
    simpa [State.failurePending_iff] using hnot

end Sys2Proof.Machine
end
